-- ==== Sys2Proof/Word.lean ====
section
/-! DEFINITION. The word types of the part: bytes, 32-bit registers (R4, R9) and the byte orders of R5. -/

namespace Sys2Proof

/-- One byte. -/
abbrev Byte := BitVec 8

/-- One 32-bit register or binary32 value (R9, R60). -/
abbrev Word := BitVec 32

/-- Bits `[msb:lsb]` of a register, right-aligned (R4). -/
def Word.bits (w : Word) (msb lsb : Nat) : Nat := (w.toNat / 2 ^ lsb) % 2 ^ (msb + 1 - lsb)

/-- Bit `b` of a register (R4). -/
def Word.bit (w : Word) (b : Nat) : Bool := w.toNat / 2 ^ b % 2 = 1

/-- The word with bits `[msb:lsb]` replaced by the low bits of `v` (R4). -/
def Word.put (w : Word) (msb lsb v : Nat) : Word :=
  BitVec.ofNat 32 (w.toNat - Word.bits w msb lsb * 2 ^ lsb + v % 2 ^ (msb + 1 - lsb) * 2 ^ lsb)

/-- The word with bit `b` set. -/
def Word.setBit (w : Word) (b : Nat) : Word := w ||| BitVec.ofNat 32 (2 ^ b)

/-- The word with the bits of `m` cleared (W1C, R11). -/
def Word.clear (w m : Word) : Word := w &&& ~~~ m

/-- A little-endian number of the bytes (R5). -/
def leNat : List Byte → Nat
  | [] => 0
  | b :: bs => b.toNat + 256 * leNat bs

/-- `n` bytes of `v`, little-endian (R5). -/
def leBytes : Nat → Nat → List Byte
  | 0, _ => []
  | n + 1, v => BitVec.ofNat 8 v :: leBytes n (v / 256)

/-- A big-endian number of the bytes. -/
def beNat (bs : List Byte) : Nat := leNat bs.reverse

/-- `n` bytes of `v`, big-endian. -/
def beBytes (n v : Nat) : List Byte := (leBytes n v).reverse

/-- Two's complement of an `n`-bit field (R4). -/
def signed (n v : Nat) : Int := if v % 2 ^ n < 2 ^ (n - 1) then (v % 2 ^ n : Nat) else (v % 2 ^ n : Nat) - (2 ^ n : Nat)

/-- The `n`-bit two's-complement field of an integer (R4). -/
def unsigned (n : Nat) (v : Int) : Nat := (v % (2 ^ n : Nat)).toNat

/-- `n` bytes of a signed value, little-endian (R4, R5). -/
def leInt (n : Nat) (v : Int) : List Byte := leBytes n (unsigned (8 * n) v)

/-- Bytes `[at, at + n)` of a record, little-endian; bytes past its end read as zero. -/
def field (bs : List Byte) (off n : Nat) : Nat := leNat ((bs.drop off).take n)

end Sys2Proof
end

