-- ==== Sys2Proof/Syntax.lean ====
section
/-! DEFINITION. The commands of the part: one constructor of `Instr` per row of the opcode table, with the row's operands. -/

namespace Sys2Proof

/-- A host command as its owner accepts it (R313, R52): the operation token of the completion serialiser (R360), the
48 payload bytes of the submission entry, and the host blocks that the payload names, in payload order, as the host
DMA read them (`none`: the block cannot be read, R54). -/
structure Desc where
  tok : Nat
  payload : List Byte
  blocks : List (Option (List Byte))
  deriving DecidableEq, Repr

/-- A master of the bus matrix, as far as a register access depends on it (R380, R350, R512). -/
inductive Master where
  | host
  | core (n : Nat)
  | service
  deriving DecidableEq, Repr

/-- How a target answered a register-window access (R335, R385); `damaged`: the line was read with these symbols in error (R8, R408,
R471). -/
inductive Answer where
  | ok
  | damaged (symbols : List (Nat × Byte))
  | ue
  | silent
  deriving DecidableEq, Repr

/-- A matrix transaction (R385, R387): master and target numbered in the row and column order of R380. -/
structure Txn where
  master : Nat
  target : Nat
  write : Bool
  id : Nat
  addr : Nat
  deriving DecidableEq, Repr

/-- What the error decoder reports of a line that is read (R8, R408). -/
inductive Line where
  | good
  | corrected (symbols : Nat)
  | uncorrectable
  deriving DecidableEq, Repr

/-- A line of DRAM that is read with errors (R8, R391, R408): its data line, and the symbols that differ from the stored codeword, 0 to 63
data bytes and 64 to 71 check bytes, with the difference. -/
structure LineErr where
  line : Nat
  symbols : List (Nat × Byte)
  deriving DecidableEq, Repr

/-- What a tail chain meets in its reads (R145, R180, R397): lines read with errors, frame tranches (by place in the frame) and partitions
whose data are not there when they are needed, and whether data are still missing 2,048 cycles before. -/
structure ChainObs where
  errs : List LineErr := []
  lateFrame : List Nat := []
  latePart : List Nat := []
  panic : Bool := false
  deriving DecidableEq, Repr

/-- A slip of a queue that carries audio between D_CORE and a port or link (R26): samples were discarded (`overrun`) or missing; `at_` are
their places among the samples of the packet, or of the caravan (record * 16 + sample). -/
structure QSlip where
  overrun : Bool
  at_ : List Nat
  deriving DecidableEq, Repr

/-- A line of an on-die array in which an error was corrected (R8, R471): array code, line, symbols. -/
structure CorrectedLine where
  array : Nat
  line : Nat
  symbols : Nat
  deriving DecidableEq, Repr

/-- A line of a core's ITCM, or DTCM, that it found uncorrectable (R340, R368): core, which memory, byte address within it. -/
structure TcmErr where
  core : Nat
  dtcm : Bool
  addr : Nat
  deriving DecidableEq, Repr

/-- What host software writes to the configuration space beside Bus Master Enable (R306, R330): MSI-X Enable, the function mask, vectors whose
mask bits it sets, maximum payload and read request sizes in bytes, and ASPM L1. -/
structure PciCfg where
  msixEn : Bool
  funcMask : Bool
  masked : List Nat
  mps : Nat
  mrrs : Nat
  l1En : Bool
  deriving DecidableEq, Repr

/-- What the part reports over a period beside its commands: corrected lines of on-die arrays (R471), lines of DRAM that the refills of the
write phase to come read with errors (R121, R408), and slips of the queues into D_MON
by monitor output (R427), lines of TCMs that a core found uncorrectable (R340), and uncorrectable lines of other on-die arrays, as (array, line)
(R441, R471). -/
structure PeriodObs where
  corrected : List CorrectedLine := []
  refill : List LineErr := []
  monSlips : List Nat := []
  tcm : List TcmErr := []
  lost : List (Nat × Nat) := []
  deriving DecidableEq, Repr

/-- A violation that the schedule guard sees (R199, R205). -/
structure GuardViol where
  cls : Nat
  unit : Nat
  cycle : Nat
  deriving DecidableEq, Repr

/-- Differences between the audit lane and the audited furrow in one slot: the first sample position and the number of
mismatched pair-samples (R119, R120). -/
structure AuditObs where
  j : Nat
  count : Nat
  deriving DecidableEq, Repr

/-- The items of a geometry unit (R62, R168). -/
inductive GeomItem where
  | pre (object : Nat)
  | dir (object k : Nat)
  | mrg (object : Nat)
  | slt (object slot : Nat)
  deriving DecidableEq, Repr

/-- An output's own correction primitives, or those of a crossfade lane (R179). -/
inductive CorrUnit where
  | out (o : Nat)
  | lane (x : Nat)
  deriving DecidableEq, Repr

/-- A frame received on a media port: its bytes from the destination address to the payload's end (FCS checked and
taken off), the PCS and FCS outcomes, the raw receive stamp of device time in 2^-16 ns, the core cycle of the period in which it ends at
the pins, the FEC codewords corrected in it, and a slip of the queue into D_CORE (R26, R274, R279, R290, R291, R301). -/
structure RxFrame where
  bytes : List Byte
  pcsErr : Bool
  fcsErr : Bool
  stamp : Nat
  cycle : Nat := 0
  corrected : Nat := 0
  slip : Option QSlip := none
  deriving DecidableEq, Repr

/-- A Sync with its corrected stamps, in nanoseconds, and the identity of the grandmaster that its sender follows (R293). -/
structure SyncMsg where
  t1 : Int
  t2 : Int
  master : Nat
  portB : Bool
  deriving DecidableEq, Repr

/-- An Announce message's data set: the fields by which IEEE 1588 compares masters, already in comparison order (R289). -/
structure AnnounceMsg where
  identity : Nat
  priority1 : Nat
  clockClass : Nat
  accuracy : Nat
  variance : Nat
  priority2 : Nat
  stepsRemoved : Nat
  portB : Bool
  deriving DecidableEq, Repr

/-- A byte lane's training (R405, R410): chosen read and write delays in taps of 1/64 UI, widest passing windows of steps 3 and 4 in
femtoseconds. -/
structure LaneEye where
  rdDly : Nat
  wrDly : Nat
  rdEye : Nat
  wrEye : Nat
  deriving DecidableEq, Repr

/-- What DRAM training or retraining found (R390, R405, R407): density in Gb and width of each channel, the lanes trained, and where a step
failed in itself: channel, byte lane or 0xFF, step. -/
structure TrainResult where
  fit : List (Nat × Nat)
  lanes : List LaneEye
  failed : Option (Nat × Nat × Nat) := none
  deriving DecidableEq, Repr

/-- Data that the tail port reads from DRAM: a group of tail output tranches, or the last data of a chain that was late (R397, R144); an
output, or 1,024 + lane. -/
inductive TailRead where
  | output (o group : Nat) (errs : List LineErr)
  | chain (src : Nat)
  deriving DecidableEq, Repr

/-- What the JTAG port does (R509): reset of the TAP, an instruction without effect on the device, or EXTEST driving the
covered open-drain pin DPX_OWN_N. -/
inductive TapOp where
  | reset
  | bypass
  | idcode
  | sample
  | extest (ownLow : Bool)
  deriving DecidableEq, Repr

/-- The commands, one per row of the opcode table. `be` are the byte enables of a register read (R9). -/
inductive Instr where
  /-- HIF_NOP (R321): Generic no-operation descriptor; completes OK with the low 32 bits of the tranche index. -/
  | hifNop (d : Desc)
  /-- HIF_ABORT (R324): Descriptor that aborts one operation, one submission ring or all operations in flight. -/
  | hifAbort (d : Desc)
  /-- HIF_SQ_DISABLE (R327): Descriptor that disables another submission ring, flushing its queued operations and draining started ones. -/
  | hifSqDisable (d : Desc)
  /-- HIF_STATUS (R321): Descriptor that writes the 128-byte host-interface status record to host memory. -/
  | hifStatus (d : Desc)
  /-- HIF_IDENTIFY (R321): Descriptor that writes the device identity, address, revision and firmware versions to host memory. -/
  | hifIdentify (d : Desc)
  /-- SCH_LOAD (R187): Copies a schedule image into the shadow store, or checks it in place, and runs the load checks in order. -/
  | schLoad (d : Desc)
  /-- SCH_LOAD_DONE (R187): The load checks end, and the shadow image becomes valid or the failed check is recorded. -/
  | schLoadDone
  /-- SCH_START (R191): Arms a start of rendering at tranche N from STOPPED, after testing the shadow against the state at N. -/
  | schStart (d : Desc)
  /-- SCH_SWAP (R194): Arms a swap to the shadow image at tranche N while running, after the compatibility checks. -/
  | schSwap (d : Desc)
  /-- SCH_CANCEL (R193): Withdraws an armed start, swap, stop or restart before its deadline. -/
  | schCancel (d : Desc)
  /-- SCH_STOP (R192): Arms a stop that renders data tranche N as the last one. -/
  | schStop (d : Desc)
  /-- SCH_RESTART (R201): Arms leaving GUARDED at N, from the verified active image or from the shadow. -/
  | schRestart (d : Desc)
  /-- SCH_STATUS (R204): Writes the 64-byte schedule status record, optionally clearing its counters. -/
  | schStatus (d : Desc)
  /-- SCH_INFO (R204): Writes the header and the first directory entries of the active or shadow store. -/
  | schInfo (d : Desc)
  /-- OBJ_MAP (R33): Maps a range of object channels to a source keyed to a tranche. -/
  | objMap (d : Desc)
  /-- OBJ_COND (R52): Sets an object's trim, conditioning biquads and prefilter enable keyed to a tranche. -/
  | objCond (d : Desc)
  /-- OBJ_SEGMENT (R44): Submits one trajectory segment for acceptance into the object table. -/
  | objSegment (d : Desc)
  /-- OBJ_SEG_BATCH (R53): Submits an array of segments, each accepted in array order. -/
  | objSegBatch (d : Desc)
  /-- OBJ_CTL (R52): Sets ENABLE and coasting, and optionally clears segments, for a range of objects keyed to a tranche. -/
  | objCtl (d : Desc)
  /-- OBJ_ALIGN_SET (R35): Defines or dissolves an aligned stream set of media receive streams. -/
  | objAlignSet (d : Desc)
  /-- OBJ_STATUS (R55): Writes per-object status records, optionally clearing the counters. -/
  | objStatus (d : Desc)
  /-- OBJ_PREFILTER (R52): Loads the common prefilter sections keyed to a tranche. -/
  | objPrefilter (d : Desc)
  /-- OBJ_COARSE (R121): Changes an object's coarse delay, starting a coarse transition while an image governs. -/
  | objCoarse (d : Desc)
  /-- OBJ_KERNEL (R115): Selects the interpolation kernel of a range of objects keyed to a tranche. -/
  | objKernel (d : Desc)
  /-- PAIR_KTBL (R124): Loads or synchronises the inactive sinc bank and optionally arms a bank switch at N. -/
  | pairKtbl (d : Desc)
  /-- PAIR_STATUS (R126): Writes per-object or per-output pair-engine status records. -/
  | pairStatus (d : Desc)
  /-- GEO_SPK_LOAD (R66): Loads speaker records into the inactive speaker bank. -/
  | geoSpkLoad (d : Desc)
  /-- GEO_ZONE_LOAD (R67): Loads zone records into the inactive zone bank. -/
  | geoZoneLoad (d : Desc)
  /-- GEO_TRI_LOAD (R69): Loads triangle records into the inactive Pan layout bank. -/
  | geoTriLoad (d : Desc)
  /-- GEO_CUBE_LOAD (R70): Loads the cube map and candidate list into the inactive Pan layout bank. -/
  | geoCubeLoad (d : Desc)
  /-- GEO_AIR_LOAD (R68): Loads the air table into its inactive bank. -/
  | geoAirLoad (d : Desc)
  /-- GEO_BANK_SWITCH (R72): Arms an exchange of the banks of the named venue tables at tranche N. -/
  | geoBankSwitch (d : Desc)
  /-- GEO_BANK_SYNC (R72): Copies the active bank of the named venue tables into the inactive bank. -/
  | geoBankSync (d : Desc)
  /-- GEO_OBJ_LAW (R73): Sets the law records of a range of objects keyed to a tranche. -/
  | geoObjLaw (d : Desc)
  /-- GEO_GLOBAL (R64): Sets temperature, pan centre and tolerance keyed to a tranche. -/
  | geoGlobal (d : Desc)
  /-- GEO_STATUS (R91): Writes per-object geometry status records. -/
  | geoStatus (d : Desc)
  /-- GEO_PAIR_READ (R90): Writes the pair value records of one object from the last completed pass. -/
  | geoPairRead (d : Desc)
  /-- CORR_STAGE (R147): Loads a correction coefficient set into a staging slot and transforms its tail partitions. -/
  | corrStage (d : Desc)
  /-- CORR_STAGE_DONE (R147): The last partition of a staging load is stored and the descriptor completes. -/
  | corrStageDone (slot : Nat)
  /-- CORR_SWITCH (R148): Arms a crossfade of an output's active set to a staged set beginning on tranche N. -/
  | corrSwitch (d : Desc)
  /-- CORR_SET_READ (R159): Writes an output's active set or a staging slot's set to host memory. -/
  | corrSetRead (d : Desc) (errs : List LineErr)
  /-- SLUICE_SET (R154): Sets the sluice gain target and mute of a range of outputs keyed to a tranche. -/
  | sluiceSet (d : Desc)
  /-- METER_CFG (R157): Sets the meter window length and the 16 meter groups keyed to a tranche. -/
  | meterCfg (d : Desc)
  /-- METER_READ (R160): Writes latched meter records per output or per group. -/
  | meterRead (d : Desc)
  /-- CORR_STATUS (R161): Writes per-output correction status records. -/
  | corrStatus (d : Desc)
  /-- CORR_CLEAR_STATE (R159): Zeroes the biquad state, history and tail rings of outputs from tranche N. -/
  | corrClearState (d : Desc)
  /-- FAB_LINK_CTL (R208): Enables or disables Bruon links and sets their FEC limit. -/
  | fabLinkCtl (d : Desc)
  /-- FAB_IDENT (R218): Sets the device's fabric address and its valid bit. -/
  | fabIdent (d : Desc)
  /-- FAB_WB_LOAD (R225): Loads waybill entries into the bank that is not current. -/
  | fabWbLoad (d : Desc)
  /-- FAB_GRP_LOAD (R225): Loads group masks and optionally the broadcast mask into the bank that is not current. -/
  | fabGrpLoad (d : Desc)
  /-- FAB_EPOCH_SWITCH (R224): Arms a switch of the current route epoch at tranche N. -/
  | fabEpochSwitch (d : Desc)
  /-- FAB_BANK_SYNC (R225): Copies the current route bank into the other bank. -/
  | fabBankSync (d : Desc)
  /-- FAB_DISC (R234): Launches one discovery request and awaits its reply. -/
  | fabDisc (d : Desc)
  /-- FAB_MGMT_SEND (R235): Launches one management caravan. -/
  | fabMgmtSend (d : Desc)
  /-- FAB_STATUS (R239): Writes link, import-entry or OBJ-stream fabric status records. -/
  | fabStatus (d : Desc)
  /-- FAB_REMOTE (R239): Sends a submission entry to a remote device and awaits its remote completion. -/
  | fabRemote (d : Desc)
  /-- CLK_RATE (R244): Sets the media rate and the tranche-index origin while stopped. -/
  | clkRate (d : Desc)
  /-- CLK_REF_CFG (R264): Configures and enables or disables one reference. -/
  | clkRefCfg (d : Desc)
  /-- CLK_SEL_CFG (R264): Sets the selection order, revertive mode, bleed, wait-to-restore and map limit. -/
  | clkSelCfg (d : Desc)
  /-- CLK_SELECT (R255): Forces a switch to a reference, enters forced holdover, or resumes automatic selection. -/
  | clkSelect (d : Desc)
  /-- CLK_STATUS (R266): Writes the selector header and reference records. -/
  | clkStatus (d : Desc)
  /-- PTP_CFG (R289): Configures and enables or disables PTP, arming a step when enabled. -/
  | ptpCfg (d : Desc)
  /-- PTP_STEP_ARM (R294): PTP_CTL bit that arms a step of device time at the next accepted offset. -/
  | ptpStepArm (d : Desc)
  /-- PTP_CLEAR_GM_CHANGE (R296): PTP_CTL bit that clears the grandmaster-change flag. -/
  | ptpClearGmChange (d : Desc)
  /-- PTP_STATUS (R301): Writes the 64-byte time-unit status record. -/
  | ptpStatus (d : Desc)
  /-- TIME_TRIG (R297): Arms, replaces or disarms a trigger pin action, measurement sweep or capture start. -/
  | timeTrig (d : Desc)
  /-- TIME_CAP_CFG (R298): Enables TCAP pins and their capture edges. -/
  | timeCapCfg (d : Desc)
  /-- TIME_CAP_READ (R299): Pops up to 64 capture entries to host memory. -/
  | timeCapRead (d : Desc)
  /-- MP_PORT_CFG (R299): Configures one media port's speed, FEC, addresses, VLAN and flags. -/
  | mpPortCfg (d : Desc)
  /-- MP_RX_STREAM (R525): Configures a receive stream and restarts its receive state. -/
  | mpRxStream (d : Desc)
  /-- MP_RX_MAP (R277): Sets the RTP mapping of a stream or aligned set keyed to a tranche. -/
  | mpRxMap (d : Desc)
  /-- MP_TX_STREAM (R282): Sets the addressing of a transmit stream defined by the image. -/
  | mpTxStream (d : Desc)
  /-- MP_STATUS (R301): Writes port, receive-stream or transmit-stream status records. -/
  | mpStatus (d : Desc)
  /-- SAP_CFG (R412): Configures a serial audio port's format, clocking, rate, group and output sources. -/
  | sapCfg (d : Desc)
  /-- MIX_BUS (R424): Configures a monitor bus's inputs, gains, sections, interpolator and auto scale. -/
  | mixBus (d : Desc)
  /-- MIX_INPUT (R424): Sets the mute and gain target of one monitor bus input. -/
  | mixInput (d : Desc)
  /-- MON_TAPS (R422): Sets the 64 render taps available to the monitor buses. -/
  | monTaps (d : Desc)
  /-- SIDETONE (R426): Sets a monitor output's side-tone source and gain. -/
  | sidetone (d : Desc)
  /-- CAP_CFG (R432): Selects the capture response, shifts and channel sources. -/
  | capCfg (d : Desc)
  /-- CAP_COEF (R432): Loads user capture filter coefficients. -/
  | capCoef (d : Desc)
  /-- CAP_DEST (R434): Sets the capture buffer, space, length, mode and progress address. -/
  | capDest (d : Desc)
  /-- CAP_START (R433): Arms a capture start at tranche N. -/
  | capStart (d : Desc)
  /-- CAP_STOP (R433): Stops capture at once, resetting the capture writer. -/
  | capStop (d : Desc)
  /-- STIM_LOAD (R421): Loads samples into the stimulus store. -/
  | stimLoad (d : Desc)
  /-- STIM_START (R421): Arms stimulus play from tranche N, optionally repeating. -/
  | stimStart (d : Desc)
  /-- STIM_STOP (R421): STIM_START flag that ends stimulus play at once. -/
  | stimStop (d : Desc)
  /-- LAU_STATUS (R436): Writes the local-audio status record. -/
  | lauStatus (d : Desc)
  /-- DPX_CFG (R449): Sets duplex enable, take-back, heartbeat fault, skew limit, pair address and AGREE_N. -/
  | dpxCfg (d : Desc)
  /-- DPX_SWITCH (R447): Arms a commanded release of the driving device at tranche N. -/
  | dpxSwitch (d : Desc)
  /-- DPX_ARM (R454): Sets or clears the interlock ARM bit. -/
  | dpxArm (d : Desc)
  /-- DPX_STATUS (R454): Writes the duplex status record. -/
  | dpxStatus (d : Desc)
  /-- LGR_READ (R475): Writes ledger slots as stored to host memory. -/
  | lgrRead (d : Desc)
  /-- LGR_INFO (R475): Writes the ledger summary record. -/
  | lgrInfo (d : Desc)
  /-- LGR_ANNOTATE (R466): Appends a host annotation record to the ledger. -/
  | lgrAnnotate (d : Desc)
  /-- LGR_NONCE (R467): Returns the current clear nonce. -/
  | lgrNonce (d : Desc)
  /-- LGR_CLEAR (R468): Verifies a clear token and, if good, empties the ledger. -/
  | lgrClear (d : Desc)
  /-- LGR_CLEAR_DONE (R468): The erasure of a ledger clear ends and the clear completes. -/
  | lgrClearDone
  /-- STW_FW_LOAD (R344): Stages and verifies a user firmware image in control SRAM. -/
  | stwFwLoad (d : Desc)
  /-- STW_FW_START (R345): Loads the staged user image into cores 8-15 and releases them. -/
  | stwFwStart (d : Desc)
  /-- STW_FW_STOP (R364): Starts stopping user cores: range set to none, awaiting idle. -/
  | stwFwStop (d : Desc)
  /-- FW_STOP_HALT (R364): The user cores become idle or 10 ms pass, and they are halted with held items freed. -/
  | fwStopHalt
  /-- DSP_FLOW_CFG (R347): Sets flows atomic or parallel and their affinity window. -/
  | dspFlowCfg (d : Desc)
  /-- STW_STATUS (R366): Writes the steward and dispatcher status record. -/
  | stwStatus (d : Desc)
  /-- DSP_LIMITS (R365): Sets the service limit and the heartbeat mask. -/
  | dspLimits (d : Desc)
  /-- USER_OPCODE (R365): A user opcode is forwarded to a user flow or refused when no user firmware runs. -/
  | userOpcode (opcode : Nat) (d : Desc)
  /-- ABORT_REQUEST (R324): A write to TOP_ABORT_CTL starts an abort of the scope named. -/
  | abortRequest (value : Word)
  /-- ABORT_OWNER_TIMEOUT (R324): No owner report within 50 us of an abort notice; the operation ends UNCERTAIN. -/
  | abortOwnerTimeout (tok : Nat)
  /-- OP_TIMEOUT (R326): An operation's TIMEOUT_MS expires before its commit point and it is aborted with TIMEOUT. -/
  | opTimeout (tok : Nat)
  /-- RWIN_READ (R335): TOP_RWIN_CTL GO without WRITE starts a register-window read. -/
  | rwinRead (ctl : Word) (ans : Answer)
  /-- RWIN_WRITE (R335): TOP_RWIN_CTL GO with WRITE starts a register-window write. -/
  | rwinWrite (ctl : Word) (ans : Answer)
  /-- RWIN_TIMEOUT (R335): A register-window access has not ended in 10 us and stops with ERR. -/
  | rwinTimeout (svc : Bool)
  /-- SVC_RWIN_READ (R474): SVC_RWIN_CTL GO without WRITE starts a service-port window read. -/
  | svcRwinRead (ctl : Word) (ans : Answer)
  /-- SVC_RWIN_WRITE (R474): SVC_RWIN_CTL GO with WRITE starts a service-port window write. -/
  | svcRwinWrite (ctl : Word) (ans : Answer)
  /-- WARM_RESET_REQUEST (R336): A keyed write to TOP_WRST_REQ requests a warm reset. -/
  | warmResetRequest (value : Word) (svc : Bool)
  /-- WRST_N_ASSERT (R486): WRST_N held low for at least 1 us requests a warm reset. -/
  | wrstNAssert
  /-- WARM_RESET_RELEASE (R486): The internal warm reset ends after 100 us or when WRST_N rises. -/
  | warmResetRelease
  /-- COLD_RESET (R485): PORST_N rises: straps latched, registers reset, OTP re-read, start-up begins. -/
  | coldReset (bootSrc : Nat) (primary : Bool)
  /-- POWER_FAIL (R459): VDD_AON is lost; powered time stops and DPX_OWN_N is released through its pull-up. -/
  | powerFail
  /-- DB_KICK (R312): A write to TOP_DB_KICK forces a doorbell poll and the fast interval. -/
  | dbKick (value : Word)
  /-- LGR_REC_READ (R337): A read of TOP_LGR_REC_7 with AUTOINC advances the ledger read pointer. -/
  | lgrRecRead (be : BitVec 4)
  /-- SVC_LGR_REC_READ (R474): A read of SVC_LGR_REC_7 with AUTOINC advances the service read pointer. -/
  | svcLgrRecRead (be : BitVec 4)
  /-- BOOT_GO (R488): TOP_BOOT_LEN GO starts the boot ROM fetching and verifying the Afinal image. -/
  | bootGo (value : Word) (image : Option (List Byte))
  /-- CORES_RELEASED (R342): Image verification ends; cores are released or steward 0 is parked. -/
  | coresReleased (flash : Option (List Byte))
  /-- SEGMENT_PUSH (R51): GEO_SEGPUSH_n GO pushes the staged segment into the object table. -/
  | segmentPush (port : Nat) (value : Word)
  /-- GET_WORK (R351): A core reads DSP_GETWORK_n and stalls for an item. -/
  | getWork (core : Nat) (be : BitVec 4)
  /-- DSP_GRANT (R352): The dispatcher grants an eligible item to a waiting core. -/
  | dspGrant
  /-- GET_WORK_TIMEOUT (R357): A stalled get-work reaches its timeout and returns the null handle. -/
  | getWorkTimeout (core : Nat)
  /-- AFFINITY_EXPIRY (R353): An item's affinity reservation window ends and any core may take it. -/
  | affinityExpiry (item : Nat)
  /-- DSP_DONE (R354): A core marks a held item done, freeing it and releasing its flow. -/
  | dspDone (core : Nat) (value : Word)
  /-- DSP_FWD (R354): A core forwards a held item to the tail of another flow. -/
  | dspFwd (core : Nat) (value : Word)
  /-- DSP_ADD (R355): A core adds the staged work item to a flow. -/
  | dspAdd (core : Nat) (value : Word)
  /-- CPL_COMMIT (R360): An owner reports the commit point of an operation. -/
  | cplCommit (core : Nat) (cmd : Word)
  /-- CPL_COMPLETE (R360): An owner reports completion with status; the completion entry is written. -/
  | cplComplete (core : Nat) (cmd : Word)
  /-- CPL_WITHDRAW (R360): An owner withdraws an operation under an abort notice, completing it ABORTED. -/
  | cplWithdraw (core : Nat) (cmd : Word)
  /-- HEARTBEAT (R362): A write to STW_HB records a core's heartbeat. -/
  | heartbeat (core : Nat)
  /-- HB_LOST (R362): A required core has not written its heartbeat for 10 ms; STW_ALIVE falls. -/
  | hbLost (silent : Nat)
  /-- SVC_LIMIT (R363): An item held longer than DSP_SVC_LIM raises LONG once. -/
  | svcLimit (item : Nat)
  /-- IRQ_DELIVER (R372): The controller selects a deliverable source for a target and writes its message. -/
  | irqDeliver
  /-- IRQ_CLAIM (R373): Core n reads IRQ_CLAIM_n, emptying its doorbell and putting the source in service. -/
  | irqClaim (core : Nat) (be : BitVec 4)
  /-- IRQ_EOI (R373): Core n writes IRQ_EOI_n; the source leaves service and is re-sent if still pending. -/
  | irqEoi (core : Nat) (value : Word)
  /-- IRQ_MSET (R375): Sets one source's mask bit. -/
  | irqMset (value : Word)
  /-- IRQ_MCLR (R375): Clears one source's mask bit. -/
  | irqMclr (value : Word)
  /-- IRQ_SWI_SET (R377): Sets software source levels by W1S. -/
  | irqSwiSet (value : Word)
  /-- IRQ_SWI_CLEAR (R377): Clears software source levels by W1C. -/
  | irqSwiClear (value : Word)
  /-- IRQ_STAT_READ (R377): A read of IRQ_STAT returns and clears BAD_EOI. -/
  | irqStatRead (be : BitVec 4)
  /-- CIS_STAT_READ (R129): A read of CIS_STAT returns and clears MAXAGE. -/
  | cisStatRead (be : BitVec 4)
  /-- COR_STAT_READ (R163): A read of COR_STAT returns and resets TAIL_SLACK. -/
  | corStatRead (be : BitVec 4)
  /-- DRC_REF_READ (R410): A read of DRC_REF_c returns and clears MAXDEBT and FORCED. -/
  | drcRefRead (channel : Nat) (be : BitVec 4)
  /-- TOP_THERM_READ (R477): A read of TOP_THERM returns and resets MAX_TJ. -/
  | topThermRead (be : BitVec 4)
  /-- PTP_RPT_POP (R304): A read of word 0 of PTP_RPT_POP_n pops the next report of port n. -/
  | ptpRptPop (port : Nat) (be : BitVec 4)
  /-- PTP_TCAP_POP (R304): A read of word 0 of PTP_TCAP_POP pops the next capture entry. -/
  | ptpTcapPop (be : BitVec 4)
  /-- PTP_TIME_READ (R518): A read of PTP_TIME_NS latches the seconds words. -/
  | ptpTimeRead (be : BitVec 4)
  /-- CLK_TIDX_READ (R518): A read of CLK_TIDX_LO latches the high word. -/
  | clkTidxRead (be : BitVec 4)
  /-- CLK_MAP_READ (R518): A read of CLK_MAP_LO latches the high word. -/
  | clkMapRead (be : BitVec 4)
  /-- LGR_PTIME_READ (R518): A read of LGR_PTIME_LO latches the high word. -/
  | lgrPtimeRead (be : BitVec 4)
  /-- DRAM_RETRAIN (R407): DRC_CTL.RETRAIN starts retraining while stopped. -/
  | dramRetrain (value : Word)
  /-- SQ_ENABLE (R309): Setting HIF_SQ_CFG_n.EN enables a submission ring with head 0. -/
  | sqEnable (ring : Nat) (value : Word)
  /-- SQ_DISABLE_WRITE (R327): Clearing HIF_SQ_CFG_n.EN starts disabling a submission ring. -/
  | sqDisableWrite (ring : Nat) (value : Word)
  /-- SQ_DRAIN_END (R327): The last started operation of a disabling ring completes and the disable takes effect. -/
  | sqDrainEnd (ring : Nat)
  /-- CQ_ENABLE (R309): Setting HIF_CQ_CFG_n.EN enables a completion ring. -/
  | cqEnable (ring : Nat) (value : Word)
  /-- CQ_DISABLE (R328): Clearing a completion ring's EN, effective once no enabled submission ring names it. -/
  | cqDisable (ring : Nat) (value : Word)
  /-- EVR_ENABLE (R309): Setting HIF_EVR_CFG.EN enables the event ring. -/
  | evrEnable (value : Word)
  /-- EVR_DISABLE (R328): Clearing HIF_EVR_CFG.EN disables the event ring. -/
  | evrDisable (value : Word)
  /-- ARM_WRITE (R440): A write to DPX_CTL.ARM arms or disarms the interlock. -/
  | armWrite (value : Word)
  /-- REGISTER_WRITE (R10): A write to a register without a row of its own, applied under the access types. -/
  | registerWrite (m : Master) (addr : Nat) (value : Word) (be : BitVec 4)
  /-- SVC_STATUS (R473): Service-port STATUS frame returns four always-on status words. -/
  | svcStatus
  /-- SVC_READ (R473): Service-port READ frame returns AON register words. -/
  | svcRead (addr count : Nat)
  /-- SVC_WRITE (R473): Service-port WRITE frame writes AON register words. -/
  | svcWrite (addr : Nat) (bytes : List Byte)
  /-- SVC_FRAME_END (R473): Chip select rises, discarding a partial word and resetting the service master. -/
  | svcFrameEnd
  /-- HOST_IF_RESET (R332): PERST, hot reset, link down or FLR resets the host interface and ends in-flight operations. -/
  | hostIfReset (cause : Nat)
  /-- D3HOT_ENTRY (R331): The function enters D3hot; host traffic is held. -/
  | d3hotEntry (pmeEn : Bool)
  /-- D0_RETURN (R331): The function returns to D0; held entries, records and vectors are sent. -/
  | d0Return
  /-- BUS_MASTER_CHANGE (R331): Bus Master Enable changes, holding or releasing host traffic. -/
  | busMasterChange (on : Bool) (cfg : PciCfg)
  /-- MSIX_UNMASK (R330): A masked MSI-X vector with a pending bit is unmasked and sent. -/
  | msixUnmask (vector addr data : Nat)
  /-- INBOUND_TIMEOUT (R308): An inbound BAR0 access unanswered in 50 us completes with all bits set. -/
  | inboundTimeout (write : Bool)
  /-- DOORBELL_POLL (R312): The poll interval expires and the doorbell page is read. -/
  | doorbellPoll (page : Option (List Word)) (entries : List (Option (List Byte)))
  /-- CQ_MOD_TIMER (R329): A completion ring's moderation timer reaches TIME and its vector is sent. -/
  | cqModTimer (ring : Nat)
  /-- MATRIX_TIMEOUT (R385): A target has not answered 8 us after the grant; the matrix answers TIMEOUT. -/
  | matrixTimeout (t : Txn)
  /-- MASTER_RESET_DRAIN (R386): The last response of a reset master returns and its ID holdback and credits are released. -/
  | masterResetDrain (master : Nat) (addr beats : Nat)
  /-- TRANCHE_BOUNDARY (R17): The core-cycle count of a tranche period expires at H_k and the next period begins. -/
  | trancheBoundary (cycles : Nat) (viol : List GuardViol) (obs : PeriodObs)
  /-- SEGMENT_CUTOFF (R45): 1,024 core cycles before H_N, pending segments activate and geometry takes its snapshot. -/
  | segmentCutoff
  /-- FURROW_PHASE_START (R95): Cycle 32,768 of a period begins the furrow phase and tag verification. -/
  | furrowPhaseStart (ue : List Nat)
  /-- HANDOVER_PHASE_START (R174): Cycle L-8,192 begins the hand-over: partition merge, import merge, saturation and export. -/
  | handoverPhaseStart (badResidue : List (Nat × Nat))
  /-- COND (R168): Headgate datapath conditions one object's tranche and stores it. -/
  | cond (object : Nat)
  /-- GEOM_ITEM (R176): A geometry unit issues a preamble, direction, merge or pair-slot item. -/
  | geomItem (item : GeomItem)
  /-- FURROW_SLOT (R107): A furrow issues one slot's 16 pair-samples and updates its state. -/
  | furrowSlot (furrow entry : Nat) (ue : List Nat) (audit : Option AuditObs) (viol : Option GuardViol)
  /-- BQ (R133): A biquad datapath runs an output's equaliser and writes its history block. -/
  | bq (u : CorrUnit)
  /-- HEAD (R135): The head array computes an output's FIR head sums. -/
  | head (u : CorrUnit) (ue : List Nat)
  /-- SLU (R153): The sluice unit joins tail and head, applies gain, mute and silence, and writes staging and meters. -/
  | slu (u : CorrUnit)
  /-- TAIL_CHAIN (R180): A tail chain runs frame reads, FFT, MAC, inverse FFT and tail output write. -/
  | tailChain (u : CorrUnit) (slack : Nat) (obs : ChainObs)
  /-- LAUNCH (R182): A link launcher releases a caravan to its egress link. -/
  | launch (link entry : Nat)
  /-- FORM (R282): A packet former freezes one media packet from transmit staging. -/
  | form (port entry : Nat)
  /-- CISTERN_FETCH_DONE (R104): A cistern fetch's data arrives in the landing buffer. -/
  | cisternFetchDone (object group : Nat) (age : Nat) (errs : List LineErr)
  /-- CISTERN_PANIC (R104): A cistern fetch outstanding for 2 periods asserts panic. -/
  | cisternPanic (object group : Nat)
  /-- DPX_STROBE_RECEIVE (R448): The standby time-stamps a DPX_SYNC edge and checks skew. -/
  | dpxStrobeReceive (skew : Int) (wide : Bool)
  /-- LINK_LOCK (R208): A link achieves block and FEC lock and enters HELLO. -/
  | linkLock (link : Nat)
  /-- LINK_LOCK_TIMEOUT (R208): No lock within 100 ms; acquisition restarts. -/
  | linkLockTimeout (link : Nat)
  /-- LINK_LOCK_LOSS (R208): An UP link loses block lock and returns to ACQUIRE. -/
  | linkLockLoss (link : Nat)
  /-- FEC_WINDOW (R208): A 1 ms window ends with more than FEC_LIM uncorrectable codewords; the link leaves UP. -/
  | fecWindow (link corrected uncorrectable : Nat)
  /-- HELLO_SEND (R208): The 1 ms HELLO timer sends a HELLO frame. -/
  | helloSend (link : Nat)
  /-- HELLO_RECEIVE (R209): A HELLO frame is received, checked and recorded, possibly bringing the link UP. -/
  | helloReceive (link : Nat) (bytes : List Byte)
  /-- HELLO_TIMEOUT (R208): A link in HELLO for 1 s without reaching UP returns to ACQUIRE. -/
  | helloTimeout (link : Nat)
  /-- HELLO_LOST (R208): An UP link has no valid HELLO for 10 ms and leaves UP. -/
  | helloLost (link : Nat)
  /-- TICK_RECEIVE (R210): A TICK is received and the link skew measured. -/
  | tickReceive (link marker low24 delay : Nat) (arrival : Int)
  /-- CARAVAN_RECEIVE (R220): A caravan is received, checked, delivered locally and forwarded. -/
  | caravanReceive (link cycle : Nat) (bytes : List Byte) (whole : Bool) (slip : Option QSlip)
  /-- EGRESS_FRAME_START (R222): An egress link chooses and starts its next frame at a frame boundary. -/
  | egressFrameStart (link defer : Nat) (slip : Option QSlip)
  /-- FAB_DISC_TIMEOUT (R234): No discovery reply within 100 ms; FAB_DISC completes TIMEOUT. -/
  | fabDiscTimeout (tag : Nat)
  /-- REMOTE_RETRANSMIT (R235): A remote descriptor is retransmitted after 10 ms without completion. -/
  | remoteRetransmit (seq : Nat)
  /-- REF_EDGE (R248): A reference edge is qualified, accepted or rejected. -/
  | refEdge (ref time : Nat)
  /-- REF_MISSING (R247): Four periods pass without an edge and loss is declared. -/
  | refMissing (ref : Nat)
  /-- FREQ_WINDOW (R249): A frequency measurement window ends and is checked against the pull range. -/
  | freqWindow (ref : Nat) (offset : Int)
  /-- DRIFT_EVAL (R250): The drift monitor evaluates every enabled reference once per second. -/
  | driftEval (offsets : List (Nat × Int))
  /-- QUAL_TIMER (R252): QUAL_TIME passes without fault and the reference becomes QUALIFIED. -/
  | qualTimer (ref : Nat)
  /-- WTR_EXPIRY (R254): A wait-to-restore timer expires and a switch may begin. -/
  | wtrExpiry (ref : Nat)
  /-- REF_SWITCH_DONE (R257): A reference switch ends by loading build-out. -/
  | refSwitchDone (phase : Int)
  /-- BLEED_TICK (R258): Each second the build-out is reduced by BLEED_RATE. -/
  | bleedTick
  /-- PLL_UNLOCK (R263): The clean-up PLL loses lock. -/
  | pllUnlock (cycle : Nat)
  /-- PLL_LOCK (R261): The clean-up PLL locks and the selector leaves UNLOCKED. -/
  | pllLock
  /-- TIDX_SET (R245): The tranche index takes effect at the first boundary more than 1 ms after CLK_RATE. -/
  | tidxSet (tick24 : Nat)
  /-- MP_LOCK_LOSS (R271): A media port loses block or FEC lock and goes DOWN. -/
  | mpLockLoss (port : Nat)
  /-- MP_UP_TIMER (R271): Locks have held for 10 ms and the port goes UP. -/
  | mpUpTimer (port : Nat)
  /-- MP_FRAME_RECEIVE (R274): A received media-port frame is classified and routed. -/
  | mpFrameReceive (port : Nat) (f : RxFrame)
  /-- PAUSE_EXPIRY (R272): A transmit pause time runs out. -/
  | pauseExpiry (port : Nat)
  /-- PATH_DOWN (R280): A stream path delivers nothing for 10 packet times and goes down. -/
  | pathDown (stream : Nat) (pathB : Bool)
  /-- TX_LATE_DROP (R284): A media packet not begun within 100 us of its FORM is discarded. -/
  | txLateDrop (port : Nat)
  /-- MP_FRAME_DEPART (R284): A port's transmit queue starts its next frame, stamping PTP event messages. -/
  | mpFrameDepart (port : Nat) (slip : Option QSlip)
  /-- PTP_SYNC (R293): A Sync yields an offset that updates the servo. -/
  | ptpSync (m : SyncMsg)
  /-- PTP_DELAY_RESP (R293): A Delay_Resp updates the mean path delay. -/
  | ptpDelayResp (seqId : Nat) (t4 : Int) (correction : Int)
  /-- PTP_ANNOUNCE (R289): An Announce message feeds the best master clock algorithm. -/
  | ptpAnnounce (m : AnnounceMsg)
  /-- PTP_DELAY_REQ_SEND (R289): The Delay_Req interval expires and a Delay_Req is sent. -/
  | ptpDelayReqSend (seqId : Nat) (report : Bool)
  /-- SYNC_TIMEOUT (R295): No Sync for the Sync timeout; the time unit free-runs. -/
  | syncTimeout
  /-- ANNOUNCE_TIMEOUT (R295): The announce receipt timeout expires; the time unit free-runs. -/
  | announceTimeout
  /-- TRIG_FIRE (R297): An armed trigger reaches its tranche or device time and the pin edge is driven. -/
  | trigFire (pin : Nat)
  /-- PPS_OUT_PULSE (R297): PPS_OUT rises at each whole second of device time. -/
  | ppsOutPulse
  /-- TCAP_EDGE (R298): A selected TCAP edge is captured into the queue. -/
  | tcapEdge (pin : Nat) (rising : Bool) (cycle : Nat)
  /-- SAP_FRAME (R415): A serial audio port frame begins at its port index. -/
  | sapFrame (port : Nat) (w0 w1 : Nat)
  /-- SAP_WS_EDGE (R416): A slave port's WS edge is time-stamped and indexed. -/
  | sapWsEdge (port : Nat) (index : Nat) (aligned : Bool)
  /-- SAP_LOST (R416): No WS edge for 4 frame periods; the port is lost. -/
  | sapLost (port : Nat)
  /-- SIL_N_CHANGE (R155): SIL_N changes level. -/
  | silNChange (high : Bool)
  /-- MON_CLR_ASSERT (R429): MON_CLR_N goes low and monitor outputs take the clear code. -/
  | monClrAssert
  /-- MON_CLR_RELEASE (R429): MON_CLR_N rises and outputs ramp back to live. -/
  | monClrRelease
  /-- MON_COMPLY_TIMER (R430): A monitor pin outside compliance for 10 us sets or clears its fault. -/
  | monComplyTimer (output pin : Nat) (outside : Bool)
  /-- PEER_ASSERT (R440): DPX_PEER_N goes low while claiming or driving. -/
  | peerAssert
  /-- PEER_RELEASED (R440): DPX_PEER_N has been high for 2 us; the device claims or drives. -/
  | peerReleased
  /-- CLAIM_TIMEOUT (R443): A claiming primary still sees its peer low after 10 us and releases. -/
  | claimTimeout
  /-- COMMANDED_RELEASE (R445): At H_N minus 3 us the active device releases under a commanded switch. -/
  | commandedRelease
  /-- TAKEBACK_HOLD (R447): TB_HOLD elapses and the primary requests take-back. -/
  | takebackHold
  /-- FLASH_OP_DONE (R461): A ledger flash program or erase completes and is verified. -/
  | flashOpDone (erase : Option Nat) (ok : Bool)
  /-- JOURNAL_PLACE (R462): A journal record is placed into its victim's sector by reclaim. -/
  | journalPlace
  /-- CHECKPOINT_SAVE (R459): Powered time and counters are saved every 64 s. -/
  | checkpointSave
  /-- LEDGER_SCAN_DONE (R463): The start-up ledger scan completes and READY is set. -/
  | ledgerScanDone
  /-- DRAM_TRAIN_DONE (R405): DRAM training ends in success or failure. -/
  | dramTrainDone (r : TrainResult)
  /-- MR4_POLL (R402): Every 16 ms the refresh-rate indication of each channel is read. -/
  | mr4Poll (channel value : Nat)
  /-- REFRESH_ACCRUAL (R403): A refresh accrues to a bank, forcing it if the debt limit would be exceeded. -/
  | refreshAccrual (channel bank : Nat) (idle : Bool) (idled : List Nat)
  /-- SCRUB_READ (R409): The patrol scrubber reads the next line and rewrites it if corrected. -/
  | scrubRead (line : Nat) (symbols : List (Nat × Byte))
  /-- THERM_SAMPLE (R470): The thermal sensor is sampled every 10 us; alerts and trips follow. -/
  | thermSample (tj : Int)
  /-- PORST_N_ASSERT (R483): PORST_N is driven low while powered, holding the pins in their reset states and overriding any warm reset in progress. -/
  | porstNAssert
  /-- MP_LOCK_GAIN (R271): A DOWN media port regains block lock (and FEC alignment lock), starting its 10 ms return-to-UP timer. -/
  | mpLockGain (port : Nat)
  /-- LOW_POWER_IDLE_RECEIVE (R273): Low-power idle from the link partner is accepted and counted in LPI_RX without taking the port DOWN. -/
  | lowPowerIdleReceive (port : Nat)
  /-- CLK_RATE_TIMEOUT (R265): A CLK_RATE that has not completed within 50 ms completes TIMEOUT. -/
  | clkRateTimeout
  /-- TAIL_READ_DONE (R397): Tail-port read data, or a tail output group, arrives from DRAM, becoming usable and ending tail panic when no late condition remains. -/
  | tailReadDone (r : TailRead)
  /-- MATRIX_LATE_RESPONSE (R385): A target's response arrives after the matrix answered TIMEOUT; it is discarded and the held credit is released. -/
  | matrixLateResponse (t : Txn)
  /-- SHADOW_STORE_WRITE (R187): A matrix write into the schedule shadow store clears SCH_STATE.SHADOW_VALID. -/
  | shadowStoreWrite (addr : Nat) (bytes : List Byte)
  /-- TRIG_PULSE_END (R297): A TTRIG pulse reaches its set width, or a PPS_OUT pulse its 100 us, and the pin returns to its idle level. -/
  | trigPulseEnd (pin : Nat)
  /-- PEER_LOW_HELD (R443): DPX_PEER_N has been low continuously for 10 us, so a standby's yield count returns to zero. -/
  | peerLowHeld
  /-- L1_EXIT (R331): The PCIe link returns from L1 to L0, and the device sends the entries, records and vectors it had due. -/
  | l1Exit
  /-- DRAM_SELF_REFRESH_EXIT (R486): After a warm reset the DRAM leaves self-refresh with its trained delays and DRC_STAT.READY returns within 20 ms. -/
  | dramSelfRefreshExit
  /-- JTAG_TAP_OPERATION (R509): The IEEE 1149.1 TAP is clocked through an instruction such as EXTEST, which takes control of the covered pins including DPX_OWN_N. -/
  | jtagTapOperation (op : TapOp)
  deriving DecidableEq, Repr

end Sys2Proof
end

