-- ==== Sys2Proof/Decode.lean ====
section
/-! DEFINITION. Words of the opcode table: it gives bits for no row, so no word spells a command. -/

namespace Sys2Proof

/-- The command that a word spells by the table's bits; the table gives none of its rows any. -/
def decodeTableWord (_nbits _w : Nat) : Option Instr := none

end Sys2Proof
end

