-- ==== Sys2Proof/Machine/Crypto.lean ====
section
/-! DEFINITION. Checks and codes: CRC-32C (R42), CRC-16 of caravan headers, SHA-256 and HMAC (R186, R467), ECDSA P-256
(R186), and the RS(72,64) line code (R8). -/

namespace Sys2Proof.Machine

/-! ## Cyclic redundancy checks -/

/-- `n` bit steps of the reflected Castagnoli CRC (R42). -/
def crc32Bits (poly : Nat) : Nat → Nat → Nat
  | 0, c => c
  | n + 1, c => crc32Bits poly n (if c % 2 = 1 then c / 2 ^^^ poly else c / 2)

/-- A reflected CRC-32 over bytes from a running value. -/
def crc32From (poly : Nat) : Nat → List Byte → Nat
  | c, [] => c
  | c, b :: bs => crc32From poly (crc32Bits poly 8 (c ^^^ b.toNat)) bs

/-- CRC-32C in the form of R42: initial value and final exclusive-or 0xFFFF_FFFF. -/
def crc32c (bs : List Byte) : Nat := crc32From 0x82F63B78 0xFFFFFFFF bs ^^^ 0xFFFFFFFF

/-- The frame check sequence of an Ethernet frame. PRESUMED from IEEE 802.3, which R270 names (log entry 93). -/
def crc32e (bs : List Byte) : Nat := crc32From 0xEDB88320 0xFFFFFFFF bs ^^^ 0xFFFFFFFF

/-- `n` bit steps of CRC-16, polynomial 0x1021, not reflected. -/
def crc16Bits : Nat → Nat → Nat
  | 0, c => c
  | n + 1, c => crc16Bits n (if 32768 ≤ c then (c * 2 % 65536) ^^^ 0x1021 else c * 2)

/-- CRC-16 from a running value. -/
def crc16From : Nat → List Byte → Nat
  | c, [] => c
  | c, b :: bs => crc16From (crc16Bits 8 (c ^^^ (b.toNat * 256))) bs

/-- CRC-16 with initial value 0xFFFF and no final exclusive-or. -/
def crc16 (bs : List Byte) : Nat := crc16From 0xFFFF bs

/-! ## SHA-256 and HMAC (FIPS 180-4, FIPS 198-1) -/

/-- The greatest number below `x + 2 ^ n` that is at least `x` and whose `e`-th power is at most `m`, found bit by bit. -/
def rootFrom (e m : Nat) : Nat → Nat → Nat
  | 0, x => x
  | n + 1, x => rootFrom e m n (if (x + 2 ^ n) ^ e ≤ m then x + 2 ^ n else x)

/-- The first 32 bits of the fractional part of the `e`-th root of `p`, for a root below 8. -/
def rootFraction (e p : Nat) : Nat := rootFrom e (p * 2 ^ (32 * e)) 35 0 % 2 ^ 32

/-- The primes up to 311, of which there are 64. -/
def shaPrimes : List Nat := (List.range 312).filter (fun p => 1 < p && (List.range p).all (fun d => d < 2 || p % d != 0))

/-- The round constants: the fractions of the cube roots of the first 64 primes. -/
def shaK : List Nat := shaPrimes.map (rootFraction 3)

/-- Rotation right by `n` of a 32-bit number. -/
def rotr (n x : Nat) : Nat := (x / 2 ^ n) ||| (x * 2 ^ (32 - n) % 2 ^ 32)

/-- The message schedule: `n` further words, the words so far in reverse order. -/
def shaSchedule : Nat → List Nat → List Nat
  | 0, w => w.reverse
  | n + 1, w =>
    let a := w.getD 14 0
    let b := w.getD 1 0
    let s0 := rotr 7 a ^^^ rotr 18 a ^^^ (a / 8)
    let s1 := rotr 17 b ^^^ rotr 19 b ^^^ (b / 1024)
    shaSchedule n ((w.getD 15 0 + s0 + w.getD 6 0 + s1) % 2 ^ 32 :: w)

/-- The working variables a to h. -/
structure Sha where
  a : Nat
  b : Nat
  c : Nat
  d : Nat
  e : Nat
  f : Nat
  g : Nat
  h : Nat
  deriving DecidableEq, Repr

/-- One round with the sum of its constant and schedule word. -/
def shaRound (v : Sha) (kw : Nat) : Sha :=
  let s1 := rotr 6 v.e ^^^ rotr 11 v.e ^^^ rotr 25 v.e
  let ch := (v.e &&& v.f) ^^^ ((2 ^ 32 - 1 - v.e) &&& v.g)
  let t1 := v.h + s1 + ch + kw
  let s0 := rotr 2 v.a ^^^ rotr 13 v.a ^^^ rotr 22 v.a
  let maj := (v.a &&& v.b) ^^^ (v.a &&& v.c) ^^^ (v.b &&& v.c)
  { a := (t1 + s0 + maj) % 2 ^ 32, b := v.a, c := v.b, d := v.c, e := (v.d + t1) % 2 ^ 32, f := v.e, g := v.f, h := v.g }

/-- One 64-byte block. -/
def shaBlock (v : Sha) (blk : List Byte) : Sha :=
  let w16 := (List.range 16).map (fun i => beNat ((blk.drop (4 * i)).take 4))
  let w := shaSchedule 48 w16.reverse
  let r := (List.zipWith (· + ·) shaK w).foldl shaRound v
  { a := (v.a + r.a) % 2 ^ 32, b := (v.b + r.b) % 2 ^ 32, c := (v.c + r.c) % 2 ^ 32, d := (v.d + r.d) % 2 ^ 32,
    e := (v.e + r.e) % 2 ^ 32, f := (v.f + r.f) % 2 ^ 32, g := (v.g + r.g) % 2 ^ 32, h := (v.h + r.h) % 2 ^ 32 }

/-- The blocks of a padded message; `fuel` bounds their number. -/
def shaBlocks : Nat → Sha → List Byte → Sha
  | 0, v, _ => v
  | n + 1, v, bs => if bs.isEmpty then v else shaBlocks n (shaBlock v (bs.take 64)) (bs.drop 64)

/-- The initial hash value: the fractions of the square roots of the first eight primes. -/
def shaInit : Sha :=
  let w := fun i => rootFraction 2 (shaPrimes.getD i 0)
  ⟨w 0, w 1, w 2, w 3, w 4, w 5, w 6, w 7⟩

/-- SHA-256 of a message, as 32 bytes. -/
def sha256 (m : List Byte) : List Byte :=
  let pad := (64 - (m.length + 9) % 64) % 64
  let p := m ++ [0x80] ++ List.replicate pad 0 ++ beBytes 8 (8 * m.length)
  let v := shaBlocks (p.length / 64) shaInit p
  [v.a, v.b, v.c, v.d, v.e, v.f, v.g, v.h].flatMap (beBytes 4)

/-- HMAC-SHA-256 with a key of at most 64 bytes (R467). -/
def hmacSha256 (key msg : List Byte) : List Byte :=
  let k := key ++ List.replicate (64 - key.length) 0
  sha256 (k.map (· ^^^ 0x5c) ++ sha256 (k.map (· ^^^ 0x36) ++ msg))

/-! ## ECDSA on P-256 (FIPS 186-4, R186) -/

def p256P : Nat := 0xffffffff00000001000000000000000000000000ffffffffffffffffffffffff
def p256N : Nat := 0xffffffff00000000ffffffffffffffffbce6faada7179e84f3b9cac2fc632551

def p256Gx : Nat := 0x6b17d1f2e12c4247f8bce6e563a440f277037d812deb33a0f4a13945d898c296
def p256Gy : Nat := 0x4fe342e2fe1a7f9b8ee7eb4a7c0f9e162bce33576b315ececbb6406837bf51f5

/-- `b ^ e mod m` over the low `n` bits of `e`, times `acc`. -/
def powMod : Nat → Nat → Nat → Nat → Nat → Nat
  | 0, _, _, _, acc => acc
  | n + 1, b, e, m, acc => powMod n (b * b % m) (e / 2) m (if e % 2 = 1 then acc * b % m else acc)

/-- Inverse modulo a prime of 256 bits. -/
def invMod (a m : Nat) : Nat := powMod 256 (a % m) (m - 2) m 1

/-- `a - b` modulo `m`. -/
def subMod (a b m : Nat) : Nat := (a + m - b % m) % m

/-- Sum of two points of the curve; `none` is the point at infinity. -/
def ecAdd : Option (Nat × Nat) → Option (Nat × Nat) → Option (Nat × Nat)
  | none, q => q
  | p, none => p
  | some (x1, y1), some (x2, y2) =>
    if x1 = x2 ∧ (y1 + y2) % p256P = 0 then none
    else
      let l := if x1 = x2 then subMod (3 * x1 * x1) 3 p256P * invMod (2 * y1) p256P % p256P
               else subMod y2 y1 p256P * invMod (subMod x2 x1 p256P) p256P % p256P
      let x3 := subMod (l * l) (x1 + x2) p256P
      some (x3, subMod (l * subMod x1 x3 p256P) y1 p256P)

/-- A multiple of a point over the low `n` bits of `k`, plus `acc`. -/
def ecMul : Nat → Nat → Option (Nat × Nat) → Option (Nat × Nat) → Option (Nat × Nat)
  | 0, _, _, acc => acc
  | n + 1, k, p, acc => ecMul n (k / 2) (ecAdd p p) (if k % 2 = 1 then ecAdd acc p else acc)

/-- Verification of a signature (r, s) of a hash under the public key (qx, qy). -/
def ecdsaVerify (qx qy hash r s : Nat) : Bool :=
  if r = 0 ∨ s = 0 ∨ p256N ≤ r ∨ p256N ≤ s then false
  else
    let w := invMod s p256N
    let u1 := hash * w % p256N
    let u2 := r * w % p256N
    match ecAdd (ecMul 256 u1 (some (p256Gx, p256Gy)) none) (ecMul 256 u2 (some (qx, qy)) none) with
    | some (x, _) => decide (x % p256N = r)
    | none => false

/-! ## The line code RS(72,64) over GF(2^8) (R8) -/

/-- Product in GF(2^8) with x^8 + x^4 + x^3 + x^2 + 1, over the low `n` bits of `b`. -/
def gfMulN : Nat → Nat → Nat → Nat → Nat
  | 0, _, _, acc => acc
  | n + 1, a, b, acc =>
    gfMulN n (if 128 ≤ a then (a * 2 % 256) ^^^ 0x1D else a * 2) (b / 2) (if b % 2 = 1 then acc ^^^ a else acc)
def gfMul (a b : Nat) : Nat := gfMulN 8 a b 0

/-- α^n. -/
def gfExp : Nat → Nat
  | 0 => 1
  | n + 1 => gfMul 2 (gfExp n)

/-- Power and inverse. -/
def gfPow (a : Nat) : Nat → Nat
  | 0 => 1
  | n + 1 => gfMul a (gfPow a n)
def gfInv (a : Nat) : Nat := gfPow a 254

/-- The generator polynomial (x - α^0) … (x - α^(n-1)), coefficients from the highest. -/
def rsGen : Nat → List Nat
  | 0 => [1]
  | n + 1 =>
    let g := rsGen n
    List.zipWith (· ^^^ ·) (g ++ [0]) (0 :: g.map (gfMul (gfExp n)))

/-- The remainder register after one data byte: `g` is the generator without its leading 1. -/
def rsStep (g : List Nat) (r : List Nat) (b : Nat) : List Nat :=
  let f := r.headD 0 ^^^ b
  List.zipWith (· ^^^ ·) (r.drop 1 ++ [0]) (g.map (gfMul f))

/-- The 8 check bytes p_0 to p_7 of 64 data bytes (R8). -/
def rsChecks (data : List Byte) : List Byte :=
  let g := (rsGen 8).drop 1
  ((data.map (·.toNat)).foldl (rsStep g) (List.replicate 8 0)).map (BitVec.ofNat 8)

/-- The value of a polynomial, coefficients from the highest (Horner). -/
def gfEval (cs : List Nat) (x : Nat) : Nat := cs.foldl (fun acc c => gfMul acc x ^^^ c) 0

/-- The eight syndromes of a 72-byte line. -/
def rsSyndromes (line : List Byte) : List Nat := (List.range 8).map (fun j => gfEval (line.map (·.toNat)) (gfExp j))

/-- Berlekamp-Massey over the syndromes: error locator (coefficients from the lowest), its copy at the last length change,
length, shift and last discrepancy. -/
def rsLocator (syn : List Nat) : List Nat → List Nat → List Nat → Nat → Nat → Nat → Nat → List Nat × Nat
  | [], c, _, len, _, _, _ => (c, len)
  | _ :: rest, c, b, len, m, bd, i =>
    let d := (List.range (len + 1)).foldl (fun acc k => acc ^^^ gfMul (c.getD k 0) (syn.getD (i - k) 0)) 0
    if d = 0 then rsLocator syn rest c b len (m + 1) bd (i + 1)
    else
      let shifted := List.replicate m 0 ++ b.map (gfMul (gfMul d (gfInv bd)))
      let c' := (List.range (max c.length shifted.length)).map (fun k => c.getD k 0 ^^^ shifted.getD k 0)
      if 2 * len ≤ i then rsLocator syn rest c' c (i + 1 - len) 1 d (i + 1)
      else rsLocator syn rest c' b len (m + 1) bd (i + 1)

/-- The error value at locator `x` (Forney, first root α^0): x · Ω(1/x) / σ'(1/x). -/
def rsValue (syn sigma : List Nat) (x : Nat) : Nat :=
  let omega := (List.range 8).map (fun i => (List.range (i + 1)).foldl (fun acc k => acc ^^^ gfMul (sigma.getD k 0) (syn.getD (i - k) 0)) 0)
  let xi := gfInv x
  let num := (omega.zipIdx).foldl (fun acc e => acc ^^^ gfMul e.1 (gfPow xi e.2)) 0
  let den := (sigma.zipIdx).foldl (fun acc e => if e.2 % 2 = 1 then acc ^^^ gfMul e.1 (gfPow xi (e.2 - 1)) else acc) 0
  gfMul x (gfMul num (gfInv den))

/-- What the decoder makes of a 72-byte line: the corrected line and the symbols corrected, or `none` where the line lies
more than 4 symbols from every codeword (R8). -/
def rsDecode (line : List Byte) : Option (List Byte × Nat) :=
  let syn := rsSyndromes line
  if syn.all (fun s => decide (s = 0)) then some (line, 0)
  else
    let loc := rsLocator syn syn [1] [1] 0 1 1 0
    let sigma := loc.1
    let pos := (List.range 72).filter (fun i =>
      let xi := gfInv (gfExp (71 - i))
      decide ((sigma.zipIdx).foldl (fun acc e => acc ^^^ gfMul e.1 (gfPow xi e.2)) 0 = 0))
    if loc.2 = 0 ∨ 4 < loc.2 ∨ pos.length ≠ loc.2 then none
    else
      let fixed := (line.zipIdx).map (fun e => if e.2 ∈ pos then e.1 ^^^ BitVec.ofNat 8 (rsValue syn sigma (gfExp (71 - e.2))) else e.1)
      if (rsSyndromes fixed).all (fun s => decide (s = 0)) then some (fixed, loc.2) else none

end Sys2Proof.Machine
end

