-- ==== Sys2Proof/Config.lean ====
section
/-! DEFINITION. What the part fixes outside its commands (OTP, ROM contents, identities) and the free values: constants
without a body, so that no proof can see what they are. -/

namespace Sys2Proof.Config

/-- Skovdun's PCI Vendor ID (R306, `HIF_PCI_ID`): not given in the spec. -/
opaque vendorId : BitVec 16
/-- `TOP_ID.VARIANT` is WA-1024-FX (R515): OTP. -/
opaque variantFx : Bool
/-- `TOP_REV` (R516): fixed by the part. -/
opaque topRev : Word
/-- The 64-bit device ID in OTP (R240, R306). -/
opaque deviceId : BitVec 64
/-- `SCH_SIGN.ENFORCE` in OTP (R188, R205). -/
opaque enforce : Bool
/-- A customer public key is programmed in OTP (`SCH_SIGN.KEY_PRESENT`, R205). -/
opaque pubKeyPresent : Bool
/-- The customer public key's x coordinate on P-256 (R186). -/
opaque pubKeyX : BitVec 256
/-- The customer public key's y coordinate on P-256 (R186). -/
opaque pubKeyY : BitVec 256
/-- A customer ledger key is programmed in OTP (`LGR_STAT.KEY_PRESENT`, R478). -/
opaque ledgerKeyPresent : Bool
/-- The 32-byte customer ledger key in OTP, byte 0 least significant (R467). -/
opaque ledgerKey : BitVec 256
/-- The MAC address of a media port in OTP (R299). -/
opaque otpMac : BitVec 48
/-- The sinc table of the ROM, row and tap (R111 gives only rows 0 and 1,024; the rest is in the Camzin distribution). -/
opaque sincRom : Nat → Nat → BitVec 20
/-- The capture filter coefficients of responses 1 to 6: response, stage, index (R432, in the Camzin distribution). -/
opaque capRom : Nat → Nat → Nat → BitVec 24
/-- The control-SRAM address of a fetched descriptor (R346 gives PTR but no address). -/
opaque entryBase : BitVec 22
/-- The control-SRAM address of a frame buffer (R346, R356). -/
opaque frameBase : BitVec 22

/-- The RATE code of a mode register 4 value (R402 names the indications; their codes are JEDEC's). -/
opaque mr4Rate : Nat → Nat

/-- A free 32-bit value; the state's counter `freeCtr` picks it. -/
opaque freeWord : Nat → Word
/-- A free integer. -/
opaque freeInt : Nat → Int
/-- A free choice. -/
opaque freeBool : Nat → Bool
/-- A free table entry: counter and index. -/
opaque freeEntry : Nat → Nat → Int
/-- A free byte: counter and offset. -/
opaque freeByte : Nat → Nat → Byte

/-- Minimum and maximum of binary32 values of which one is a NaN (R60 does not give them). -/
opaque nanMin : BitVec 32 → BitVec 32 → BitVec 32
/-- See `nanMin`. -/
opaque nanMax : BitVec 32 → BitVec 32 → BitVec 32

end Sys2Proof.Config
end

