-- ==== Sys2Proof/Machine/Fixed.lean ====
section
/-! DEFINITION. The fixed-point arithmetic of R6 and R7 on exact integers, and the block exponents of stored samples. -/

namespace Sys2Proof.Machine

/-- Shift right by `s` bits with rounding, floor((x + 2^(s-1)) / 2^s); a shift by 0 leaves the value (R6). -/
def rnd (s : Nat) (x : Int) : Int := if s = 0 then x else (x + 2 ^ (s - 1)) / 2 ^ s

/-- Largest value of an `n`-bit signed field. -/
def maxS (n : Nat) : Int := 2 ^ (n - 1) - 1

/-- Smallest value of an `n`-bit signed field. -/
def minS (n : Nat) : Int := -(2 ^ (n - 1))

/-- Saturation at an `n`-bit signed width (R7). -/
def satS (n : Nat) (x : Int) : Int := if x > maxS n then maxS n else if x < minS n then minS n else x

/-- Saturation at an `n`-bit unsigned width. -/
def satU (n : Nat) (x : Int) : Nat := if x < 0 then 0 else if x ≥ 2 ^ n then 2 ^ n - 1 else x.toNat

/-- 1 where a saturation changes the value (R7), else 0. -/
def clips (n : Nat) (x : Int) : Nat := if satS n x = x then 0 else 1

/-- A counter of `bits` bits that stops at its maximum (R7). -/
def bump (bits : Nat) (c n : Nat) : Nat := min (c + n) (2 ^ bits - 1)

/-- The sum of a list. -/
def sumI (l : List Int) : Int := l.foldl (· + ·) 0

/-- The dot product of two lists. -/
def dot (a b : List Int) : Int := sumI (List.zipWith (· * ·) a b)

/-- The 16 positions of a tranche. -/
def positions : List Nat := List.range 16

/-- Element `k` of a list of integers, zero past its end. -/
def nth (l : List Int) (k : Nat) : Int := l.getD k 0

/-- Integer square root by bisection on bits: the largest `r < 2^n` with `r * r ≤ x`. -/
def isqrt : Nat → Nat → Nat → Nat
  | 0, _, r => r
  | n + 1, x, r => if (r + 2 ^ n) * (r + 2 ^ n) ≤ x then isqrt n x (r + 2 ^ n) else isqrt n x r

end Sys2Proof.Machine
end

