-- ==== Sys2Proof/Machine/Sparse.lean ====
section
/-! DEFINITION. Sparse stores: every table memory, register file, buffer and DRAM of the part is one sorted list of
(address, value) pairs that lists no entry equal to what an unlisted address reads as. -/

namespace Sys2Proof.Machine

/-- A sparse store: addresses strictly rising. -/
abbrev SMap (α : Type) := List (Nat × α)

/-- The entry listed at an address. -/
def smFind {α : Type} : SMap α → Nat → Option α
  | [], _ => none
  | (a, v) :: m, k => if k = a then some v else if k < a then none else smFind m k

/-- Lists `v` at address `k`. -/
def smPut {α : Type} : SMap α → Nat → α → SMap α
  | [], k, v => [(k, v)]
  | (a, w) :: m, k, v =>
    if k = a then (k, v) :: m else if k < a then (k, v) :: (a, w) :: m else (a, w) :: smPut m k v

/-- Removes the entry at address `k`. -/
def smDrop {α : Type} : SMap α → Nat → SMap α
  | [], _ => []
  | (a, w) :: m, k => if k = a then m else if k < a then (a, w) :: m else (a, w) :: smDrop m k

/-- What address `k` reads as, where an unlisted address reads as `d`. -/
def smGet {α : Type} (d : α) (m : SMap α) (k : Nat) : α := (smFind m k).getD d

/-- Writes `v` at address `k`; writing what an unlisted address reads as removes the entry. -/
def smSet {α : Type} [DecidableEq α] (d : α) (m : SMap α) (k : Nat) (v : α) : SMap α :=
  if v = d then smDrop m k else smPut m k v

/-- Changes the value at address `k`. -/
def smMod {α : Type} [DecidableEq α] (d : α) (m : SMap α) (k : Nat) (f : α → α) : SMap α :=
  smSet d m k (f (smGet d m k))

/-- Changes each address of a list in turn. -/
def smModAll {α : Type} [DecidableEq α] (d : α) (m : SMap α) : List Nat → (Nat → α → α) → SMap α
  | [], _ => m
  | k :: ks, f => smModAll d (smMod d m k (f k)) ks f

/-- The addresses are strictly rising and lie above `lo`. -/
def smSorted {α : Type} : Nat → SMap α → Bool
  | _, [] => true
  | lo, (a, _) :: m => decide (lo ≤ a) && smSorted (a + 1) m

/-- The canonical form: addresses strictly rising, and no entry equal to the unlisted value. -/
def smWf {α : Type} [DecidableEq α] (d : α) (m : SMap α) : Bool :=
  smSorted 0 m && m.all (fun e => decide (e.2 ≠ d))

/-- The entries that bytes at rising addresses list. -/
def smListBytes : Nat → List Byte → SMap Byte
  | _, [] => []
  | a, b :: bs => if b = 0 then smListBytes (a + 1) bs else (a, b) :: smListBytes (a + 1) bs

/-- The entries from address `k` on. -/
def smFrom {α : Type} : SMap α → Nat → SMap α
  | [], _ => []
  | (a, v) :: m, k => if a < k then smFrom m k else (a, v) :: m

/-- The entries below address `k`. -/
def smUpTo {α : Type} : SMap α → Nat → SMap α
  | [], _ => []
  | (a, v) :: m, k => if a < k then (a, v) :: smUpTo m k else []

/-- Writes bytes at rising addresses. -/
def smWriteBytes (m : SMap Byte) (a : Nat) (bs : List Byte) : SMap Byte :=
  smUpTo m a ++ smListBytes a bs ++ smFrom m (a + bs.length)

/-- Reads `n` bytes from address `a` of a store that lists nothing below it. -/
def smRun : Nat → Nat → SMap Byte → List Byte
  | 0, _, _ => []
  | n + 1, a, [] => 0 :: smRun n (a + 1) []
  | n + 1, a, (k, v) :: m => if k = a then v :: smRun n (a + 1) m else 0 :: smRun n (a + 1) ((k, v) :: m)

/-- Reads `n` bytes at rising addresses. -/
def smReadBytes (m : SMap Byte) (a n : Nat) : List Byte := smRun n a (smFrom m a)

/-- Removes every entry whose address lies in `[a, a + n)`. -/
def smClearRange {α : Type} (m : SMap α) (a n : Nat) : SMap α :=
  m.filter (fun e => !(decide (a ≤ e.1) && decide (e.1 < a + n)))

end Sys2Proof.Machine
end

