-- ==== Sys2Proof/Machine/Regs.lean ====
section
/-! DEFINITION. The published registers: addresses, fields, access types and reset values (R4, R9 to R12, R510), and the
rules by which a write reaches a register (R10, R11). -/

namespace Sys2Proof.Machine

/-- Access types (R11). -/
inductive Acc where
  | rw | ro | wo | w1c | w1s | rws | rwl
  deriving DecidableEq, Repr

/-- A field of a register: bits `[msb:lsb]`, access, reset value, and the range of encodings that are not reserved. -/
structure Fld where
  msb : Nat
  lsb : Nat
  acc : Acc
  reset : Nat
  lo : Nat
  hi : Nat
  deriving DecidableEq, Repr

/-- A field every encoding of which is allowed. -/
def fld (msb lsb : Nat) (acc : Acc) (reset : Nat) : Fld :=
  { msb := msb, lsb := lsb, acc := acc, reset := reset, lo := 0, hi := 2 ^ (msb + 1 - lsb) - 1 }

/-- A field whose allowed encodings are `lo` to `hi`. -/
def fldIn (msb lsb : Nat) (acc : Acc) (reset lo hi : Nat) : Fld :=
  { msb := msb, lsb := lsb, acc := acc, reset := reset, lo := lo, hi := hi }

/-- A register of one 32-bit field. -/
def whole (acc : Acc) (reset : Nat) : List Fld := [fld 31 0 acc reset]

/-- The index of address `a` in an array of `count` registers at `base`, `stride` apart. -/
def arrIdx (base stride count a : Nat) : Option Nat :=
  if base ≤ a ∧ a < base + stride * count ∧ (a - base) % stride = 0 then some ((a - base) / stride) else none

/-- `TOP_EVT` and the other event registers. -/
def aTopEvt : Nat := 0x8
def aHifEvt : Nat := 0x00100010
def aMtxEvt : Nat := 0x00300010
def aClkEvt : Nat := 0x00400010
def aPtpEvt : Nat := 0x00500010
def aMpEvt (n : Nat) : Nat := 0x00600010 + 0x10000 * n
def aFabEvt : Nat := 0x00700010
def aHgtEvt : Nat := 0x00800010
def aGeoEvt : Nat := 0x00900010
def aPairEvt : Nat := 0x00A00010
def aCisEvt : Nat := 0x00B00010
def aCorEvt : Nat := 0x00C00010
def aSchEvt : Nat := 0x00D00010
def aDspEvt : Nat := 0x00E00010
def aDrcEvt : Nat := 0x00F00010
def aLauEvt : Nat := 0x01000010
def aDpxEvt : Nat := 0x01100010
def aLgrEvt : Nat := 0x01200010

/-- Always-on page (R514). -/
def aTopTherm : Nat := 0xC
def aAbortCtl : Nat := 0x10
def aAbortStat : Nat := 0x14
def aRwinAddr : Nat := 0x20
def aRwinData : Nat := 0x24
def aRwinCtl : Nat := 0x28
def aWrstReq : Nat := 0x30
def aDbKick : Nat := 0x38
def aLgrRptr : Nat := 0x40
def aSramCe : Nat := 0x70
def aSramUe : Nat := 0x74
def aSramInfo : Nat := 0x78
def aSramAddr : Nat := 0x7C
def aBootAddrLo : Nat := 0x80
def aBootAddrHi : Nat := 0x84
def aBootLen : Nat := 0x88
def aBootStat : Nat := 0x8C
def aRstStat : Nat := 0x90

/-- HIF (R338). -/
def aHifCtl : Nat := 0x00100000
def aDbBaseLo : Nat := 0x00100020
def aEvrBaseLo : Nat := 0x00100030
def aEvrCfg : Nat := 0x00100038
def aSq (n off : Nat) : Nat := 0x00101000 + 0x20 * n + off
def aCq (n off : Nat) : Nat := 0x00102000 + 0x20 * n + off

/-- IRQ (R377). -/
def aIrqStat : Nat := 0x00200010
def aIrqMask (w : Nat) : Nat := 0x00200120 + 4 * w
def aIrqMset : Nat := 0x00200140
def aIrqMclr : Nat := 0x00200144
def aIrqSwi : Nat := 0x00200180
def aIrqSwiSet : Nat := 0x00200184
def aIrqTgt (t : Nat) : Nat := 0x00200400 + 4 * t
def aIrqSrc (n : Nat) : Nat := 0x00201000 + 4 * n
def aIrqClaim (n : Nat) : Nat := 0x00202000 + 0x10 * n
def aIrqEoi (n : Nat) : Nat := 0x00202004 + 0x10 * n

/-- MTX (R387). -/
def aMtxInfo : Nat := 0x00300014
def aMtxAddrLo : Nat := 0x00300018
def aMtxAddrHi : Nat := 0x0030001C
def aRwinDwin : Nat := 0x00300020
def aSvcDwin : Nat := 0x00300024

/-- STW and DSP (R350, R360, R367). -/
def aStwHb : Nat := 0x00E00014
def aHbMask : Nat := 0x00E00018
def aSvcLim : Nat := 0x00E0001C
def aSrcPrio : Nat := 0x00E00020
def aStwDwin (n : Nat) : Nat := 0x00E00100 + 4 * n
def aDsp (n off : Nat) : Nat := 0x00E10000 + 0x100 * n + off
def aCpl (n off : Nat) : Nat := 0x00E20000 + 0x20 * n + off

/-- Render domain and other blocks. -/
def aGeoSeg (n off : Nat) : Nat := 0x00901000 + 0x40 * n + off
def aGeoC : Nat := 0x00900024
def aGeoKfs : Nat := 0x00900028
def aGeoPass : Nat := 0x00900034
def aAuditCtl : Nat := 0x00A00014
def aAuditStat : Nat := 0x00A00018
def aCisStat : Nat := 0x00B00014
def aCorStat : Nat := 0x00C00014
def aLoadStat : Nat := 0x00D00030
def aGuardStat : Nat := 0x00D00034
def aGuardTrLo : Nat := 0x00D00038
def aGuardTrHi : Nat := 0x00D0003C
def aGuardCnt : Nat := 0x00D00040
def aPwrLimit : Nat := 0x00D00044
def aDrcCtl : Nat := 0x00F00000
def aDrcStat : Nat := 0x00F00014
def aDrcUe : Nat := 0x00F00018
def aDrcInfo : Nat := 0x00F0001C
def aDrcAddrLo : Nat := 0x00F00020
def aDrcAddrHi : Nat := 0x00F00024
def aDrcCfg : Nat := 0x00F00028
def aDrcRef (c : Nat) : Nat := 0x00F00100 + 4 * c
def aDrcCe (c : Nat) : Nat := 0x00F00120 + 4 * c
def aDrcTrain (l : Nat) : Nat := 0x00F00200 + 4 * l
def aMonClear : Nat := 0x01000018
def aDpxCtl : Nat := 0x01100018
def aDpxDivLo : Nat := 0x0110001C
def aDpxDivHi : Nat := 0x01100020
def aDpxSkew : Nat := 0x01100024
def aFabAddr : Nat := 0x00700014
def aFabCtl : Nat := 0x00700020
def aClkAlarm : Nat := 0x00400034
def aClkOut : Nat := 0x00400038
def aPtpQovf : Nat := 0x00500018
def aSvcRwinAddr : Nat := 0x01300000
def aSvcRwinData : Nat := 0x01300004
def aSvcRwinCtl : Nat := 0x01300008
def aSvcMask : Nat := 0x01300010
def aSvcRptr : Nat := 0x01300020

/-- Fields of the always-on page (R334 to R337, R477, R488, R489, R515 to R517). -/
def topFields (a : Nat) : Option (List Fld) :=
  if a = aTopEvt then some [fld 5 0 .w1c 0]
  else if a = aTopTherm then some [fld 23 16 .ro 0, fldIn 15 8 .rws 110 60 120, fld 7 0 .ro 0x80]
  else if a = aAbortCtl then some [fldIn 31 30 .wo 0 0 2, fld 19 16 .wo 0, fld 15 0 .wo 0]
  else if a = aRwinAddr then some [fld 31 2 .rw 0]
  else if a = aRwinData then some (whole .rw 0)
  else if a = aRwinCtl then some [fld 31 31 .ro 0, fld 30 29 .ro 0, fld 1 1 .wo 0, fld 0 0 .w1s 0]
  else if a = aWrstReq then some [fld 31 16 .wo 0, fld 0 0 .wo 0]
  else if a = aDbKick then some (whole .wo 0)
  else if a = aLgrRptr then some [fld 31 31 .rw 0, fld 16 0 .rw 0]
  else if a = aSramInfo then some [fld 31 31 .w1c 0, fld 23 16 .ro 0, fld 15 8 .ro 0]
  else if a = aBootAddrLo then some [fld 31 6 .rw 0]
  else if a = aBootAddrHi then some (whole .rw 0)
  else if a = aBootLen then some [fld 31 31 .w1s 0, fldIn 20 0 .rw 0 64 1048576]
  else if a = 0 ∨ a = 4 ∨ a = aAbortStat ∨ a = aSramCe ∨ a = aSramUe ∨ a = aSramAddr ∨ a = aBootStat ∨ a = aRstStat
      ∨ a = 0x94 ∨ a = 0x98 ∨ (arrIdx 0x44 4 8 a).isSome then some (whole .ro 0)
  else none

/-- Fields of the HIF block (R338). -/
def hifFields (a : Nat) : Option (List Fld) :=
  if a = aHifCtl then some [fld 0 0 .rw 0]
  else if a = aHifEvt then some [fld 7 0 .w1c 0]
  else if a = aDbBaseLo then some [fld 31 12 .rw 0]
  else if a = aDbBaseLo + 4 then some (whole .rw 0)
  else if a = aEvrBaseLo then some [fld 31 6 .rw 0]
  else if a = aEvrBaseLo + 4 then some (whole .rw 0)
  else if a = aEvrCfg then some [fldIn 27 16 .rw 0 1 4095, fld 0 0 .rw 0]
  else if (arrIdx (aSq 0 0) 0x20 16 a).isSome then some [fld 31 6 .rw 0]
  else if (arrIdx (aSq 0 4) 0x20 16 a).isSome then some (whole .rw 0)
  else if (arrIdx (aSq 0 8) 0x20 16 a).isSome then
    some [fldIn 27 16 .rw 0 1 4095, fld 11 8 .rw 0, fld 6 4 .rw 0, fld 0 0 .rw 0]
  else if (arrIdx (aCq 0 0) 0x20 16 a).isSome then some [fld 31 6 .rw 0]
  else if (arrIdx (aCq 0 4) 0x20 16 a).isSome then some (whole .rw 0)
  else if (arrIdx (aCq 0 8) 0x20 16 a).isSome then
    some [fldIn 27 16 .rw 0 1 4095, fld 13 8 .rw 0, fld 1 1 .rw 0, fld 0 0 .rw 0]
  else if (arrIdx (aCq 0 0xC) 0x20 16 a).isSome then some [fld 31 24 .rw 1, fld 15 0 .rw 0]
  else if a = 0x00100004 ∨ a = 0x0010003C ∨ (arrIdx (aSq 0 0xC) 0x20 16 a).isSome
      ∨ (arrIdx (aCq 0 0x10) 0x20 16 a).isSome then some (whole .ro 0)
  else none

/-- Fields of the IRQ block (R377). -/
def irqFields (a : Nat) : Option (List Fld) :=
  if (arrIdx (aIrqMask 0) 4 8 a).isSome then some (whole .rw 0)
  else if a = aIrqMset ∨ a = aIrqMclr then some [fld 7 0 .wo 0]
  else if a = aIrqSwi then some [fld 15 0 .w1c 0]
  else if a = aIrqSwiSet then some [fld 15 0 .w1s 0]
  else if (arrIdx (aIrqTgt 0) 4 80 a).isSome then some [fld 19 16 .ro 0, fld 3 0 .rw 0]
  else match arrIdx (aIrqSrc 0) 4 256 a with
    | some n => some [fldIn 22 16 .rw (if 16 ≤ n ∧ n < 32 then n - 16 else 0) 0 79, fld 3 0 .rw 0]
    | none =>
      if (arrIdx (aIrqEoi 0) 0x10 16 a).isSome then some [fld 7 0 .wo 0]
      else if a = aIrqStat ∨ (arrIdx 0x00200100 4 8 a).isSome ∨ (arrIdx 0x00200160 4 8 a).isSome
        ∨ (arrIdx (aIrqClaim 0) 0x10 16 a).isSome then some (whole .ro 0)
      else none

/-- Fields of the STW and DSP block (R349, R350, R355, R357, R360, R367). -/
def stwFields (a : Nat) : Option (List Fld) :=
  if a = aDspEvt then some [fld 5 0 .w1c 0]
  else if a = aStwHb then some (whole .wo 0)
  else if a = aHbMask then some [fld 15 0 .rw 0xFF]
  else if a = aSvcLim then some (whole .rw 8000000)
  else if a = aSrcPrio then some [fld 10 8 .rw 4, fld 6 4 .rw 6, fld 2 0 .rw 4]
  else if (arrIdx (aStwDwin 0) 4 16 a).isSome then some [fld 7 0 .rw 0]
  else if (arrIdx (aDsp 0 0) 0x100 16 a).isSome then some (whole .ro 0)
  else if (arrIdx (aDsp 0 4) 0x100 16 a).isSome then some (whole .wo 0)
  else if (arrIdx (aDsp 0 8) 0x100 16 a).isSome then some (whole .wo 0)
  else if (arrIdx (aDsp 0 0x10) 0x100 16 a).isSome then some [fld 31 16 .rw 0, fld 14 0 .rw 0]
  else if (arrIdx (aDsp 0 0x14) 0x100 16 a).isSome ∨ (arrIdx (aDsp 0 0x18) 0x100 16 a).isSome
      ∨ (arrIdx (aDsp 0 0x1C) 0x100 16 a).isSome then some (whole .rw 0)
  else if (arrIdx (aDsp 0 0x20) 0x100 16 a).isSome then some [fld 0 0 .wo 0]
  else if (arrIdx (aDsp 0 0x40) 0x100 16 a).isSome then some [fld 23 0 .rw 0xFFFFFF]
  else if (arrIdx (aDsp 0 0x48) 0x100 16 a).isSome then some [fld 23 16 .rw 0xFF, fld 1 0 .rw 0]
  else if (arrIdx (aDsp 0 0x24) 0x100 16 a).isSome ∨ (arrIdx (aDsp 0 0x30) 0x100 16 a).isSome
      ∨ (arrIdx (aDsp 0 0x34) 0x100 16 a).isSome ∨ (arrIdx (aDsp 0 0x38) 0x100 16 a).isSome
      ∨ (arrIdx (aDsp 0 0x3C) 0x100 16 a).isSome ∨ (arrIdx (aDsp 0 0x44) 0x100 16 a).isSome then some (whole .ro 0)
  else if (arrIdx (aCpl 0 0) 0x20 16 a).isSome then some [fld 9 0 .rw 0]
  else if (arrIdx (aCpl 0 4) 0x20 16 a).isSome then some (whole .rw 0)
  else if (arrIdx (aCpl 0 8) 0x20 16 a).isSome then some [fldIn 31 30 .wo 0 0 2, fld 23 16 .wo 0, fld 15 0 .wo 0]
  else if (arrIdx (aCpl 0 0xC) 0x20 16 a).isSome ∨ (arrIdx (aCpl 0 0x10) 0x20 16 a).isSome then some (whole .ro 0)
  else none

/-- Fields of the CLK, PTP, MP and FAB blocks (R240, R267, R268, R302 to R304). -/
def mediaFields (a : Nat) : Option (List Fld) :=
  if a = aClkEvt then some [fld 7 0 .w1c 0]
  else if a = aClkAlarm then some [fld 7 1 .rw 0]
  else if a = aClkOut then some [fld 2 2 .rw 0, fldIn 1 0 .rw 0 0 2]
  else if a = 0x00400014 ∨ a = 0x00400018 ∨ (arrIdx 0x0040001C 4 6 a).isSome ∨ a = 0x0040003C ∨ a = 0x00400040 then
    some (whole .ro 0)
  else if a = aPtpEvt then some [fld 8 0 .w1c 0]
  else if (arrIdx 0x00500014 4 7 a).isSome ∨ (arrIdx 0x00500100 4 16 a).isSome ∨ (arrIdx 0x00500140 4 6 a).isSome then
    some (whole .ro 0)
  else if (arrIdx (aMpEvt 0) 0x10000 4 a).isSome then some [fld 5 0 .w1c 0]
  else if a = aFabEvt then some [fld 11 0 .w1c 0]
  else if a = aFabAddr then some [fld 16 16 .rw 0, fld 15 0 .rw 0]
  else if a = aFabCtl then some [fld 1 1 .ro 0, fld 0 0 .rw 0]
  else if a = 0x00700018 ∨ a = 0x0070001C ∨ a = 0x00700024 ∨ a = 0x00700028 then some (whole .ro 0)
  else none

/-- Fields of the HGT, GEO, PAIR, CIS, COR and SCH blocks (R56, R57, R92, R93, R127 to R129, R162, R163, R205). -/
def renderFields (a : Nat) : Option (List Fld) :=
  if a = aHgtEvt ∨ a = aGeoEvt ∨ a = aPairEvt then some [fld 6 0 .w1c 0]
  else if a = 0x00900020 ∨ a = aGeoC ∨ a = aGeoKfs ∨ a = 0x00900030 ∨ a = aGeoPass then some (whole .ro 0)
  else if 0x00901000 ≤ a ∧ a < 0x00901400 ∧ a % 4 = 0 then
    if a % 0x40 < 0x30 then some (whole .rw 0)
    else if a % 0x40 = 0x30 then some [fld 0 0 .w1s 0]
    else if a % 0x40 = 0x34 then some (whole .ro 0) else none
  else if a = aAuditCtl then some [fld 1 1 .rw 1, fld 0 0 .rw 1]
  else if a = aAuditStat ∨ a = 0x00A0001C then some (whole .ro 0)
  else if a = aCisEvt then some [fld 3 0 .w1c 0]
  else if a = aCisStat then some (whole .ro 0)
  else if a = aCorEvt ∨ a = aSchEvt then some [fld 5 0 .w1c 0]
  else if a = aCorStat then some [fld 22 16 .ro 0, fld 15 0 .ro 0xFFFF]
  else if a = 0x00C00018 ∨ a = 0x00C0001C ∨ a = 0x00C00020 then some (whole .ro 0)
  else if a = 0x00D00028 ∨ a = 0x00D0002C then some (whole .ro 0xFFFFFFFF)
  else if a = aPwrLimit then some [fld 15 0 .rwl 0]
  else if (arrIdx 0x00D00014 4 15 a).isSome then some (whole .ro 0)
  else none

/-- Fields of the DRC, LAU, DPX, LGR, SVC and MTX blocks (R387, R410, R437, R455, R474, R478). -/
def miscFields (a : Nat) : Option (List Fld) :=
  if a = aMtxEvt then some [fld 3 0 .w1c 0]
  else if a = aMtxInfo then some [fld 31 31 .w1c 0, fld 19 16 .ro 0, fld 15 12 .ro 0, fld 11 8 .ro 0, fld 7 7 .ro 0, fld 4 0 .ro 0]
  else if a = aMtxAddrLo ∨ a = aMtxAddrHi then some (whole .ro 0)
  else if a = aRwinDwin ∨ a = aSvcDwin then some [fld 7 0 .rw 0]
  else if a = aDrcCtl then some [fld 1 1 .rw 1, fld 0 0 .w1s 0]
  else if a = aDrcEvt then some [fld 7 0 .w1c 0]
  else if a = aDrcInfo then some [fld 31 31 .w1c 0, fld 26 24 .ro 0, fld 23 20 .ro 0, fld 15 8 .ro 0]
  else if a = aDrcCfg then some [fldIn 31 24 .rw 24 1 255, fld 15 0 .rw 0x100]
  else if a = aDrcStat ∨ a = aDrcUe ∨ a = aDrcAddrLo ∨ a = aDrcAddrHi ∨ (arrIdx (aDrcRef 0) 4 16 a).isSome
      ∨ (arrIdx (aDrcTrain 0) 4 16 a).isSome then some (whole .ro 0)
  else if a = aLauEvt then some [fld 12 0 .w1c 0]
  else if a = 0x01000014 then some (whole .ro 0)
  else if a = aMonClear then some [fld 23 0 .rws 0]
  else if a = aDpxEvt then some [fld 7 0 .w1c 0]
  else if a = aDpxCtl then some [fld 0 0 .rw 1]
  else if a = 0x01100014 ∨ a = aDpxDivLo ∨ a = aDpxDivHi ∨ a = aDpxSkew then some (whole .ro 0)
  else if a = aLgrEvt then some [fld 4 0 .w1c 0]
  else if (arrIdx 0x01200014 4 6 a).isSome then some (whole .ro 0)
  else if a = aSvcRwinAddr then some [fld 31 2 .rw 0]
  else if a = aSvcRwinData then some (whole .rw 0)
  else if a = aSvcRwinCtl then some [fld 31 31 .ro 0, fld 30 29 .ro 0, fld 1 1 .wo 0, fld 0 0 .w1s 0]
  else if a = aSvcMask then some [fld 22 22 .rws 1, fld 21 21 .rws 1, fld 20 13 .rws 0xFF, fld 12 8 .rws 0x1F, fld 5 0 .rws 0x3F]
  else if a = aSvcRptr then some [fld 31 31 .rw 0, fld 16 0 .rw 0]
  else if (arrIdx 0x01300024 4 8 a).isSome then some (whole .ro 0)
  else none

/-- The 1 MiB block of an address (R510). -/
def blockIdx (a : Nat) : Nat := a / 0x100000

/-- The fields of the published register at an address (R510); `none`: no published register lies there. -/
def regFields (a : Nat) : Option (List Fld) :=
  match blockIdx a with
  | 0 => topFields a
  | 1 => hifFields a
  | 2 => irqFields a
  | 4 => mediaFields a
  | 5 => mediaFields a
  | 6 => mediaFields a
  | 7 => mediaFields a
  | 8 => renderFields a
  | 9 => renderFields a
  | 10 => renderFields a
  | 11 => renderFields a
  | 12 => renderFields a
  | 13 => renderFields a
  | 14 => stwFields a
  | _ => miscFields a

/-- A block that holds runtime registers beside its published ones (R510, R512). -/
def hasRuntime (a : Nat) : Bool := decide (blockIdx a ∈ [1, 3, 4, 5, 6, 7, 8, 9, 10, 11, 12, 13, 14, 15, 16, 17, 18])

/-- The reset value of a register (R12). -/
def regReset (a : Nat) : Word :=
  match regFields a with
  | some fs => fs.foldl (fun w f => Word.put w f.msb f.lsb f.reset) 0
  | none => 0

/-- The registers of the blocks served in D_AON, which a warm reset does not reset (R12, R511): TOP, CLK, DPX, LGR, SVC
and `LAU_MON_CLEAR`. -/
def isAon (a : Nat) : Bool := decide (blockIdx a ∈ [0, 4, 17, 18, 19]) || decide (a = aMonClear)

/-- A warm reset keeps the register: it is served in D_AON, or its fields are RWL (R12). -/
def warmKeeps (a : Nat) : Bool := isAon a || decide (a = aPwrLimit)

/-- The bits that the fields of a register cover. -/
def coverMask (fs : List Fld) : Nat := fs.foldl (fun m f => m + (2 ^ (f.msb + 1 - f.lsb) - 1) * 2 ^ f.lsb) 0

/-- A field takes part in the tests of R10: it can be written and is not a W1C or W1S mask. -/
def Fld.checked (f : Fld) : Bool := decide (f.acc ∈ [Acc.rw, Acc.wo, Acc.rws, Acc.rwl])

/-- The written value has no bit in a reserved field and no reserved encoding (R10). -/
def writeLegal (fs : List Fld) (v : Word) : Bool :=
  decide (v.toNat &&& (2 ^ 32 - 1 - coverMask fs) = 0) &&
  fs.all (fun f => !f.checked || (decide (f.lo ≤ Word.bits v f.msb f.lsb) && decide (Word.bits v f.msb f.lsb ≤ f.hi)))

/-- What a write leaves in one field (R11). W1S bits set; a locked RWL field (non-zero, R205) keeps its value. -/
def writeField (v old : Word) (f : Fld) : Word :=
  let x := Word.bits v f.msb f.lsb
  let o := Word.bits old f.msb f.lsb
  match f.acc with
  | .rw => Word.put old f.msb f.lsb x
  | .rws => Word.put old f.msb f.lsb x
  | .rwl => if o = 0 then Word.put old f.msb f.lsb x else old
  | .w1c => Word.put old f.msb f.lsb (o &&& (2 ^ 32 - 1 - x))
  | .w1s => Word.put old f.msb f.lsb (o ||| x)
  | .ro => old
  | .wo => old

/-- The register after a legal write (R11). -/
def writeWord (fs : List Fld) (old v : Word) : Word := fs.foldl (fun w f => writeField v w f) old

end Sys2Proof.Machine
end

