-- ==== Sys2Proof/Machine/State.lean ====
section
/-! DEFINITION. The state of the part as plain data, block by block, with the values after reset as the fields' defaults,
the queue of waiting commands, and the reasons a step can stop. -/

namespace Sys2Proof.Machine

/-! ## What leaves the part -/

/-- What the owner of a host operation has to report (R360): the operation's token, completion status, RESULT, DETAIL. -/
structure OpOutcome where
  tok : Nat
  status : Nat
  result : Nat
  detail : Nat
  deriving DecidableEq, Repr

/-- What the part sends: MSI-X and PME messages, frames on Bruon links and media ports, duplex strobes, samples and
presses on pins that no register shows. -/
inductive OutMsg where
  | msix (vector addr data : Nat)
  | pme
  | link (l : Nat) (bytes : List Byte)
  | linkAbort (l : Nat)
  | tick (l marker low24 delay : Nat)
  | media (port : Nat) (bytes : List Byte)
  | sap (port : Nat) (index : Nat) (samples : List Int)
  | dpxStrobe (wide : Bool)
  deriving DecidableEq, Repr

/-! ## Host interface (R306 to R338) -/

/-- State of an operation in flight (R322). -/
inductive OpState where
  | queued | started | committed
  deriving DecidableEq, Repr

/-- An operation in flight (R314, R322): its submission entry, the state, the steward that last held its item, a pending
abort notice, the expiry of TIMEOUT_MS, whether the dispatcher has its item (a fenced one waits, R359), whether its
completion is held (R318), and whether a host-interface reset discarded it (R332). -/
structure Op where
  tok : Nat
  sq : Nat
  cid : Nat
  opcode : Nat
  fence : Bool
  timeoutMs : Nat
  entry : List Byte
  st : OpState
  owner : Nat
  notice : Bool
  tmo : Bool
  added : Bool
  done : Bool
  orphan : Bool
  deriving DecidableEq, Repr

/-- A completion not yet written (R316). -/
structure Cpl where
  tok : Nat
  sq : Nat
  cid : Nat
  opcode : Nat
  status : Nat
  result : Nat
  detail : Nat
  uncertain : Bool
  deriving DecidableEq, Repr

/-- A submission ring (R309, R327); `disableToks`: the HIF_SQ_DISABLEs that wait for its disable. -/
structure SqRing where
  enabled : Bool := false
  disabling : Bool := false
  err : Bool := false
  head : Nat := 0
  tail : Nat := 0
  disableToks : List Nat := []
  deriving DecidableEq, Repr

/-- A completion ring (R309, R317, R318, R329). -/
structure CqRing where
  enabled : Bool := false
  disabling : Bool := false
  err : Bool := false
  phase : Bool := false
  tail : Nat := 0
  head : Nat := 0
  held : List Cpl := []
  holding : Bool := false
  fullCnt : Nat := 0
  modCount : Nat := 0
  modTimer : Bool := false
  deriving DecidableEq, Repr

/-- The event ring (R330): `recs` are the source and target of the records that EVR_HEAD has not passed, oldest first. -/
structure EvRing where
  enabled : Bool := false
  err : Bool := false
  phase : Bool := false
  tail : Nat := 0
  head : Nat := 0
  fullCnt : Nat := 0
  holding : Bool := false
  recs : List (Nat × Nat) := []
  deriving DecidableEq, Repr

/-- An abort that has not answered (R324): the token of the HIF_ABORT operation (`none`: `TOP_ABORT_CTL`), the operations
whose owners have a notice, the number ended, and whether one was uncertain. -/
structure AbortSess where
  src : Option Nat
  waiting : List Nat
  count : Nat
  unc : Bool
  deriving DecidableEq, Repr

/-- The host interface: rings, serialiser, abort engine, poller, PCIe function (R306 to R332) and the counts of HIF_STATUS (R321).
`notices`: tokens in the order of their abort notices; `rr`: by PRIO, the ring last fetched from; `l1Exit`: an exit from L1 has begun;
`msixTab`: address and data of a vector. -/
structure Hif where
  sq : SMap SqRing := []
  cq : SMap CqRing := []
  evr : EvRing := {}
  ops : List Op := []
  ended : List (Nat × Nat) := []
  aborts : List AbortSess := []
  notices : List Nat := []
  rr : SMap Nat := []
  doorbell : List Word := []
  fastPoll : Bool := true
  lastChange : Nat := 0
  bme : Bool := false
  d3 : Bool := false
  inL1 : Bool := false
  pmeEn : Bool := false
  pmeStatus : Bool := false
  mps : Nat := 128
  mrrs : Nat := 512
  l1En : Bool := false
  l1Exit : Bool := false
  msixEn : Bool := false
  funcMask : Bool := false
  unmasked : List Nat := []
  msixTab : SMap (Nat × Nat) := []
  msixPend : List Nat := []
  dueVec : List Nat := []
  nPolls : Nat := 0
  nPollFail : Nat := 0
  nCqHold : Nat := 0
  nEvrHold : Nat := 0
  nInbound : Nat := 0
  nUncertain : Nat := 0
  nLinkReset : Nat := 0
  deriving DecidableEq, Repr

/-! ## Stewards and dispatcher (R340 to R367) -/

/-- Where a work item is: waiting in its flow, on its ready list, or in service at a core (R348). -/
inductive ItemSt where
  | waiting
  | ready
  | inService (core : Nat)
  deriving DecidableEq, Repr

/-- A work item (R346): its words, its place in its flow (`seq`) and on its ready list (`rseq`), the core it is reserved
to (R353), the host operation or frame buffer it carries, and whether LONG has been raised for it (R363). -/
structure Item where
  flow : Nat
  prio : Nat
  kind : Nat
  source : Nat
  param : Nat
  ptr : Nat
  len : Nat
  tag : Nat
  seq : Nat
  rseq : Nat
  st : ItemSt
  resv : Option Nat
  long : Bool
  deriving DecidableEq, Repr

/-- A flow's settings and the core that last completed or forwarded one of its items (R347, R353). -/
structure FlowCfg where
  parallel : Bool := false
  affWin : Nat := 256
  last : Option Nat := none
  deriving DecidableEq, Repr

/-- What runs on a core (R342, R345, R364). -/
inductive CoreRun where
  | held | boot | afinal | user | parked | halted
  deriving DecidableEq, Repr

/-- A steward core: what runs on it, its place among the cores waiting in get-work with the byte enables of the stalled read (R9), the
grants counted (R366), whether its heartbeat has been seen within the last 10 ms (R362), and what R340 gives a core: user mode, the PMP regions
(configuration and address), the counters, and the cause and address of the last access fault. -/
structure CoreSt where
  run : CoreRun := .held
  waiting : Option Nat := none
  be : BitVec 4 := 15
  grants : Nat := 0
  hb : Bool := false
  user : Bool := false
  pmp : SMap (Nat × Nat) := []
  cycle : Nat := 0
  time : Nat := 0
  instret : Nat := 0
  fault : Option (Nat × Nat) := none
  deriving DecidableEq, Repr

/-- A firmware image staged and verified in control SRAM (R344). -/
structure FwImage where
  version : Nat
  entry : Nat
  bytes : List Byte
  deriving DecidableEq, Repr

/-- A stop of user cores under way (R364): the cores, the descriptor's token, and whether the staged image starts on them
afterwards (R345). -/
structure StopJob where
  cores : List Nat
  tok : Nat
  start : Bool
  deriving DecidableEq, Repr

/-- The stewards and the work dispatcher. -/
structure Stw where
  core : SMap CoreSt := [(0, { run := .boot })]
  items : SMap Item := []
  nextSeq : Nat := 0
  flows : SMap FlowCfg := []
  fbFree : Nat := 512
  fbUsed : List Nat := []
  rxNoItem : Nat := 0
  rxNoBuf : Nat := 0
  badHandle : Nat := 0
  itemLost : Nat := 0
  poolLow : Bool := false
  alive : Bool := false
  firstHb : Bool := false
  staged : Option FwImage := none
  stops : List StopJob := []
  afinalVer : Nat := 0
  userVer : Nat := 0
  itcm : SMap Byte := []
  dtcm : SMap Byte := []
  sram : SMap Byte := []
  deriving DecidableEq, Repr

/-! ## Interrupt controller and bus matrix (R369 to R388) -/

/-- The interrupt controller: sources in service with their targets, the claim doorbells, the rotation pointer, BAD_EOI. -/
structure Irq where
  inSvc : List (Nat × Nat) := []
  bell : SMap Nat := []
  rot : Nat := 79
  badEoi : Nat := 0
  deriving DecidableEq, Repr

/-- A request that its master's port holds back (R384, R386): its transaction, the word and byte enables of a write, the master, and the
register window that waits for it. -/
structure HeldReq where
  txn : Txn
  data : Word
  be : BitVec 4
  by_ : Master
  win : Option Bool
  deriving DecidableEq, Repr

/-- The bus matrix: transactions without an answer (their credits and ID holdback, R384), timed-out ones whose late
response is awaited (R385), the masters whose converters are finishing a burst (R386), and the requests held back, oldest first. -/
structure Mtx where
  pending : List Txn := []
  late : List Txn := []
  draining : List Nat := []
  held : List HeldReq := []
  deriving DecidableEq, Repr

/-! ## Ledger, thermal and reset (R457 to R478, R483 to R489) -/

/-- A ledger record (R457), its CRC left to the moment it is stored. -/
structure LRec where
  code : Nat
  sev : Nat
  host : Bool
  pt : Nat
  poc : Nat
  seq : Nat
  p1 : Nat
  p2 : Nat
  p3 : Nat
  deriving DecidableEq, Repr

/-- A journal slot in use: the slot, its record, and whether reclaim has placed it (R462). -/
structure JEnt where
  slot : Nat
  record : LRec
  placed : Bool
  deriving DecidableEq, Repr

/-- The newest checkpoint in flash (R460). -/
structure Ckpt where
  pt : Nat
  poc : Nat
  dropped : Nat
  clears : Nat
  nonce : Nat
  deriving DecidableEq, Repr

/-- The limiter of a record with "first within each 1,024 s" (R519): window of the last record and events since. -/
structure LimEnt where
  win : Option Nat := none
  cnt : Nat := 0
  deriving DecidableEq, Repr

/-- The ledger engine and its flash: `region` lists the record slots that are not erased, as stored. -/
structure Lgr where
  queue : List LRec := []
  region : SMap (List Byte) := []
  next : Nat := 0
  newest : Option Nat := none
  journal : List JEnt := []
  jnext : Nat := 0
  retired : List Nat := []
  retry : Bool := false
  eraseRetry : Option Nat := none
  ckpt : Option Ckpt := none
  ptime : Nat := 0
  poc : Nat := 1
  lossBound : Nat := 0
  seq : Nat := 0
  dropped : Nat := 0
  clears : Nat := 0
  nonce : Nat := 0
  ready : Bool := false
  full : Bool := false
  clearing : Bool := false
  clearTok : Option Nat := none
  lim : SMap LimEnt := []
  deriving DecidableEq, Repr

/-- Resets, straps, pins of D_AON, boot mailbox state, thermal sensor, JTAG and service port; the corrected errors of each on-die array
(R471). -/
structure Aon where
  porstLow : Bool := false
  warm : Bool := false
  warmCause : Nat := 0
  deferred : Option Nat := none
  wrstPin : Bool := false
  lastRst : Nat := 1
  bootSrc : Nat := 0
  primary : Bool := true
  bootBusy : Bool := false
  bootCheck : Nat := 0
  bootState : Nat := 0
  bootImg : Option (List Byte) := none
  alert : Bool := false
  hot : Bool := false
  trip : Bool := false
  silLow : Bool := false
  monClrLow : Bool := false
  tapInstr : Nat := 1
  extestOwn : Option Bool := none
  powered : Bool := true
  sramCe : SMap Nat := []
  deriving DecidableEq, Repr

/-! ## Clocks, time unit and media ports (R242 to R305) -/

/-- A reference of the selector (R247 to R252, R266): configuration, qualification state (0 OFF, 1 QUALIFYING,
2 QUALIFIED, 3 FAULT), monitors. Frequencies are in 0.01 ppb; edge times in the converter's 0.5 ns. `favgHist` lists the
measured offset of each of the last seconds, newest first; `srcBad`: a FAB reference's link is down or its index differs. -/
structure RefSt where
  enabled : Bool := false
  mode : Nat := 0
  bw : Nat := 0
  pullPpm : Nat := 50
  qualTime : Nat := 10
  w : Nat := 100
  rateLim : Nat := 10
  ofsLim : Nat := 20000
  relLim : Nat := 0
  q : Nat := 0
  cause : Nat := 0
  reject : Nat := 0
  periods : Nat := 0
  rejAt : List Nat := []
  lastEdge : Option Nat := none
  winOfs : Int := 0
  favg : Int := 0
  favgHist : List Int := []
  drift : Int := 0
  relOfs : Int := 0
  driftSecs : Nat := 0
  driftNow : Bool := false
  srcBad : Bool := false
  wtrFrom : Option Nat := none
  wtrDone : Bool := false
  deriving DecidableEq, Repr

/-- An accepted CLK_RATE that has not completed (R244, R245). -/
structure RateReq where
  tok : Nat
  rate : Nat
  src : Nat
  link : Nat
  n : Nat
  deriving DecidableEq, Repr

/-- The reference selector, the media rate and the tranche index (R244 to R261). `st`: 0 UNLOCKED, 1 LOCKED,
2 SWITCHING, 3 HOLDOVER, 4 WTR. `tidx` is the tranche index of the current period. -/
structure Clk where
  st : Nat := 0
  active : Nat := 7
  target : Nat := 0
  forced : Bool := false
  holdNoHist : Bool := false
  hadHold : Bool := false
  xoSuspect : Bool := false
  rateSet : Bool := false
  tidxValid : Bool := false
  rate : Nat := 1
  tidx : Nat := 0
  cutoffDone : Bool := false
  refs : SMap RefSt := [(1, { bw := 4 }), (2, { bw := 5 }), (3, { bw := 5 }), (4, { bw := 4 }), (5, { bw := 4 }), (6, { bw := 5 }), (7, { enabled := true, q := 2 })]
  selRef : Nat := 7
  order : List Nat := []
  revertive : Bool := true
  bleed : Bool := false
  bleedRate : Nat := 10
  wtr : Nat := 60
  mapLim : Nat := 0
  mapLimHot : Bool := false
  buildout : Int := 0
  hold : Int := 0
  since : Nat := 0
  mapOfs : Int := 0
  mapHist : List Int := []
  mapRate : Int := 0
  pendSel : List (Nat × Nat) := []
  swTok : Option Nat := none
  rateReq : List RateReq := []
  deriving DecidableEq, Repr

/-- An action armed on a trigger pin (R297): mode 0 at tranche `n`, 1 at a device time, 2 periodic. -/
structure Trig where
  tok : Nat
  mode : Nat
  pol : Bool
  n : Nat
  time : Nat
  period : Nat
  width : Nat
  deriving DecidableEq, Repr

/-- A report of a departed PTP event message (R292, R304). -/
structure PtpRpt where
  msgType : Nat
  domain : Nat
  seqId : Nat
  time : Nat
  deriving DecidableEq, Repr

/-- A captured edge (R298). -/
structure TCap where
  pin : Nat
  edge : Nat
  time : Nat
  tidx : Nat
  cycle : Nat
  deriving DecidableEq, Repr

/-- The time unit (R288 to R304). `st`: 0 DISABLED, 1 LISTENING, 2 ACQUIRING, 3 LOCKED, 4 FREERUN. `dt` is device time in
ns, `dtFrac` its 32-bit fraction; rates are in 0.01 ppb; offsets in ns. `gmKnown`: a grandmaster has been selected since PTP was enabled;
`gmRec`: the one whose record waits for its first offset; `freq`, `phase`: the terms of the rate; `sent`: sequenceId and inserted stamp of the
last Delay_Req; `nPeer`: peer-delay messages (R289, R293, R296, R305). -/
structure Ptp where
  enabled : Bool := false
  profile : Nat := 0
  portA : Nat := 0
  portB : Nat := 255
  domain : Nat := 127
  ppsEn : Bool := false
  hybrid : Bool := false
  delayIv : Int := -3
  annTmo : Nat := 3
  syncTmo : Nat := 4
  bw : Nat := 2
  lockWin : Nat := 10000
  slewLim : Nat := 20
  outlier : Nat := 5000
  asymA : Int := 0
  asymB : Int := 0
  st : Nat := 0
  dt : Nat := 0
  dtFrac : Nat := 0
  valid : Bool := false
  stepArmed : Bool := false
  gmChange : Bool := false
  awaitGm : Bool := false
  gmKnown : Bool := false
  gmRec : Option Nat := none
  freq : Int := 0
  phase : Int := 0
  rho : Int := 0
  rhoHist : List Int := []
  lastOfs : Int := 0
  lastSync : Option (Int × Int) := none
  sent : Option (Nat × Nat) := none
  delays : List Int := []
  meanDelay : Int := 0
  predict : Int := 0
  outliersRow : Nat := 0
  last8 : List Int := []
  inWin : Nat := 0
  gm : Nat := 0
  masters : List AnnounceMsg := []
  viaB : Bool := false
  needFirst : Bool := true
  nSync : Nat := 0
  nOutlier : Nat := 0
  nSyncTmo : Nat := 0
  nStep : Nat := 0
  nGm : Nat := 0
  nPeer : Nat := 0
  qovf : Nat := 0
  rpt : SMap (List PtpRpt) := []
  tcapQ : List TCap := []
  tcapMask : Nat := 0
  tcapEdges : Nat := 0
  trig : SMap Trig := []
  pinHigh : List Nat := []
  deriving DecidableEq, Repr

/-- A queued frame of a media port (R284). `cls`: 0 PTP event, 1 media, 2 other; `stream` for media; `domain` for PTP. -/
structure TxFrame where
  cls : Nat
  stream : Nat
  bytes : List Byte
  seqId : Nat
  report : Bool
  domain : Nat := 0
  deriving DecidableEq, Repr

/-- The counters of a media port, in the order of MP_STATUS mode 0 (R301), by number. -/
structure MpPort where
  enabled : Bool := false
  fast : Bool := true
  fec : Bool := true
  pauseEn : Bool := false
  metaEn : Bool := false
  vlanEn : Bool := false
  vid : Nat := 0
  pcp : Nat := 5
  ptpPcp : Nat := 6
  ttl : Nat := 32
  ptpDscp : Nat := 46
  mac : Nat := 0
  metaPort : Nat := 30960
  ip : Nat := 0
  prefixLen : Nat := 0
  up : Bool := false
  locked : Bool := false
  paused : Bool := false
  quanta : Nat := 0
  queue : List TxFrame := []
  cnt : SMap Nat := []
  deriving DecidableEq, Repr

/-- One path of a receive stream (R276, R280). -/
structure RxPath where
  ref : Option Nat := none
  behind : Nat := 0
  lastTs : Nat := 0
  lastN : Nat := 0
  down : Bool := false
  deriving DecidableEq, Repr

/-- A receive stream (R275 to R280, R525). `store` holds the samples of the tranches to
come, by time index * 64 + channel; those of tranches below `handed` are in the assembly buffer. -/
structure RxStream where
  conf : Bool := false
  enabled : Bool := false
  pathBEn : Bool := false
  portA : Nat := 0
  portB : Nat := 0
  channels : Nat := 1
  pcode : Nat := 0
  pt : Nat := 96
  groupA : Nat := 0
  udpA : Nat := 0
  groupB : Nat := 0
  udpB : Nat := 0
  srcA : Nat := 0
  srcB : Nat := 0
  ssrc : Option Nat := none
  a : RxPath := {}
  b : RxPath := {}
  store : SMap (Option Int) := []
  handed : Nat := 0
  lastTs : Nat := 0
  minMargin : Option Int := none
  maxMargin : Option Int := none
  cnt : SMap Nat := []
  deriving DecidableEq, Repr

/-- A mapping of samples to time indices (R277). -/
structure RxMapping where
  rtpOfs : Nat := 0
  rxd : Nat := 144
  deriving DecidableEq, Repr

/-- A transmit stream's addressing and counters (R282, R301). -/
structure TxStream where
  enabled : Bool := false
  pt : Nat := 0
  dscp : Nat := 0
  dstA : Nat := 0
  dstB : Nat := 0
  macA : Nat := 0
  macB : Nat := 0
  udpDst : Nat := 0
  udpSrc : Nat := 0
  ssrc : Nat := 0
  rtpOfs : Nat := 0
  lastTs : Nat := 0
  cnt : SMap Nat := []
  deriving DecidableEq, Repr

/-- A tranche of a transmit staging channel (R281): the output tranche it holds, its 16 samples, the tranche check. -/
structure Stg where
  m : Nat
  xs : List Int
  chk : Nat
  whole : Bool
  deriving DecidableEq, Repr

/-- The media ports, receive and transmit streams, and transmit staging (`stg`: channel * 16 + tranche mod 16: the ring of R281 and the tranche being
written; `slips`: slips of the queues of audio, port * 2 from a port, + 1 to it, R26). -/
structure Mp where
  port : SMap MpPort := []
  rx : SMap RxStream := []
  strMap : SMap RxMapping := []
  setMap : SMap RxMapping := []
  tx : SMap TxStream := []
  stg : SMap (Option Stg) := []
  slips : SMap Nat := []
  deriving DecidableEq, Repr

/-! ## Duplex (R439 to R455) -/

/-- A cross-link frame of the peer (R450). -/
structure DpxFrame where
  n : Nat
  outDg : Nat
  inDg : Nat
  state : Nat
  cause : Nat
  armedN : Nat
  imageId : Nat
  seq : Nat
  deriving DecidableEq, Repr

/-- Digests of one tranche (R450). -/
structure DpxDg where
  n : Nat
  outDg : Nat
  inDg : Nat
  image : Nat
  fault : Bool
  deriving DecidableEq, Repr

/-- The duplex controller. `st`: 0 RELEASED, 1 CLAIMING, 2 DRIVING. `gap` is the first live tranche boundary and the held
output index of R446. -/
structure Dpx where
  en : Bool := false
  takeback : Bool := false
  hbFault : Bool := false
  tbHold : Nat := 30
  skewLim : Nat := 100
  pairAddr : Nat := 0
  agreeN : Nat := 16
  st : Nat := 0
  peerLow : Bool := false
  peerRel : Bool := false
  holdOff : Bool := false
  yieldSeen : Bool := false
  cause : Nat := 0
  faultSinceArm : Bool := false
  peer : Option DpxFrame := none
  peerFrames : List DpxFrame := []
  own : List DpxDg := []
  diverged : Bool := false
  divFirst : Nat := 0
  agreeRun : Nat := 0
  divTranches : Nat := 0
  syncOk : Bool := false
  syncEpisode : Bool := false
  lastSync : Nat := 0
  missing : Nat := 0
  roleConflict : Bool := false
  yields : Nat := 0
  armedN : Option (Nat × Nat) := none
  takebackN : Option Nat := none
  gap : Option (Nat × Nat) := none
  frameSeq : Nat := 0
  skew : Int := 0
  drove : Bool := false
  cnt : SMap Nat := []
  deriving DecidableEq, Repr

/-! ## Objects and geometry (R29, R43, R64 to R73) -/

/-- A point, direction or velocity of three binary32 values. -/
structure V3 where
  x : Word := 0
  y : Word := 0
  z : Word := 0
  deriving DecidableEq, Repr

/-- The source of an object channel (R32): type, source index, channel. -/
structure Src where
  ty : Nat := 0
  idx : Nat := 0
  ch : Nat := 0
  deriving DecidableEq, Repr

/-- Coefficients of a biquad section, Q2.30; the reset value is identity (R29). -/
structure Bqc where
  b0 : Int := 0x40000000
  b1 : Int := 0
  b2 : Int := 0
  a1 : Int := 0
  a2 : Int := 0
  deriving DecidableEq, Repr

/-- State of a biquad section (R40). -/
structure Bqz where
  x1 : Int := 0
  x2 : Int := 0
  y1 : Int := 0
  y2 : Int := 0
  deriving DecidableEq, Repr

/-- A trajectory segment (R43). `uid` counts acceptances, so that a CLEAR_SEGS names the segments it found (R521). -/
structure Seg where
  start : Nat
  len : Nat
  p0 : V3
  v : V3
  g0 : Word
  g1 : Word
  uid : Nat
  deriving DecidableEq, Repr

/-- A sample in the assembly buffer (R34): an s24 input, or with `fab` an s32 value of a fabric caravan (R38). -/
structure ASmp where
  v : Int
  fab : Bool
  deriving DecidableEq, Repr

/-- A block in storage format: 16 mantissas, a block exponent and the tranche check (R41, R42). Unlisted: the zero block. -/
structure Blk where
  m : List Int := [0, 0, 0, 0, 0, 0, 0, 0, 0, 0, 0, 0, 0, 0, 0, 0]
  e : Nat := 0
  chk : Nat := 0x98F2766E
  deriving DecidableEq, Repr

/-- A law record (R73). `ext` holds the 24 law-specific words from byte 32. -/
structure Law where
  law : Nat := 3
  distExp : Nat := 0
  focus : Nat := 0
  distDelay : Bool := false
  airEn : Bool := false
  visMode : Bool := false
  zoneMask : Nat := 0
  spreadK : Nat := 1
  lawGain : Word := 0x3F800000
  rmin : Word := 0x3F800000
  rref : Word := 0x3F800000
  visCos : Word := 0
  focusBias : Word := 0
  directDly : Word := 0
  ext : List Word := List.replicate 24 0
  deriving DecidableEq, Repr

/-- A change of an object's coarse delay in force (R121, R122): its N and C', and whether it is a transition; without one C' holds
from data tranche N on. -/
structure Trans where
  n : Nat
  c : Nat
  glide : Bool
  deriving DecidableEq, Repr

/-- An object (R29): source (`was`: the sources it had before, each with the tranche from which another governs, newest first),
conditioning, object table, assembly buffer (by time index), law, kernel, coarse delay, the
tranche closed at the last headgate boundary, the last conditioned tranche with its data tranche, and counters by
their offset in the status records (R55). -/
structure Obj where
  src : Src := {}
  was : List (Nat × Src) := []
  trim : Int := 0x10000000
  bq : List Bqc := [{}, {}, {}, {}]
  bz : List Bqz := [{}, {}, {}, {}, {}, {}]
  prefilt : Bool := false
  enable : Bool := false
  coastEn : Bool := false
  coastLim : Nat := 64
  active : Option Seg := none
  pend : List Seg := []
  asm : SMap ASmp := []
  whole : Bool := true
  closed : Option (Nat × List ASmp) := none
  stored : Option (Nat × Blk) := none
  law : Law := {}
  kernel : Nat := 0
  coarse : Nat := 0
  trans : List Trans := []
  cnt : SMap Nat := []
  deriving DecidableEq, Repr

/-- A speaker record (R66). -/
structure Spk where
  pos : V3 := {}
  axis : V3 := {}
  trim : Word := 0
  dly : Word := 0
  zone : Nat := 0
  taper : Nat := 0
  present : Bool := false
  excl : Bool := false
  invert : Bool := false
  deriving DecidableEq, Repr

/-- A zone record (R67). -/
structure Zone where
  cx : Word := 0
  cy : Word := 0
  r : Word := 0
  taper : List Word := List.replicate 64 0
  deriving DecidableEq, Repr

/-- A triangle record (R69); an unlisted triangle is empty. -/
structure Tri where
  o0 : Nat
  o1 : Nat
  o2 : Nat
  m : List Word
  deriving DecidableEq, Repr

/-- A pair value record (R61). -/
structure PRec where
  gain : Int
  fdelay : Nat
  air : Nat
  out : Nat
  djump : Bool
  hold : Bool
  deriving DecidableEq, Repr

/-- What a geometry pass has computed for an object (R74 to R78, R86, R177): position, gain, distance, focused zones
(`focOk`: decided for a Field object), held or masked, coasting, the crossing of this pass and of the last one, directions with their outputs and gains, and the merge. -/
structure GWork where
  p : V3
  g : Word
  r : Word
  foc : List Nat
  law : Nat
  held : Bool
  masked : Bool
  focOk : Bool
  crossAll : Bool
  crossZones : List Nat
  jumpAll : Bool
  jumpZones : List Nat
  coasting : Bool
  dirs : List (Nat × List (Nat × Word))
  merged : List (Nat × Word)
  nz : Nat
  deriving DecidableEq, Repr

/-- The geometry engine: venue tables (key: bank * size + index), the global record, the snapshot of the object table, the
pass in progress and the last one completed (`last` its tranche, `lastA` the slot counts of its objects), pair value records (key: (bank * 1024 + object) * 2048 + slot). -/
structure Geo where
  activeB : Nat := 0
  spk : SMap Spk := []
  zone : SMap Zone := []
  air : SMap Word := []
  tri : SMap Tri := []
  cube : SMap Word := []
  cand : SMap Nat := []
  candN : SMap Nat := []
  temp : Word := 0x41A00000
  pc : V3 := {}
  eps : Word := 0x35800000
  snap : SMap Obj := []
  work : SMap GWork := []
  prev : SMap GWork := []
  recs : SMap PRec := []
  fade : SMap Nat := []
  cnt : SMap Nat := []
  passC : Word := 0
  passK : Word := 0
  last : Option Nat := none
  lastA : List Nat := []
  deriving DecidableEq, Repr

/-! ## Pair engine and cistern (R95 to R130) -/

/-- A slot's state (R96): effective delay and air coefficient, filter output, and the gain and output it last rendered.
An unlisted slot is fresh (R85). -/
structure SlotSt where
  d : Nat := 0
  a : Nat := 0
  y : Int := 0
  g : Int := 0
  out : Nat := 0
  deriving DecidableEq, Repr

/-- A bank of the sinc table (R111): the ROM, or loaded entries (key: row * 8 + tap). -/
structure SincBank where
  rom : Bool := false
  tab : SMap Int := []
  deriving DecidableEq, Repr

/-- A partial-sum channel held for its merge (R228). -/
structure HeldImp where
  entry : Nat
  n : Nat
  hadd : Nat
  blk : Blk
  deriving DecidableEq, Repr

/-- A cistern fetch (R104): object, group, the period of issue, its data once it has arrived (`none` within: it met an
uncorrectable line), and whether it asserts panic. -/
structure CisFetch where
  obj : Nat
  grp : Nat
  issued : Nat
  data : Option (Option (List Blk))
  panic : Bool
  deriving DecidableEq, Repr

/-- Audit mismatches of the present tranche (R120). -/
structure AuditAcc where
  furrow : Nat
  slot : Nat
  j : Nat
  count : Nat
  deriving DecidableEq, Repr

/-- The pair engine and the cistern engine. Keys: window object * 1024 + block mod 1024; `winBad` the uncorrectable lines
with the window slots still to rewrite (R99); slots object * 2048 + slot; accumulator partials
((bank * 8 + g) * 1024 + output) * 16 + j, saturated words (bank * 1024 + output) * 16 + j; staging object * 32 +
tranche mod 32; `sincCur` the active sinc bank is B, `sincUse` the furrows read bank B, `sincSw` the tranches from which they read the other bank
(R72, R115); `psum` the exported blocks with their tranche; `mergeDone`: this period's hand-over phase has begun,
`merged`: its import merge has run; counters object * 64 + offset, output * 16 + offset. -/
structure Pair where
  win : SMap Blk := []
  winBad : SMap (List Nat) := []
  ueSeen : List Nat := []
  slots : SMap SlotSt := []
  acc : SMap Int := []
  words : SMap Int := []
  sincA : SincBank := { rom := true }
  sincB : SincBank := {}
  sincCur : Bool := false
  sincUse : Bool := false
  sincSw : List Nat := []
  held : List HeldImp := []
  psum : SMap (Option (Nat × Blk)) := []
  audit : Option AuditAcc := none
  mergeDone : Bool := false
  merged : Bool := false
  stg : SMap Blk := []
  fetch : List CisFetch := []
  cntObj : SMap Nat := []
  cntOut : SMap Nat := []
  deriving DecidableEq, Repr

/-! ## Output correction, sluices and meters (R131 to R164) -/

/-- A coefficient set but for its partition spectra, which lie in DRAM (R136, R146, R394). `head` lists the loaded taps. -/
structure CSet where
  bq : List Bqc := List.replicate 16 {}
  head : List Int := [0x400000]
  headLen : Nat := 16
  parts : Nat := 0
  shift : Nat := 1
  deriving DecidableEq, Repr

/-- A correction switch, pending or running (R148, R149): first tranche, length, output, slot, its crossfade lane, the
descriptor's token until its deadline, the new equaliser's state, and whether it has ended (its lane's tail still serves the block).
Lane 64 and above: no lane is free for it yet. -/
structure Xf where
  n : Nat
  f : Nat
  out : Nat
  slot : Nat
  lane : Nat
  tok : Option Nat
  bz : List Bqz
  done : Bool
  deriving DecidableEq, Repr

/-- A ramp from `a` to `b` over `len` tranches from data tranche `n` (R152, R154). -/
structure Ramp where
  a : Int
  b : Int
  n : Nat
  len : Nat
  deriving DecidableEq, Repr

/-- A meter of an output (R156). -/
structure Meter where
  mx : Int := 0
  mn : Int := 0
  mxT : Nat := 0
  mnT : Nat := 0
  sumsq : Nat := 0
  any : Bool := false
  deriving DecidableEq, Repr

/-- An output's correction chain: active set, section state, the values of the data tranche in hand (`z`, head sums, and
those of a crossfade lane), gain and mute, meters, the first tranche that the tail serves, the last check, the tranche of the last HIST_ERR, counters by offset (R161). -/
structure Out where
  set : CSet := {}
  bz : List Bqz := List.replicate 16 {}
  zNew : Option (Nat × List Int) := none
  head : Option (Nat × List Int) := none
  headNew : Option (Nat × List Int) := none
  gain : Ramp := { a := 0x10000000, b := 0x10000000, n := 0, len := 1 }
  mute : Ramp := { a := 0, b := 0, n := 0, len := 1 }
  muted : Bool := true
  meter : Meter := {}
  latched : Meter := {}
  tailFrom : Option Nat := none
  outChk : Nat := 0
  histErrN : Option Nat := none
  cnt : SMap Nat := []
  deriving DecidableEq, Repr

/-- A CORR_STAGE under way (R147). -/
structure Staging where
  slot : Nat
  tok : Nat
  parts : Nat
  deriving DecidableEq, Repr

/-- A group of 16 tranches of tail output on die (R144): the group's number, and each tranche's samples and check, or
`none` where they met an uncorrectable line. -/
structure TailGrp where
  grp : Nat
  trs : List (Option (List Int × Nat))
  deriving DecidableEq, Repr

/-- A requested tail output group (R144, R397): output, group, period of issue, whether it asserts panic. -/
structure TailFetch where
  out : Nat
  grp : Nat
  issued : Nat
  panic : Bool
  deriving DecidableEq, Repr

/-- The correction engine. Keys: history output * 257 + tranche mod 257; `buf` the tail buffer, output * 2 + group mod 2;
`lateChain` the chains whose late data hold panic (R397). `zs` is Zs at the end of the last corrected data tranche, `zTo` the target in the tranche in hand. -/
structure Cor where
  out : SMap Out := []
  hist : SMap Blk := []
  slots : SMap CSet := []
  loading : List Staging := []
  xfs : List Xf := []
  buf : SMap (Option TailGrp) := []
  lateChain : List Nat := []
  tailReq : List TailFetch := []
  zs : Int := 0x1000000
  zTo : Int := 0x1000000
  silPin : Bool := false
  silGuard : Bool := false
  stopN : Option Nat := none
  meterW : Nat := 300
  meterN0 : Nat := 0
  meterFirst : Nat := 0
  groups : List (List Byte) := []
  readGroups : List (List Byte) := []
  deriving DecidableEq, Repr

/-! ## Schedule images and rendering state (R165 to R206) -/

/-- An OBJ entry (R185). -/
structure OEnt where
  first : Nat := 0
  a : Nat := 0
  dirs : Nat := 0
  merge : Nat := 0
  laws : Nat := 0
  hmode : Nat := 0
  hlen : Nat := 0
  deriving DecidableEq, Repr

/-- A FUR slot entry (R185). -/
structure FEnt where
  obj : Nat
  slot : Nat
  cycle : Nat
  aset : Nat
  deriving DecidableEq, Repr

/-- A COR output or lane record (R185). -/
structure CEnt where
  headMax : Nat
  tailMax : Nat
  dp : Nat
  bq : Nat
  head : Nat
  slu : Nat
  deriving DecidableEq, Repr

/-- A launch entry with its sources (R237). -/
structure Launch where
  cycle : Nat
  dest : Nat
  b4 : Nat
  stream : Nat
  hadd : Nat
  ttl : Nat
  srcs : List Nat
  deriving DecidableEq, Repr

/-- An import entry (R237). -/
structure ImpEnt where
  src : Nat
  stream : Nat
  ch : Nat
  hadd : Nat
  link : Nat
  out : Nat
  cycle : Nat
  deriving DecidableEq, Repr

/-- A transmit stream of the image (R287). -/
structure TxEnt where
  stream : Nat
  portA : Nat
  portB : Nat
  pcode : Nat
  channels : Nat
  stg : List Nat
  deriving DecidableEq, Repr

/-- A FORM entry (R287). -/
structure FormEnt where
  phase : Nat
  stream : Nat
  cycle : Nat
  dofs : Int
  deriving DecidableEq, Repr

/-- An OUT import entry (R287). -/
structure OutImp where
  src : Nat
  stream : Nat
  ch : Nat
  link : Nat
  stg : Nat
  deriving DecidableEq, Repr

/-- A schedule image as its sections give it (R183 to R185, R237, R287). `slots` gives the address-set code of each slot of
the furrow section, by object * 2048 + slot number. -/
structure Img where
  rate : Nat
  id : Nat
  f : Nat
  cmax : Nat
  coarsePar : Nat
  xfPar : Nat
  slotTotal : Nat
  pTyp : Nat
  pMax : Nat
  obj : List OEnt
  aset : List (List Byte)
  hgt : List (List Nat)
  geo : List (Nat × List Nat)
  fur : List (List FEnt)
  cor : List CEnt
  lanes : List CEnt
  tail : List (List (Nat × Nat))
  tailUniform : Bool
  launches : List (List Launch)
  imports : List ImpEnt
  txs : List TxEnt
  forms : List (List FormEnt)
  outImp : List OutImp
  slots : SMap Nat
  deriving DecidableEq, Repr

/-- An armed start (1), stop (3) or restart (4): its N, the descriptor's token, SHADOW of a restart, the state a stop was
accepted in (R193). -/
structure Armed where
  kind : Nat
  n : Nat
  tok : Nat
  shadow : Bool
  origin : Nat
  deriving DecidableEq, Repr

/-- A swap armed or in progress (R194, R195): `active` once H_N has come. -/
structure SwapSt where
  n : Nat
  tok : Nat
  switched : Bool
  byRestart : Bool
  deriving DecidableEq, Repr

/-- The schedule stores and the rendering state. The stores are the bytes up to the last non-zero one; `old` is the image
that was active before tranche `oldN`, for the stages that still finish it. -/
structure Sch where
  st : Nat := 0
  shadow : List Byte := []
  active : List Byte := []
  shadowImg : Option Img := none
  activeImg : Option Img := none
  old : Option Img := none
  oldN : Nat := 0
  shadowValid : Bool := false
  shadowSigned : Bool := false
  activeSigned : Bool := false
  loading : Option Nat := none
  armed : Option Armed := none
  swap : Option SwapSt := none
  guardHold : Bool := false
  firstGuard : Option Nat := none
  liveDrop : Nat := 0
  masked : Nat := 0
  lastAct : Nat := 0
  startN : Nat := 0
  stopN : Option Nat := none
  deriving DecidableEq, Repr

/-! ## Bruon fabric (R207 to R241) -/

/-- A frame waiting at an egress link (R222): class 0 forwarded, 1 launched, 2 other; `bytes` begins with the frame
class of R212; `fail`: it ends with an error block. -/
structure EFrame where
  cls : Nat
  bytes : List Byte
  fail : Bool
  deriving DecidableEq, Repr

/-- A Bruon link (R208 to R212). `gotHello`: a valid HELLO came in this stay in HELLO or UP; `ack`: one came within 10 ms, in whatever state
(R209). Counters by their offset in the FAB_STATUS record. -/
structure LinkSt where
  st : Nat := 0
  fecLim : Nat := 8
  peerId : Nat := 0
  peerLink : Nat := 0
  peerAddr : Nat := 0
  gotHello : Bool := false
  ack : Bool := false
  skew : Int := 0
  defer : Nat := 0
  downs : Nat := 0
  lockFail : Nat := 0
  queue : List EFrame := []
  fwdBytes : Nat := 0
  dropHdr : Nat := 0
  dropOther : Nat := 0
  cnt : SMap Nat := []
  deriving DecidableEq, Repr

/-- An OBJ import stream (R227): the channels seen for each tranche, and MISSING, LATE, DUP. -/
structure ObjStream where
  seen : SMap (List Nat) := []
  missing : Nat := 0
  late : Nat := 0
  dup : Nat := 0
  deriving DecidableEq, Repr

/-- An outstanding discovery request (R234): its tag, the descriptor's token, and where the reply goes. -/
structure DiscReq where
  tag : Nat
  tok : Nat
  addr : Nat
  deriving DecidableEq, Repr

/-- An outstanding remote descriptor (R235, R239). -/
structure RemReq where
  seq : Nat
  tok : Nat
  addr : Nat
  dest : Nat
  entry : List Byte
  tries : Nat
  deriving DecidableEq, Repr

/-- The fabric: links, route tables (key: bank * size + index), epochs, discovery and management. `slips`: slips of the
queues of audio, link * 2 from a link, + 1 to it (R26). `quiet` and `quietCur`: no
frame of the other or of the current bank's epoch was heard in the last whole period (R225). -/
structure Fab where
  link : SMap LinkSt := []
  wb : SMap Nat := []
  grp : SMap Nat := []
  bcast : SMap Nat := []
  cur : Nat := 0
  quiet : Bool := true
  heardOther : Bool := false
  quietCur : Bool := true
  heardCur : Bool := false
  armed : Option (Nat × Nat) := none
  switchN : Option Nat := none
  switchTok : Option Nat := none
  objStr : SMap ObjStream := []
  impCnt : SMap Nat := []
  disc : List DiscReq := []
  remote : List RemReq := []
  seqOut : SMap Nat := []
  remoteSeen : List (Nat × Nat) := []
  remoteRun : List (Nat × Nat × Nat × List Byte) := []
  metaSeq : SMap (Option Nat) := []
  metaBad : Nat := 0
  metaJump : Nat := 0
  slips : SMap Nat := []
  users : List (List Byte) := []
  deriving DecidableEq, Repr

/-! ## DRAM controller (R389 to R411) -/

/-- The DRAM controller. `mem` holds the data address space; refresh debts are keyed channel * 16 + bank; `lost` lists the
lines known uncorrectable. -/
structure Drc where
  mem : SMap Byte := []
  training : Bool := false
  retraining : Bool := false
  ready : Bool := false
  noDram : Bool := false
  size : Nat := 0
  selfRef : Bool := false
  panicCis : Bool := false
  panicTail : Bool := false
  rate : SMap Nat := []
  maxDebt : SMap Nat := []
  forced : SMap Nat := []
  debt : SMap Nat := []
  lost : List Nat := []
  deriving DecidableEq, Repr

/-! ## Keyed actions (R20, R52) -/

/-- A change keyed to a tranche index, as its descriptor gives it. -/
inductive KeyedAct where
  | objMap (first count ty idx ch : Nat)
  | objCond (obj : Nat) (prefilt : Bool) (trim : Option Int) (bq : Option (List Bqc))
  | objCtl (first count : Nat) (enable coastEn : Bool) (coastLim : Nat) (clear : Option Nat)
  | objPrefilter (bq : List Bqc)
  | objCoarse (first count c : Nat) (glide : Bool)
  | objKernel (first count code : Nat)
  | ktblSwitch (loaded : Bool)
  | geoBankSwitch (mask : Nat)
  | geoGlobal (temp : Word) (pc : V3) (eps : Word)
  | geoObjLaw (first : Nat) (laws : List Law)
  | sluiceSet (first count : Nat) (gain : Option (Int × Nat)) (mute : Option (Bool × Nat))
  | meterCfg (w : Nat) (groups : List (List Byte))
  | corrClear (first count : Nat)
  | mpRxMap (isSet : Bool) (idx rtpOfs rxd : Nat)
  deriving DecidableEq, Repr

/-- A keyed action that has not been applied: its tranche, the descriptor's token (`none`: completed already), its order
of acceptance. -/
structure Keyed where
  n : Nat
  tok : Option Nat
  seq : Nat
  act : KeyedAct
  deriving DecidableEq, Repr

/-! ## Serial audio, monitoring and capture (R412 to R438) -/

/-- A linear ramp over `k` samples, `i` of them done (R424). -/
structure SRamp where
  a : Int := 0
  b : Int := 0
  i : Nat := 0
  k : Nat := 0
  deriving DecidableEq, Repr

/-- A serial audio port (R412 to R419). `ins` holds the recent input samples (key: port index * 2 + channel); counters by
their offset in the status record. -/
structure SapPort where
  enabled : Bool := false
  master : Bool := false
  lj : Bool := false
  dpxHiz : Bool := false
  word : Nat := 24
  slot : Nat := 32
  m : Nat := 1
  group : Nat := 255
  src0 : Nat := 0
  src1 : Nat := 0
  idx0 : Nat := 0
  idx1 : Nat := 0
  lost : Bool := false
  last : Option Nat := none
  dropIn : Bool := false
  whole : Bool := true
  unaligned : Bool := false
  ins : SMap Int := []
  cnt : SMap Nat := []
  deriving DecidableEq, Repr

/-- An input of a monitor bus (R422). -/
structure MixIn where
  code : Nat := 0
  idx : Nat := 0
  mute : Bool := false
  gain : Int := 0
  ramp : SRamp := {}
  deriving DecidableEq, Repr

/-- A monitor bus (R423 to R425): inputs, ramp time, bus gain and automatic scale with their ramps, sections, INTERP, the
next sample to compute and the recent ones (by time index). -/
structure Bus where
  ins : List MixIn := List.replicate 32 {}
  auto : Bool := false
  rt : Nat := 1
  gain : SRamp := { a := 0x10000000, b := 0x10000000 }
  scale : SRamp := { a := 0x10000000, b := 0x10000000 }
  bq : List Bqc := [{}, {}, {}, {}]
  bz : List Bqz := [{}, {}, {}, {}]
  interp : Nat := 0
  next : Nat := 0
  out : SMap Int := []
  cnt : SMap Nat := []
  deriving DecidableEq, Repr

/-- A monitor output (R426 to R430): side-tone, compliance faults by pin, the modulator's last code. `returning`: the ramp
from the clear code has begun. -/
structure Mon where
  stOn : Bool := false
  stPort : Nat := 0
  stCh : Nat := 0
  gst : SRamp := {}
  comply : List Nat := []
  clear : Bool := true
  returning : Bool := false
  ret : Nat := 0
  mod : Int := 0
  deriving DecidableEq, Repr

/-- The capture chain and writer (R431 to R434). Sample stores are keyed channel * 2^40 + index; `next` is the next time index to
compute; `queue` holds the blocks of up to 4 tranches that wait for host memory. -/
structure Cap where
  resp : Nat := 1
  sh1 : Nat := 0
  sh2 : Nat := 0
  sh3 : Nat := 0
  mask : Nat := 0
  srcs : List (Nat × Nat) := []
  l1 : Nat := 3
  l2 : Nat := 3
  l3 : Nat := 1
  taps : List Int := []
  base : Nat := 0
  space : Nat := 0
  cont : Bool := false
  len : Nat := 1
  prog : Nat := 0
  armed : Option (Nat × Option Nat) := none
  running : Option Nat := none
  written : Nat := 0
  blocks : Nat := 0
  drops : Nat := 0
  clips : Nat := 0
  first : Nat := 0
  next : Nat := 0
  y1 : SMap Int := []
  y2 : SMap Int := []
  out : SMap Int := []
  queue : List (Nat × List (Nat × List Byte)) := []
  deriving DecidableEq, Repr

/-- The stimulus store and its play (R421). -/
structure Stim where
  xs : List Int := []
  armed : Option (Nat × Bool × Option Nat) := none
  running : Option (Nat × Bool) := none
  deriving DecidableEq, Repr

/-- Serial audio ports, monitor mixer, stimulus and capture. `zm` and `zmTo` are the forced-silence factor at the start and
the end of the tranche in hand (R428); `taps` the 64 render taps (R422). -/
structure Lau where
  sap : SMap SapPort := []
  bus : SMap Bus := []
  mon : SMap Mon := []
  taps : List Nat := []
  cap : Cap := {}
  stim : Stim := {}
  zm : Int := 0x1000000
  zmTo : Int := 0x1000000
  deriving DecidableEq, Repr

/-! ## The machine -/

/-- Why the machine would stop with a fault. No command of the part stops it: the spec gives every one an effect, so
there is no reason to list. -/
inductive Fault where
  deriving DecidableEq, Repr

/-- Why a command is refused. -/
inductive Refusal where
  /-- Raised by an arm of `exec` that has no meaning yet, with the row's mnemonic. Safe: nothing is claimed of it. -/
  | notModelled (mnemonic : String)
  deriving DecidableEq, Repr

/-- The whole part, its waiting commands, and what it has sent and written. `rdata` holds the words the last reading
command returned, `outcomes` what the owners of host operations have to report, `outs` what has left the part, oldest
first; `freeCtr` picks the free values and is the model's own. -/
structure State where
  pending : List Instr := []
  regs : SMap Word := []
  latches : SMap Word := []
  rdata : List Word := []
  outcomes : List OpOutcome := []
  outs : List OutMsg := []
  hostMem : SMap Byte := []
  dueWrites : List (Nat × List Byte) := []
  freeCtr : Nat := 0
  hif : Hif := {}
  stw : Stw := {}
  irq : Irq := {}
  mtx : Mtx := {}
  lgr : Lgr := {}
  aon : Aon := {}
  clk : Clk := {}
  ptp : Ptp := {}
  mp : Mp := {}
  dpx : Dpx := {}
  obj : SMap Obj := []
  prefilter : List Bqc := [{}, {}]
  segUid : Nat := 0
  alignSet : SMap (List Nat) := []
  geo : Geo := {}
  pair : Pair := {}
  cor : Cor := {}
  sch : Sch := {}
  fab : Fab := {}
  drc : Drc := {}
  keyed : List Keyed := []
  keySeq : Nat := 0
  lau : Lau := {}
  deriving DecidableEq, Repr

/-- The machine right after reset: the rising edge of PORST_N at a first power-up (R485). -/
def State.reset : State := {}

end Sys2Proof.Machine
end

