-- ==== Sys2Proof/Machine/Ops.lean ====
section
/-! DEFINITION. The operations every block shares: registers and event bits, free values, the ledger queue and its rate
limiters, reports of host operations, writes to host memory, and the instants at which keyed actions apply. -/

namespace Sys2Proof.Machine

/-! ## Registers and free values -/

/-- The stored value of a register (R9, R12). -/
def getReg (s : State) (a : Nat) : Word := smGet (regReset a) s.regs a

/-- Stores a register. -/
def setReg (s : State) (a : Nat) (v : Word) : State := { s with regs := smSet (regReset a) s.regs a v }

/-- Stores bits `[msb:lsb]` of a register. -/
def setField (s : State) (a msb lsb v : Nat) : State := setReg s a (Word.put (getReg s a) msb lsb v)

/-- Sets a bit of an event register, and with it the level of its source (R369). A hardware set wins over a clear (R12). -/
def evRaise (a b : Nat) (s : State) : State := setReg s a (Word.setBit (getReg s a) b)

/-- Raises the event where the condition holds. -/
def evIf (c : Bool) (a b : Nat) (s : State) : State := if c then evRaise a b s else s

/-- Takes one free value's index. -/
def draw (s : State) : State := { s with freeCtr := s.freeCtr + 1 }

/-- What the low half of a split value latches (R518). -/
def latch (s : State) (a : Nat) (v : Word) : State := { s with latches := smSet 0 s.latches a v }

/-- The bits of the bytes that byte enables name. -/
def laneMask (be : BitVec 4) : Word :=
  BitVec.ofNat 32 (((List.range 4).filter (fun i => be.getLsbD i)).foldl (fun m i => m + 255 * 2 ^ (8 * i)) 0)

/-- A read of fewer than four bytes returns the corresponding bytes of the whole register; its effects are those of a full read (R9). -/
def narrow (be : BitVec 4) (s : State) : State := { s with rdata := s.rdata.map (fun w => w &&& laneMask be) }

/-- The latched word (R518). -/
def getLatch (s : State) (a : Nat) : Word := smGet 0 s.latches a

/-! ## Ledger queue (R457, R459, R461, R519) -/

/-- Saves a checkpoint: powered time and the counters held with it (R459, R460). -/
def saveCkpt (g : Lgr) : Lgr :=
  { g with ckpt := some { pt := g.ptime, poc := g.poc, dropped := g.dropped, clears := g.clears, nonce := g.nonce } }

/-- Counts a dropped record (R461); the save follows R459. -/
def dropRecord (g : Lgr) : Lgr := saveCkpt { g with dropped := bump 32 g.dropped 1 }

/-- Removes the newest queued record of a severity below `sev` (R461). -/
def displace (sev : Nat) (q : List LRec) : Option (List LRec) :=
  match q.reverse.findIdx? (fun r => decide (r.sev < sev)) with
  | some i => some ((q.reverse.eraseIdx i).reverse)
  | none => none

/-- The record that a block hands to the engine now (R457). -/
def mkRec (g : Lgr) (code sev : Nat) (host : Bool) (p1 p2 p3 : Nat) : LRec :=
  { code := code, sev := sev, host := host, pt := g.ptime, poc := g.poc, seq := g.seq,
    p1 := p1 % 2 ^ 32, p2 := p2 % 2 ^ 32, p3 := p3 % 2 ^ 32 }

/-- A record enters the 64-entry queue, displaces a lesser one, or is dropped (R461). -/
def enqueue (g : Lgr) (r : LRec) : Lgr :=
  if g.queue.length < 64 then { g with queue := g.queue ++ [r] }
  else if 5 ≤ r.sev then
    match displace r.sev g.queue with
    | some q => dropRecord { g with queue := q ++ [r] }
    | none => dropRecord g
  else dropRecord g

/-- Appends a record to the ledger (R457, R461): its sequence number is taken whether or not the queue has room. -/
def ledgerBy (code sev : Nat) (host : Bool) (p1 p2 p3 : Nat) (s : State) : State :=
  let r := mkRec s.lgr code sev host p1 p2 p3
  let g := enqueue s.lgr r
  let s' := { s with lgr := { g with seq := (s.lgr.seq + 1) % 65536 } }
  evIf (decide (g.dropped ≠ s.lgr.dropped)) aLgrEvt 1 s'

/-- Appends a block's record. -/
def ledger (code sev p1 p2 p3 : Nat) (s : State) : State := ledgerBy code sev false p1 p2 p3 s

/-- The powered-time window of R519. -/
def ledgerWindow (s : State) : Nat := s.lgr.ptime / 1048576

/-- Counts `n` events of a rate-limited record for a subject, and appends the record for the first within each 1,024 s of
powered time; `ps` gives its parameters from the count since the last record, the event that triggers it included (R519). -/
def ledgerLim (code sev subject n : Nat) (ps : Nat → Nat × Nat × Nat) (s : State) : State :=
  if n = 0 then s
  else
    let key := code * 2 ^ 20 + subject
    let e := smGet {} s.lgr.lim key
    if e.win = some (ledgerWindow s) then
      { s with lgr := { s.lgr with lim := smSet {} s.lgr.lim key { e with cnt := e.cnt + n } } }
    else
      let p := ps (e.cnt + 1)
      let s' := { s with lgr := { s.lgr with lim := smSet {} s.lgr.lim key { win := some (ledgerWindow s), cnt := n - 1 } } }
      ledger code sev p.1 p.2.1 p.2.2 s'

/-- Two values joined in one parameter (R457). -/
def pair16 (a b : Nat) : Nat := a % 65536 * 65536 + b % 65536

/-- The u32 of a signed parameter (R457). -/
def s32 (x : Int) : Nat := unsigned 32 x

/-! ## Host operations and host memory -/

/-- The owner has the operation's outcome to report (R360). -/
def report (tok status result detail : Nat) (s : State) : State :=
  { s with outcomes := s.outcomes ++ [{ tok := tok, status := status, result := result % 2 ^ 32, detail := detail }] }

/-- Sends a message. -/
def emit (m : OutMsg) (s : State) : State := { s with outs := s.outs ++ [m] }

/-- Host traffic can flow: Bus Master Enable, D0, the link not in L1 (R331). -/
def canHost (s : State) : Bool := s.hif.bme && !s.hif.d3 && !s.hif.inL1

/-- Puts bytes into host memory. -/
def putHost (m : SMap Byte) : Nat → List Byte → SMap Byte
  | _, [] => m
  | a, b :: bs => putHost (smPut m a b) (a + 1) bs

/-- A write to host memory, held while host traffic cannot flow (R331). -/
def hostWrite (a : Nat) (bs : List Byte) (s : State) : State :=
  if canHost s then { s with hostMem := putHost s.hostMem a bs }
  else { s with dueWrites := s.dueWrites ++ [(a, bs)] }

/-- A 64-bit base register pair. -/
def base64 (s : State) (lo : Nat) : Nat := (getReg s lo).toNat + 2 ^ 32 * (getReg s (lo + 4)).toNat

/-! ## Instants -/

/-- M: the earliest tranche whose segment cut-off has not passed (R44); 0 before the tranche index is set (R45). -/
def mTranche (s : State) : Nat :=
  if s.clk.tidxValid then (if s.clk.cutoffDone then s.clk.tidx + 2 else s.clk.tidx + 1) else 0

/-- The instant H_x has not come (R22): the current period is earlier than P_x, or no index is set. -/
def beforeH (s : State) (x : Int) : Bool := !s.clk.tidxValid || decide ((s.clk.tidx : Int) < x)

/-- c: the tranche whose headgate boundary comes next (R34). -/
def nextClose (s : State) : Nat := s.clk.tidx + 1

/-- The low 32 bits of the tranche index, 0 before it is set (R321). -/
def tidxLow (s : State) : Nat := if s.clk.tidxValid then s.clk.tidx % 2 ^ 32 else 0

/-- The base rate's samples per second, and the rate in force (RATE of R183: 0 44.1, 1 48, 2 88.2, 3 96 kHz). -/
def rateHz : Nat → Nat
  | 0 => 44100
  | 1 => 48000
  | 2 => 88200
  | _ => 96000

/-- The rate is one of the 48 kHz family. -/
def is48 (r : Nat) : Bool := decide (r % 2 = 1)

/-- The rate is a double rate. -/
def isDouble (r : Nat) : Bool := decide (2 ≤ r)

/-- L: core cycles per tranche (R15). -/
def trancheCycles (s : State) : Nat := if isDouble s.clk.rate then 196608 else 393216

/-! ## Reads of small arrays of state -/

/-- A steward core's state. -/
def core (s : State) (n : Nat) : CoreSt := smGet {} s.stw.core n

/-- Changes a steward core's state. -/
def setCore (s : State) (n : Nat) (c : CoreSt) : State :=
  { s with stw := { s.stw with core := smSet {} s.stw.core n c } }

/-- A core that runs Afinal: cores 0 to 7 (R345). -/
def afinalCore : Master → Bool
  | .core n => decide (n < 8)
  | _ => false

/-! ## Bus masters -/

/-- The masters whose bursts a reset cuts short start their drain (R386). -/
def resetMasters (ms : List Nat) (s : State) : State :=
  let cut := ms.filter (fun m => (s.mtx.pending ++ s.mtx.late).any (fun t => decide (t.master = m)) && !decide (m ∈ s.mtx.draining))
  { s with mtx := { s.mtx with draining := s.mtx.draining ++ cut } }

end Sys2Proof.Machine
end

