-- ==== Sys2Proof/Machine/Flags.lean ====
section
/-! DEFINITION. Flags: the levels of interrupt sources (R369, R370), counters that stop at their maximum, and the bit
positions of the event registers. -/

namespace Sys2Proof.Machine

/-- Adds to a 32-bit counter of a table of counters; it stops at its maximum (R7). -/
def bumpAt (m : SMap Nat) (k n : Nat) : SMap Nat := smSet 0 m k (bump 32 (smGet 0 m k) n)

/-- A 32-bit counter of a table of counters. -/
def cntAt (m : SMap Nat) (k : Nat) : Nat := smGet 0 m k

/-- The event register and bit of an interrupt source (R370): base, count and address of each event register. -/
def sourceRegs : List (Nat × Nat × Nat) :=
  [(0, 16, aIrqSwi), (32, 8, aHifEvt), (40, 6, aSchEvt), (48, 7, aHgtEvt), (56, 7, aGeoEvt), (64, 7, aPairEvt),
   (72, 4, aCisEvt), (80, 6, aCorEvt), (88, 12, aFabEvt), (104, 8, aClkEvt), (112, 9, aPtpEvt),
   (128, 6, aMpEvt 0), (136, 6, aMpEvt 1), (144, 6, aMpEvt 2), (152, 6, aMpEvt 3), (160, 6, aDspEvt), (168, 8, aDrcEvt),
   (176, 16, aLauEvt), (192, 8, aDpxEvt), (200, 8, aLgrEvt), (208, 4, aMtxEvt), (216, 8, aTopEvt)]

/-- The oldest abort notice of core `n` that has no answer (R360, R361): the token of an operation it holds. -/
def abortNotice (s : State) (n : Nat) : Option Nat :=
  s.hif.notices.find? (fun t => s.hif.ops.any (fun o => decide (o.tok = t) && o.notice && decide (o.owner = n) && !o.done))

/-- The level of a source (R369, R370); a source that is not listed has level 0. -/
def irqLevel (s : State) (src : Nat) : Bool :=
  if 16 ≤ src ∧ src < 32 then (abortNotice s (src - 16)).isSome
  else match sourceRegs.find? (fun e => decide (e.1 ≤ src) && decide (src < e.1 + e.2.1)) with
    | some e => Word.bit (getReg s e.2.2) (src - e.1)
    | none => false

end Sys2Proof.Machine
end

