-- ==== Sys2Proof/Machine/Operands.lean ====
section
/-! DEFINITION. Operand forms: the payload fields of descriptors, their limits and reserved bytes (R52), host blocks
(R54), ranges, and the completion status codes (R320). -/

namespace Sys2Proof.Machine

/-! ## Completion status codes (R320) -/

def stOk : Nat := 0
def stAborted : Nat := 1
def stFlushed : Nat := 2
def stNothing : Nat := 3
def stBad : Nat := 4
def stNotPermitted : Nat := 5
def stTimeout : Nat := 6
def stIntegrity : Nat := 7
def stNoResource : Nat := 8
def stStale : Nat := 9
def stLate : Nat := 10

/-! ## Payload fields -/

/-- Bytes `[off, off + n)` of the payload, little-endian (R5, R52). -/
def pl (d : Desc) (off n : Nat) : Nat := field d.payload off n

/-- The same as a signed number (R4). -/
def plS (d : Desc) (off n : Nat) : Int := signed (8 * n) (pl d off n)

/-- Bit `b` of byte `off` of the payload. -/
def plBit (d : Desc) (off b : Nat) : Bool := decide (pl d off 1 / 2 ^ b % 2 = 1)

/-- The payload offset of the first non-zero byte outside the ranges that the opcode uses (R52). -/
def firstReserved (used : List (Nat × Nat)) (bs : List Byte) : Option Nat :=
  (bs.zipIdx.find? (fun e => decide (e.1 ≠ 0) && !used.any (fun u => decide (u.1 ≤ e.2) && decide (e.2 < u.1 + u.2)))).map Prod.snd

/-- The smallest number of a list. -/
def minOf : List Nat → Option Nat
  | [] => none
  | x :: xs => match minOf xs with
    | some y => some (min x y)
    | none => some x

/-- The first bad field: the lowest offset among the fields that break their limits and the reserved bytes (R316). -/
def firstBad (d : Desc) (used : List (Nat × Nat)) (limits : List (Nat × Bool)) : Option Nat :=
  minOf (((limits.filter (fun l => !l.2)).map Prod.fst) ++ (firstReserved used d.payload).toList)

/-- The host block `i` named by the payload, where it could be read and has at least `n` bytes (R54). -/
def hostBlock (d : Desc) (i n : Nat) : Option (List Byte) :=
  match d.blocks.getD i none with
  | some bs => if n ≤ bs.length then some (bs.take n) else none
  | none => none

/-! ## Completions of a descriptor -/

/-- BAD_DESCRIPTOR with the offset of the first bad field (R316, R320). -/
def badField (d : Desc) (off : Nat) (s : State) : State := report d.tok stBad 0 off s

/-- A host block could not be read: BAD_DESCRIPTOR at the address field, and `HIF_EVT.DMA_ERR` (R54, R338). -/
def badBlock (d : Desc) (off : Nat) (s : State) : State := report d.tok stBad 0 off (evRaise aHifEvt 1 s)

/-- A completion without RESULT or DETAIL. -/
def finish (d : Desc) (status : Nat) (s : State) : State := report d.tok status 0 0 s

/-- Runs `k` where every field is within its limits and every reserved byte zero; BAD_DESCRIPTOR otherwise. -/
def checked (d : Desc) (used : List (Nat × Nat)) (limits : List (Nat × Bool)) (s : State) (k : State) : State :=
  match firstBad d used limits with
  | some off => badField d off s
  | none => k

/-- The objects, outputs or entries `first` to `first + count - 1`. -/
def span (first count : Nat) : List Nat := (List.range count).map (first + ·)

/-- A range that starts at the field `first` and does not pass `limit`. -/
def inRange (first count limit : Nat) : Bool := decide (1 ≤ count) && decide (first + count ≤ limit)

/-- Zero bytes. -/
def zeros (n : Nat) : List Byte := List.replicate n 0

/-- A record cut or padded to `n` bytes. -/
def fit (n : Nat) (bs : List Byte) : List Byte := bs.take n ++ zeros (n - bs.length)

/-- The u32 fields of a record, little-endian. -/
def words32 (l : List Nat) : List Byte := l.flatMap (leBytes 4)

/-- Splits bytes into records of `n` bytes. -/
def chunks (n : Nat) : Nat → List Byte → List (List Byte)
  | 0, _ => []
  | k + 1, bs => bs.take n :: chunks n k (bs.drop n)

end Sys2Proof.Machine
end

