-- ==== Sys2Proof/Machine/Duplex.lean ====
section
/-! DEFINITION. The duplex interlock, device faults, monitor clear-code causes, strobes, digests and their comparison, and
the duplex descriptors (R429, R439 to R456). -/

namespace Sys2Proof.Machine

/-! ## Shared state of the interlock -/

/-- `DPX_CTL.ARM`. -/
def dpxArm (s : State) : Bool := Word.bit (getReg s aDpxCtl) 0

/-- Changes the duplex controller. -/
def setDpx (s : State) (f : Dpx → Dpx) : State := { s with dpx := f s.dpx }

/-- The device drives its outputs (R444). -/
def driving (s : State) : Bool := decide (s.dpx.st = 2)

/-- A link's state (R208). -/
def linkSt (s : State) (l : Nat) : LinkSt := smGet {} s.fab.link l

/-- `DPX_STAT.XLINK_UP`: link 15 is reserved and UP (R449). -/
def xlinkUp (s : State) : Bool := s.dpx.en && decide ((linkSt s 15).st = 3)

/-- ROLE: 1 primary. -/
def roleBit (s : State) : Nat := if s.aon.primary then 1 else 0

/-- Adds one to a duplex counter, keyed by its offset in DPX_STATUS. -/
def dpxCount (k : Nat) (s : State) : State := setDpx s (fun d => { d with cnt := bumpAt d.cnt k 1 })

/-! ## Monitor outputs: causes of the clear code (R429) -/

/-- The core clock runs: the clean-up PLL is locked and no thermal trip holds (R261, R470). -/
def coreRuns (s : State) : Bool := decide (s.clk.st ≠ 0) && !s.aon.trip

/-- A cause of the clear code holds. -/
def monCause (s : State) : Bool := s.aon.monClrLow || !coreRuns s || !driving s

/-- A monitor output. -/
def monAt (s : State) (k : Nat) : Mon := smGet {} s.lau.mon k

/-- Changes a monitor output. -/
def setMon (s : State) (k : Nat) (m : Mon) : State := { s with lau := { s.lau with mon := smSet {} s.lau.mon k m } }

/-- Every output of a list takes the clear code where a cause holds; where the last cause has ended it begins its ramp back
to the live code. -/
def monSettle : List Nat → State → State
  | [], s => s
  | k :: ks, s =>
    let m := monAt s k
    monSettle ks (if monCause s then setMon s k { m with clear := true, returning := false }
      else if m.clear then setMon s k { m with clear := false, returning := true, ret := 0 } else s)

/-- All eight monitor outputs. -/
def monSettleAll (s : State) : State := monSettle (List.range 8) s

/-! ## The interlock (R440 to R443) -/

/-- Driving begins (R440, R446, R456): causes 1 peer loss, 2 command, 3 take-back, 4 power-up. An uncommanded switch opens
the gap of R446. The place of the instant within the period is a free value. -/
def startDriving (cause : Nat) (s : State) : State :=
  let held := decide (cause = 1)
  let u := if s.clk.tidxValid then 16 * (s.clk.tidx + 1) + (Config.freeWord s.freeCtr).toNat % 16 else 0
  let ud := if held then u else 0
  let s1 := setDpx (draw s) (fun d => { d with st := 2, drove := true, holdOff := false,
                                               gap := if held then some (s.clk.tidx + 1, ud) else none })
  monSettleAll (ledger 0x1102 2 cause (tidxLow s) ud (evRaise aDpxEvt 0 (dpxCount 4 s1)))

/-- Driving ends (R440, R456): causes 1 fault, 2 ARM cleared, 3 command, 4 contest, 5 take-back. -/
def stopDriving (cause : Nat) (s : State) : State :=
  let s1 := setDpx s (fun d => { d with st := 0, gap := none, holdOff := decide (cause = 3) || decide (cause = 5) })
  monSettleAll (ledger 0x1101 4 cause (tidxLow s) s.dpx.cause (evRaise aDpxEvt 0 s1))

/-- The interlock leaves CLAIMING or DRIVING because ARM has been cleared. -/
def disarmed (cause : Nat) (s : State) : State :=
  if s.dpx.st = 2 then stopDriving cause s
  else if s.dpx.st = 1 then setDpx s (fun d => { d with st := 0 }) else s

/-- ARM cleared by a fault, a strap conflict or a write. -/
def clearArm (cause : Nat) (s : State) : State := disarmed cause (setField s aDpxCtl 0 0 0)

/-- A device fault (R441): causes 1 guard, 2 audit, 3 residue, 4 thermal, 5 heartbeat, 6 schedule store. -/
def deviceFault (cause : Nat) (s : State) : State :=
  let s1 := setDpx s (fun d => { d with cause := cause, faultSinceArm := true })
  let s2 := ledger 0x1107 5 cause (tidxLow s) (if driving s then 1 else 0) (evRaise aDpxEvt 6 s1)
  if s.dpx.en then clearArm 1 s2 else s2

/-- A strap conflict (R443): ARM cleared where the case says so, ROLE_CONFLICT, CONTEST, record 0x110A. -/
def strapConflict (cause : Nat) (s : State) : State :=
  let s1 := setDpx s (fun d => { d with roleConflict := true })
  ledger 0x110A 5 cause (roleBit s) s.dpx.yields (evRaise aDpxEvt 5 s1)

/-- The commanded target (R445, R447): the peer that drives has published N in its last frame, or this primary has
requested take-back, and H_N is the next boundary or has just come. The answer is the cause that driving begins with. -/
def commandedTarget (s : State) : Option Nat :=
  let near := fun (n : Nat) => decide (s.clk.tidx + 1 = n) || decide (s.clk.tidx = n)
  match s.dpx.takebackN with
  | some n => if near n then some 3 else none
  | none => match s.dpx.peer with
    | some f => if decide (f.armedN ≠ 2 ^ 64 - 1) && near f.armedN && decide (f.state % 4 = 2) then some 2 else none
    | none => none

/-- RELEASED with ARM set and the peer released: the device drives as commanded target, or claims (R440). After a commanded
release it waits for its peer to assert. -/
def tryClaim (s : State) : State :=
  if s.dpx.st = 0 ∧ dpxArm s ∧ s.dpx.peerRel ∧ !s.dpx.holdOff then
    match commandedTarget s with
    | some c => startDriving c s
    | none => setDpx s (fun d => { d with st := 1 })
  else s

/-- ARM is set or cleared by a write or by DPX_ARM (R440, R454, R455); setting it clears FAULT_CAUSE and ROLE_CONFLICT. -/
def armOp (on : Bool) (s : State) : State :=
  if on then
    let s1 := setField s aDpxCtl 0 0 1
    tryClaim (setDpx s1 (fun d => { d with cause := 0, faultSinceArm := false, roleConflict := false, holdOff := false }))
  else clearArm 2 s

/-- A write of `DPX_CTL` (R10, R455). -/
def armWriteOp (v : Word) (s : State) : State := if writeLegal [fld 0 0 .rw 1] v then armOp (Word.bit v 0) s else s

/-- ARM_WRITE (R440). -/
def execArmWrite (v : Word) (s : State) : Host.Outcome State Fault Refusal := .next (armWriteOp v s)

/-- DPX_ARM (R454). -/
def execDpxArm (d : Desc) (s : State) : Host.Outcome State Fault Refusal :=
  .next (checked d [(0, 1)] [(0, decide (pl d 0 1 ≤ 1))] s (finish d stOk (armOp (plBit d 0 0) s)))

/-- A claiming standby yields to its peer (R440, R443): a yield within 100 µs of the one before adds to the count. Whether
100 µs have passed is a free choice. -/
def yieldClaim (s : State) : State :=
  let within := Config.freeBool s.freeCtr
  let n := if s.dpx.yieldSeen && within then s.dpx.yields + 1 else 1
  let s1 := setDpx (draw s) (fun d => { d with st := 0, yields := n, yieldSeen := true })
  let s2 := evRaise aDpxEvt 5 s1
  if 8 ≤ n then strapConflict 2 (clearArm 2 s2) else s2

/-- PEER_ASSERT (R440): DPX_PEER_N goes low. -/
def execPeerAssert (s : State) : Host.Outcome State Fault Refusal :=
  let s0 := setDpx s (fun d => { d with peerLow := true, peerRel := false, drove := true, holdOff := false })
  .next (if s.dpx.st = 1 then (if s.aon.primary then s0 else yieldClaim s0)
    else if s.dpx.st = 2 then
      let s1 := ledger 0x1108 4 2 (roleBit s) (tidxLow s) (evRaise aDpxEvt 5 s0)
      if s.aon.primary then s1 else stopDriving 4 s1
    else s0)

/-- PEER_RELEASED (R440): DPX_PEER_N has been high for 2 µs, counted for a claiming device from its own assertion. -/
def execPeerReleased (s : State) : Host.Outcome State Fault Refusal :=
  let s0 := setDpx s (fun d => { d with peerLow := false, peerRel := true })
  .next (if s.dpx.st = 1 then startDriving (if s.dpx.drove then 1 else 4) s0 else tryClaim s0)

/-- CLAIM_TIMEOUT (R443): two primaries. -/
def execClaimTimeout (s : State) : Host.Outcome State Fault Refusal :=
  .next (if s.dpx.st = 1 ∧ s.aon.primary ∧ s.dpx.peerLow then strapConflict 1 (clearArm 2 s) else s)

/-- PEER_LOW_HELD (R443): a peer that holds its claim returns a standby's yield count to zero. -/
def execPeerLowHeld (s : State) : Host.Outcome State Fault Refusal :=
  .next (if s.dpx.peerLow && !s.aon.primary then setDpx s (fun d => { d with yields := 0 }) else s)

/-! ## Commanded switches and take-back (R445, R447) -/

/-- The peer's last frame shows it RELEASED with ARM set. -/
def peerReady (s : State) : Bool :=
  match s.dpx.peer with
  | some f => decide (f.state % 4 = 0) && decide (f.state / 4 % 2 = 1)
  | none => false

/-- COMMANDED_RELEASE (R445, R447), at H_N − 3 µs: the active device of an armed switch looks at its peer again and
releases, or keeps driving and the switch completes NOT_PERMITTED; a standby whose primary takes back releases. -/
def execCommandedRelease (s : State) : Host.Outcome State Fault Refusal :=
  .next (if s.dpx.st ≠ 2 then s
    else match s.dpx.armedN with
      | some (n, tok) =>
        if n ≠ s.clk.tidx + 1 then s
        else if peerReady s then stopDriving 3 s
        else report tok stNotPermitted 0 0 (setDpx s (fun d => { d with armedN := none }))
      | none => match s.dpx.peer with
        | some f => if s.dpx.takeback && !s.aon.primary && xlinkUp s && decide (f.armedN = s.clk.tidx + 1) && decide (f.state % 4 ≠ 2) then stopDriving 5 s else s
        | none => s)

/-- The earliest tranche whose deadline H_(N-1) has not passed. -/
def nowN1 (s : State) : Nat := if s.clk.tidxValid then s.clk.tidx + 2 else 0

/-- DPX_SWITCH (R447, R454). -/
def execDpxSwitch (d : Desc) (s : State) : Host.Outcome State Fault Refusal :=
  let n := if plBit d 8 0 then nowN1 s else pl d 0 8
  .next (checked d [(0, 9)] [(8, decide (pl d 8 1 ≤ 1))] s
    (if !driving s then finish d stOk s
     else if !beforeH s (n - 1 : Int) then finish d stLate s
     else if !xlinkUp s || !peerReady s || s.dpx.armedN.isSome then finish d stNotPermitted s
     else setDpx s (fun p => { p with armedN := some (n, d.tok) })))

/-- TAKEBACK_HOLD (R447): the primary publishes its request. -/
def execTakebackHold (s : State) : Host.Outcome State Fault Refusal :=
  let ok := xlinkUp s && s.dpx.takeback && s.aon.primary && dpxArm s && decide (s.sch.st = 2) && !s.dpx.faultSinceArm &&
    decide (s.dpx.st = 0) && (s.dpx.peer.any (fun f => decide (f.state % 4 = 2)))
  .next (if ok then setDpx s (fun d => { d with takebackN := some (s.clk.tidx + 8) }) else s)

/-- At H_N a commanded switch that released completes OK, and published requests end (R447). -/
def dpxBoundary (s : State) : State :=
  let s1 := match s.dpx.armedN with
    | some (n, tok) => if n ≤ s.clk.tidx then report tok (if driving s then stNotPermitted else stOk) 0 0
        (setDpx s (fun d => { d with armedN := none })) else s
    | none => s
  match s1.dpx.takebackN with
  | some n => if n < s1.clk.tidx then setDpx s1 (fun d => { d with takebackN := none }) else s1
  | none => s1

/-! ## Strobes (R448) -/

/-- A sync fault: causes 1 skew, 2 index mark, 3 frame index, 4 missing. -/
def syncFault (cause : Nat) (s : State) : State :=
  let s1 := setDpx s (fun d => { d with syncOk := false, lastSync := 0, syncEpisode := true })
  let s2 := dpxCount 16 (evRaise aDpxEvt 4 s1)
  if s.dpx.syncEpisode then s2 else ledger 0x1106 3 cause (s32 s.dpx.skew) 0 s2

/-- The standby's checks run in a pair, with EN set. -/
def standbyOn (s : State) : Bool := s.dpx.en && !s.aon.primary

/-- DPX_STROBE_RECEIVE (R448): the skew in ns against the nearest own boundary; a wide pulse marks multiples of 1,024. -/
def execDpxStrobeReceive (skew : Int) (wide : Bool) (s : State) : Host.Outcome State Fault Refusal :=
  let k := if skew < 0 then s.clk.tidx + 1 else s.clk.tidx
  let s1 := setReg (setDpx s (fun d => { d with skew := skew, missing := 0 })) aDpxSkew (BitVec.ofNat 32 (s32 skew))
  .next (if !standbyOn s then s
    else if (10 * s.dpx.skewLim : Nat) < skew.natAbs then syncFault 1 s1
    else if wide != decide (k % 1024 = 0) then syncFault 2 s1
    else s1)

/-- SYNC_OK at a boundary: it reads 0 at reset, and 1 once 1,024 tranches have passed without a sync fault (R448, R455). -/
def syncTurn (s : State) : State :=
  let run := s.dpx.lastSync + 1
  setDpx s (fun d => { d with lastSync := run, syncOk := d.syncOk || decide (1024 ≤ run), syncEpisode := d.syncEpisode && decide (run < 1024) })

/-- The strobe at a boundary (R448): the primary gives it; the standby counts boundaries without one, and each that ends four
consecutive ones is a sync fault. -/
def strobeBoundary (s : State) : State :=
  if s.aon.primary then
    syncTurn (if s.clk.tidxValid then emit (.dpxStrobe (decide (s.clk.tidx % 1024 = 0))) s else s)
  else if standbyOn s then
    let s1 := setDpx (syncTurn s) (fun d => { d with missing := d.missing + 1 })
    if 4 ≤ s1.dpx.missing then syncFault 4 s1 else s1
  else syncTurn s

/-! ## Cross-link frames and divergence (R449 to R451) -/

/-- XLINK_UP has changed (R449). -/
def xlinkChange (up : Bool) (s : State) : State :=
  ledger 0x1105 3 (if up then 1 else 0) (linkSt s 15).downs 0 (evRaise aDpxEvt 3 s)

/-- The CRC-32C over 1,024 tranche checks (R450). -/
def digest (chk : Nat → Nat) : Nat := crc32c ((List.range 1024).flatMap (fun i => leBytes 4 (chk i)))

/-- The device-fault bit of R450. -/
def faultBit (s : State) : Bool := s.dpx.faultSinceArm || decide (s.sch.st = 4)

/-- Byte 16 of the frame (R450). -/
def dpxByte (s : State) : Nat :=
  s.dpx.st + (if dpxArm s then 4 else 0) + (if s.aon.primary then 8 else 0) + (if s.dpx.takeback then 16 else 0) +
  (if faultBit s then 32 else 0)

/-- ARMED_N of the frame (R447, R450). -/
def publishedN (s : State) : Nat :=
  match s.dpx.armedN, s.dpx.takebackN with
  | some (n, _), _ => n
  | none, some n => n
  | none, none => 2 ^ 64 - 1

/-- The active image's IMAGE_ID, zero without one. -/
def activeId (s : State) : Nat := (s.sch.activeImg.map Img.id).getD 0

/-- The payload of the frame for data tranche n (R450). -/
def dpxPayload (s : State) (n outDg inDg : Nat) : List Byte :=
  leBytes 8 n ++ leBytes 4 outDg ++ leBytes 4 inDg ++ leBytes 1 (dpxByte s) ++ leBytes 1 s.dpx.cause ++ zeros 2 ++
  leBytes 8 (publishedN s) ++ leBytes 8 (activeId s) ++ leBytes 4 s.dpx.frameSeq ++ zeros 8

/-- A frame as received (R450). -/
def dpxFrameOf (p : List Byte) : DpxFrame :=
  { n := field p 0 8, outDg := field p 8 4, inDg := field p 12 4, state := field p 16 1, cause := field p 17 1,
    armedN := field p 20 8, imageId := field p 28 8, seq := field p 36 4 }

/-- A cross-link frame arrives (R443, R447, R450, R451). -/
def dpxFrameReceive (p : List Byte) (s : State) : State :=
  let f := dpxFrameOf p
  let s1 := setDpx s (fun d => { d with peer := some f, peerFrames := (d.peerFrames ++ [f]).drop (d.peerFrames.length - 7) })
  let s2 := if f.n + 3 = s.clk.tidx ∨ f.n + 2 = s.clk.tidx then s1 else syncFault 3 s1
  let s3 := if decide (f.state / 8 % 2 = roleBit s) && !s.dpx.roleConflict then strapConflict 3 s2 else s2
  let newReq := decide (f.armedN ≠ 2 ^ 64 - 1) && !(s.dpx.peer.any (fun g => decide (g.armedN = f.armedN)))
  if newReq && driving s && decide (f.state % 4 ≠ 2) && !s.dpx.takeback then dpxCount 20 s3 else s3

/-- The tranche n is judged by H_(n+5) (R451). DEDUCED: equal digests with unequal IMAGE_IDs are a mismatch, which the table's third row
names (log entry 51). -/
def judge (n : Nat) (s : State) : State :=
  match s.dpx.own.find? (fun g => decide (g.n = n)) with
  | none => s
  | some g =>
    match s.dpx.peerFrames.find? (fun f => decide (f.n = n)) with
    | none => dpxCount 12 s
    | some f =>
      if g.fault || decide (f.state / 32 % 2 = 1) then dpxCount 12 s
      else
        let bits := (if g.outDg = f.outDg then 0 else 1) + (if g.inDg = f.inDg then 0 else 2) + (if g.image = f.imageId then 0 else 4)
        if bits = 0 then
          let run := s.dpx.agreeRun + 1
          if s.dpx.diverged && decide (s.dpx.agreeN ≤ run) then
            ledger 0x1104 1 n s.dpx.divTranches 0 (evRaise aDpxEvt 2
              (setDpx s (fun d => { d with agreeRun := run, diverged := false, divFirst := 0, divTranches := 0 })))
          else setDpx s (fun d => { d with agreeRun := run })
        else
          let s1 := dpxCount 8 (setDpx s (fun d => { d with agreeRun := 0, diverged := true, divTranches := d.divTranches + 1,
                                                            divFirst := if d.diverged then d.divFirst else n }))
          if s.dpx.diverged then s1
          else ledger 0x1103 4 n bits 0 (evRaise aDpxEvt 1
            (setReg (setReg s1 aDpxDivLo (BitVec.ofNat 32 n)) aDpxDivHi (BitVec.ofNat 32 (n / 2 ^ 32))))

/-- At H_k, the tranche k - 5 is judged, where there is one. -/
def judgeAt (k : Nat) (s : State) : State := if 5 ≤ k then judge (k - 5) s else s

/-- The check of an object's tranche n, as the headgate originated it (R42); 32 tranches are staged (R103). -/
def inCheck (s : State) (n obj : Nat) : Nat := (smGet {} s.pair.stg (obj * 32 + n % 32)).chk

/-- An output's sluice check of the data tranche last corrected (R158); an output that corrected none holds zeros. -/
def outCheck (s : State) (o : Nat) : Nat :=
  let c := (smGet {} s.cor.out o).outChk
  if c = 0 then ({} : Blk).chk else c

/-- At the start of P_(n+3) the digests of n are formed, and sent on the cross-link as a DPX caravan's payload (R450); the
tranche of P_k − 5 is judged (R451). `send` puts the caravan on link 15. -/
def digestBoundary (send : List Byte → State → State) (s : State) : State :=
  if s.dpx.en && s.clk.tidxValid && decide (3 ≤ s.clk.tidx) then
    let n := s.clk.tidx - 3
    let od := digest (outCheck s)
    let di := digest (inCheck s n)
    let g : DpxDg := { n := n, outDg := od, inDg := di, image := activeId s, fault := faultBit s }
    let s1 := setDpx s (fun d => { d with own := (d.own ++ [g]).drop (d.own.length - 7) })
    if xlinkUp s then
      judgeAt s.clk.tidx (setDpx (send (dpxPayload s1 n od di) s1) (fun d => { d with frameSeq := (d.frameSeq + 1) % 2 ^ 32 }))
    else s1
  else s

/-! ## LAUNCH_CHK and SAP_CHK (R453) -/

/-- A staged tranche failed its check at a launch (1) or at SAP SDO (2). -/
def handoffCheck (kind channel : Nat) (s : State) : State :=
  let s1 := evRaise aDpxEvt 7 (dpxCount (28 + 4 * kind) s)
  ledgerLim 0x1109 3 kind 1 (fun c => (kind, channel, c)) s1

/-! ## DPX_CFG and DPX_STATUS (R449, R454) -/

/-- DPX_CFG (R454). -/
def execDpxCfg (d : Desc) (s : State) : Host.Outcome State Fault Refusal :=
  let en := plBit d 0 0
  let tb := pl d 2 2
  let sk := pl d 4 2
  .next (checked d [(0, 1), (2, 7)] [(0, decide (pl d 0 1 ≤ 7)), (2, decide (1 ≤ tb) && decide (tb ≤ 600)),
      (4, decide (10 ≤ sk) && decide (sk ≤ 1000)), (8, decide (1 ≤ pl d 8 1))] s
    (if en != s.dpx.en && decide (s.sch.st ≠ 0) then finish d stNotPermitted s
     else
      let s1 := setDpx s (fun p => { p with en := en, takeback := plBit d 0 1, hbFault := plBit d 0 2, tbHold := tb,
                                            skewLim := sk, pairAddr := pl d 6 2, agreeN := pl d 8 1 })
      finish d stOk (if xlinkUp s != xlinkUp s1 then xlinkChange (xlinkUp s1) s1 else s1)))

/-- The sum of one counter over a table. -/
def sumCnt (l : List Nat) : Nat := min (l.foldl (· + ·) 0) (2 ^ 32 - 1)

/-- The check failures of R453 by object, window, cistern, import, history and tail. -/
def checkFailures (s : State) : Nat :=
  sumCnt (s.obj.map (fun e => cntAt e.2.cnt 28) ++
    (List.range 1024).flatMap (fun n => [cntAt s.pair.cntObj (n * 64 + 16), cntAt s.pair.cntObj (n * 64 + 28)]) ++
    (s.fab.impCnt.filter (fun e => decide (e.1 % 32 = 20))).map Prod.snd ++
    s.cor.out.flatMap (fun e => [cntAt e.2.cnt 24, cntAt e.2.cnt 28]))

/-- The 64 bytes of DPX_STATUS (R454). -/
def dpxRecord (s : State) : List Byte :=
  let p := s.dpx
  let flags := (if p.diverged then 1 else 0) + (if xlinkUp s then 2 else 0) + (if p.syncOk then 4 else 0) + (if p.roleConflict then 8 else 0)
  fit 64 (leBytes 1 p.st ++ leBytes 1 ((p.peer.map DpxFrame.state).getD 0) ++ leBytes 1 p.cause ++ leBytes 1 flags ++
    words32 [cntAt p.cnt 4, cntAt p.cnt 8, cntAt p.cnt 12, cntAt p.cnt 16, cntAt p.cnt 20, checkFailures s,
      sumCnt (s.mp.tx.map (fun e => cntAt e.2.cnt 16)), cntAt p.cnt 32, cntAt p.cnt 36] ++
    leBytes 8 p.divFirst ++ leInt 4 p.skew)

/-- DPX_STATUS (R454). -/
def execDpxStatus (d : Desc) (s : State) : Host.Outcome State Fault Refusal :=
  .next (checked d [(0, 9)] [(8, decide (pl d 8 1 ≤ 1))] s
    (let s1 := hostWrite (pl d 0 8) (dpxRecord s) s
     finish d stOk (if plBit d 8 0 then setDpx s1 (fun p => { p with cnt := [] }) else s1)))

end Sys2Proof.Machine
end

