-- ==== Sys2Proof/Machine/Keyed.lean ====
section
/-! DEFINITION. Keyed actions and the rendering state they apply to: tranche fields, deadlines, arming, commitment,
withdrawal, the image that governs a tranche and the one that renders it (R20 to R23, R52, R190, R520, R524). -/

namespace Sys2Proof.Machine

/-! ## Rendering state (R190) -/

/-- Rendering is stopped. -/
def stopped (s : State) : Bool := decide (s.sch.st = 0)

/-- The sequencers issue an image: RUNNING, STOPPING or GUARDED (R200, R527). -/
def issuing (s : State) : Bool := decide (2 ≤ s.sch.st)

/-- Data tranche `n` is rendered: from the start's N on, and up to that of a stop (R190, R192). -/
def renders (s : State) (n : Nat) : Bool :=
  issuing s && decide (s.sch.startN ≤ n) && (match s.sch.stopN with
    | some e => decide (n ≤ e)
    | none => true)

/-- The image whose sections work on data tranche `n`, TAIL apart (R21, R195). -/
def stageImg (s : State) (n : Nat) : Option Img :=
  if renders s n then (if n < s.sch.oldN then s.sch.old else s.sch.activeImg) else none

/-- The image that works on tranche `n`, rendered or not. -/
def passImg (s : State) (n : Nat) : Option Img := if n < s.sch.oldN then s.sch.old else s.sch.activeImg

/-- The image that governs tranche `n` (R524). -/
def govImg (s : State) (n : Nat) : Option Img :=
  let armedStart := match s.sch.armed with
    | some a => decide (a.kind = 1) && decide (a.n ≤ n)
    | none => false
  let armedSwap := match s.sch.swap with
    | some w => !w.switched && decide (w.n ≤ n)
    | none => false
  let past := match s.sch.armed, s.sch.stopN with
    | some a, e => (decide (a.kind = 3) && decide (a.n < n)) || e.any (fun k => decide (k < n))
    | none, some e => decide (e < n)
    | none, none => false
  if past then none
  else if armedStart || armedSwap then s.sch.shadowImg
  else if issuing s then s.sch.activeImg else none

/-- c of the headgate (R34): the tranche that closes next; N while STARTING toward a start at N (R520). -/
def headC (s : State) : Nat :=
  match s.sch.st, s.sch.armed with
  | 1, some a => max a.n (nextClose s)
  | _, _ => nextClose s

/-! ## The tranche of a descriptor (R52) -/

/-- The N that a descriptor carries at bytes 0 to 7; with NOW it is the least one whose deadline has not passed. -/
def keyN (d : Desc) (least : Nat) : Nat := if plBit d 8 0 then least else pl d 0 8

/-- The cut-off of `n` has passed (R22, R44). -/
def pastCutoff (s : State) (n : Nat) : Bool := decide (n < mTranche s)

/-- The least tranche with H_(n-k) still to come. -/
def leastBefore (s : State) (k : Nat) : Nat := if s.clk.tidxValid then s.clk.tidx + 1 + k else 0

/-- Arms a keyed change (R20). -/
def armKeyed (n : Nat) (tok : Option Nat) (a : KeyedAct) (s : State) : State :=
  { s with keyed := s.keyed ++ [{ n := n, tok := tok, seq := s.keySeq, act := a }], keySeq := s.keySeq + 1 }

/-- A change whose deadline is the cut-off of its N (R52, R87, R124). -/
def armCutoff (d : Desc) (a : KeyedAct) (s : State) : State :=
  let n := keyN d (mTranche s)
  if pastCutoff s n then finish d stLate s else armKeyed n (some d.tok) a s

/-- A change whose deadline is H_(N+1) (R154, R159). -/
def armOutput (d : Desc) (a : KeyedAct) (s : State) : State :=
  let n := keyN d (if s.clk.tidxValid then s.clk.tidx else 0)
  if beforeH s ((n : Int) + 1) then armKeyed n (some d.tok) a s else finish d stLate s

/-! ## Deadlines and effects -/

/-- Where a change takes effect: 0 at the cut-off of N, for the headgate and geometry; 1 at H_(N+1), for the kernels of objects; 2 at
H_(N+2), for correction and sluices; 3 at H_(N-1), for receive mappings (R20, R21, R277). -/
def actStage : KeyedAct → Nat
  | .objKernel _ _ _ => 1
  | .sluiceSet _ _ _ _ => 2
  | .meterCfg _ _ => 2
  | .corrClear _ _ => 2
  | .mpRxMap _ _ _ _ => 3
  | _ => 0

/-- The change is a switch of the sinc bank (R124). -/
def isKtblSwitch : KeyedAct → Bool
  | .ktblSwitch _ => true
  | _ => false

/-- The order of changes keyed to the same tranche: bank switches, GEO_GLOBAL, GEO_OBJ_LAW, the rest (R20, R87). -/
def actRank : KeyedAct → Nat
  | .geoBankSwitch _ => 0
  | .ktblSwitch _ => 0
  | .geoGlobal _ _ _ => 1
  | .geoObjLaw _ _ => 2
  | _ => 3

/-- The change comes before another. -/
def keyedBefore (a b : Keyed) : Bool :=
  decide (a.n < b.n) || (decide (a.n = b.n) && (decide (actRank a.act < actRank b.act) ||
    (decide (actRank a.act = actRank b.act) && decide (a.seq ≤ b.seq))))

/-- The changes of some stages that are due at `n` or earlier, in order. -/
def dueKeyed (s : State) (n stage : Nat) : List Keyed :=
  (s.keyed.filter (fun k => decide (k.n ≤ n) && decide (actStage k.act = stage))).mergeSort keyedBefore

/-- Changes of some stages at or below `n` leave the list. -/
def dropKeyed (n stage : Nat) (s : State) : State :=
  { s with keyed := s.keyed.filter (fun k => !(decide (k.n ≤ n) && decide (actStage k.act = stage))) }

/-- Reports OK for the operations of a list. -/
def reportAll (status : Nat) : List (Option Nat) → State → State
  | [], s => s
  | none :: ts, s => reportAll status ts s
  | some t :: ts, s => reportAll status ts (report t status 0 0 s)

/-- The changes of stage `stage` at or below `n` reach their deadline: they are committed, and their operations complete OK
(R23, R323). -/
def commitKeyed (n stage : Nat) (s : State) : State :=
  let due := dueKeyed s n stage
  reportAll stOk (due.map Keyed.tok) { s with keyed := s.keyed.map (fun k =>
    if k.n ≤ n ∧ actStage k.act = stage then { k with tok := none } else k) }

/-- The pending changes of the render domain complete FLUSHED and are gone; receive mappings are not of it (R23). -/
def flushKeyed (s : State) : State :=
  let gone := s.keyed.filter (fun k => k.tok.isSome && decide (actStage k.act ≠ 3))
  reportAll stFlushed (gone.map Keyed.tok)
    { s with keyed := s.keyed.filter (fun k => !(k.tok.isSome && decide (actStage k.act ≠ 3))) }

end Sys2Proof.Machine
end

