-- ==== Sys2Proof/Machine/Guard.lean ====
section
/-! DEFINITION. The rendering state, pending keyed actions of the render domain and how they are flushed, and the schedule
guard (R23, R148, R190, R192, R199, R200, R527). -/

namespace Sys2Proof.Machine

/-! ## Rendering state -/

/-- Changes the schedule block. -/
def setSch (s : State) (f : Sch → Sch) : State := { s with sch := f s.sch }

/-- The rendering state changes, with `SCH_EVT.STATE_CHG` (R190, R205). -/
def setRender (x : Nat) (s : State) : State :=
  if s.sch.st = x then s else evRaise aSchEvt 5 (setSch s (fun h => { h with st := x }))

/-- Q: the tail block in tranches (R137). -/
def tailQ (s : State) : Nat := if isDouble s.clk.rate then 64 else 128

/-! ## Outputs and their sets -/

/-- An output's correction chain. -/
def outAt (s : State) (o : Nat) : Out := smGet {} s.cor.out o

/-- Changes the correction engine. -/
def setCor (s : State) (f : Cor → Cor) : State := { s with cor := f s.cor }

/-- Changes an output. -/
def setOut (s : State) (o : Nat) (x : Out) : State := setCor s (fun c => { c with out := smSet {} c.out o x })

/-- A staging slot's set (R147). -/
def slotSet (s : State) (k : Nat) : CSet := smGet {} s.cor.slots k

/-! ## Pending actions (R23) -/

/-- The last tranche of a switch's crossfade, plus 1 (R149). -/
def Xf.stop (x : Xf) : Nat := x.n + x.f

/-- The slot whose set is in force at data tranche `n` through a crossfade that has run out by then; none: the active set (R149). -/
def slotAt (s : State) (o n : Nat) : Option Nat :=
  (((s.cor.xfs.filter (fun x => decide (x.out = o) && !x.done && decide (x.stop ≤ n))).mergeSort
    (fun a b => decide (a.n ≤ b.n))).getLast?).map Xf.slot

/-- The set in force at data tranche `n`, from which a crossfade that covers it departs (R149). -/
def setAt (s : State) (o n : Nat) : CSet :=
  match slotAt s o n with
  | some k => slotSet s k
  | none => (outAt s o).set

/-- The deadline H_x of a CORR_SWITCH of output `o` from slot `k` keyed to `n` (R148). -/
def switchDeadline (s : State) (o k n : Nat) : Int :=
  let q : Int := tailQ s
  if 0 < (setAt s o n).parts ∨ 0 < (slotSet s k).parts then q * ((n : Int) / q) - q + 1 else n + 1

/-- A switch whose deadline has not come. -/
def xfPending (x : Xf) : Bool := x.tok.isSome

/-- An armed swap whose deadline H_(N-Q+1) has not come (R194). -/
def swapPending (s : State) (w : SwapSt) : Bool := !w.switched && beforeH s ((w.n : Int) - tailQ s + 1)

/-- An armed start, stop or restart whose deadline H_(N-1) has not come (R191, R192, R201). -/
def armedPending (s : State) (a : Armed) : Bool := beforeH s ((a.n : Int) - 1)

/-- An armed route epoch switch whose deadline H_(N-1) has not come (R224). -/
def epochPending (s : State) (n : Nat) : Bool := beforeH s ((n : Int) - 1)

/-- A measurement start or a pin action keyed to a tranche whose deadline H_(N-2) has not come (R297, R436). -/
def measurePending (s : State) (n : Nat) : Bool := beforeH s ((n : Int) - 2)

/-- Pending correction switches complete FLUSHED. -/
def flushSwitches (s : State) : State :=
  reportAll stFlushed ((s.cor.xfs.filter xfPending).map Xf.tok)
    (setCor s (fun c => { c with xfs := c.xfs.filter (fun x => !xfPending x) }))

/-- A pending swap completes FLUSHED. -/
def flushSwap (s : State) : State :=
  match s.sch.swap with
  | some w => if swapPending s w then report w.tok stFlushed 0 0 (setSch s (fun h => { h with swap := none })) else s
  | none => s

/-- A pending route epoch switch completes FLUSHED. -/
def flushEpoch (s : State) : State :=
  match s.fab.armed with
  | some (n, tok) => if epochPending s n then report tok stFlushed 0 0 { s with fab := { s.fab with armed := none } } else s
  | none => s

/-- Pending capture and stimulus starts complete FLUSHED. -/
def flushStarts (s : State) : State :=
  let s1 := match s.lau.cap.armed with
    | some (n, tok) => if measurePending s n then
        reportAll stFlushed [tok] { s with lau := { s.lau with cap := { s.lau.cap with armed := none } } } else s
    | none => s
  match s1.lau.stim.armed with
  | some (n, _, tok) => if measurePending s n then
      reportAll stFlushed [tok] { s1 with lau := { s1.lau with stim := { s1.lau.stim with armed := none } } } else s1
  | none => s1

/-- A pin action keyed to a tranche that is still pending. -/
def trigPending (s : State) (t : Trig) : Bool := decide (t.mode = 0) && measurePending s t.n

/-- Pending pin actions keyed to a tranche complete FLUSHED; the pins keep their idle level. -/
def flushTrigs (s : State) : State :=
  reportAll stFlushed ((s.ptp.trig.filter (fun e => trigPending s e.2)).map (fun e => some e.2.tok))
    { s with ptp := { s.ptp with trig := s.ptp.trig.filter (fun e => !trigPending s e.2) } }

/-- Pending trajectory segments, whose cut-off has not come, are discarded; their descriptors completed at acceptance (R22, R44).
DEDUCED: R22 lists a segment among the keyed actions that R23 discards (log entry 85). -/
def flushSegments (s : State) : State :=
  { s with obj := smModAll {} s.obj (s.obj.map Prod.fst) (fun _ ob => { ob with pend := [] }) }

/-- Every pending keyed action of the render domain is discarded and completes FLUSHED (R23). -/
def flushRender (s : State) : State :=
  flushSegments (flushTrigs (flushStarts (flushEpoch (flushSwap (flushSwitches (flushKeyed s))))))

/-! ## The guard (R199, R200, R527) -/

/-- The first fault is recorded, with its event and ledger record (R200, R205, R206). -/
def guardRecord (v : GuardViol) (s : State) : State :=
  let k := s.clk.tidx
  let s1 := setReg s aGuardStat (BitVec.ofNat 32 (v.cls % 16 * 2 ^ 28 + v.unit % 256 * 2 ^ 20 + v.cycle % 2 ^ 19))
  let s2 := setReg (setReg s1 aGuardTrLo (BitVec.ofNat 32 k)) aGuardTrHi (BitVec.ofNat 32 (k / 2 ^ 32))
  ledger 0x0D01 6 (pair16 v.cls v.unit) v.cycle k (evRaise aSchEvt 0 s2)

/-- A guard fault is counted in `SCH_GUARD_CNT` (R205). -/
def countGuard (s : State) : State := setReg s aGuardCnt (BitVec.ofNat 32 (bump 32 (getReg s aGuardCnt).toNat 1))

/-- The actions of R200 but for the change of state: guard silence holds from the next boundary on. -/
def guardActions (v : GuardViol) (s : State) : State :=
  deviceFault 1 (flushRender (guardRecord v (setSch s (fun h => { h with guardHold := true, firstGuard := some s.clk.tidx }))))

/-- A start is withdrawn (R190, R527). -/
def dropStart (s : State) : State :=
  match s.sch.armed with
  | some a => report a.tok stFlushed 0 0 (setRender 0 (setSch s (fun h => { h with armed := none })))
  | none => setRender 0 s

/-- A stop that is still pending is flushed: GUARDED follows (R190, R527). -/
def dropStop (s : State) : State :=
  match s.sch.armed with
  | some a => report a.tok stFlushed 0 0 (setRender 4 (setSch s (fun h => { h with armed := none, stopN := none })))
  | none => setRender 4 s

/-- The schedule guard declares a fault (R199, R200, R527); a fault while guard silence holds is only counted. -/
def guardFault (v : GuardViol) (s : State) : State :=
  match s.sch.st with
  | 1 => if v.cls = 7 then guardRecord v (dropStart s) else s
  | 2 => guardActions v (setRender 4 (countGuard s))
  | 3 =>
    let s1 := countGuard s
    let s2 := if s.sch.armed.any (armedPending s) then dropStop s1 else s1
    if s.sch.guardHold then s2 else guardActions v s2
  | 4 => countGuard s
  | _ => s

/-- The faults of a period, in order. -/
def guardFaults : List GuardViol → State → State
  | [], s => s
  | v :: vs, s => guardFaults vs (guardFault v s)

end Sys2Proof.Machine
end

