-- ==== Sys2Proof/Machine/Clock.lean ====
section
/-! DEFINITION. The reference selector: monitors, qualification, selection, switches, build-out and holdover (R246 to R263). -/

namespace Sys2Proof.Machine

/-! ## References (R247 to R252) -/

/-- Changes the clock block. -/
def setClk (s : State) (f : Clk → Clk) : State := { s with clk := f s.clk }

/-- A reference. -/
def refAt (s : State) (r : Nat) : RefSt := smGet {} s.clk.refs r

/-- Changes a reference. -/
def setRef (r : Nat) (x : RefSt) (s : State) : State := setClk s (fun c => { c with refs := smSet {} c.refs r x })

/-- The selection order (R253). -/
def selOrder (s : State) : List Nat := s.clk.selRef :: s.clk.order

/-- The reference is QUALIFIED. -/
def qualified (s : State) (r : Nat) : Bool := decide ((refAt s r).q = 2)

/-- `a` comes earlier in the selection order than `b`; a reference that is absent comes after all of it. -/
def better (s : State) (a b : Nat) : Bool := decide ((selOrder s).idxOf a < (selOrder s).idxOf b)

/-- An active reference is followed. -/
def following (s : State) : Bool := decide (s.clk.st = 1) || decide (s.clk.st = 4)

/-- What the drift monitor bounds (R250): a bound of 0 is off. -/
def exceeds (lim : Nat) (x : Int) : Bool := decide (lim ≠ 0) && decide (lim * 100 < x.natAbs)

/-- The drift rate exists: W seconds lie between the two averages. -/
def driftKnown (x : RefSt) : Bool := decide (x.w < x.favgHist.length)

/-- The reference exceeds RATE_LIM. -/
def rateExceeded (x : RefSt) : Bool := driftKnown x && exceeds x.rateLim x.drift

/-- The cause of a reference's drift fault, 0 for none (R250, R251, R266). -/
def driftCause (s : State) (r : Nat) : Nat :=
  let x := refAt s r
  if !s.clk.xoSuspect && exceeds x.ofsLim x.favg then 4
  else if !s.clk.xoSuspect && rateExceeded x then 5
  else if decide (r ≠ s.clk.active) && exceeds x.relLim x.relOfs then 6 else 0

/-- The source of a PTP or FAB reference reports that it cannot be followed (R247). -/
def sourceBad (s : State) (r : Nat) : Bool :=
  if r = 1 then decide (s.ptp.st ≠ 3)
  else if r = 6 then (refAt s r).srcBad || decide ((linkSt s (refAt s r).mode).st ≠ 3) else false

/-- The window lies outside the pull range (R249), in 0.01 ppb. -/
def outOfPull (x : RefSt) : Bool := decide (x.pullPpm * 100000 < x.winOfs.natAbs)

/-- A fault condition is present (R252). -/
def faultPresent (s : State) (r : Nat) : Bool :=
  let x := refAt s r
  sourceBad s r || (decide (2 ≤ r) && decide (r ≤ 6) && x.lastEdge.isNone) || decide (2 < x.rejAt.length) || outOfPull x || x.driftNow

/-! ## Selection (R253 to R257, R259, R261) -/

/-- A wait-to-restore timer runs. -/
def timerRuns (s : State) : Bool := s.clk.refs.any (fun e => e.2.wtrFrom.isSome && !e.2.wtrDone)

/-- LOCKED or WTR by the timers. -/
def settleWtr (s : State) : State := if following s then setClk s (fun c => { c with st := if timerRuns s then 4 else 1 }) else s

/-- HOLDOVER is entered: the frozen value is a free one within the loop's limit, the last holdover value where the reference was
active for less than 1 s, zero after the XO. -/
def enterHoldover (lost cause : Nat) (forced : Bool) (s : State) : State :=
  let c := s.clk
  let short := decide (s.lgr.ptime < c.since + 1024)
  let v := if short then (if c.hadHold then c.hold else 0)
    else if c.active = 7 then 0 else Config.freeInt s.freeCtr % 100000001 - 50000000
  let s1 := setClk (draw s) (fun c => { c with st := 3, active := 0, hold := v, hadHold := true, holdNoHist := short, forced := forced })
  ledger 0x0401 3 (if forced then 0 else lost) cause (tidxLow s) (evRaise aClkEvt 0 s1)

/-- A switch to `r` begins. -/
def beginSwitch (r : Nat) (tok : Option Nat) (s : State) : State := setClk s (fun c => { c with st := 2, target := r, swTok := tok, forced := false })

/-- In holdover that is not forced, the first QUALIFIED reference of the order is switched to. -/
def autoSwitch (s : State) : State :=
  if s.clk.st = 3 ∧ s.clk.forced = false then
    match (selOrder s).find? (qualified s) with
    | some r => beginSwitch r none s
    | none => s
  else s

/-- A reference's timer is cleared. -/
def clearTimer (r : Nat) (s : State) : State := setRef r { refAt s r with wtrFrom := none, wtrDone := false } s

/-- The timers of references that are not better than the active one are cleared. -/
def pruneTimers : List Nat → State → State
  | [], s => s
  | r :: rs, s => pruneTimers rs (if better s r s.clk.active then s else clearTimer r s)

/-- The best reference whose timer has expired is switched to. -/
def switchExpired (s : State) : State :=
  if following s && s.clk.revertive then
    match (selOrder s).find? (fun r => (refAt s r).wtrDone && qualified s r && better s r s.clk.active) with
    | some r => beginSwitch r none (clearTimer r s)
    | none => s
  else s

/-- CLK_SELECT takes effect outside a switch (R255). -/
def selectNow (tok t : Nat) (s : State) : State :=
  if t = 0 then report tok stOk 0 0 (if s.clk.st = 3 then setClk s (fun c => { c with forced := true }) else enterHoldover 0 0 true s)
  else if t = 255 then autoSwitch (report tok stOk 0 0 (setClk s (fun c => { c with forced := false })))
  else if !qualified s t then report tok stNotPermitted 0 0 s
  else if following s && decide (s.clk.active = t) then report tok stOk 0 0 s
  else beginSwitch t (some tok) s

/-- The commands that wait, in order, until a switch begins. -/
def runSelects : List (Nat × Nat) → State → State
  | [], s => setClk s (fun c => { c with pendSel := [] })
  | x :: xs, s => if s.clk.st = 2 then setClk s (fun c => { c with pendSel := x :: xs }) else runSelects xs (selectNow x.1 x.2 s)

/-- What arose during a switch is evaluated (R256): a failure first, then commands, then expired timers. -/
def evaluate (s : State) : State :=
  let s1 := autoSwitch s
  settleWtr (switchExpired (runSelects s1.clk.pendSel s1))

/-- A reference leaves QUALIFIED or is found faulty (R252): causes as R266 numbers them. -/
def refFault (r cause : Nat) (s : State) : State :=
  let x := refAt s r
  if x.q = 0 ∨ r = 7 then s
  else
    let s1 := setRef r { x with q := 3, cause := cause, wtrFrom := none, wtrDone := false } s
    if x.q ≠ 2 then s1
    else
      let s2 := evRaise aClkEvt 2 s1
      if following s && decide (s.clk.active = r) then autoSwitch (enterHoldover r cause false s2)
      else settleWtr (ledger 0x0403 2 r cause (s32 x.favg) s2)

/-- A faulty reference without a fault condition is qualified again. -/
def refRecover (r : Nat) (s : State) : State :=
  if (refAt s r).q = 3 ∧ faultPresent s r = false then setRef r { refAt s r with q := 1 } s else s

/-- A reference reaches QUALIFIED (R252 to R254, R256). -/
def refQualify (r : Nat) (s : State) : State :=
  let s1 := ledger 0x0404 1 r 0 0 (evRaise aClkEvt 3 (setRef r { refAt s r with q := 2 } s))
  if s1.clk.st = 3 then autoSwitch s1
  else if s1.clk.revertive && decide (r ∈ selOrder s1) && (!following s1 || better s1 r s1.clk.active) then
    settleWtr (switchExpired (setRef r { refAt s1 r with wtrFrom := some s1.lgr.ptime, wtrDone := decide (s1.clk.wtr = 0) } s1))
  else s1

/-- The PTP source reports its state (R247, R263). -/
def ptpSource (s : State) : State :=
  if sourceBad s 1 then (if (refAt s 1).q = 3 then s else refFault 1 7 s) else refRecover 1 s

/-- The FAB source: its link is up and its index agrees, or not (R247, R263). -/
def fabSource (l : Nat) (bad : Bool) (s : State) : State :=
  let x := refAt s 6
  if x.enabled && decide (x.mode = l) then
    let s1 := setRef 6 { x with srcBad := bad } s
    if bad then refFault 6 7 s1 else refRecover 6 s1
  else s

/-! ## Monitors (R247 to R252) -/

/-- A reference's nominal period as a fraction of the converter's 0.5 ns. -/
def refPeriod (s : State) (r : Nat) : Nat × Nat :=
  let base := if is48 s.clk.rate then 48000 else 44100
  let m := (refAt s r).mode
  if r ≤ 3 then (2000000000, base * (1 + m)) else if r ≤ 5 then (if m = 0 then (200, 1) else (2000000000, 1)) else (32000000000, rateHz s.clk.rate)

/-- REF_EDGE: the edge qualifier (R248), the end of a loss (R247). -/
def edgeOp (r time : Nat) (s : State) : State :=
  let x := refAt s r
  let p := refPeriod s r
  match x.lastEdge with
  | none => refRecover r (setRef r { x with lastEdge := some time } s)
  | some t0 =>
    let dt := (time - t0) * p.2
    let m := max 1 ((2 * dt + p.1) / (2 * p.1))
    let good := decide (8 * ((dt : Int) - (m * p.1 : Nat)).natAbs ≤ p.1)
    let cur := x.periods + (if good then m else dt / p.1)
    let rej := (if good then x.rejAt else x.rejAt ++ [cur]).filter (fun k => decide (cur < k + 1000))
    let x1 := if good then { x with lastEdge := some time, periods := cur, rejAt := rej }
      else { x with reject := bump 32 x.reject 1, rejAt := rej }
    let s1 := setRef r x1 s
    if 2 < rej.length then (if x.q = 3 then s1 else refFault r 2 s1) else refRecover r s1
def execRefEdge (r time : Nat) (s : State) : Host.Outcome State Fault Refusal :=
  .next (if 2 ≤ r ∧ r ≤ 6 ∧ (refAt s r).enabled then edgeOp r time s else s)

/-- REF_MISSING: loss. -/
def execRefMissing (r : Nat) (s : State) : Host.Outcome State Fault Refusal :=
  .next (if 2 ≤ r ∧ r ≤ 6 ∧ (refAt s r).enabled then refFault r 1 (setRef r { refAt s r with lastEdge := none } s) else s)

/-- FREQ_WINDOW: the window's offset against the XO in 0.01 ppb. -/
def execFreqWindow (r : Nat) (offset : Int) (s : State) : Host.Outcome State Fault Refusal :=
  .next (if 2 ≤ r ∧ r ≤ 6 ∧ (refAt s r).enabled then
      let x := { refAt s r with winOfs := offset }
      let s1 := setRef r x s
      if outOfPull x then refFault r 3 s1 else refRecover r s1
    else s)

/-- The mean of a list. -/
def meanI (l : List Int) : Int := if l.isEmpty then 0 else sumI l / l.length

/-- A reference's average and drift rate take in the offset of the last second. -/
def driftTake : List (Nat × Int) → State → State
  | [], s => s
  | (r, m) :: rest, s =>
    let x := refAt s r
    driftTake rest (if !x.enabled || decide (r = 0) || decide (7 < r) then s
      else
        let h := (m :: x.favgHist).take (2 * x.w)
        let f := meanI (h.take x.w)
        setRef r { x with favgHist := h, favg := f, drift := if x.w < h.length then (f - meanI (h.drop x.w)) / x.w else x.drift } s)

/-- The relative offsets, against the active reference; without one they stay. -/
def relTake : List Nat → State → State
  | [], s => s
  | r :: rs, s =>
    let x := refAt s r
    relTake rs (if s.clk.active = 0 then s
      else setRef r { x with relOfs := if r = s.clk.active then 0 else x.favg - (refAt s s.clk.active).favg } s)

/-- The XO suspect condition (R251). -/
def xoCondition (s : State) : Bool :=
  let a := refAt s s.clk.active
  let near := fun (p : RefSt → Bool) => [1, 2, 3, 4, 5, 6].any (fun r => decide (r ≠ s.clk.active) && qualified s r && p (refAt s r) &&
    decide ((refAt s r).relOfs.natAbs ≤ 100000))
  decide (s.clk.active ≠ 0) && ((exceeds a.ofsLim a.favg && near (fun x => exceeds x.ofsLim x.favg)) || (rateExceeded a && near rateExceeded))

/-- The condition arises or ends. -/
def xoJudge (s : State) : State :=
  let on := xoCondition s
  let s1 := setClk s (fun c => { c with xoSuspect := on })
  if on && !s.clk.xoSuspect then ledger 0x0405 3 s.clk.active (s32 (refAt s s.clk.active).favg) 0 (evRaise aClkEvt 4 s1) else s1

/-- The drift faults of the references of a list: a reference that qualifies fails at once, a qualified one when the fault has
lasted for its QUAL_TIME. -/
def driftJudge : List Nat → State → State
  | [], s => s
  | r :: rs, s =>
    let x := refAt s r
    let c := driftCause s r
    let n := if c = 0 then 0 else x.driftSecs + 1
    let s1 := setRef r { x with driftNow := decide (c ≠ 0), driftSecs := n } s
    driftJudge rs (if !x.enabled then s
      else if c ≠ 0 ∧ (x.q = 1 ∨ (x.q = 2 ∧ x.qualTime < n)) then refFault r c s1 else refRecover r s1)

/-- DRIFT_EVAL: once per second, with each reference's offset over that second in 0.01 ppb. The XO is the timebase: its own is 0 (R243). -/
def execDriftEval (offsets : List (Nat × Int)) (s : State) : Host.Outcome State Fault Refusal :=
  let rs := [1, 2, 3, 4, 5, 6, 7]
  .next (driftJudge rs (xoJudge (relTake rs (driftTake (offsets.filter (fun e => decide (e.1 ≠ 7)) ++ [(7, 0)]) s))))

/-- QUAL_TIMER. -/
def execQualTimer (r : Nat) (s : State) : Host.Outcome State Fault Refusal :=
  .next (if (refAt s r).q = 1 ∧ (refAt s r).driftNow = false then refQualify r s else s)

/-- WTR_EXPIRY. -/
def execWtrExpiry (r : Nat) (s : State) : Host.Outcome State Fault Refusal :=
  .next (if (refAt s r).wtrFrom.isSome then
      settleWtr ((fun t => if following t && decide (t.clk.active ≠ r) then clearTimer r t else t)
        (switchExpired (setRef r { refAt s r with wtrDone := true } s)))
    else s)

/-! ## Switches, build-out, the clean-up PLL (R257, R258, R261, R263) -/

/-- The alignment period in ns, as a fraction; `none`: absolute, or no phase (R247). -/
def alignPeriod (s : State) (r : Nat) : Option (Nat × Nat) :=
  let base := if is48 s.clk.rate then 48000 else 44100
  let m := (refAt s r).mode
  if r = 2 ∨ r = 3 then some (1000000000, base * (1 + m))
  else if r = 4 ∨ r = 5 then some (if m = 0 then (100, 1) else if is48 s.clk.rate then (1000000000, 1) else (4000000000, 1))
  else none

/-- The build-out B_X from the phase of X (R257), to the nearest ns. -/
def buildOut (s : State) (r : Nat) (phase : Int) : Int :=
  if r = 7 then 0
  else match alignPeriod s r with
    | none => phase
    | some (p, q) =>
      let x := phase * q - ((2 * phase * q + p) / (2 * p)) * p
      (2 * x + q) / (2 * q)

/-- REF_SWITCH_DONE: `phase` is the tranche boundary less the target's instant, in ns. -/
def switchDone (phase : Int) (s : State) : State :=
  let t := s.clk.target
  let b := buildOut s t phase
  let s1 := setClk s (fun c => { c with st := 1, active := t, buildout := b, since := s.lgr.ptime, swTok := none })
  let s2 := ledger 0x0402 1 s.clk.active t (s32 (satS 32 b)) (evRaise aClkEvt 1 s1)
  let s3 := pruneTimers [1, 2, 3, 4, 5, 6, 7] (reportAll stOk [s.clk.swTok] s2)
  evaluate (if qualified s3 t then s3 else enterHoldover t (refAt s3 t).cause false s3)
def execRefSwitchDone (phase : Int) (s : State) : Host.Outcome State Fault Refusal := .next (if s.clk.st = 2 then switchDone phase s else s)

/-- BLEED_TICK. -/
def execBleedTick (s : State) : Host.Outcome State Fault Refusal :=
  .next (if s.clk.bleed && decide (s.clk.active ≠ 0) then
      setClk s (fun c => { c with buildout :=
        if 0 ≤ c.buildout then max 0 (c.buildout - c.bleedRate) else min 0 (c.buildout + c.bleedRate) })
    else s)

/-- The selector leaves for UNLOCKED (R244, R261). -/
def unlock (s : State) : State := monSettleAll (setClk s (fun c => { c with st := 0, active := 7, forced := false }))

/-- PLL_UNLOCK: the guard sees a fault of class 7 at a core cycle of the period (R199, R263). -/
def execPllUnlock (cycle : Nat) (s : State) : Host.Outcome State Fault Refusal :=
  .next (if s.clk.st = 0 then s
    else guardFault { cls := 7, unit := 0, cycle := cycle }
      (ledger 0x0408 5 s.clk.st s.clk.active (tidxLow s) (evRaise aClkEvt 6 (unlock s))))

/-- PLL_LOCK: LOCKED with the XO active; a switch that the unlocking cut short is decided again. -/
def execPllLock (s : State) : Host.Outcome State Fault Refusal :=
  .next (if s.clk.st ≠ 0 then s
    else
      let wait := match s.clk.swTok with
        | some tok => (tok, s.clk.target) :: s.clk.pendSel
        | none => s.clk.pendSel
      evaluate (pruneTimers [1, 2, 3, 4, 5, 6, 7] (monSettleAll (setClk s (fun c => { c with
        st := 1, active := 7, buildout := 0, since := s.lgr.ptime, swTok := none, pendSel := wait })))))

/-! ## The mapping of the tranche index (R245, R246) -/

/-- The nominal instant of H_k in device time, in ns since the media epoch. -/
def nominalH (s : State) (k : Nat) : Nat := 16 * (k + 1) * 1000000000 / rateHz s.clk.rate

/-- A capture of device time at H_k (R246): MAP_OFS, MAP_RATE over the last 64 captures, MAP_LIM. -/
def mapCapture (k : Nat) (s : State) : State :=
  if k % 1024 = 0 ∧ s.ptp.valid then
    let o := (s.ptp.dt : Int) - nominalH s k
    let h := (o :: s.clk.mapHist).take 65
    let n := h.length - 1
    let rate := if n = 0 then 0 else (o - nth h n) * 100 * rateHz s.clk.rate / (n * 16384)
    let past := decide (s.clk.mapLim ≠ 0) && decide (s.clk.mapLim < o.natAbs) && !s.clk.mapLimHot
    let hot := past || (s.clk.mapLimHot && decide (s.clk.mapLim ≤ 2 * o.natAbs))
    let s1 := setClk s (fun c => { c with mapOfs := o, mapHist := h, mapRate := rate, mapLimHot := hot })
    if past then ledger 0x0407 3 (unsigned 64 o % 2 ^ 32) (unsigned 64 o / 2 ^ 32) s.clk.mapLim (evRaise aClkEvt 5 s1) else s1
  else s

/-! ## Views -/

/-- ε (R242): zero on the XO, the frozen value in holdover, else what the loop makes of the reference: a free value within its
limit. -/
def fofs (s : State) : Int :=
  if s.clk.st = 3 then s.clk.hold
  else if s.clk.active = 7 then 0 else Config.freeInt s.freeCtr % 100000001 - 50000000

/-- `CLK_STAT` (R267). -/
def clkStat (s : State) : Nat :=
  let c := s.clk
  let b := fun (x : Bool) (k : Nat) => if x then 2 ^ k else 0
  c.rate * 4096 + b c.forced 11 + b s.ptp.valid 10 + b c.holdNoHist 9 + b c.xoSuspect 8 + b c.tidxValid 7 + b c.rateSet 6 + c.active * 8 + c.st

/-- `CLK_REFQ` (R267). -/
def clkRefq (s : State) : Nat := ((List.range 8).map (fun r => if r = 0 then 0 else (refAt s r).q * 4 ^ r)).foldl (· + ·) 0

/-- REF_ALARM_N is low (R262). -/
def refAlarm (s : State) : Bool :=
  decide (s.clk.st = 0) || decide (s.clk.st = 3) || s.clk.xoSuspect ||
    [1, 2, 3, 4, 5, 6, 7].any (fun r => Word.bit (getReg s aClkAlarm) r && !qualified s r)

/-- CLK_TIDX_READ and CLK_MAP_READ: the low word, the high word latched (R518). -/
def splitRead (hi : Nat) (v : Nat) (s : State) : State := { latch s hi (BitVec.ofNat 32 (v / 2 ^ 32)) with rdata := [BitVec.ofNat 32 v] }
def execClkTidxRead (be : BitVec 4) (s : State) : Host.Outcome State Fault Refusal :=
  .next (narrow be (splitRead 0x00400020 (if s.clk.tidxValid then s.clk.tidx else 0) s))
def execClkMapRead (be : BitVec 4) (s : State) : Host.Outcome State Fault Refusal :=
  .next (narrow be (splitRead 0x00400040 (unsigned 64 s.clk.mapOfs) s))

end Sys2Proof.Machine
end

