-- ==== Sys2Proof/Machine/Disp.lean ====
section
/-! DEFINITION. The work dispatcher: item slots, flows, ready lists, affinity, grants (R346 to R358). -/

namespace Sys2Proof.Machine

/-- The lowest free slot at or above `k` of a sorted store. -/
def lowestFree {α : Type} : Nat → SMap α → Nat
  | k, [] => k
  | k, (a, _) :: m => if a = k then lowestFree (k + 1) m else k

/-- A free item slot, of the 8,192 (R346). -/
def freeSlot (s : State) : Option Nat :=
  if lowestFree 0 s.stw.items < 8192 then some (lowestFree 0 s.stw.items) else none

/-- A flow's settings; flows below 2,088 are always atomic (R347). -/
def flowCfg (s : State) (f : Nat) : FlowCfg := smGet {} s.stw.flows f

/-- The flow passes every item on at once (R347, R348). -/
def isParallel (s : State) (f : Nat) : Bool := decide (2088 ≤ f) && (flowCfg s f).parallel

/-- The items of a flow. -/
def flowItems (s : State) (f : Nat) : List (Nat × Item) := s.stw.items.filter (fun e => decide (e.2.flow = f))

/-- Stores an item. -/
def putItem (s : State) (slot : Nat) (i : Item) : State := { s with stw := { s.stw with items := smPut s.stw.items slot i } }

/-- The next sequence number of the dispatcher's orders. -/
def tickSeq (s : State) : State := { s with stw := { s.stw with nextSeq := s.stw.nextSeq + 1 } }

/-- An item becomes eligible: it reaches the ready list of its PRIO and is reserved to the core that last completed or
forwarded one of its flow's items (R348, R353). -/
def makeReady (slot : Nat) (s : State) : State :=
  match smFind s.stw.items slot with
  | some i =>
    let c := flowCfg s i.flow
    tickSeq (putItem s slot { i with st := .ready, rseq := s.stw.nextSeq,
                                     resv := if c.affWin = 0 then none else c.last })
  | none => s

/-- The waiting item of a flow that was added first. -/
def headWaiting : List (Nat × Item) → Option (Nat × Item)
  | [] => none
  | e :: es => match headWaiting es with
    | some b => if e.2.st = .waiting ∧ e.2.seq < b.2.seq then some e else some b
    | none => if e.2.st = .waiting then some e else none

/-- An atomic flow with no item ready or in service passes its next item on (R348). -/
def advanceFlow (f : Nat) (s : State) : State :=
  if !isParallel s f && (flowItems s f).any (fun e => decide (e.2.st ≠ .waiting)) then s
  else match headWaiting (flowItems s f) with
    | some e => makeReady e.1 s
    | none => s

/-- Free item slots. -/
def freeItems (s : State) : Nat := 8192 - s.stw.items.length

/-- Puts an item into a slot at the tail of its flow; the fall of the free slots below 512 raises POOL_LOW (R348, R367). -/
def addAt (slot : Nat) (i : Item) (s : State) : State :=
  let s1 := tickSeq (putItem s slot { i with seq := s.stw.nextSeq, st := .waiting, resv := none })
  evIf (decide (freeItems s1 < 512) && !decide (freeItems s < 512)) aDspEvt 1 (advanceFlow i.flow s1)

/-- An item as its producer makes it. -/
def mkItem (flow prio kind source param ptr len tag : Nat) : Item :=
  { flow := flow, prio := prio, kind := kind, source := source, param := param, ptr := ptr, len := len, tag := tag,
    seq := 0, rseq := 0, st := .waiting, resv := none, long := false }

/-- Frees an item's slot and lets its flow go on (R354); a frame's buffer is freed with it. -/
def freeItem (slot : Nat) (s : State) : State :=
  match smFind s.stw.items slot with
  | some i =>
    let fb := if i.kind = 2 ∨ i.kind = 3 then s.stw.fbFree + 1 else s.stw.fbFree
    let used := if i.kind = 2 ∨ i.kind = 3 then s.stw.fbUsed.erase i.ptr else s.stw.fbUsed
    advanceFlow i.flow { s with stw := { s.stw with items := smDrop s.stw.items slot, fbFree := fb, fbUsed := used } }
  | none => s

/-- The items in service at a core (R351). -/
def heldItems (s : State) (c : Nat) : List (Nat × Item) :=
  s.stw.items.filter (fun e => decide (e.2.st = .inService c))

/-- The flow lies in the core's range, `DSP_CORE_CFG_n.RANGE` (R357). -/
def flowInRange (range f : Nat) : Bool :=
  match range with
  | 0 => decide (f < 3072)
  | 1 => decide (3072 ≤ f)
  | 2 => true
  | _ => false

/-- The item is eligible for core `c` (R352). -/
def eligible (s : State) (c : Nat) (i : Item) : Bool :=
  let cfg := getReg s (aDsp c 0x48)
  decide (i.st = .ready) && flowInRange (Word.bits cfg 1 0) i.flow && Word.bit cfg (16 + i.prio) &&
    (i.resv = none || decide (i.resv = some c))

/-- Of two eligible items, the one granted first: the higher PRIO, then the older on its ready list (R352). -/
def grantsBefore (a b : Item) : Bool := decide (b.prio < a.prio) || (decide (a.prio = b.prio) && decide (a.rseq ≤ b.rseq))

/-- The item that the dispatcher grants core `c`. -/
def pickItem (s : State) (c : Nat) : List (Nat × Item) → Option (Nat × Item)
  | [] => none
  | e :: es => match pickItem s c es with
    | some b => if eligible s c e.2 && grantsBefore e.2 b.2 then some e else some b
    | none => if eligible s c e.2 then some e else none

/-- The cores that wait in get-work, longest-waiting first (R352). -/
def waitingCores (s : State) : List Nat :=
  let w := (List.range 16).filterMap (fun n => match (core s n).waiting with
    | some t => some (t, n)
    | none => none)
  (w.mergeSort (fun a b => decide (a.1 ≤ b.1))).map Prod.snd

/-- The handle of an item (R351). -/
def handle (slot flow : Nat) : Word := BitVec.ofNat 32 (2 ^ 31 + slot * 2 ^ 13 + flow)

/-- The words of an item (R346). -/
def itemWord0 (i : Item) : Word := BitVec.ofNat 32 (i.flow + i.prio * 2 ^ 12 + i.kind * 2 ^ 16 + i.source * 2 ^ 24)
def itemWord3 (i : Item) : Word := BitVec.ofNat 32 (i.len + i.tag * 2 ^ 16)

/-- `DSP_GW_STAT_n` after a get-work ends with CAUSE (R357). -/
def setGwStat (c cause : Nat) (s : State) : State :=
  let n := (heldItems s c).length
  setReg s (aDsp c 0x44) (BitVec.ofNat 32 ((if n = 0 then 0 else (n - 1) % 4) * 4 + cause))

/-- A get-work ends with the null handle and its CAUSE (R351). -/
def nullHandle (c cause : Nat) (s : State) : State :=
  setGwStat c cause { setCore s c { core s c with waiting := none } with rdata := [0] }

/-- An item is granted to a core: it is in service, its words are in `DSP_CUR_W0_n` to `DSP_CUR_W3_n`, the load returns the
handle, and a host operation becomes STARTED (R351, R359). -/
def grantTo (c slot : Nat) (i : Item) (s : State) : State :=
  let s1 := putItem s slot { i with st := .inService c }
  let s2 := setCore s1 c { core s1 c with waiting := none, grants := bump 32 (core s1 c).grants 1 }
  let s3 := setReg (setReg (setReg (setReg s2 (aDsp c 0x30) (itemWord0 i)) (aDsp c 0x34) (BitVec.ofNat 32 i.param))
    (aDsp c 0x38) (BitVec.ofNat 32 i.ptr)) (aDsp c 0x3C) (itemWord3 i)
  let ops := if i.kind = 1 then
      s3.hif.ops.map (fun o => if o.tok = i.param % 1024 then
        { o with st := if o.st = .queued then .started else o.st, owner := c } else o)
    else s3.hif.ops
  setGwStat c 0 { s3 with hif := { s3.hif with ops := ops }, rdata := [handle slot i.flow &&& laneMask (core s c).be] }

/-- The internal address of frame buffer `i`: 512 buffers of 2,048 bytes in control SRAM (R356), at a base that the spec leaves open. -/
def frameAddr (i : Nat) : Nat := 0x08000000 + Config.frameBase.toNat % 3145728 + 2048 * i

/-- A free frame buffer; which of them is taken is a free choice. -/
def freeFrame (s : State) : Nat :=
  let free := ((List.range 512).map frameAddr).filter (fun a => !decide (a ∈ s.stw.fbUsed))
  free.getD ((Config.freeWord s.freeCtr).toNat % free.length) (frameAddr 0)

/-- Bytes of control SRAM at an internal address are written. -/
def sramPut (a : Nat) (bs : List Byte) (s : State) : State :=
  { s with stw := { s.stw with sram := smWriteBytes s.stw.sram (a - 0x08000000) bs } }

/-- A frame bound for a steward, with its trailer, takes a buffer and an item, or is discarded and counted (R346, R356). `src` is the SOURCE
code; the ledger record's subject is the source. -/
def stewardFrame (flow prio kind src param : Nat) (frame trail : List Byte) (s : State) : State :=
  if 2032 < frame.length ∨ s.stw.fbFree = 0 then
    let s1 := { s with stw := { s.stw with rxNoBuf := bump 32 s.stw.rxNoBuf 1 } }
    ledgerLim 0x0E04 2 src 1 (fun n => (src, n, 0)) (evRaise aDspEvt 3 s1)
  else match freeSlot s with
    | none =>
      let s1 := { s with stw := { s.stw with rxNoItem := bump 32 s.stw.rxNoItem 1 } }
      ledgerLim 0x0E04 2 src 1 (fun n => (src, n, 0)) (evRaise aDspEvt 3 s1)
    | some slot =>
      let b := freeFrame s
      let s1 := draw { s with stw := { s.stw with fbFree := s.stw.fbFree - 1, fbUsed := s.stw.fbUsed ++ [b] } }
      addAt slot (mkItem flow prio kind src param b (frame ++ trail).length 0) (sramPut b (frame ++ trail) s1)

end Sys2Proof.Machine
end

