-- ==== Sys2Proof/Machine/Serial.lean ====
section
/-! DEFINITION. The completion serialiser, rings and MSI-X: completion entries, moderation, held entries, fences, the
commit, complete and withdraw reports, and the abort engine (R314 to R332, R360, R361). -/

namespace Sys2Proof.Machine

/-! ## Rings -/

/-- A submission ring and a completion ring. -/
def sqr (s : State) (n : Nat) : SqRing := smGet {} s.hif.sq n
def cqr (s : State) (n : Nat) : CqRing := smGet {} s.hif.cq n
def setSq (s : State) (n : Nat) (r : SqRing) : State := { s with hif := { s.hif with sq := smSet {} s.hif.sq n r } }
def setCq (s : State) (n : Nat) (r : CqRing) : State := { s with hif := { s.hif with cq := smSet {} s.hif.cq n r } }

/-- A ring's entries, from its SIZE_M1 (R309). -/
def sizeOf (cfg : Word) : Nat := Word.bits cfg 27 16 + 1
def sqSize (s : State) (n : Nat) : Nat := sizeOf (getReg s (aSq n 8))
def cqSize (s : State) (n : Nat) : Nat := sizeOf (getReg s (aCq n 8))
def evrSize (s : State) : Nat := sizeOf (getReg s aEvrCfg)

/-- The completion ring that a submission ring names. -/
def cqOf (s : State) (sq : Nat) : Nat := Word.bits (getReg s (aSq sq 8)) 11 8

/-- The ring has no free entry: the device writes at most size - 1 entries ahead of the head (R317). -/
def ringFull (tail head size : Nat) : Bool := decide ((tail + 1) % size = head)

/-! ## MSI-X (R330, R331) -/

/-- Sends a vector's message: nothing with MSI-X disabled; due while host traffic cannot flow, with an exit from L1; pending while masked. -/
def sendVector (v : Nat) (s : State) : State :=
  if !s.hif.msixEn then s
  else if !canHost s then
    { s with hif := { s.hif with dueVec := (if v ∈ s.hif.dueVec then s.hif.dueVec else s.hif.dueVec ++ [v]), l1Exit := s.hif.inL1 } }
  else if s.hif.funcMask || !decide (v ∈ s.hif.unmasked) then
    { s with hif := { s.hif with msixPend := if v ∈ s.hif.msixPend then s.hif.msixPend else s.hif.msixPend ++ [v] } }
  else emit (.msix v (smGet (0, 0) s.hif.msixTab v).1 (smGet (0, 0) s.hif.msixTab v).2) s

/-- An entry or record becomes due. In D3hot with PME_En set, PME_Status is set and a PME message sent; in L1 the device begins its exit
(R331). -/
def pmeDue (s : State) : State :=
  if s.hif.d3 && s.hif.pmeEn then emit .pme { s with hif := { s.hif with pmeStatus := true } }
  else { s with hif := { s.hif with l1Exit := s.hif.inL1 } }

/-! ## Completion entries -/

/-- The 16 bytes of a completion entry (R316). -/
def cplBytes (c : Cpl) (head : Nat) (phase : Bool) : List Byte :=
  leBytes 4 c.result ++ leBytes 2 head ++ leBytes 1 c.sq ++ leBytes 1 c.status ++ leBytes 2 c.cid ++ leBytes 1 c.opcode ++
  leBytes 1 (if c.uncertain then 1 else 0) ++ leBytes 2 c.detail ++ leBytes 1 0 ++ leBytes 1 (if phase then 128 else 0)

/-- Moderation after an entry (R329): the count of entries since the last vector, the timer, and the vector. -/
def moderate (q : Nat) (s : State) : State :=
  let cfg := getReg s (aCq q 8)
  let mod := getReg s (aCq q 0xC)
  let r := cqr s q
  let cnt := Word.bits mod 31 24
  let tm := Word.bits mod 15 0
  if !Word.bit cfg 1 then s
  else if (cnt ≠ 0 ∧ cnt ≤ r.modCount + 1) ∨ (cnt = 0 ∧ tm = 0) then
    sendVector (Word.bits cfg 13 8) (setCq s q { r with modCount := 0, modTimer := false })
  else setCq s q { r with modCount := r.modCount + 1, modTimer := r.modTimer || decide (tm ≠ 0) }

/-- The completion ring can take an entry now (R311, R317, R328, R331). -/
def cqOpen (s : State) (q : Nat) : Bool :=
  let r := cqr s q
  r.enabled && !r.disabling && !r.err && !ringFull r.tail r.head (cqSize s q) && canHost s

/-- Removes an operation from flight. -/
def dropOp (s : State) (tok : Nat) : State := { s with hif := { s.hif with ops := s.hif.ops.filter (fun o => decide (o.tok ≠ tok)) } }

/-- Writes one completion entry at the ring's tail, and ends the operation's flight (R317). -/
def writeCpl (q : Nat) (c : Cpl) (s : State) : State :=
  let r := cqr s q
  let s1 := hostWrite (base64 s (aCq q 0) + 16 * r.tail) (cplBytes c (sqr s c.sq).head r.phase) s
  let wrap := decide (r.tail + 1 = cqSize s q)
  let s2 := setCq s1 q { r with tail := if wrap then 0 else r.tail + 1, phase := if wrap then !r.phase else r.phase,
                                holding := false }
  moderate q (dropOp s2 c.tok)

/-- An entry is held for want of space: the first hold since the ring last had space raises CQ_FULL and counts (R318, R321, R338). -/
def noteFull (q : Nat) (s : State) : State :=
  let r := cqr s q
  if r.enabled && ringFull r.tail r.head (cqSize s q) && !r.holding then
    let s1 := setCq s q { r with holding := true, fullCnt := bump 7 r.fullCnt 1 }
    evRaise aHifEvt 2 { s1 with hif := { s1.hif with nCqHold := bump 32 s1.hif.nCqHold 1 } }
  else s

/-- An entry that cannot be written is held in order (R318, R331). -/
def holdCpl (q : Nat) (c : Cpl) (s : State) : State :=
  pmeDue (noteFull q (setCq s q { cqr s q with held := (cqr s q).held ++ [c] }))

/-- Marks an operation's outcome fixed and its completion due. -/
def settleOp (s : State) (tok : Nat) : State :=
  { s with hif := { s.hif with ops := s.hif.ops.map (fun o => if o.tok = tok then
      { o with st := .committed, notice := false, done := true } else o) } }

/-- A host-interface reset has discarded the operation's completion (R332). -/
def isOrphan (s : State) (tok : Nat) : Bool := s.hif.ops.any (fun o => decide (o.tok = tok) && o.orphan)

/-- The serialiser takes a completion: written now, held behind those already held (R317, R318), or discarded after a
host-interface reset (R332). -/
def postCpl (c : Cpl) (s : State) : State :=
  let s1 := settleOp s c.tok
  let q := cqOf s1 c.sq
  if isOrphan s c.tok then dropOp s c.tok
  else if cqOpen s1 q && (cqr s1 q).held.isEmpty then writeCpl q c s1 else holdCpl q c s1

/-! ## Fetched operations and the dispatcher (R314, R315, R359) -/

/-- The internal address of an operation's 64-byte entry in control SRAM (R346); its base is left open by the spec. -/
def entryAddr (tok : Nat) : Nat := 0x08000000 + Config.entryBase.toNat % 4128768 + 64 * tok

/-- The item of a host operation (R346, R359). -/
def opItem (s : State) (o : Op) : Item :=
  mkItem (2048 + o.sq) (Word.bits (getReg s (aSq o.sq 8)) 6 4) 1 0x40 (o.tok + o.sq * 65536)
    (entryAddr o.tok) 64 0

/-- An operation can go to the dispatcher: it is queued, and where FENCE is set no earlier operation of its ring is in
flight (R315, R359). `earlier` are the ring's operations before it; one that has ended no longer stands before it in ring order. -/
def canAdd (earlier : List Op) (o : Op) : Bool :=
  decide (o.st = .queued) && !o.added && !o.done && (!o.fence || earlier.isEmpty) && earlier.all (fun e => e.added || e.done)

/-- The operations in flight: not those that a host-interface reset has discarded (R332). -/
def liveOps (s : State) : List Op := s.hif.ops.filter (fun o => !o.orphan)

/-- Adds to the dispatcher, in ring order, every operation of the list that may go (R315). -/
def addOps (sq : Nat) : List Op → List Op → State → State
  | _, [], s => s
  | earlier, o :: os, s =>
    if o.sq ≠ sq then addOps sq earlier os s
    else if canAdd earlier o then
      match freeSlot s with
      | some slot =>
        let s1 := sramPut (entryAddr o.tok) o.entry (addAt slot (opItem s o) s)
        let s2 := { s1 with hif := { s1.hif with ops := s1.hif.ops.map (fun p => if p.tok = o.tok then { p with added := true } else p) } }
        addOps sq (earlier ++ [{ o with added := true }]) os s2
      | none => s
    else addOps sq (earlier ++ [o]) os s

/-- After a completion of the ring, fenced operations may go on (R315). -/
def releaseFences (sq : Nat) (s : State) : State := addOps sq [] (liveOps s) s

/-- The same for the rings of a list. -/
def releaseAll : List Nat → State → State
  | [], s => s
  | n :: ns, s => releaseAll ns (releaseFences n s)

/-- An item's slot is freed: operations that waited for a slot go on (R354, R356). -/
def freeSlotOf (slot : Nat) (s : State) : State := releaseAll (List.range 16) (freeItem slot s)

/-- Writes held entries in order while the ring takes them (R318), with the fences that waited for them (R315); `fuel` bounds the number. -/
def drainCq : Nat → Nat → State → State
  | 0, _, s => s
  | fuel + 1, q, s =>
    match (cqr s q).held with
    | c :: rest =>
      if cqOpen s q then drainCq fuel q (releaseFences c.sq (writeCpl q c (setCq s q { cqr s q with held := rest }))) else noteFull q s
    | [] => s

/-- The operation in flight with a token. -/
def findOp (s : State) (tok : Nat) : Option Op := s.hif.ops.find? (fun o => decide (o.tok = tok) && !o.done)

/-- Ends an operation with a status: its completion is posted and the ring's fences looked at again (R316, R320). -/
def endOp (o : Op) (status result detail : Nat) (unc : Bool) (s : State) : State :=
  releaseFences o.sq (postCpl { tok := o.tok, sq := o.sq, cid := o.cid, opcode := o.opcode, status := status,
                                result := result % 2 ^ 32, detail := detail, uncertain := unc } s)

/-- The item slot that carries a host operation. -/
def opSlot (s : State) (tok : Nat) : Option (Nat × Item) :=
  s.stw.items.find? (fun e => decide (e.2.kind = 1) && decide (e.2.param % 1024 = tok))

/-- Frees the item of a host operation. -/
def dropOpItem (tok : Nat) (s : State) : State :=
  match opSlot s tok with
  | some e => freeSlotOf e.1 s
  | none => s

/-- A host operation's item waits in a flow, as after a forward: no core holds it (R361). -/
def itemWaits (s : State) (tok : Nat) : Bool :=
  match opSlot s tok with
  | some e => decide (e.2.st = .waiting) || decide (e.2.st = .ready)
  | none => false

/-- The core that holds a host operation's item (R360). -/
def opHolder (s : State) (tok : Nat) : Option Nat :=
  match opSlot s tok with
  | some e => match e.2.st with
    | .inService c => some c
    | _ => none
  | none => none

/-! ## Aborts (R324 to R326, R361) -/

/-- The status of an operation ended by an abort: TIMEOUT where its TIMEOUT_MS expired (R326). -/
def abortStatus (o : Op) : Nat := if o.tmo then stTimeout else stAborted

/-- An abort session that waits for nothing more answers: `TOP_ABORT_STAT` for a register abort, the outcome of the
HIF_ABORT otherwise (R321, R334). -/
def answerAbort (a : AbortSess) (s : State) : State :=
  match a.src with
  | none => setReg s aAbortStat (BitVec.ofNat 32 ((if a.unc then 2 ^ 30 else 0) +
      (if a.count = 0 then stNothing else stAborted) * 2 ^ 16 + a.count))
  | some tok => report tok (if a.count = 0 then stNothing else stOk) a.count 0 s

/-- Answers, in order, every session of the list that waits for nothing. -/
def answerAll : List AbortSess → State → State
  | [], s => s
  | a :: as, s => answerAll as (if a.waiting.isEmpty then answerAbort a s else s)

/-- Settles the sessions: those that wait for nothing answer and go. -/
def settleAborts (s : State) : State :=
  let s1 := answerAll s.hif.aborts s
  { s1 with hif := { s1.hif with aborts := s1.hif.aborts.filter (fun a => !a.waiting.isEmpty) } }

/-- An operation under abort has ended (`n` = 1) or run on (`n` = 0): every session that waited for it is told. -/
def tellAborts (tok n : Nat) (unc : Bool) (s : State) : State :=
  settleAborts { s with hif := { s.hif with aborts := s.hif.aborts.map (fun a =>
    if tok ∈ a.waiting then { a with waiting := a.waiting.erase tok, count := a.count + n, unc := a.unc || unc } else a) } }

/-- The operation's owner is told of the abort (R361). -/
def giveNotice (tok : Nat) (s : State) : State :=
  { s with hif := { s.hif with notices := s.hif.notices.filter (fun t => decide (t ≠ tok)) ++ [tok],
                               ops := s.hif.ops.map (fun o => if o.tok = tok then { o with notice := true } else o) } }

/-- An owner's commit report is taken: the operation is COMMITTED, and an abort that waited for it finds it running on (R323, R324). -/
def commitTok (tok : Nat) (s : State) : State :=
  if s.hif.ops.any (fun o => decide (o.tok = tok) && decide (o.st = .started)) then
    tellAborts tok 0 false { s with hif := { s.hif with ops := s.hif.ops.map (fun o => if o.tok = tok then
      { o with st := .committed, notice := false } else o) } }
  else s

/-- The same for the operations of a list. -/
def commitToks : List Nat → State → State
  | [], s => s
  | t :: ts, s => commitToks ts (commitTok t s)

/-- Operations whose owners have an outcome to report have passed their commit points: those reports are taken before an abort (R322, R323). -/
def commitOutcomes (s : State) : State := commitToks (s.outcomes.map OpOutcome.tok) s

/-- The armed keyed actions of an operation are withdrawn with it; how is each block's own, at the deadline lists. -/
def abortQueued (o : Op) (s : State) : State :=
  endOp o (abortStatus o) 0 0 false (dropOpItem o.tok s)

/-- An abort meets one operation (R324): QUEUED ends at once; STARTED gets a notice, or is withdrawn by the dispatcher when
its item waits in a flow after a forward (R361); COMMITTED stays. The pair is the operations ended and those awaited. -/
def abortOne (o : Op) (s : State) : Nat × List Nat × State :=
  if o.done then (0, [], s)
  else match o.st with
    | .queued => (1, [], abortQueued o s)
    | .started => if itemWaits s o.tok then (1, [], abortQueued o s) else (0, [o.tok], giveNotice o.tok s)
    | .committed => (0, [], s)

/-- An abort meets the operations of a list in turn. -/
def abortList : List Op → Nat → List Nat → State → Nat × List Nat × State
  | [], n, w, s => (n, w, s)
  | o :: os, n, w, s => abortList os (n + (abortOne o s).1) (w ++ (abortOne o s).2.1) (abortOne o s).2.2

/-- The operations an abort names (R324): scope 0 one, 1 a ring's, 2 all; never the abort's own operation (R321). -/
def abortScope (s : State) (scope sq cid : Nat) (self : Option Nat) : List Op :=
  (liveOps s).filter (fun o => !o.done && decide (some o.tok ≠ self) &&
    (if scope = 0 then decide (o.sq = sq) && decide (o.cid = cid) else if scope = 1 then decide (o.sq = sq) else true))

/-- Starts an abort (R324, R325): BUSY for a register abort stands while an owner has not answered. Host DMA and the
schedule loader are reset as bus masters (R386). -/
def startAbort (scope sq cid : Nat) (src : Option Nat) (s0 : State) : State :=
  let s := commitOutcomes s0
  let r := abortList (abortScope s scope sq cid src) 0 [] s
  let s1 := resetMasters [1, 4] r.2.2
  let s2 := { s1 with hif := { s1.hif with aborts := s1.hif.aborts ++ [{ src := src, waiting := r.2.1, count := r.1, unc := false }] } }
  settleAborts s2

/-- A register abort is running: `TOP_ABORT_STAT.BUSY` (R334). -/
def abortBusy (s : State) : Bool := s.hif.aborts.any (fun a => a.src.isNone)

/-- A write to `TOP_ABORT_CTL` (R324, R334): discarded while BUSY, or with the reserved SCOPE (R10). -/
def abortWrite (v : Word) (s : State) : State :=
  if abortBusy s || !writeLegal [fldIn 31 30 .wo 0 0 2, fld 19 16 .wo 0, fld 15 0 .wo 0] v then s
  else startAbort (Word.bits v 31 30) (Word.bits v 19 16) (Word.bits v 15 0) none s

/-- The abort engine ends a STARTED operation without its owner: ABORTED, UNCERTAIN, PROGRESS 0; later reports of the owner
are refused (R324, R325, R339). -/
def endUncertain (o : Op) (s : State) : State :=
  let s1 := endOp o (abortStatus o) 0 0 true s
  let s2 := { s1 with hif := { s1.hif with ended := s1.hif.ended ++ [(o.tok, o.owner)], nUncertain := bump 32 s1.hif.nUncertain 1 } }
  tellAborts o.tok 1 true (ledger 0x0103 4 (pair16 o.sq o.cid) o.opcode o.owner (evRaise aHifEvt 5 s2))

/-! ## The owner's reports (R323, R360) -/

/-- The serialiser's answer in `STW_CPL_RES_n`. -/
def cplAnswer (core r : Nat) (s : State) : State := setReg s (aCpl core 0xC) (BitVec.ofNat 32 r)

/-- The operation that a core's report names, where it is in flight and the core holds its item. -/
def ownedOp (s : State) (core : Nat) : Option Op :=
  let tok := Word.bits (getReg s (aCpl core 0)) 9 0
  if opHolder s tok = some core then findOp s tok else none

/-- A report the serialiser does not take: refused where the operation has ended without this owner, else unknown. -/
def refuseReport (core : Nat) (s : State) : State :=
  let tok := Word.bits (getReg s (aCpl core 0)) 9 0
  if (tok, core) ∈ s.hif.ended then
    cplAnswer core 1 { s with hif := { s.hif with ended := s.hif.ended.erase (tok, core) } }
  else cplAnswer core 2 s

/-- *Commit* moves the operation to COMMITTED, and an abort that waited for it finds it running on (R324, R360). -/
def reportCommit (core : Nat) (s : State) : State :=
  match ownedOp s core with
  | some o => cplAnswer core 0 (commitTok o.tok s)
  | none => refuseReport core s

/-- *Complete* writes the completion, committing the operation first if need be (R360). -/
def reportComplete (core status detail : Nat) (s : State) : State :=
  match ownedOp s core with
  | some o =>
    let s1 := endOp o status (getReg s (aCpl core 4)).toNat detail false s
    cplAnswer core 0 (tellAborts o.tok 0 false s1)
  | none => refuseReport core s

/-- *Withdraw* completes the operation ABORTED with the owner's PROGRESS; only while an abort notice is pending (R360). -/
def reportWithdraw (core : Nat) (s : State) : Option Nat × State :=
  match ownedOp s core with
  | some o =>
    if o.notice then
      let s1 := endOp o (abortStatus o) (getReg s (aCpl core 4)).toNat 0 false s
      (some o.tok, cplAnswer core 0 (tellAborts o.tok 1 false s1))
    else (none, cplAnswer core 2 s)
  | none => (none, refuseReport core s)

/-! ## Ring disable (R327, R328) -/

/-- The operations of a ring still in flight. -/
def ringOps (s : State) (sq : Nat) : List Op := (liveOps s).filter (fun o => decide (o.sq = sq))

/-- The QUEUED operations of a list complete FLUSHED (R327). -/
def flushQueued : List Op → State → State
  | [], s => s
  | o :: os, s => flushQueued os (if o.st = .queued ∧ !o.done then endOp o stFlushed 0 0 false (dropOpItem o.tok s) else s)

/-- An enabled submission ring names the completion ring (R328). -/
def cqNamed (s : State) (q : Nat) : Bool :=
  (List.range 16).any (fun n => (sqr s n).enabled && decide (cqOf s n = q))

/-- Completion rings whose disable waited take it now where nothing names them any more (R328). -/
def settleCqs : List Nat → State → State
  | [], s => s
  | q :: qs, s =>
    settleCqs qs (if (cqr s q).disabling && !cqNamed s q then
      setCq s q { cqr s q with enabled := false, disabling := false, err := false, modCount := 0, modTimer := false } else s)

/-- The HIF_SQ_DISABLEs of a list complete. -/
def disablesDone : List Nat → State → State
  | [], s => s
  | t :: ts, s => disablesDone ts (report t stOk 0 0 s)

/-- Nothing of the ring runs any more. An entry that is held for a completion ring under disable is not awaited: that disable waits for this
one, and the entry is held on past both (R328). -/
def sqDrained (s : State) (n : Nat) : Bool := (ringOps s n).all (fun o => o.done && (cqr s (cqOf s n)).disabling)

/-- The disable of a drained ring takes effect (R327): ENABLED reads 0, each HIF_SQ_DISABLE that waited completes, and completion rings that
waited for it go on. -/
def sqDisableEnd (n : Nat) (s : State) : State :=
  let r := sqr s n
  if r.disabling && sqDrained s n then
    disablesDone r.disableToks (settleCqs (List.range 16) (setSq s n { r with enabled := false, disabling := false, err := false, disableToks := [] }))
  else s

/-- A ring's disable starts (R327): fetching stops, QUEUED operations complete FLUSHED; it takes effect at once where
nothing else is in flight. -/
def sqDisableStart (n : Nat) (tok : Option Nat) (s : State) : State :=
  let r := sqr s n
  if r.enabled then
    let s1 := setSq s n { r with disabling := true, disableToks := r.disableToks ++ tok.toList }
    sqDisableEnd n (flushQueued (ringOps s1 n) s1)
  else match tok with
    | some t => report t stOk 0 0 s
    | none => s

end Sys2Proof.Machine
end

