-- ==== Sys2Proof/Machine/Hif.lean ====
section
/-! DEFINITION. The host-interface family: its descriptors, ring enables and disables, doorbell polls and fetches, owner
reports, aborts, power states and resets of the host interface (R308 to R339). -/

namespace Sys2Proof.Machine

/-! ## Descriptors (R321) -/

/-- HIF_NOP (R321). -/
def execHifNop (d : Desc) (s : State) : Host.Outcome State Fault Refusal :=
  .next (checked d [] [] s (report d.tok stOk (tidxLow s) 0 s))

/-- HIF_ABORT (R321, R324). -/
def execHifAbort (d : Desc) (s : State) : Host.Outcome State Fault Refusal :=
  .next (checked d [(0, 4)] [(0, decide (pl d 0 1 ≤ 2)), (1, decide (pl d 0 1 = 2) || decide (pl d 1 1 ≤ 15))] s
    (startAbort (pl d 0 1) (pl d 1 1) (pl d 2 2) (some d.tok) s))

/-- HIF_SQ_DISABLE (R321, R327); naming its own ring it completes NOT_PERMITTED. -/
def execHifSqDisable (d : Desc) (s : State) : Host.Outcome State Fault Refusal :=
  .next (checked d [(0, 1)] [(0, decide (pl d 0 1 ≤ 15))] s
    (if (findOp s d.tok).any (fun o => decide (o.sq = pl d 0 1)) then finish d stNotPermitted s
     else sqDisableStart (pl d 0 1) (some d.tok) s))

/-- The 128-byte record of HIF_STATUS (R321). -/
def hifRecord (s : State) : List Byte :=
  fit 128 (words32 ((List.range 16).map (fun n => (ringOps s n).length) ++
    [s.hif.nPolls, s.hif.nPollFail, s.hif.nCqHold, s.hif.nEvrHold, s.hif.nInbound, s.hif.nUncertain, s.hif.nLinkReset]))

/-- HIF_STATUS (R321). -/
def execHifStatus (d : Desc) (s : State) : Host.Outcome State Fault Refusal :=
  .next (checked d [(0, 8)] [] s (finish d stOk (hostWrite (pl d 0 8) (hifRecord s) s)))

/-- The 64-byte record of HIF_IDENTIFY (R321). -/
def identRecord (s : State) : List Byte :=
  fit 64 (leBytes 8 Config.deviceId.toNat ++ words32 [(getReg s aFabAddr).toNat, Config.topRev.toNat, s.stw.afinalVer, s.stw.userVer])

/-- HIF_IDENTIFY (R321). -/
def execHifIdentify (d : Desc) (s : State) : Host.Outcome State Fault Refusal :=
  .next (checked d [(0, 8)] [] s (finish d stOk (hostWrite (pl d 0 8) (identRecord s) s)))

/-! ## Aborts and owner reports (R324 to R326, R360) -/

/-- ABORT_REQUEST (R324, R334). -/
def execAbortRequest (v : Word) (s : State) : Host.Outcome State Fault Refusal := .next (abortWrite v s)

/-- The abort engine gives up on an operation's owner, where a notice is pending (R324). -/
def abortGiveUp (tok : Nat) (s : State) : State :=
  match findOp s tok with
  | some o => if o.notice ∧ o.st = .started then endUncertain o s else s
  | none => s

/-- CPL_COMMIT, CPL_COMPLETE and CPL_WITHDRAW are writes of `STW_CPL_CMD_n`; a write with a reserved field is discarded
(R10, R360), and so is one with a STATUS that is none of the codes of R320. -/
def cmdLegal (cmd : Word) : Bool := writeLegal [fldIn 31 30 .wo 0 0 2, fldIn 23 16 .wo 0 0 10, fld 15 0 .wo 0] cmd

/-! ## Resuming host traffic (R331) -/

/-- Writes the host blocks that were due, in order. -/
def flushDue (s : State) : State :=
  { s with hostMem := s.dueWrites.foldl (fun m w => putHost m w.1 w.2) s.hostMem, dueWrites := [] }

/-- Writes every held entry of the rings of a list. -/
def drainAll : List Nat → State → State
  | [], s => s
  | q :: qs, s => drainAll qs (drainCq (cqr s q).held.length q s)

/-- Sends every vector of a list. -/
def sendAll : List Nat → State → State
  | [], s => s
  | v :: vs, s => sendAll vs (sendVector v s)

/-- Everything held is sent in order once host traffic flows (R331); `fast`: polling resumes at the fast interval. -/
def resumeHost (fast : Bool) (s : State) : State :=
  if canHost s then
    let s1 := drainAll (List.range 16) (flushDue s)
    let due := s1.hif.dueVec
    sendAll due { s1 with hif := { s1.hif with dueVec := [], fastPoll := s1.hif.fastPoll || fast } }
  else s

/-- The vectors of a list that are no longer held by a mask leave the pending array and are sent (R330). -/
def sendPending (s : State) : State :=
  if s.hif.funcMask then s
  else
    let free := s.hif.msixPend.filter (fun v => decide (v ∈ s.hif.unmasked))
    sendAll free { s with hif := { s.hif with msixPend := s.hif.msixPend.filter (fun v => !decide (v ∈ s.hif.unmasked)) } }

/-- D3HOT_ENTRY (R331). -/
def execD3hotEntry (pmeEn : Bool) (s : State) : Host.Outcome State Fault Refusal :=
  .next (evRaise aHifEvt 7 { s with hif := { s.hif with d3 := true, pmeEn := pmeEn } })

/-- D0_RETURN (R331). -/
def execD0Return (s : State) : Host.Outcome State Fault Refusal :=
  .next (resumeHost true { s with hif := { s.hif with d3 := false } })

/-- BUS_MASTER_CHANGE (R306, R330, R331): host software writes Bus Master Enable, and with it the function's other settings. -/
def execBusMasterChange (on : Bool) (c : PciCfg) (s : State) : Host.Outcome State Fault Refusal :=
  .next (sendPending (resumeHost false { s with hif := { s.hif with
    bme := on, msixEn := c.msixEn, funcMask := c.funcMask, mps := c.mps, mrrs := c.mrrs, l1En := c.l1En,
    unmasked := s.hif.unmasked.filter (fun v => !decide (v ∈ c.masked)) } }))

/-- The link is back in L0: what was due is sent (R331). -/
def leaveL1 (s : State) : State := resumeHost false { s with hif := { s.hif with inL1 := false, l1Exit := false } }

/-- L1_EXIT (R331). -/
def execL1Exit (s : State) : Host.Outcome State Fault Refusal := .next (leaveL1 s)

/-- MSIX_UNMASK (R330): a vector's table entry is written with its mask bit clear; where it is pending it is sent once the function is
unmasked too. -/
def execMsixUnmask (v addr data : Nat) (s : State) : Host.Outcome State Fault Refusal :=
  .next (sendPending { s with hif := { s.hif with
    unmasked := (if v ∈ s.hif.unmasked then s.hif.unmasked else s.hif.unmasked ++ [v]), msixTab := smSet (0, 0) s.hif.msixTab v (addr, data) } })

/-- DB_KICK (R312): a poll follows within 1 µs at the fast interval. -/
def kickOp (s : State) : State := { s with hif := { s.hif with fastPoll := true } }
def execDbKick (_ : Word) (s : State) : Host.Outcome State Fault Refusal := .next (kickOp s)

/-! ## Ring enables and disables (R309, R327, R328) -/

/-- Entries held for a completion ring under disable are discarded once a ring that names it is enabled again; DEDUCED: they count among the
CQ holds, the one count of HIF_STATUS for entries that a ring did not take (R321, R328; log entry 95). -/
def discardHeld (q : Nat) (s : State) : State :=
  let gone := (cqr s q).held
  let s1 := setCq s q { cqr s q with held := [] }
  { s1 with hif := { s1.hif with nCqHold := bump 32 s1.hif.nCqHold gone.length,
                                 ops := s1.hif.ops.filter (fun o => !gone.any (fun c => decide (c.tok = o.tok))) } }

/-- A write to `HIF_SQ_CFG_n` (R10, R309, R327, R328). While the ring reads ENABLED only EN may change. -/
def sqCfgWrite (n : Nat) (v : Word) (s : State) : State :=
  let a := aSq n 8
  let old := getReg s a
  let r := sqr s n
  let en := Word.bit v 0
  if !decide (n < 16) || !writeLegal [fldIn 27 16 .rw 0 1 4095, fld 11 8 .rw 0, fld 6 4 .rw 0, fld 0 0 .rw 0] v then s
  else if r.enabled then
    if Word.put v 0 0 0 ≠ Word.put old 0 0 0 then s
    else if en then s
    else if r.disabling then s
    else sqDisableStart n none (setReg s a v)
  else if en then
    if (cqr s (Word.bits v 11 8)).enabled then
      setSq (setReg (if (cqr s (Word.bits v 11 8)).disabling then discardHeld (Word.bits v 11 8) s else s) a v) n { enabled := true }
    else s
  else setReg s a v

/-- SQ_ENABLE (R309). -/
def execSqEnable (n : Nat) (v : Word) (s : State) : Host.Outcome State Fault Refusal := .next (sqCfgWrite n v s)

/-- SQ_DISABLE_WRITE (R327). -/
def execSqDisableWrite (n : Nat) (v : Word) (s : State) : Host.Outcome State Fault Refusal := .next (sqCfgWrite n v s)

/-- SQ_DRAIN_END (R327). -/
def execSqDrainEnd (n : Nat) (s : State) : Host.Outcome State Fault Refusal := .next (sqDisableEnd n s)

/-- A write to `HIF_CQ_CFG_n` (R10, R309, R328): EN may change while the ring reads ENABLED; a disable waits while an enabled
submission ring names the ring, and entries held by then are written on the next enable. -/
def cqCfgWrite (n : Nat) (v : Word) (s : State) : State :=
  let a := aCq n 8
  let old := getReg s a
  let r := cqr s n
  let en := Word.bit v 0
  if !decide (n < 16) || !writeLegal [fldIn 27 16 .rw 0 1 4095, fld 13 8 .rw 0, fld 1 1 .rw 0, fld 0 0 .rw 0] v then s
  else if r.enabled then
    if Word.put v 0 0 0 ≠ Word.put old 0 0 0 then s
    else if en then drainAll [n] (setCq (setReg s a v) n { r with disabling := false })
    else settleCqs [n] (setCq (setReg s a v) n { r with disabling := true })
  else if en then
    drainAll [n] (setCq (setReg s a v) n { enabled := true, phase := true, held := r.held, fullCnt := r.fullCnt })
  else setReg s a v

/-- CQ_ENABLE (R309). -/
def execCqEnable (n : Nat) (v : Word) (s : State) : Host.Outcome State Fault Refusal := .next (cqCfgWrite n v s)

/-- CQ_DISABLE (R328). -/
def execCqDisable (n : Nat) (v : Word) (s : State) : Host.Outcome State Fault Refusal := .next (cqCfgWrite n v s)

/-- A write to `HIF_EVR_CFG` (R10, R309, R328). DEDUCED: records that EVR_HEAD can no longer pass end their sources' service when the ring
starts anew (R374; log entry 95). -/
def evrCfgWrite (v : Word) (s : State) : State :=
  let old := getReg s aEvrCfg
  let r := s.hif.evr
  let en := Word.bit v 0
  if !writeLegal [fldIn 27 16 .rw 0 1 4095, fld 0 0 .rw 0] v then s
  else if r.enabled then
    if Word.put v 0 0 0 ≠ Word.put old 0 0 0 then s
    else if en then s
    else { setReg s aEvrCfg v with hif := { s.hif with evr := { r with enabled := false, err := false } } }
  else if en then
    { setReg s aEvrCfg v with hif := { s.hif with evr := { r with enabled := true, phase := true, tail := 0, head := 0, recs := [], holding := false } },
                              irq := { s.irq with inSvc := s.irq.inSvc.filter (fun e => !decide (e ∈ r.recs)) } }
  else setReg s aEvrCfg v

/-- EVR_ENABLE (R309). -/
def execEvrEnable (v : Word) (s : State) : Host.Outcome State Fault Refusal := .next (evrCfgWrite v s)

/-- EVR_DISABLE (R328). -/
def execEvrDisable (v : Word) (s : State) : Host.Outcome State Fault Refusal := .next (evrCfgWrite v s)

/-- CQ_MOD_TIMER (R329): the vector is sent where something is unread, and the count starts again. -/
def execCqModTimer (q : Nat) (s : State) : Host.Outcome State Fault Refusal :=
  let r := cqr s q
  .next (if r.modTimer then
      let s1 := setCq s q { r with modCount := 0, modTimer := false }
      if r.tail = r.head then s1 else sendVector (Word.bits (getReg s (aCq q 8)) 13 8) s1
    else s)

/-! ## Doorbell polls and fetches (R310 to R315) -/

/-- A ring stops with ERR (R311): kind 0 submission, 1 completion, 2 event. -/
def ringErr (kind ring : Nat) (v : Word) (s : State) : State :=
  ledger 0x0101 3 (pair16 kind ring) v.toNat 0 (evRaise aHifEvt 0 s)

/-- A submission ring's tail as read by a poll (R310, R311). -/
def pollSq (n : Nat) (v : Word) (s : State) : State :=
  let r := sqr s n
  let t := Word.bits v 11 0
  if !r.enabled || r.err then s
  else if sqSize s n ≤ t then ringErr 0 n v (setSq s n { r with err := true })
  else setSq s n { r with tail := t }

/-- A completion ring's head as read by a poll: held entries follow, and an emptied ring's moderation stops (R318, R329). -/
def pollCq (n : Nat) (v : Word) (s : State) : State :=
  let r := cqr s n
  let h := Word.bits v 11 0
  if !r.enabled || r.err then s
  else if cqSize s n ≤ h then ringErr 1 n v (setCq s n { r with err := true })
  else
    let r1 := { r with head := h }
    let r2 := if h = r.tail then { r1 with modCount := 0, modTimer := false } else r1
    drainCq r.held.length n (setCq s n r2)

/-- The event ring's head: the sources of the records passed leave service (R330, R374, R376). -/
def pollEvr (v : Word) (s : State) : State :=
  let r := s.hif.evr
  let h := Word.bits v 11 0
  if !r.enabled || r.err then s
  else if evrSize s ≤ h then ringErr 2 0 v { s with hif := { s.hif with evr := { r with err := true } } }
  else
    let k := (h + evrSize s - r.head) % evrSize s
    let gone := r.recs.take k
    { s with hif := { s.hif with evr := { r with head := h, recs := r.recs.drop k, holding := r.holding && decide (k = 0) } },
             irq := { s.irq with inSvc := s.irq.inSvc.filter (fun e => !decide (e ∈ gone)) } }

/-- The poll's words are taken ring by ring. -/
def pollSqs (page : List Word) : List Nat → State → State
  | [], s => s
  | n :: ns, s => pollSqs page ns (pollSq n (page.getD n 0) s)
def pollCqs (page : List Word) : List Nat → State → State
  | [], s => s
  | n :: ns, s => pollCqs page ns (pollCq n (page.getD (16 + n) 0) s)

/-- The opcodes that some chapter defines (R319). -/
def opcodeDefined (o : Nat) : Bool :=
  decide (o ≤ 0x04) || (decide (0x10 ≤ o) && decide (o ≤ 0x17)) || (decide (0x20 ≤ o) && decide (o ≤ 0x2B)) ||
  (decide (0x30 ≤ o) && decide (o ≤ 0x3A)) || (decide (0x40 ≤ o) && decide (o ≤ 0x47)) ||
  (decide (0x50 ≤ o) && decide (o ≤ 0x59)) || (decide (0x60 ≤ o) && decide (o ≤ 0x6A)) ||
  (decide (0x70 ≤ o) && decide (o ≤ 0x74)) || (decide (0x80 ≤ o) && decide (o ≤ 0x8C)) ||
  (decide (0x90 ≤ o) && decide (o ≤ 0x93)) || (decide (0xA0 ≤ o) && decide (o ≤ 0xA4)) ||
  (decide (0xB0 ≤ o) && decide (o ≤ 0xB5)) || (decide (0xB8 ≤ o) && decide (o ≤ 0xBF))

/-- The lowest token of no operation in flight. -/
def freeTok (s : State) : Nat :=
  ((List.range 1024).find? (fun t => !s.hif.ops.any (fun o => decide (o.tok = t)))).getD 1023

/-- The operation of a fetched entry (R313). -/
def opOf (sq tok : Nat) (e : List Byte) : Op :=
  { tok := tok, sq := sq, cid := field e 2 2, opcode := field e 0 1, fence := decide (field e 1 1 % 2 = 1),
    timeoutMs := field e 4 2, entry := e, st := .queued, owner := 0, notice := false, tmo := false, added := false,
    done := false, orphan := false }

/-- The byte offset of the first offending header field (R313). -/
def headerBad (s : State) (sq : Nat) (e : List Byte) : Option Nat :=
  if !opcodeDefined (field e 0 1) then some 0
  else if 2 ≤ field e 1 1 then some 1
  else if (ringOps s sq).any (fun o => decide (o.cid = field e 2 2)) then some 2
  else if field e 6 10 ≠ 0 then some 6
  else none

/-- Fetches one entry: it enters flight, under a token that has no outcome to report, and completes BAD_DESCRIPTOR or goes to the dispatcher (R313, R314, R359). -/
def fetchOne (n : Nat) (e : List Byte) (s : State) : State :=
  let r := sqr s n
  let s1 := setSq s n { r with head := if r.head + 1 = sqSize s n then 0 else r.head + 1 }
  let o := opOf n (freeTok s) e
  let s2 := { s1 with hif := { s1.hif with ops := s1.hif.ops ++ [o] }, outcomes := s1.outcomes.filter (fun x => decide (x.tok ≠ o.tok)) }
  match headerBad s n e with
  | some off => endOp o stBad 0 off false s2
  | none => releaseFences n s2

/-- A submission ring with unfetched entries that may be fetched (R311, R314, R327). -/
def fetchable (s : State) (n : Nat) : Bool :=
  let r := sqr s n
  r.enabled && !r.disabling && !r.err && decide (r.head ≠ r.tail)

/-- A submission ring's PRIO. -/
def sqPrio (s : State) (n : Nat) : Nat := Word.bits (getReg s (aSq n 8)) 6 4

/-- The ring to fetch from: the highest PRIO, and among those round robin after the last one fetched from at that PRIO (R314). -/
def pickRing (s : State) : Option Nat :=
  let c := (List.range 16).filter (fun n => fetchable s n)
  let p := c.foldl (fun m n => max m (sqPrio s n)) 0
  ((List.range 16).map (fun i => (smGet 0 s.hif.rr p + 1 + i) % 16)).find? (fun n => decide (n ∈ c) && decide (sqPrio s n = p))

/-- Fetches the entries of a list in bursts of up to 16 from one ring; `cur` is the ring and what is left of its burst
(R314). No more than 512 operations are in flight, and fetching stops for want of an item slot (R356). A fetch that fails raises DMA_ERR
(R338) and, by DESIGN CHOICE, leaves the head for the next poll (log entry 95). -/
def fetchAll : List (Option (List Byte)) → Option (Nat × Nat) → State → State
  | [], _, s => s
  | none :: _, _, s => evRaise aHifEvt 1 s
  | some e :: es, cur, s =>
    let next := match cur with
      | some (n, k + 1) => if fetchable s n then some (n, k) else (pickRing s).map (fun n => (n, 15))
      | _ => (pickRing s).map (fun n => (n, 15))
    match next with
    | some (n, k) =>
      if 512 ≤ (liveOps s).length ∨ (freeSlot s).isNone then s
      else fetchAll es (some (n, k)) (fetchOne n e { s with hif := { s.hif with rr := smSet 0 s.hif.rr (sqPrio s n) n } })
    | none => s

/-- Polls run: POLL_EN, Bus Master Enable and D0 (R312). -/
def pollsRun (s : State) : Bool := Word.bit (getReg s aHifCtl) 0 && s.hif.bme && !s.hif.d3

/-- The link reaches L1 after a poll at the slow interval where ASPM allows it (R331). -/
def settleL1 (s : State) : State := { s with hif := { s.hif with inL1 := s.hif.l1En && !s.hif.fastPoll && s.hif.bme && !s.hif.d3 } }

/-- DOORBELL_POLL (R310 to R315): `none` is a poll, or a fetch, that failed. The link leaves L1 for it. -/
def execDoorbellPoll (page : Option (List Word)) (entries : List (Option (List Byte))) (s0 : State) : Host.Outcome State Fault Refusal :=
  let s := if s0.hif.inL1 then leaveL1 s0 else s0
  .next (settleL1 (if pollsRun s then
    match page with
    | none =>
      evRaise aHifEvt 1 { s with hif := { s.hif with nPolls := bump 32 s.hif.nPolls 1, nPollFail := bump 32 s.hif.nPollFail 1, fastPoll := true } }
    | some w =>
      let same := decide (w.take 33 = s.hif.doorbell)
      let fast := !same || (s.hif.fastPoll && decide (s.lgr.ptime < s.hif.lastChange + 11))
      let s1 := { s with hif := { s.hif with nPolls := bump 32 s.hif.nPolls 1, doorbell := w.take 33, fastPoll := fast,
                                             lastChange := if same then s.hif.lastChange else s.lgr.ptime } }
      let s2 := pollEvr (w.getD 32 0) (pollCqs w (List.range 16) (pollSqs w (List.range 16) s1))
      fetchAll entries none s2
    else s))

/-! ## Host-interface reset (R332) -/

/-- An operation runs on with its completion discarded; a STARTED one gets a notice. -/
def orphanOp (o : Op) (s : State) : State :=
  let s1 := if o.st = .started then giveNotice o.tok s else s
  { s1 with hif := { s1.hif with ops := s1.hif.ops.map (fun p => if p.tok = o.tok then { p with orphan := true } else p) } }

/-- QUEUED operations end and are never started, and so do STARTED ones whose items wait in a flow; other STARTED ones get a notice; every
completion is discarded (R324, R332, R361). -/
def resetOps : List Op → State → State
  | [], s => s
  | o :: os, s =>
    resetOps os (if o.done then dropOp s o.tok
      else if o.st = .queued ∨ (o.st = .started ∧ itemWaits s o.tok) then dropOp (dropOpItem o.tok s) o.tok
      else orphanOp o s)

/-- Every ring's EN reads 0. -/
def clearEn : List Nat → State → State
  | [], s => s
  | n :: ns, s => clearEn ns (setField (setField s (aSq n 8) 0 0 0) (aCq n 8) 0 0 0)

/-- A host-interface reset with its cause (R332, R339); `config`: the configuration space is reset too. -/
def hostReset (cause : Nat) (config : Bool) (s : State) : State :=
  let inflight := (liveOps s).length
  let s1 := resetOps (liveOps s) s
  let h := s1.hif
  let h1 := { h with
    sq := [], cq := [], evr := {}, doorbell := [], fastPoll := true, dueVec := [],
    aborts := h.aborts.filter (fun a => a.src.isNone),
    nLinkReset := bump 32 h.nLinkReset 1 }
  let h2 := if config then { h1 with bme := false, d3 := false, inL1 := false, l1Exit := false, pmeEn := false, pmeStatus := false, mps := 128, mrrs := 512,
                                     l1En := false, msixEn := false, funcMask := false, unmasked := [], msixPend := [], msixTab := [] } else h1
  let s2 := { s1 with hif := h2, dueWrites := [], irq := { s1.irq with inSvc := s1.irq.inSvc.filter (fun e => decide (e.2 < 16)) } }
  let s3 := clearEn (List.range 16) (setField s2 aEvrCfg 0 0 0)
  let s4 := setReg (setReg (setReg s3 aHifCtl 0) aDbBaseLo 0) (aDbBaseLo + 4) 0
  ledger 0x0102 3 cause inflight 0 (evRaise aHifEvt 6 (resetMasters [0, 1] s4))

/-- HOST_IF_RESET (R332). -/
def execHostIfReset (cause : Nat) (s : State) : Host.Outcome State Fault Refusal := .next (hostReset cause true s)

end Sys2Proof.Machine
end

