-- ==== Sys2Proof/Machine/Float.lean ====
section
/-! DEFINITION. The binary32 arithmetic of R60: each operation rounded to nearest, ties to even, subnormals kept. -/

namespace Sys2Proof.Machine

/-- Sign, exponent code and fraction of a binary32 value. -/
def fNeg (w : Word) : Bool := decide (2 ^ 31 ≤ w.toNat)
def fExp (w : Word) : Nat := w.toNat / 2 ^ 23 % 256
def fFrac (w : Word) : Nat := w.toNat % 2 ^ 23

/-- NaN, infinity, zero. -/
def fNan (w : Word) : Bool := decide (fExp w = 255) && decide (fFrac w ≠ 0)
def fInf (w : Word) : Bool := decide (fExp w = 255) && decide (fFrac w = 0)
def fZero (w : Word) : Bool := decide (w.toNat % 2 ^ 31 = 0)

/-- Neither a NaN nor an infinity. -/
def fFinite (w : Word) : Bool := decide (fExp w ≠ 255)

/-- A finite value is ± mantissa · 2^exponent. -/
def fMan (w : Word) : Nat := if fExp w = 0 then fFrac w else 2 ^ 23 + fFrac w
def fPow (w : Word) : Int := (max (fExp w) 1 : Nat) - 150

/-- The signed mantissa. -/
def fSig (w : Word) : Int := if fNeg w then -(fMan w : Int) else fMan w

/-- The NaN an operation gives, a signed infinity, a signed zero. -/
def fQnan : Word := 0x7FC00000
def fInfOf (neg : Bool) : Word := if neg then 0xFF800000 else 0x7F800000
def fZeroOf (neg : Bool) : Word := if neg then 0x80000000 else 0

/-- The number of bits of a natural number. -/
def bitLen (m : Nat) : Nat := if m = 0 then 0 else Nat.log2 m + 1

/-- Rounds ± m · 2^e to binary32, to nearest with ties to even. -/
def fRound (neg : Bool) (m : Nat) (e : Int) : Word :=
  if m = 0 then fZeroOf neg
  else
    let q : Int := max (e + (bitLen m : Int) - 24) (-149)
    let r : Nat :=
      if q ≤ e then m * 2 ^ (e - q).toNat
      else
        let k := (q - e).toNat
        let d := m / 2 ^ k
        let x := m % 2 ^ k
        if 2 ^ (k - 1) < x ∨ (x = 2 ^ (k - 1) ∧ d % 2 = 1) then d + 1 else d
    let code := (q + 149).toNat * 2 ^ 23 + r
    if 255 * 2 ^ 23 ≤ code then fInfOf neg else BitVec.ofNat 32 (code + if neg then 2 ^ 31 else 0)

/-- Negation and absolute value. -/
def fNegate (a : Word) : Word := a ^^^ 0x80000000
def fAbs (a : Word) : Word := a &&& 0x7FFFFFFF

/-- Sum. -/
def fAdd (a b : Word) : Word :=
  if fNan a || fNan b then fQnan
  else if fInf a then (if fInf b && (fNeg a != fNeg b) then fQnan else a)
  else if fInf b then b
  else
    let e := min (fPow a) (fPow b)
    let v := fSig a * 2 ^ (fPow a - e).toNat + fSig b * 2 ^ (fPow b - e).toNat
    if v = 0 then fZeroOf (fNeg a && fNeg b) else fRound (decide (v < 0)) v.natAbs e

/-- Difference. -/
def fSub (a b : Word) : Word := fAdd a (if fNan b then b else fNegate b)

/-- Product. -/
def fMul (a b : Word) : Word :=
  let neg := fNeg a != fNeg b
  if fNan a || fNan b then fQnan
  else if fInf a || fInf b then (if fZero a || fZero b then fQnan else fInfOf neg)
  else fRound neg (fMan a * fMan b) (fPow a + fPow b)

/-- Quotient. -/
def fDiv (a b : Word) : Word :=
  let neg := fNeg a != fNeg b
  if fNan a || fNan b then fQnan
  else if fInf a then (if fInf b then fQnan else fInfOf neg)
  else if fInf b then fZeroOf neg
  else if fZero b then (if fZero a then fQnan else fInfOf neg)
  else
    let n := fMan a * 2 ^ 50
    let sticky := if n % fMan b = 0 then 0 else 1
    fRound neg (2 * (n / fMan b) + sticky) (fPow a - fPow b - 51)

/-- Square root. -/
def fSqrt (a : Word) : Word :=
  if fNan a then fQnan
  else if fZero a then a
  else if fNeg a then fQnan
  else if fInf a then a
  else
    let odd := (fPow a) % 2
    let n := fMan a * 2 ^ (60 + odd.toNat)
    let r := isqrt 44 n 0
    let sticky := if r * r = n then 0 else 1
    fRound false (2 * r + sticky) ((fPow a - odd) / 2 - 31)

/-- The order of values that are not NaN. -/
def fKey (a : Word) : Int := if fNeg a then -((a.toNat % 2 ^ 31 : Nat) : Int) else (a.toNat : Int)

/-- Comparison; a NaN compares false. -/
def fLt (a b : Word) : Bool := !fNan a && !fNan b && decide (fKey a < fKey b)
def fLe (a b : Word) : Bool := !fNan a && !fNan b && decide (fKey a ≤ fKey b)
def fEq (a b : Word) : Bool := !fNan a && !fNan b && decide (fKey a = fKey b)

/-- Minimum and maximum; of a NaN they are free values, since R60 does not say which operand they give. -/
def fMin (a b : Word) : Word := if fNan a || fNan b then Config.nanMin a b else if fLe a b then a else b
def fMax (a b : Word) : Word := if fNan a || fNan b then Config.nanMax a b else if fLe b a then a else b

def fOfNat (x : Nat) : Word := fRound false x 0

/-- Floor of a value that is not negative; an infinity gives a number beyond every bound used. -/
def fFloor (a : Word) : Nat :=
  if !fFinite a then 2 ^ 200
  else if 0 ≤ fPow a then fMan a * 2 ^ (fPow a).toNat else fMan a / 2 ^ (-(fPow a)).toNat

/-- A finite value times 2^k, rounded to an integer (R6, R60). -/
def fFixed (k : Nat) (a : Word) : Int :=
  let e := fPow a + k
  if 0 ≤ e then fSig a * 2 ^ e.toNat else rnd (-e).toNat (fSig a)

/-- Conversion to an `n`-bit signed field with `k` fraction bits: the value, and 1 where it saturated (R7, R60). -/
def fToS (n k : Nat) (a : Word) : Int × Nat :=
  if fNan a then (0, 1)
  else if fInf a then (if fNeg a then minS n else maxS n, 1)
  else (satS n (fFixed k a), clips n (fFixed k a))

/-- Conversion to an `n`-bit unsigned field with `k` fraction bits. -/
def fToU (n k : Nat) (a : Word) : Nat :=
  if fNan a then 0
  else if fInf a then (if fNeg a then 0 else 2 ^ n - 1)
  else satU n (fFixed k a)

end Sys2Proof.Machine
end

