-- ==== Sys2Proof/Machine/Biquad.lean ====
section
/-! DEFINITION. Biquad sections (R40, R133), block-exponent storage and the tranche check (R41, R42, R452). -/

namespace Sys2Proof.Machine

/-- An accumulation step: the sum saturated at 56 bits, and 1 where it was changed (R7, R40). -/
def acc56 (a : Int × Nat) (v : Int) : Int × Nat := (satS 56 (a.1 + v), a.2 + clips 56 (a.1 + v))

/-- One sample through a section (R40): the output, the new state, and the saturations. -/
def bqStep (c : Bqc) (z : Bqz) (x : Int) : Int × Bqz × Nat :=
  let a := acc56 (acc56 (acc56 (acc56 (acc56 (0, 0) (rnd 8 (x * c.b0))) (rnd 8 (z.x1 * c.b1))) (rnd 8 (z.x2 * c.b2)))
    (-(rnd 8 (z.y1 * c.a1)))) (-(rnd 8 (z.y2 * c.a2)))
  let y := rnd 22 a.1
  (satS 32 y, { x1 := x, x2 := z.x1, y1 := satS 32 y, y2 := z.y1 }, a.2 + clips 32 y)

/-- A tranche through one section. -/
def bqRun (c : Bqc) : Bqz → List Int → List Int × Bqz × Nat
  | z, [] => ([], z, 0)
  | z, x :: xs =>
    let r := bqStep c z x
    let rest := bqRun c r.2.1 xs
    (r.1 :: rest.1, rest.2.1, r.2.2 + rest.2.2)

/-- A tranche through sections in cascade: the samples, the states, and the saturations. -/
def bqChain : List Bqc → List Bqz → List Int → List Int × List Bqz × Nat
  | c :: cs, z :: zs, xs =>
    let r := bqRun c z xs
    let rest := bqChain cs zs r.1
    (rest.1, r.2.1 :: rest.2.1, r.2.2 + rest.2.2)
  | _, zs, xs => (xs, zs, 0)

/-- A value fits s24. -/
def fits24 (x : Int) : Bool := decide (satS 24 x = x)

/-- The smallest exponent in [e, 15] at which every rounded sample fits s24 (R41); `fuel` counts the steps to 15. -/
def pickExp : Nat → Nat → List Int → Nat
  | 0, e, _ => e
  | n + 1, e, xs => if xs.all (fun x => fits24 (rnd e x)) then e else pickExp n (e + 1) xs

/-- The tranche check of mantissas and an exponent: CRC-32C over 49 bytes (R42). -/
def trancheCheck (m : List Int) (e : Nat) : Nat := crc32c (m.flatMap (leInt 3) ++ leBytes 1 (e % 16))

/-- Storage of a tranche of samples, with its check (R41, R42). -/
def storeBlk (xs : List Int) : Blk :=
  let e := pickExp 15 0 xs
  let m := xs.map (rnd e)
  { m := m, e := e, chk := trancheCheck m e }

/-- The value of a stored sample in headgate units (R41). -/
def Blk.at (b : Blk) (j : Nat) : Int := nth b.m j * 2 ^ b.e

/-- The stored check is that of the block (R452). -/
def Blk.good (b : Blk) : Bool := decide (b.chk = trancheCheck b.m b.e)

end Sys2Proof.Machine
end

