-- ==== Sys2Proof/Machine/Object.lean ====
section
/-! DEFINITION. Objects: sources and mapping, placement by time index, the close of a tranche, trajectory segments, and the
object descriptors (R29 to R58, R520, R521). -/

namespace Sys2Proof.Machine

/-- An object. -/
def objAt (s : State) (o : Nat) : Obj := smGet {} s.obj o

/-- Changes an object. -/
def setObj (s : State) (o : Nat) (x : Obj) : State := { s with obj := smSet {} s.obj o x }

/-- Adds to a counter of an object's status record; UNDERRUN and SLIP, at bytes 60 and 62, are u16 (R55). -/
def objCount (off n o : Nat) (s : State) : State :=
  if n = 0 then s
  else setObj s o { objAt s o with cnt := smMod 0 (objAt s o).cnt off (fun x => bump (if 60 ≤ off then 16 else 32) x n) }

/-- Adds to a segment counter: none runs while STOPPED (R520). -/
def segCount (off n o : Nat) (s : State) : State := if stopped s then s else objCount off n o s

/-- Does something for each object of a list. -/
def eachObj (f : Nat → State → State) : List Nat → State → State
  | [], s => s
  | o :: os, s => eachObj f os (f o s)

/-! ## Mapping (R32 to R34) -/

/-- What a keyed OBJ_MAP gives an object; `none` where the change is another or does not name the object. -/
def mapOf (o : Nat) : KeyedAct → Option Src
  | .objMap first count ty idx ch =>
    if first ≤ o ∧ o < first + count then
      some (if ty = 0 then {} else { ty := ty, idx := idx, ch := ch + (o - first) })
    else none
  | _ => none

/-- The keyed changes at or below `m`, in the order in which they apply. -/
def governing (s : State) (m : Nat) : List Keyed := (s.keyed.filter (fun k => decide (k.n ≤ m))).mergeSort keyedBefore

/-- The applied mapping of an object that governs tranche `m`: the oldest source that another replaced after `m`, else the present one. -/
def appliedSrc (ob : Obj) (m : Nat) : Src := ob.was.foldl (fun x e => if m < e.1 then e.2 else x) ob.src

/-- The source of an object under the mapping that governs tranche `m`, as it stands (R34). -/
def srcAt (s : State) (o m : Nat) : Src :=
  (governing s m).foldl (fun x k => (mapOf o k.act).getD x) (appliedSrc (objAt s o) m)

/-- The objects that a source channel feeds in tranche `m` (R34). -/
def fedBy (s : State) (x : Src) (m : Nat) : List Nat := (List.range 1024).filter (fun o => decide (srcAt s o m = x))

/-- The objects that a source feeds in tranche `m`, whatever the channel. -/
def fedFrom (s : State) (ty idx m : Nat) : List Nat :=
  (List.range 1024).filter (fun o => decide ((srcAt s o m).ty = ty) && decide ((srcAt s o m).idx = idx))

/-! ## Placement (R16, R34, R520) -/

/-- Where an arrival for tranche `m` falls: 0 accepted, 1 below c, 2 above c + 7, 3 not counted (R34, R520). -/
def window (s : State) (m : Nat) : Nat :=
  if stopped s then 3
  else if m < headC s then (if s.sch.st = 1 ∧ s.sch.armed.any (fun a => decide (m < a.n)) then 3 else 1)
  else if headC s + 7 < m then 2 else 0

/-- Places a sample in an object's assembly buffer (R34): an occupied position keeps its first arrival. -/
def placeOne (o t : Nat) (x : ASmp) (s : State) : State :=
  let ob := objAt s o
  if (smFind ob.asm t).isSome then objCount 24 1 o s
  else setObj s o { ob with asm := smPut ob.asm t x }

/-- A discard for the objects of a list: LATE (1) or EARLY (2). -/
def discardFor (kind n : Nat) (os : List Nat) (s : State) : State :=
  if os.isEmpty then s
  else evRaise aHgtEvt 0 (eachObj (objCount (if kind = 1 then 16 else 20) n) os s)

/-- A sample of a source channel arrives for time index `t` (R34). -/
def placeSample (x : Src) (t : Nat) (v : Int) (s : State) : State :=
  let m := t / 16
  match window s m with
  | 0 => eachObj (fun o => placeOne o t { v := v, fab := false }) (fedBy s x m) s
  | 3 => s
  | k => discardFor k 1 (fedBy s x m) s

/-- The positions of tranche `m` that are filled in an object's buffer. -/
def filledIn (ob : Obj) (m : Nat) : Nat := (positions.filter (fun j => (smFind ob.asm (16 * m + j)).isSome)).length

/-- A carried block in s32 (R38); the saturation is counted when the tranche is conditioned. -/
def fabSamples (b : Blk) : List ASmp := positions.map (fun j => { v := b.at j, fab := true })

/-- Puts a run of samples in the empty positions of an object's buffer. -/
def putRun (t : Nat) : List ASmp → SMap ASmp → SMap ASmp
  | [], m => m
  | x :: xs, m => putRun (t + 1) xs (if (smFind m t).isSome then m else smPut m t x)

/-- A caravan channel reaches one object (R38, R39): a copy of filled positions is a duplicate; a bad check empties the
tranche's positions. -/
def placeChannel (m stream : Nat) (b : Blk) (o : Nat) (s : State) : State :=
  let ob := objAt s o
  let n := filledIn ob m
  if n = 16 then objCount 24 16 o s
  else
    let s1 := objCount 24 n o s
    if b.good then setObj s1 o { objAt s1 o with asm := putRun (16 * m) (fabSamples b) ob.asm }
    else
      let s2 := objCount 28 1 o (setObj s1 o { objAt s1 o with asm := smClearRange ob.asm (16 * m) 16 })
      ledgerLim 0x0801 3 o 1 (fun c => (o, stream, c)) (evRaise aHgtEvt 4 s2)

/-- A caravan channel arrives for tranche `m` (R34, R38). -/
def importChannel (stream ch m : Nat) (b : Blk) (s : State) : State :=
  let x : Src := { ty := 2, idx := stream, ch := ch }
  match window s m with
  | 0 => eachObj (placeChannel m stream b) (fedBy s x m) s
  | 3 => s
  | k => discardFor k 16 (fedBy s x m) s

/-- The u64 tranche index with the low 16 bits of a caravan (R38, R227). -/
def extend16 (c low : Nat) : Nat :=
  let base : Int := (c : Int) - 32768
  (base + ((low : Int) - base) % 65536).toNat

/-! ## The close of a tranche (R16, R36) -/

/-- The aligned stream set of a media stream (R35). -/
def setOf (s : State) (stream : Nat) : Option Nat := (s.alignSet.find? (fun e => decide (stream ∈ e.2))).map Prod.fst

/-- The lowest object that a stream feeds. -/
def lowestFed (s : State) (ty idx : Nat) : Option Nat :=
  (s.obj.find? (fun e => decide (e.2.src.ty = ty) && decide (e.2.src.idx = idx))).map Prod.fst

/-- Closes tranche `c` of one object (R16): empty positions become zero and are counted in SUBST; an underrun may begin. -/
def closeObj (c o : Nat) (s : State) : State :=
  let ob := objAt s o
  let n := filledIn ob c
  let xs := positions.map (fun j => (smFind ob.asm (16 * c + j)).getD { v := 0, fab := false })
  let rest := smClearRange ob.asm 0 (16 * (c + 1))
  if ob.src.ty = 0 then setObj s o { ob with asm := rest, closed := none }
  else
    let under := decide (n < 16) && ob.whole && decide (ob.src.ty ≠ 2)
    let s1 := objCount 12 (16 - n) o (setObj s o { ob with asm := rest, closed := some (c, xs), whole := decide (n = 16) })
    evIf under aHgtEvt 1 (objCount 60 (if under then 1 else 0) o s1)

/-- The streams on which an underrun begins at the close of `c`, each named at its lowest object (R36, R58). -/
def underrunning (s : State) (c : Nat) : List (Nat × Nat) :=
  (s.obj.filter (fun e => decide (e.2.src.ty = 1) && e.2.whole && decide (filledIn e.2 c < 16))).map (fun e => (e.2.src.idx, e.1))

/-- A 16-bit counter of a status record (R55). -/
def cnt16 (m : SMap Nat) (k : Nat) : Nat := min (cntAt m k) 65535

/-- Record 0x0802 for each stream of a list that belongs to an aligned set, once (R58). -/
def underrunRecords : List (Nat × Nat) → List Nat → State → State
  | [], _, s => s
  | (st, _) :: rest, seen, s =>
    if st ∈ seen then underrunRecords rest seen s
    else match setOf s st with
      | some k =>
        let n := match lowestFed s 1 st with
          | some o => cnt16 (objAt s o).cnt 60
          | none => 0
        underrunRecords rest (st :: seen) (ledger 0x0802 2 k st n s)
      | none => underrunRecords rest (st :: seen) s

/-- The headgate closes tranche `c` (R16, R36). -/
def closeTranche (c : Nat) (s : State) : State :=
  let us := underrunning s c
  underrunRecords us [] (eachObj (closeObj c) (s.obj.map Prod.fst) s)

/-! ## Segments (R43 to R46) -/

/-- |w| as a magnitude code of binary32. -/
def mag (w : Nat) : Nat := w % 2 ^ 31

/-- A gain of a segment: 0 to 8.0 (R43). -/
def gainOk (w : Nat) : Bool := decide (w ≤ 0x41000000) || decide (w = 2 ^ 31)

/-- The first bad field of a segment record (R43). -/
def segBad (r : List Byte) : Option Nat :=
  if field r 8 2 = 0 then some 8
  else if 1024 ≤ field r 10 2 then some 10
  else if field r 12 1 ≠ 0 then some 12
  else if field r 13 3 ≠ 0 then some 13
  else if [16, 20, 24].any (fun k => decide (0x461C4000 < mag (field r k 4))) then some 16
  else if [28, 32, 36].any (fun k => decide (0x447A0000 < mag (field r k 4))) then some 28
  else [40, 44].find? (fun k => !gainOk (field r k 4))

/-- Three binary32 values of a record. -/
def v3At (r : List Byte) (off : Nat) : V3 :=
  { x := BitVec.ofNat 32 (field r off 4), y := BitVec.ofNat 32 (field r (off + 4) 4), z := BitVec.ofNat 32 (field r (off + 8) 4) }

/-- A segment record (R43). -/
def segOf (r : List Byte) (uid : Nat) : Seg :=
  { start := field r 0 8, len := field r 8 2, p0 := v3At r 16, v := v3At r 28, g0 := BitVec.ofNat 32 (field r 40 4),
    g1 := BitVec.ofNat 32 (field r 44 4), uid := uid }

/-- The pending segments that a segment starting at `st` leaves (R44, step 1). -/
def keepPend (p : List Seg) (st : Nat) : List Seg := p.filter (fun x => decide (x.start < st))

/-- Acceptance of a segment by the object table (R44): 0 accepted, 1 accepted late, 3 NO_RESOURCE. Before the tranche index is
set it joins the pending ones (R45). -/
def acceptSeg (o : Nat) (x : Seg) (s : State) : Nat × State :=
  let ob := objAt s o
  let keep := keepPend ob.pend x.start
  let m := mTranche s
  let now := s.clk.tidxValid && decide (x.start ≤ m)
  if !now && decide (7 ≤ keep.length) then (3, segCount 52 1 o s)
  else
    let s1 := segCount 48 (ob.pend.length - keep.length) o { s with segUid := s.segUid + 1 }
    let ob1 := objAt s1 o
    if now then
      let s2 := setObj s1 o { ob1 with pend := keep, active := some x }
      if x.start < m then (1, evRaise aHgtEvt 5 (segCount 40 1 o s2)) else (0, s2)
    else (0, setObj s1 o { ob1 with pend := keep ++ [x] })

/-- A record is accepted or rejected (R43, R44): 0 on time, 1 late, 2 BAD_DESCRIPTOR, 3 NO_RESOURCE (R57). -/
def takeSeg (r : List Byte) (s : State) : Nat × State :=
  match segBad r with
  | some _ => (2, if field r 10 2 < 1024 then segCount 52 1 (field r 10 2) s else s)
  | none => acceptSeg (field r 10 2) (segOf r s.segUid) s

/-- The cut-off of tranche `n` for one object (R45): the latest pending segment that is due becomes active. -/
def cutoffObj (n o : Nat) (s : State) : State :=
  let ob := objAt s o
  let due := ob.pend.filter (fun x => decide (x.start ≤ n))
  match due.getLast? with
  | some a => segCount 48 (due.length - 1) o
      (setObj s o { ob with active := some a, pend := ob.pend.filter (fun x => decide (n < x.start)) })
  | none => s

/-- The cut-off of tranche `n` in the object table (R45). -/
def cutoffSegs (n : Nat) (s : State) : State := eachObj (cutoffObj n) (s.obj.map Prod.fst) s

/-- CLEAR_SEGS of an OBJ_CTL (R521): the segments accepted before it go. -/
def clearSegs (uid o : Nat) (s : State) : State :=
  let ob := objAt s o
  setObj s o { ob with active := ob.active.filter (fun x => decide (uid ≤ x.uid)), pend := ob.pend.filter (fun x => decide (uid ≤ x.uid)) }

/-! ## Keyed changes of objects -/

/-- OBJ_MAP keyed to `n` takes effect: the source it replaces goes on to govern the tranches below `n` (R34), and the tranche before
the first one of the new source counts as complete (R36). -/
def applyMap (n : Nat) (a : KeyedAct) (first count : Nat) (s : State) : State :=
  eachObj (fun o t => match mapOf o a with
    | some x => setObj t o { objAt t o with src := x, was := (n, (objAt t o).src) :: (objAt t o).was, whole := true }
    | none => t) (span first count) s

/-- Samples placed in tranches whose governing source an accepted OBJ_MAP changes are emptied. DESIGN CHOICE: R34 lets the mapping govern
from its acceptance and is silent on samples that stand already (log entry 88). -/
def voidMoved (was : State) (o : Nat) (s : State) : State :=
  let ob := objAt s o
  setObj s o { ob with asm := ob.asm.filter (fun e => decide (srcAt was o (e.1 / 16) = srcAt s o (e.1 / 16))) }

/-- OBJ_COND takes effect (R40). -/
def applyCond (o : Nat) (pre : Bool) (trim : Option Int) (bq : Option (List Bqc)) (s : State) : State :=
  let ob := objAt s o
  setObj s o { ob with prefilt := pre, trim := trim.getD ob.trim, bq := bq.getD ob.bq }

/-- OBJ_CTL takes effect but for its CLEAR_SEGS (R30, R47). -/
def applyCtl (first count : Nat) (en cen : Bool) (lim : Nat) (s : State) : State :=
  eachObj (fun o t => setObj t o { objAt t o with enable := en, coastEn := cen, coastLim := lim }) (span first count) s

/-! ## Descriptors (R52 to R55) -/

/-- A biquad section of a host block: b0, b1, b2, a1, a2 (R52). -/
def bqcAt (b : List Byte) (off : Nat) : Bqc :=
  let w := fun i => signed 32 (field b (off + 4 * i) 4)
  { b0 := w 0, b1 := w 1, b2 := w 2, a1 := w 3, a2 := w 4 }

/-- The channels of a media receive stream (R33): none before its first MP_RX_STREAM. -/
def rxChannels (s : State) (stream : Nat) : Nat :=
  let r := smGet {} s.mp.rx stream
  if r.conf then r.channels else 0

/-- A serial audio port runs at the render rate (R33): its rate is m times the base rate (R412). -/
def sapAtRender (s : State) (port : Nat) : Bool :=
  decide ((smGet {} s.lau.sap port).m = if isDouble s.clk.rate then 2 else 1)

/-- The source fields of an OBJ_MAP name channels that exist (R32, R33). -/
def sourceOk (s : State) (ty idx ch count : Nat) : List (Nat × Bool) :=
  match ty with
  | 0 => [(14, decide (idx = 0)), (16, decide (ch = 0))]
  | 1 => [(14, decide (idx ≤ 127)), (16, decide (ch + count ≤ rxChannels s idx))]
  | 2 => [(16, decide (ch + count ≤ 64))]
  | _ => [(14, decide (idx ≤ 15) && sapAtRender s idx), (16, decide (ch + count ≤ 2))]

/-- OBJ_MAP (R32 to R34, R52, R54). -/
def execObjMap (d : Desc) (s : State) : Host.Outcome State Fault Refusal :=
  let ty := pl d 9 1
  let first := pl d 10 2
  let count := pl d 12 2
  .next (checked d [(0, 17)] ([(8, decide (pl d 8 1 ≤ 1)), (9, decide (ty ≤ 3)), (10, decide (first ≤ 1023)),
      (12, inRange first count 1024)] ++ sourceOk s ty (pl d 14 2) (pl d 16 1) count) s
    (let n := keyN d (mTranche s)
     if pastCutoff s n then finish d stLate s
     else eachObj (voidMoved s) (span first count) (armKeyed n (some d.tok) (.objMap first count ty (pl d 14 2) (pl d 16 1)) s)))

/-- OBJ_COND (R40, R52, R54). -/
def execObjCond (d : Desc) (s : State) : Host.Outcome State Fault Refusal :=
  let o := pl d 10 2
  let trim := if plBit d 8 3 then some (plS d 12 4) else none
  .next (checked d [(0, 9), (10, 14)] [(8, decide (pl d 8 1 ≤ 15)), (10, decide (o ≤ 1023))] s
    (if plBit d 8 2 then
      match hostBlock d 0 80 with
      | some b => armCutoff d (.objCond o (plBit d 8 1) trim (some ((List.range 4).map (fun i => bqcAt b (20 * i))))) s
      | none => badBlock d 16 s
     else armCutoff d (.objCond o (plBit d 8 1) trim none) s))

/-- The completion status of a segment's outcome. -/
def segStatus (r : Nat) : Nat := if r = 2 then stBad else if r = 3 then stNoResource else stOk

/-- OBJ_SEGMENT (R43, R44). -/
def execObjSegment (d : Desc) (s : State) : Host.Outcome State Fault Refusal :=
  let r := takeSeg d.payload s
  .next (report d.tok (segStatus r.1) 0 (if r.1 = 2 then (segBad d.payload).getD 0 else 0) r.2)

/-- The records of a batch in order: the first status that is not OK (R53). -/
def takeSegs : List (List Byte) → Nat → State → Nat × State
  | [], st, s => (st, s)
  | r :: rs, st, s =>
    let x := takeSeg r s
    takeSegs rs (if st = stOk then segStatus x.1 else st) x.2

/-- OBJ_SEG_BATCH (R53). -/
def execObjSegBatch (d : Desc) (s : State) : Host.Outcome State Fault Refusal :=
  let count := pl d 8 4
  .next (checked d [(0, 12)] [(8, decide (1 ≤ count) && decide (count ≤ 4096))] s
    (match hostBlock d 0 (48 * count) with
      | some b => let r := takeSegs (chunks 48 count b) stOk s
                  report d.tok r.1 0 (if r.1 = stBad then 0xFFFF else 0) r.2
      | none => badBlock d 0 s))

/-- OBJ_PREFILTER (R42, R52). -/
def execObjPrefilter (d : Desc) (s : State) : Host.Outcome State Fault Refusal :=
  .next (checked d [(0, 9), (16, 8)] [(8, decide (pl d 8 1 ≤ 1))] s
    (match hostBlock d 0 40 with
      | some b => armCutoff d (.objPrefilter [bqcAt b 0, bqcAt b 20]) s
      | none => badBlock d 16 s))

/-- The state bits of OBJ_STATUS (R55), at the tranche whose cut-off passed last. -/
def objStateBits (s : State) (ob : Obj) : Nat :=
  let en := if ob.enable then 1 else 0
  match ob.active with
  | none => en + 16
  | some a =>
    let k : Int := (mTranche s : Int) - a.start
    let c := if ob.coastEn then ob.coastLim else 0
    let miss := decide ((a.len : Int) < k)
    let coast := miss && ob.coastEn && decide (k ≤ a.len + c)
    en + 2 + (if miss then 4 else 0) + (if coast then 8 else 0)

/-- The 64-byte record of an object (R55). -/
def objRecord (s : State) (o : Nat) : List Byte :=
  let ob := objAt s o
  leBytes 2 o ++ leBytes 1 (objStateBits s ob) ++ leBytes 1 ob.pend.length ++
  leBytes 8 (match ob.active with
    | some a => a.start
    | none => 0) ++
  words32 ([12, 16, 20, 24, 28, 32, 36, 40, 44, 48, 52, 56].map (cntAt ob.cnt)) ++
  leBytes 2 (cnt16 ob.cnt 60) ++ leBytes 2 (cnt16 ob.cnt 62)

/-- OBJ_STATUS (R55). DESIGN CHOICE: a count of 0 is a bad field (log entry 89). -/
def execObjStatus (d : Desc) (s : State) : Host.Outcome State Fault Refusal :=
  let first := pl d 8 2
  let count := pl d 10 2
  .next (checked d [(0, 13)] [(8, decide (first ≤ 1023)), (10, inRange first count 1024), (12, decide (pl d 12 1 ≤ 1))] s
    (let s1 := hostWrite (pl d 0 8) ((span first count).flatMap (objRecord s)) s
     finish d stOk (if plBit d 12 0 then eachObj (fun o t => setObj t o { objAt t o with cnt := [] }) (span first count) s1 else s1)))

/-! ## Coarse delay (R101, R121) -/

/-- The coarse delay set for data tranche `n`: that of the last change keyed at or before it. -/
def coarseAt (ob : Obj) (n : Nat) : Nat := match (ob.trans.filter (fun t => decide (t.n ≤ n))).getLast? with
  | some t => t.c
  | none => ob.coarse

/-- The coarse delay in force in data tranche `n`; in no-DRAM mode every object is in bypass (R101, R103). -/
def coarseIn (s : State) (ob : Obj) (n : Nat) : Nat := if s.drc.noDram then 0 else coarseAt ob n

/-- The transitions of an object that are in progress in data tranche `n` (R121). -/
def gliding (ob : Obj) (n : Nat) : List Trans := ob.trans.filter (fun t => t.glide && decide (t.n ≤ n) && decide (n ≤ t.n + 17))

/-! ## Segment ports (R51, R57) -/

/-- SEGMENT_PUSH: GO at `GEO_SEGPUSH_n` pushes the staged record (R10, R51, R57). -/
def segPushOp (n : Nat) (v : Word) (s : State) : State :=
  if !writeLegal [fld 0 0 .w1s 0] v || !Word.bit v 0 then s
  else
    let rec12 := (List.range 12).flatMap (fun i => leBytes 4 (getReg s (aGeoSeg n (4 * i))).toNat)
    let r := takeSeg rec12 s
    setReg r.2 (aGeoSeg n 0x34) (BitVec.ofNat 32 r.1)
def execSegmentPush (n : Nat) (v : Word) (s : State) : Host.Outcome State Fault Refusal := .next (segPushOp n v s)

end Sys2Proof.Machine
end

