-- ==== Sys2Proof/Machine/Venue.lean ====
section
/-! DEFINITION. Image lookups for objects and slots, the venue tables and their banks, law records, and the descriptors that
set them (R64 to R73, R87 to R90, R177, R522 to R524). -/

namespace Sys2Proof.Machine

/-! ## Image lookups (R185) -/

/-- The directory entry of an object. -/
def Img.ent (i : Img) (o : Nat) : OEnt := i.obj.getD o {}

/-- The address-set code of a slot. -/
def Img.code (i : Img) (o j : Nat) : Option Nat := if j < (i.ent o).a then smFind i.slots (o * 2048 + j) else none

/-- Output `o` is a bit of a set of 128 bytes. -/
def bitSet (b : List Byte) (o : Nat) : Bool := decide ((b.getD (o / 8) 0).toNat / 2 ^ (o % 8) % 2 = 1)

/-- The outputs of an address set, ascending (R184, R185). -/
def Img.outs (i : Img) (code : Nat) : List Nat :=
  if code < 1024 then [code] else (List.range 1024).filter (bitSet (i.aset.getD (code - 1024) []))

/-- The outputs that a slot may address. -/
def Img.slotOuts (i : Img) (o j : Nat) : List Nat := match i.code o j with
  | some c => i.outs c
  | none => []

/-- A law runs within its mask and budget (R177). -/
def lawFits (e : OEnt) (l : Law) : Bool :=
  decide (e.laws / 2 ^ l.law % 2 = 1) &&
  (match l.law with
    | 1 => decide (1 ≤ e.dirs)
    | 2 => decide (l.spreadK ≤ e.dirs) && decide (e.merge = 1)
    | _ => true)

/-! ## Banks (R72, R522) -/

/-- Table numbers: 0 speaker, 1 zone, 2 Pan layout, 3 air. -/
def activeBank (s : State) (t : Nat) : Nat := s.geo.activeB / 2 ^ t % 2
def loadBank (s : State) (t : Nat) : Nat := 1 - activeBank s t

/-- A bit of a mask. -/
def maskBit (m b : Nat) : Bool := decide (m / 2 ^ b % 2 = 1)

/-- The mask of a pending bank switch. -/
def switchMask : KeyedAct → Nat
  | .geoBankSwitch m => m
  | _ => 0

/-- A switch is pending for a table (R72). -/
def switchPending (s : State) (t : Nat) : Bool := s.keyed.any (fun k => maskBit (switchMask k.act) t)

/-- Entries of a table store moved from one bank to the other: the other's are replaced. -/
def copyBank {α : Type} (m : SMap α) (size src : Nat) : SMap α :=
  let keep := m.filter (fun e => decide (e.1 / size = src))
  let moved := keep.map (fun e => ((1 - src) * size + e.1 % size, e.2))
  if src = 0 then keep ++ moved else moved ++ keep

/-- Does something to the geometry engine. -/
def setGeo (s : State) (f : Geo → Geo) : State := { s with geo := f s.geo }

/-- GEO_BANK_SYNC of one table: the active bank is copied into the inactive one (R72). -/
def syncTable (s : State) (t : Nat) : State :=
  let b := activeBank s t
  setGeo s (fun g => match t with
    | 0 => { g with spk := copyBank g.spk 1024 b }
    | 1 => { g with zone := copyBank g.zone 16 b }
    | 2 => { g with tri := copyBank g.tri 4096 b, cube := copyBank g.cube 6144 b, cand := copyBank g.cand 16384 b,
                    candN := copyBank g.candN 1 b }
    | _ => { g with air := copyBank g.air 1024 b })

/-! ## Limits of binary32 fields (R43, R66, R523) -/

/-- A field as a word. -/
def wordAt (b : List Byte) (off : Nat) : Word := BitVec.ofNat 32 (field b off 4)

/-- A value within [lo, hi]. -/
def fWithin (lo hi w : Word) : Bool := fLe lo w && fLe w hi

/-- A coordinate, finite and at most `lim` in magnitude. -/
def coordOk (lim w : Word) : Bool := fLe (fAbs w) lim

/-- Squared length of a vector, in the order of R66. -/
def sq3 (v : V3) : Word := fAdd (fAdd (fMul v.x v.x) (fMul v.y v.y)) (fMul v.z v.z)

/-- All three coordinates within a limit. -/
def v3Ok (lim : Word) (v : V3) : Bool := coordOk lim v.x && coordOk lim v.y && coordOk lim v.z

/-- All bytes are zero. -/
def allZero (b : List Byte) : Bool := b.all (fun x => decide (x = 0))

/-- A speaker record lies within its limits (R66, R523). -/
def spkOk (b : List Byte) : Bool :=
  let fl := field b 34 1
  v3Ok 0x461C4000 (v3At b 0) && fWithin 0 0x40800000 (wordAt b 24) && fWithin 0 0x45000000 (wordAt b 28) &&
  decide (field b 32 1 ≤ 15) && decide (field b 33 1 ≤ 63) && decide (fl ≤ 7) && allZero (b.drop 35) &&
  (decide (fl % 2 = 0) || fWithin 0x3F7F7CEE 0x3F804189 (sq3 (v3At b 12)))

/-- A speaker record. -/
def spkOf (b : List Byte) : Spk :=
  let fl := field b 34 1
  { pos := v3At b 0, axis := v3At b 12, trim := wordAt b 24, dly := wordAt b 28, zone := field b 32 1, taper := field b 33 1,
    present := maskBit fl 0, excl := maskBit fl 1, invert := maskBit fl 2 }

/-- A zone record within its limits (R67). -/
def zoneOk (b : List Byte) : Bool :=
  coordOk 0x461C4000 (wordAt b 0) && coordOk 0x461C4000 (wordAt b 4) && fWithin 0 0x461C4000 (wordAt b 8) && decide (field b 12 4 = 0) &&
  (List.range 64).all (fun i => fWithin 0 0x3F800000 (wordAt b (16 + 4 * i)))

/-- A zone record. -/
def zoneOf (b : List Byte) : Zone :=
  { cx := wordAt b 0, cy := wordAt b 4, r := wordAt b 8, taper := (List.range 64).map (fun i => wordAt b (16 + 4 * i)) }

/-- A triangle record within its limits; OUT0 = 0xFFFF marks it empty (R69, R89). DESIGN CHOICE: the other bytes of an empty record are not
checked (log entry 91). -/
def triOk (b : List Byte) : Bool :=
  let x := field b 0 2
  let y := field b 2 2
  let z := field b 4 2
  decide (x = 0xFFFF) ||
  (decide (x < 1024) && decide (y < 1024) && decide (z < 1024) && decide (x ≠ y) && decide (y ≠ z) && decide (x ≠ z) &&
   decide (field b 6 2 = 0) && decide (field b 44 4 = 0) && (List.range 9).all (fun i => fFinite (wordAt b (8 + 4 * i))))

/-- Stores a triangle record. -/
def putTri (m : SMap Tri) (k : Nat) (b : List Byte) : SMap Tri :=
  if field b 0 2 = 0xFFFF then smDrop m k
  else smPut m k { o0 := field b 0 2, o1 := field b 2 2, o2 := field b 4 2, m := (List.range 9).map (fun i => wordAt b (8 + 4 * i)) }

/-- A cube-map cell: FIRST and COUNT (R70). -/
def cellFirst (w : Word) : Nat := Word.bits w 15 0
def cellCount (w : Word) : Nat := Word.bits w 20 16
def cellOk (w : Word) : Bool := decide (1 ≤ cellCount w) && decide (cellCount w ≤ 16) && decide (Word.bits w 31 21 = 0)

/-! ## Loads (R66 to R70, R89, R90) -/

/-- A load of records into the inactive bank of a table: the host block is read, every record tested, nothing changed where one
fails, and NOT_PERMITTED while a switch is pending for the table (R72, R90). -/
def loadTable (d : Desc) (t size count : Nat) (ok : List Byte → Bool) (put : List (List Byte) → State → State) (s : State) : State :=
  match hostBlock d 0 (size * count) with
  | none => badBlock d 0 s
  | some b =>
    let rs := chunks size count b
    if !rs.all ok then badField d 0xFFFF s
    else if switchPending s t then finish d stNotPermitted s
    else finish d stOk (put rs s)

/-- GEO_SPK_LOAD. -/
def execGeoSpkLoad (d : Desc) (s : State) : Host.Outcome State Fault Refusal :=
  let first := pl d 8 2
  let count := pl d 10 2
  .next (checked d [(0, 12)] [(8, decide (first ≤ 1023)), (10, inRange first count 1024)] s
    (loadTable d 0 64 count spkOk (fun rs t => setGeo t (fun g => { g with
      spk := (rs.zipIdx).foldl (fun m e => smSet {} m (loadBank t 0 * 1024 + first + e.2) (spkOf e.1)) g.spk })) s))

/-- GEO_ZONE_LOAD. -/
def execGeoZoneLoad (d : Desc) (s : State) : Host.Outcome State Fault Refusal :=
  let first := pl d 8 1
  let count := pl d 9 1
  .next (checked d [(0, 10)] [(8, decide (first ≤ 15)), (9, inRange first count 16)] s
    (loadTable d 1 272 count zoneOk (fun rs t => setGeo t (fun g => { g with
      zone := (rs.zipIdx).foldl (fun m e => smSet {} m (loadBank t 1 * 16 + first + e.2) (zoneOf e.1)) g.zone })) s))

/-- GEO_TRI_LOAD. -/
def execGeoTriLoad (d : Desc) (s : State) : Host.Outcome State Fault Refusal :=
  let first := pl d 8 2
  let count := pl d 10 2
  .next (checked d [(0, 12)] [(8, decide (first ≤ 4095)), (10, inRange first count 4096)] s
    (loadTable d 2 48 count triOk (fun rs t => setGeo t (fun g => { g with
      tri := (rs.zipIdx).foldl (fun m e => putTri m (loadBank t 2 * 4096 + first + e.2) e.1) g.tri })) s))

/-- GEO_AIR_LOAD: each entry lies in [0, 1). -/
def execGeoAirLoad (d : Desc) (s : State) : Host.Outcome State Fault Refusal :=
  .next (checked d [(0, 8)] [] s
    (loadTable d 3 4 1024 (fun b => fLe 0 (wordAt b 0) && fLt (wordAt b 0) 0x3F800000) (fun rs t => setGeo t (fun g => { g with
      air := (rs.zipIdx).foldl (fun m e => smSet 0 m (loadBank t 3 * 1024 + e.2) (wordAt e.1 0)) g.air })) s))

/-- The image that an armed swap, or an armed restart from the shadow, will make active (R196, R201). -/
def armedShadow (s : State) : Option (Nat × Img) :=
  match s.sch.swap, s.sch.armed, s.sch.shadowImg with
  | some w, _, some i => if w.switched then none else some (w.n, i)
  | none, some a, some i => if a.kind = 4 ∧ a.shadow then some (a.n, i) else none
  | _, _, _ => none

/-- The 6,144 cells of a GEO_CUBE_LOAD. -/
def cubeCells (b : List Byte) : List Word := (chunks 4 6144 b).map (fun r => wordAt r 0)

/-- The candidate list of a GEO_CUBE_LOAD. -/
def cubeList (n : Nat) (b : List Byte) : List Nat := (chunks 2 n b).map (fun r => field r 0 2)

/-- The cells and the candidate list enter the bank that the load writes. -/
def putCube (cells : List Word) (list : List Nat) (n : Nat) (s : State) : State :=
  let b := loadBank s 2
  setGeo s (fun g => { g with
    cube := (cells.zipIdx).foldl (fun m e => smSet 0 m (b * 6144 + e.2) e.1) g.cube,
    cand := (list.zipIdx).foldl (fun m e => smSet 0 m (b * 16384 + e.2) e.1) g.cand,
    candN := smSet 0 g.candN b n })

/-- GEO_CUBE_LOAD: a COUNT above the CMAX of an armed shadow is refused (R196). -/
def execGeoCubeLoad (d : Desc) (s : State) : Host.Outcome State Fault Refusal :=
  let n := pl d 16 2
  .next (checked d [(0, 18)] [(16, decide (1 ≤ n) && decide (n ≤ 16384))] s
    (match hostBlock d 0 (6144 * 4), hostBlock d 1 (2 * n) with
      | none, _ => badBlock d 0 s
      | _, none => badBlock d 8 s
      | some cs, some ls =>
        if !(cubeCells cs).all cellOk || !(cubeList n ls).all (fun t => decide (t ≤ 4095)) then badField d 0xFFFF s
        else if switchPending s 2 then finish d stNotPermitted s
        else if (armedShadow s).any (fun w => (cubeCells cs).any (fun c => decide (w.2.cmax < cellCount c))) then
          finish d stNotPermitted s
        else finish d stOk (putCube (cubeCells cs) (cubeList n ls) n s)))

/-- The cells of a bank of the Pan layout. -/
def cellsOf (s : State) (b : Nat) : List Word := (s.geo.cube.filter (fun e => decide (e.1 / 6144 = b))).map Prod.snd

/-- A cell's references lie within the loaded list and name triangles that are not empty (R71). -/
def cellLoaded (s : State) (b : Nat) (w : Word) : Bool :=
  decide (cellFirst w + cellCount w ≤ smGet 0 s.geo.candN b) &&
  (List.range (cellCount w)).all (fun k => (smFind s.geo.tri (b * 4096 + smGet 0 s.geo.cand (b * 16384 + cellFirst w + k))).isSome)

/-- The bank of the Pan layout that a switch keyed to `n` would make active. -/
def panTarget (s : State) (n : Nat) : Nat :=
  let before := (s.keyed.filter (fun k => decide (k.n ≤ n) && maskBit (switchMask k.act) 2)).length
  (loadBank s 2 + before) % 2

/-- The status that refuses a switch of the Pan layout keyed to `n`: 0 where it is allowed (R71). -/
def panVerdict (s : State) (n : Nat) : Nat :=
  let b := panTarget s n
  if !(cellsOf s b).all (cellLoaded s b) then stBad
  else match govImg s n with
    | some i => if (cellsOf s b).any (fun w => decide (i.cmax < cellCount w)) then stNotPermitted else 0
    | none => 0

/-- GEO_BANK_SWITCH. -/
def execGeoBankSwitch (d : Desc) (s : State) : Host.Outcome State Fault Refusal :=
  let m := pl d 9 1
  .next (checked d [(0, 10)] [(8, decide (pl d 8 1 ≤ 1)), (9, decide (1 ≤ m) && decide (m ≤ 15))] s
    (let n := keyN d (mTranche s)
     let v := if maskBit m 2 then panVerdict s n else 0
     if pastCutoff s n then finish d stLate s
     else if v = stBad then badField d 0xFFFF s
     else if v ≠ 0 then finish d v s
     else armKeyed n (some d.tok) (.geoBankSwitch m) s))

/-- GEO_BANK_SYNC. -/
def execGeoBankSync (d : Desc) (s : State) : Host.Outcome State Fault Refusal :=
  let m := pl d 9 1
  let ts := (List.range 4).filter (maskBit m)
  .next (checked d [(9, 1)] [(9, decide (1 ≤ m) && decide (m ≤ 15))] s
    (if ts.any (switchPending s) then finish d stNotPermitted s else finish d stOk (ts.foldl syncTable s)))

/-- A switch takes effect (R72, R92, R94). -/
def applyBankSwitch (m n : Nat) (s : State) : State :=
  let s1 := setGeo s (fun g => { g with activeB := g.activeB ^^^ m })
  ledger 0x0903 1 m n 0 (evRaise aGeoEvt 6 s1)

/-! ## Law records and the global record (R64, R73) -/

/-- A law record. -/
def lawOf (b : List Byte) : Law :=
  let fl := field b 3 1
  { law := field b 0 1, distExp := field b 1 1, focus := field b 2 1, distDelay := maskBit fl 0, airEn := maskBit fl 1,
    visMode := maskBit fl 2, zoneMask := field b 4 2, spreadK := field b 6 1, lawGain := wordAt b 8, rmin := wordAt b 12,
    rref := wordAt b 16, visCos := wordAt b 20, focusBias := wordAt b 24, directDly := wordAt b 28,
    ext := (List.range 24).map (fun i => wordAt b (32 + 4 * i)) }

/-- The law-specific words are within their limits and the unused ones zero (R73). -/
def extOk (l : Law) : Bool :=
  match l.law with
  | 2 => (l.ext.take 15).all (coordOk 0x42C80000) && (l.ext.drop 15).all (fun w => decide (w = 0))
  | 3 => (l.ext.take 16).all (fWithin 0 0x40800000) && (l.ext.drop 16).all (fun w => decide (w = 0))
  | _ => l.ext.all (fun w => decide (w = 0))

/-- A law record within its limits (R73, R523). -/
def lawOk (b : List Byte) : Bool :=
  let l := lawOf b
  decide (l.law ≤ 3) && decide (l.distExp ≤ 2) && decide (l.focus ≤ 2) && decide (field b 3 1 ≤ 7) && decide (1 ≤ l.spreadK) &&
  decide (l.spreadK ≤ 5) && decide (field b 7 1 = 0) && fWithin 0 0x40800000 l.lawGain && fWithin 0x3C23D70A 0x42C80000 l.rmin &&
  fWithin 0x3C23D70A 0x447A0000 l.rref && fWithin 0xBF800000 0x3F800000 l.visCos && fWithin 0 0x46000000 l.focusBias &&
  fWithin 0 0x467F5000 l.directDly && extOk l && (decide (l.focus = 0) || l.visMode)

/-- What a keyed GEO_OBJ_LAW gives an object. -/
def lawOfAct (o : Nat) : KeyedAct → Option Law
  | .geoObjLaw first ls => if first ≤ o ∧ o < first + ls.length then ls[o - first]? else none
  | _ => none

/-- What a keyed OBJ_CTL gives an object's ENABLE. -/
def enableOfAct (o : Nat) : KeyedAct → Option Bool
  | .objCtl first count en _ _ _ => if first ≤ o ∧ o < first + count then some en else none
  | _ => none

/-- An object's law record and ENABLE that will be in force at `n` (R20). -/
def lawAt (s : State) (o n : Nat) : Law := (governing s n).foldl (fun x k => (lawOfAct o k.act).getD x) (objAt s o).law
def enableAt (s : State) (o n : Nat) : Bool := (governing s n).foldl (fun x k => (enableOfAct o k.act).getD x) (objAt s o).enable

/-- The records fit the image that governs `n`, and those of enabled objects an armed shadow (R177, R196). -/
def lawsAllowed (s : State) (n first : Nat) (ls : List Law) : Bool :=
  (ls.zipIdx).all (fun e =>
    let o := first + e.2
    (match govImg s n with
      | some i => lawFits (i.ent o) e.1
      | none => true) &&
    (match armedShadow s with
      | some (m, i) => decide (m < n) || !enableAt s o m || lawFits (i.ent o) e.1
      | none => true))

/-- Enabling objects would break an armed swap: a law record in force at its N lies outside the shadow's mask or budget (R196). -/
def enableBreaksSwap (s : State) (n : Nat) (os : List Nat) : Bool :=
  match armedShadow s with
  | some (m, i) => decide (n ≤ m) && os.any (fun o => !lawFits (i.ent o) (lawAt s o m))
  | none => false

/-- OBJ_CTL (R30, R47, R52, R196, R521). DESIGN CHOICE: a count of 0 is a bad field, as it is of OBJ_MAP (log entry 89). -/
def execObjCtl (d : Desc) (s : State) : Host.Outcome State Fault Refusal :=
  let first := pl d 10 2
  let count := pl d 12 2
  .next (checked d [(0, 9), (10, 8)] [(8, decide (pl d 8 1 ≤ 1)), (10, decide (first ≤ 1023)), (12, inRange first count 1024),
      (14, decide (pl d 14 1 ≤ 1)), (15, decide (pl d 15 1 ≤ 1)), (16, decide (1 ≤ pl d 16 1) && decide (pl d 16 1 ≤ 64)),
      (17, decide (pl d 17 1 ≤ 1))] s
    (let n := keyN d (mTranche s)
     if !pastCutoff s n && plBit d 14 0 && enableBreaksSwap s n (span first count) then finish d stNotPermitted s
     else armCutoff d (.objCtl first count (plBit d 14 0) (plBit d 15 0) (pl d 16 1) (if plBit d 17 0 then some s.segUid else none)) s))

/-- GEO_OBJ_LAW. -/
def execGeoObjLaw (d : Desc) (s : State) : Host.Outcome State Fault Refusal :=
  let first := pl d 10 2
  let count := pl d 12 2
  let k := if plBit d 8 1 then 1 else count
  .next (checked d [(0, 9), (10, 4), (16, 8)] [(8, decide (pl d 8 1 ≤ 3)), (10, decide (first ≤ 1023)), (12, inRange first count 1024)] s
    (match hostBlock d 0 (128 * k) with
      | none => badBlock d 16 s
      | some b =>
        let rs := chunks 128 k b
        let ls := if plBit d 8 1 then List.replicate count (lawOf b) else rs.map lawOf
        let n := keyN d (mTranche s)
        if !rs.all lawOk then badField d 0xFFFF s
        else if pastCutoff s n then finish d stLate s
        else if !lawsAllowed s n first ls then finish d stNotPermitted s
        else armKeyed n (some d.tok) (.geoObjLaw first ls) s))

/-- GEO_OBJ_LAW takes effect. -/
def applyLaws (first : Nat) (ls : List Law) (s : State) : State :=
  eachObj (fun o t => match ls[o - first]? with
    | some l => setObj t o { objAt t o with law := l }
    | none => t) (span first ls.length) s

/-- GEO_GLOBAL (R64). -/
def execGeoGlobal (d : Desc) (s : State) : Host.Outcome State Fault Refusal :=
  let w := fun off => BitVec.ofNat 32 (pl d off 4)
  .next (checked d [(0, 9), (16, 20)] [(8, decide (pl d 8 1 ≤ 1)), (16, fWithin 0xC1A00000 0x42480000 (w 16)), (20, coordOk 0x461C4000 (w 20)),
      (20, coordOk 0x461C4000 (w 24)), (20, coordOk 0x461C4000 (w 28)), (32, fWithin 0 0x3B800000 (w 32))] s
    (armCutoff d (.geoGlobal (w 16) { x := w 20, y := w 24, z := w 28 } (w 32)) s))

end Sys2Proof.Machine
end

