-- ==== Sys2Proof/Machine/Geometry.lean ====
section
/-! DEFINITION. The geometry pass: preambles, directions, Spread merge, slot values and assignment, crossings, fades, and the
descriptors that report them (R46, R47, R59 to R65, R74 to R86, R91, R198). -/

namespace Sys2Proof.Machine

/-! ## Constants of a pass (R65) -/

def f1 : Word := 0x3F800000
def f2 : Word := 0x40000000
def f4 : Word := 0x40800000
def f16 : Word := 0x41800000
def fdMax : Word := 0x467F6000

/-- fs of the media rate in binary32. -/
def fsWord (s : State) : Word := fOfNat (rateHz s.clk.rate)

/-- The speed of sound of the pass (R65). -/
def soundSpeed (temp : Word) : Word := fAdd 0x43A5A666 (fMul 0x3F1B22D1 temp)

/-- `GEO_TRANCHE_S`: the binary32 value nearest to 16/fs (R46). -/
def trancheS (s : State) : Word := fDiv f16 (fsWord s)

/-! ## Trajectory (R46, R47) -/

/-- COAST_LIM while COAST_EN is set, else 0. -/
def coastOf (ob : Obj) : Nat := if ob.coastEn then ob.coastLim else 0

/-- Position and gain of a segment for tranche `n` (R46). -/
def evalSeg (s : State) (ob : Obj) (a : Seg) (n : Nat) : V3 × Word :=
  let k := n + 1 - a.start
  let t := fMul (fOfNat (min k (a.len + coastOf ob))) (trancheS s)
  let ax := fun p v => fAdd p (fMul v t)
  let r := fDiv (fOfNat (min k a.len)) (fOfNat a.len)
  ({ x := ax a.p0.x a.v.x, y := ax a.p0.y a.v.y, z := ax a.p0.z a.v.z }, fAdd a.g0 (fMul (fSub a.g1 a.g0) r))

/-- The tranche is missing: no segment followed in time (R47). -/
def isMissing (a : Seg) (n : Nat) : Bool := decide (a.len < n + 1 - a.start)

/-- The object coasts in this tranche (R47). -/
def isCoasting (ob : Obj) (a : Seg) (n : Nat) : Bool :=
  isMissing a n && ob.coastEn && decide (n + 1 - a.start ≤ a.len + ob.coastLim)

/-- The factor of a handover fade in the tranche `i` tranches after its swap (R198). -/
def fadePhi (e : OEnt) (i : Nat) : Word :=
  let a := fOfNat (min (i + 1) e.hlen)
  let h := fOfNat e.hlen
  match e.hmode with
  | 1 => fDiv a h
  | 2 => fDiv (fSub h a) h
  | _ => f1

/-! ## Distances and directions (R74) -/

/-- Difference of two points. -/
def v3Sub (a b : V3) : V3 := { x := fSub a.x b.x, y := fSub a.y b.y, z := fSub a.z b.z }
/-- Sum of two points. -/
def v3Add (a b : V3) : V3 := { x := fAdd a.x b.x, y := fAdd a.y b.y, z := fAdd a.z b.z }

/-- The dot product in the order of R74. -/
def dot3 (u : V3) (a b c : Word) : Word := fAdd (fAdd (fMul u.x a) (fMul u.y b)) (fMul u.z c)

/-- The zenith replaces a direction of zero length (R74). -/
def zenith (u : V3) : V3 × Bool := if fEq (sq3 u) 0 then ({ x := 0, y := 0, z := f1 }, true) else (u, false)

/-- Cube-map cell and magnitude of a direction (R74). -/
def cellOfDir (u : V3) : Nat × Word :=
  let ax := fAbs u.x
  let ay := fAbs u.y
  let az := fAbs u.z
  let pick : Nat × Word × Word × Word :=
    if fLe ay ax && fLe az ax then (if fLe 0 u.x then 0 else 1, ax, u.y, u.z)
    else if fLe az ay then (if fLe 0 u.y then 2 else 3, ay, u.x, u.z)
    else (if fLe 0 u.z then 4 else 5, az, u.x, u.y)
  let m := pick.2.1
  let ix := fun w => min 31 (fFloor (fMul (fAdd (fDiv w m) f1) f16))
  ((pick.1 * 32 + ix pick.2.2.2) * 32 + ix pick.2.2.1, m)

/-- The usable candidates of a cell in list order (R74). -/
def candidates (s : State) (cell : Nat) : List Tri :=
  let b := activeBank s 2
  let w := smGet 0 s.geo.cube (b * 6144 + cell)
  (List.range (cellCount w)).filterMap (fun k =>
    if cellFirst w + k < smGet 0 s.geo.candN b then smFind s.geo.tri (b * 4096 + smGet 0 s.geo.cand (b * 16384 + cellFirst w + k)) else none)

/-- A triangle with its unnormalised gains and the smallest of them. -/
structure TriHit where
  t : Tri
  h0 : Word
  h1 : Word
  h2 : Word
  lo : Word
  deriving DecidableEq, Repr

/-- A candidate's gains for a direction (R74). -/
def tryTri (u : V3) (t : Tri) : TriHit :=
  let m := fun i => t.m.getD i 0
  let h := fun i => dot3 u (m (3 * i)) (m (3 * i + 1)) (m (3 * i + 2))
  { t := t, h0 := h 0, h1 := h 1, h2 := h 2, lo := fMin (fMin (h 0) (h 1)) (h 2) }

/-- The candidate that serves a direction, and whether it lies within tolerance (R74). -/
def pickTri (u : V3) (tol : Word) : List Tri → Option TriHit → Option (TriHit × Bool)
  | [], best => best.map (fun b => (b, false))
  | t :: ts, best =>
    let h := tryTri u t
    if fLe tol h.lo then some (h, true)
    else match best with
      | none => pickTri u tol ts (some h)
      | some b => pickTri u tol ts (some (if fLt b.lo h.lo then h else b))

/-- What a direction lookup gives: outputs with gains, a replaced zero direction, a miss, the cell (R74). -/
structure DirHit where
  outs : List (Nat × Word)
  zero : Bool
  miss : Bool
  cell : Nat
  deriving DecidableEq, Repr

/-- dir(u) of R74. -/
def dirOf (s : State) (u0 : V3) : DirHit :=
  let z := zenith u0
  let c := cellOfDir z.1
  let tol := fNegate (fMul s.geo.eps c.2)
  match pickTri z.1 tol (candidates s c.1) none with
  | none => { outs := [], zero := z.2, miss := true, cell := c.1 }
  | some (h, ok) =>
    let g := [fMax h.h0 0, fMax h.h1 0, fMax h.h2 0]
    let q := sq3 { x := g.getD 0 0, y := g.getD 1 0, z := g.getD 2 0 }
    let n := fDiv f1 (fSqrt q)
    let outs := [h.t.o0, h.t.o1, h.t.o2].zip (if fEq q 0 then [0, 0, 0] else g.map (fun x => fMul x n))
    { outs := outs, zero := z.2, miss := !ok, cell := c.1 }

/-! ## Items of a pass (R62, R168, R176) -/

/-- Adds to a counter of GEO_STATUS. -/
def geoCount (o off n : Nat) (s : State) : State := setGeo s (fun g => { g with cnt := bumpAt g.cnt (o * 64 + off) n })

/-- Focus of an object in tranche `n` (R76): the focused zones. -/
def focusZones (s : State) (l : Law) (p : V3) : List Nat :=
  (List.range 16).filter (fun z => maskBit l.zoneMask z && (match l.focus with
    | 0 => false
    | 1 => true
    | _ =>
      let q := smGet {} s.geo.zone (activeBank s 1 * 16 + z)
      let ex := fSub p.x q.cx
      let ey := fSub p.y q.cy
      fLt (fAdd (fMul ex ex) (fMul ey ey)) (fMul q.r q.r)))

/-- The preamble of an object (R46, R74, R76, R86, R177, R198). -/
def preWork (s : State) (n : Nat) (e : OEnt) (ob : Obj) (prev : Option GWork) (fade : Nat) : GWork :=
  let l := ob.law
  let pg := match ob.active with
    | some a => evalSeg s ob a n
    | none => ({}, 0)
  let held := ob.active.isNone
  let u := v3Sub pg.1 s.geo.pc
  let field := decide (l.law = 0)
  let dec := field && !held
  let old := prev.filter (fun w => decide (w.law = 0))
  let foc := if dec then focusZones s l pg.1 else if field then (old.map GWork.foc).getD [] else []
  let focOk := if dec then true else field && old.any GWork.focOk
  let crossAll := prev.any (fun w => decide (w.law ≠ l.law))
  let was := (old.map GWork.foc).getD []
  let zones := if dec && old.any GWork.focOk then (List.range 16).filter (fun z => decide ((z ∈ foc) ≠ (z ∈ was))) else []
  { p := pg.1, g := fMul pg.2 (fadePhi e (n - fade)), r := if l.law = 1 ∨ l.law = 2 then fSqrt (sq3 u) else 0, foc := foc,
    law := l.law, held := held, masked := !lawFits e l, focOk := focOk, crossAll := crossAll, crossZones := zones,
    jumpAll := prev.any (fun w => w.held || w.masked || w.crossAll), jumpZones := (prev.map GWork.crossZones).getD [],
    coasting := ob.active.any (fun a => isCoasting ob a n), dirs := [], merged := [], nz := 0 }

/-- The preamble issues (R47, R86). -/
def runPre (n o : Nat) (e : OEnt) (s : State) : State :=
  let ob := smGet {} s.geo.snap o
  let prev := smFind s.geo.work o
  let old := smFind s.geo.prev o
  let w := preWork s n e ob old (smGet 0 s.geo.fade o)
  let miss := ob.active.any (fun a => isMissing a n)
  let stop := miss && !w.coasting && old.any GWork.coasting
  let cross := w.crossAll || !w.crossZones.isEmpty
  if prev.isSome then s
  else
    let s1 := setGeo s (fun g => { g with work := smPut g.work o w })
    let s2 := objCount 44 (if miss then 1 else 0) o (objCount 56 (if stop then 1 else 0) o s1)
    evIf cross aGeoEvt 5 (evIf stop aHgtEvt 6 (geoCount o 24 (if cross then 1 else 0) s2))

/-- The direction of item `k`; `none` where the law does not use it (R77, R78). DESIGN CHOICE: an object that is held, masked or in a
law crossing runs no lookup and counts no miss in that tranche, on which R31, R86 and R177 are silent (log entry 91). -/
def dirVector (s : State) (l : Law) (w : GWork) (k : Nat) : Option V3 :=
  if w.held || w.masked || w.crossAll then none
  else match l.law with
    | 1 => if k = 0 then some (v3Sub w.p s.geo.pc) else none
    | 2 =>
      let x := fun i => l.ext.getD (3 * k + i) 0
      if k < l.spreadK then some (v3Sub (v3Add w.p { x := x 0, y := x 1, z := x 2 }) s.geo.pc) else none
    | _ => none

/-- A direction item issues (R74, R94). -/
def runDir (o k : Nat) (s : State) : State :=
  match smFind s.geo.work o with
  | none => s
  | some w => match dirVector s (smGet {} s.geo.snap o).law w k with
    | none => s
    | some u =>
      let h := dirOf s u
      let s1 := setGeo s (fun g => { g with work := smPut g.work o { w with dirs := w.dirs ++ [(k, h.outs)] } })
      let s2 := evIf h.zero aGeoEvt 4 (geoCount o 20 (if h.zero then 1 else 0) s1)
      let s3 := evIf h.miss aGeoEvt 0 (geoCount o 4 (if h.miss then 1 else 0) s2)
      ledgerLim 0x0902 2 o (if h.miss then 1 else 0) (fun c => (o, h.cell, c)) s3

/-- The merged gains of Spread directions (R78). -/
def mergeDirs (dirs : List (Nat × List (Nat × Word))) : List (Nat × Word) :=
  let h := (dirs.flatMap Prod.snd).foldl (fun (m : SMap Word) e => smMod 0 m e.1 (fun x => fAdd x e.2)) []
  let pos := h.filter (fun e => fLt 0 e.2)
  let q := pos.foldl (fun a e => fAdd a (fMul e.2 e.2)) 0
  let n := fDiv f1 (fSqrt q)
  if fEq q 0 then [] else pos.map (fun e => (e.1, fMul e.2 n))

/-- A Spread merge issues. -/
def runMrg (o : Nat) (s : State) : State :=
  match smFind s.geo.work o with
  | none => s
  | some w => setGeo s (fun g => { g with work := smPut g.work o { w with merged := mergeDirs w.dirs } })

/-! ## Values of a pair (R68, R75, R79 to R82) -/

/-- What a pair is given: GAIN and its saturation, FDELAY and its clamps, AIR. -/
structure PVal where
  gain : Int
  clip : Nat
  fd : Nat
  clamp : Nat
  air : Nat
  deriving DecidableEq, Repr

/-- An output's speaker record in the active bank. -/
def spkAt (s : State) (out : Nat) : Spk := smGet {} s.geo.spk (activeBank s 0 * 1024 + out)

/-- AIR of a pair at distance `r` (R68). -/
def airOf (s : State) (r : Word) : Nat :=
  let a := fun i => smGet 0 s.geo.air (activeBank s 3 * 1024 + i)
  let q := fMul r f2
  let i := if fLe 0x447FC000 q then 1023 else min 1023 (fFloor q)
  let v := if i = 1023 then a 1023 else fAdd (a i) (fMul (fSub q (fOfNat i)) (fSub (a (i + 1)) (a i)))
  fToU 16 16 v

/-- The distance gain (R80). -/
def distGain (l : Law) (rc : Word) : Word :=
  if l.distExp = 0 ∨ l.law = 3 then f1
  else if l.distExp = 1 then fSqrt (fDiv l.rref rc)
  else fDiv l.rref rc

/-- GAIN and its saturation (R80): `lf` is the law factor, `g` the gain of the preamble. DEDUCED: -16.0, which Q5.27 holds, does not
saturate (R7), though R88 speaks of gains at or above 16.0 in magnitude (log entry 92). -/
def gainOf (ob : Obj) (k : Spk) (g lf rc : Word) : Int × Nat :=
  let l := ob.law
  let g4 := fMul (fMul (fMul (fMul g l.lawGain) (distGain l rc)) lf) k.trim
  let g5 := if k.invert then fNegate g4 else g4
  fToS 32 27 (if !ob.enable || !k.present then 0 else g5)

/-- FDELAY and its clamps (R81). -/
def fdelayOf (k : Spk) (dl : Word) (c : Nat) : Nat × Nat :=
  let fine := fAdd (fSub (fAdd dl k.dly) (fOfNat c)) f4
  if fNan fine || fLt fine f4 then (fToU 32 18 f4, 1)
  else if fLt fdMax fine then (fToU 32 18 fdMax, 1)
  else (fToU 32 18 fine, 0)

/-- Distance, law delay and visibility factor of a Field pair (R75); `foc`: the zone is focused. -/
def fieldPath (s : State) (l : Law) (p : V3) (k : Spk) (foc : Bool) : Word × Word × Word :=
  let d := v3Sub k.pos p
  let r := fSqrt (sq3 d)
  let rc := fMax r l.rmin
  let cv0 := fDiv (dot3 d k.axis.x k.axis.y k.axis.z) rc
  let cv := if foc then fNegate cv0 else cv0
  let vis := if l.visMode then (if fLt l.visCos cv then cv else 0) else f1
  let taper := (smGet {} s.geo.zone (activeBank s 1 * 16 + k.zone)).taper.getD k.taper 0
  let dl := fMul r s.geo.passK
  (r, if foc then fSub l.focusBias dl else dl, fMul vis taper)

/-- An output is eligible for the Field law (R75). -/
def eligibleOut (l : Law) (k : Spk) : Bool := maskBit l.zoneMask k.zone && k.present && !k.excl

/-- The values of an object's pair to an output (R75, R77 to R82); `direct`: the slot number of a Direct slot. -/
def pairVal (s : State) (n o : Nat) (w : GWork) (out direct : Nat) : PVal :=
  let ob := smGet {} s.geo.snap o
  let l := ob.law
  let k := spkAt s out
  let path : Word × Word × Word := match l.law with
    | 0 => fieldPath s l w.p k (decide (k.zone ∈ w.foc))
    | 3 => (0, l.directDly, if direct < 16 then l.ext.getD direct 0 else 0)
    | _ => (w.r, if l.distDelay then fMul w.r s.geo.passK else 0,
            (((if l.law = 1 then w.dirs.flatMap Prod.snd else w.merged).find? (fun e => decide (e.1 = out))).map Prod.snd).getD 0)
  let lf := if l.law = 0 ∧ eligibleOut l k = false then 0 else path.2.2
  let g := gainOf ob k w.g lf (fMax path.1 l.rmin)
  let f := fdelayOf k path.2.1 (coarseIn s ob n)
  { gain := if l.law = 0 ∧ eligibleOut l k = false then 0 else g.1,
    clip := if l.law = 0 ∧ eligibleOut l k = false then 0 else g.2,
    fd := f.1, clamp := f.2, air := if l.airEn ∧ l.law ≠ 3 then airOf s path.1 else 0 }

/-! ## Slots (R83 to R86, R197) -/

/-- Slot `j` of an object is carried into tranche `n`: it lies in both images at a swap, and its previous output in its new
address set (R197). -/
def carried (s : State) (n o j out : Nat) : Bool :=
  if n = s.sch.oldN then
    match s.sch.old, s.sch.activeImg with
    | some a, some b => (a.code o j).isSome && decide (out ∈ b.slotOuts o j)
    | none, _ => false
    | _, none => false
  else true

/-- GAIN and OUTPUT that a slot was given for tranche `n - 1`; a slot without carried state starts under R85. -/
def prevSlot (s : State) (n o j : Nat) (outs : List Nat) : Int × Nat :=
  match smFind s.geo.recs (((n + 1) % 2 * 1024 + o) * 2048 + j) with
  | some r => if carried s n o j r.out then (r.gain, r.out) else (0, outs.headD 0)
  | none => (0, outs.headD 0)

/-- A record with GAIN 0 and HOLD_D. -/
def holdRec (out : Nat) : PRec := { gain := 0, fdelay := 0, air := 0, out := out, djump := false, hold := true }

/-- A record with a pair's values. -/
def valRec (v : PVal) (gain : Int) (out : Nat) (jump : Bool) : PRec :=
  { gain := gain, fdelay := v.fd, air := v.air, out := out, djump := jump, hold := false }

/-- The record of a slot with the saturations and clamps that it counts; a NaN gain is 0 and a saturation (R60). -/
def counted (v : PVal) (r : PRec) : PRec × Nat × Nat := (r, v.clip, v.clamp)

/-- A slot of an object: number, outputs, previous gain and output. -/
structure SlotIn where
  j : Nat
  outs : List Nat
  gp : Int
  op : Nat
  deriving DecidableEq, Repr

/-- The slots of an object in tranche `n`. -/
def slotsIn (s : State) (n o : Nat) (i : Img) : List SlotIn :=
  (List.range (i.ent o).a).map (fun j =>
    let outs := i.slotOuts o j
    let p := prevSlot s n o j outs
    { j := j, outs := outs, gp := p.1, op := p.2 })

/-- The slot is fixed: its address set holds one output. -/
def SlotIn.fixed (x : SlotIn) : Bool := decide (x.outs.length = 1)

/-- The output's zone crosses in this tranche (R86). -/
def crosses (s : State) (w : GWork) (out : Nat) : Bool := decide ((spkAt s out).zone ∈ w.crossZones)

/-- A slot that follows a hold or crossing of the tranche before jumps, where its new gain is not zero (R31, R86, R177). -/
def jumps (s : State) (w : GWork) (x : SlotIn) (gain : Int) (out : Nat) : Bool :=
  decide (gain ≠ 0) && decide (x.gp = 0) && (w.jumpAll || decide ((spkAt s out).zone ∈ w.jumpZones))

/-- The outputs that may be active under an object's law. -/
def lawOuts (s : State) (o : Nat) (w : GWork) : List Nat :=
  let l := (smGet {} s.geo.snap o).law
  match l.law with
  | 0 => (List.range 1024).filter (fun out => eligibleOut l (spkAt s out))
  | 1 => ((w.dirs.flatMap Prod.snd).map Prod.fst).mergeSort (fun a b => decide (a ≤ b))
  | 2 => w.merged.map Prod.fst
  | _ => []

/-- The active set without the outputs of a crossing zone (R83, R86). -/
def activeOuts (s : State) (n o : Nat) (w : GWork) : List Nat :=
  (lawOuts s o w).filter (fun out => decide ((pairVal s n o w out 0).gain ≠ 0) && !crosses s w out)

/-- The lowest fixed slot of an output. DESIGN CHOICE: where several fixed slots of an object name one output, it is served by the lowest,
and the others get GAIN 0; R83 does not say which (log entry 91). -/
def fixedFor (xs : List SlotIn) (out : Nat) : Option Nat := (xs.find? (fun x => x.fixed && decide (out ∈ x.outs))).map SlotIn.j

/-- The record of a fixed slot (R83, R86). -/
def fixedRec (s : State) (n o : Nat) (w : GWork) (xs : List SlotIn) (x : SlotIn) : PRec × Nat × Nat :=
  let out := x.outs.headD 0
  let v := pairVal s n o w out 0
  if crosses s w out then (holdRec out, 0, 0)
  else
    let v1 := if fixedFor xs out = some x.j then v else { v with gain := 0, clip := 0 }
    counted v1 (valRec v1 v1.gain out (jumps s w x v1.gain out))

/-- Assignment of waiting outputs, ascending, to free dynamic slots (R84): the slot with its output, and outputs without a slot. -/
def assign : List Nat → List SlotIn → List (Nat × Nat) × List Nat
  | [], _ => ([], [])
  | out :: os, free =>
    match free.find? (fun x => decide (out ∈ x.outs)) with
    | some x =>
      let r := assign os (free.filter (fun y => decide (y.j ≠ x.j)))
      ((x.j, out) :: r.1, r.2)
    | none =>
      let r := assign os free
      (r.1, out :: r.2)

/-- Outputs kept by dynamic slots that sound (R84): each output by the lowest of them. -/
def keepOuts : List SlotIn → List Nat → List (Nat × Nat)
  | [], _ => []
  | x :: xs, act => if x.op ∈ act then (x.j, x.op) :: keepOuts xs (act.filter (fun o => decide (o ≠ x.op))) else keepOuts xs act

/-- What the dynamic slots of an object carry in tranche `n` (R84): kept outputs, new outputs, outputs without a slot. DESIGN CHOICE: a
dynamic slot with gain 0 whose last output lies in a crossing zone is free for an output of another zone (R86 keeps the outputs of the
affected pairs, and an idle slot has none; log entry 91). -/
def dynPlan (s : State) (n o : Nat) (w : GWork) (xs : List SlotIn) : List (Nat × Nat) × List (Nat × Nat) × List Nat :=
  let act := (activeOuts s n o w).filter (fun out => (fixedFor xs out).isNone)
  let dyn := xs.filter (fun x => !x.fixed)
  let kept := keepOuts (dyn.filter (fun x => decide (x.gp ≠ 0))) act
  let rest := act.filter (fun out => !kept.any (fun e => decide (e.2 = out)))
  let r := assign rest (dyn.filter (fun x => decide (x.gp = 0)))
  (kept, r.1, r.2)

/-- The output that a plan gives a slot. -/
def planned (j : Nat) (l : List (Nat × Nat)) : Option Nat := (l.find? (fun e => decide (e.1 = j))).map Prod.snd

/-- The record of a dynamic slot (R84). -/
def dynRec (s : State) (n o : Nat) (w : GWork) (xs : List SlotIn) (x : SlotIn) : PRec × Nat × Nat :=
  let plan := dynPlan s n o w xs
  match planned x.j plan.1, planned x.j plan.2.1 with
  | some out, _ => let v := pairVal s n o w out 0; counted v (valRec v v.gain out false)
  | none, some out => let v := pairVal s n o w out 0; counted v (valRec v v.gain out true)
  | none, none => (holdRec x.op, 0, 0)

/-- The record of a Direct slot (R79). -/
def directRec (s : State) (n o : Nat) (w : GWork) (x : SlotIn) : PRec × Nat × Nat :=
  let out := if x.op ∈ x.outs then x.op else x.outs.headD 0
  let v := pairVal s n o w out x.j
  counted v (valRec v v.gain out (jumps s w x v.gain out))

/-- The record of slot `j` (R31, R79, R83, R84, R86, R177). -/
def slotRec (s : State) (n o : Nat) (w : GWork) (xs : List SlotIn) (x : SlotIn) : PRec × Nat × Nat :=
  if w.held || w.masked || w.crossAll then (holdRec x.op, 0, 0)
  else if w.law = 3 then directRec s n o w x
  else if x.fixed then fixedRec s n o w xs x
  else dynRec s n o w xs x

/-- The outputs that get no slot, counted with the last slot of the object (R84, R94). -/
def countShort (o : Nat) (short : List Nat) (s : State) : State :=
  if short.isEmpty then s
  else ledgerLim 0x0901 2 o short.length (fun c => (o, short.headD 0, c))
    (evRaise aGeoEvt 1 (geoCount o 8 short.length s))

/-- The pairs of no fixed slot whose gain is a NaN: not active, and each a saturation (R60, R83). -/
def nanOuts (s : State) (n o : Nat) (w : GWork) (xs : List SlotIn) : List Nat :=
  (lawOuts s o w).filter (fun out =>
    let v := pairVal s n o w out 0
    decide (v.gain = 0) && decide (v.clip ≠ 0) && !crosses s w out && (fixedFor xs out).isNone)

/-- What an object counts beside its records: outputs without a slot, and NaN gains. -/
def countRest (n o : Nat) (w : GWork) (xs : List SlotIn) (s : State) : State :=
  if w.held || w.masked || w.crossAll || decide (w.law = 3) then s
  else
    let nans := (nanOuts s n o w xs).length
    countShort o (dynPlan s n o w xs).2.2 (evIf (decide (nans ≠ 0)) aGeoEvt 3 (geoCount o 16 nans s))

/-- The objects of a pass whose allotment has no slot: they have no slot item to count with, and count when the pass has issued. -/
def countSlotless (n : Nat) (i : Img) : List (Nat × GWork) → State → State
  | [], s => s
  | (o, w) :: ws, s => countSlotless n i ws (if (i.ent o).a = 0 then countRest n o w [] s else s)

/-- A pair-slot item issues: the record is written to bank N mod 2 (R59). -/
def runSlt (n o j : Nat) (i : Img) (s : State) : State :=
  match smFind s.geo.work o with
  | none => s
  | some w =>
    let xs := slotsIn s n o i
    match xs.find? (fun x => decide (x.j = j)) with
    | none => s
    | some x =>
      let r := slotRec s n o w xs x
      let s1 := setGeo s (fun g => { g with
        recs := smPut g.recs ((n % 2 * 1024 + o) * 2048 + j) r.1,
        work := smPut g.work o { w with nz := w.nz + (if r.1.gain = 0 then 0 else 1) } })
      let s2 := evIf (decide (r.2.1 ≠ 0)) aGeoEvt 3 (geoCount o 16 r.2.1 s1)
      let s3 := evIf (decide (r.2.2 ≠ 0)) aGeoEvt 2 (geoCount o 12 r.2.2 s2)
      if j + 1 = (i.ent o).a then countRest n o w xs s3 else s3

/-- GEOM_ITEM: an item of the active image's geometry programme in the period of its pass (R168, R176). -/
def execGeomItem (x : GeomItem) (s : State) : Host.Outcome State Fault Refusal :=
  .next (match stageImg s s.clk.tidx with
    | none => s
    | some i =>
      let n := s.clk.tidx
      match x with
      | .pre o => runPre n o (i.ent o) s
      | .dir o k => if k < (i.ent o).dirs then runDir o k s else s
      | .mrg o => if (i.ent o).merge = 1 then runMrg o s else s
      | .slt o j => runSlt n o j i s)

/-! ## Start and end of a pass -/

/-- Issue cycles of the busiest unit (R62, R176). -/
def busiest (i : Img) : Nat :=
  (i.geo.map (fun u => (u.2.map (fun o =>
    let e := i.ent o
    4 + e.dirs * (i.cmax + 2) + e.merge + e.a)).foldl (· + ·) 0)).foldl max 0

/-- The pass of `n` is complete (R59, R90): its values become those of the last pass. `masked`: R177. -/
def endPass (n : Nat) (s : State) : State :=
  match stageImg s n with
  | none => s
  | some i =>
    let s1 := setGeo s (fun g => { g with prev := g.work, work := [], last := some n, lastA := i.obj.map OEnt.a })
    setReg { s1 with sch := { s1.sch with masked := (s.geo.work.filter (fun e => e.2.masked && decide (1 ≤ (i.ent e.1).a))).length } }
      aGeoPass (BitVec.ofNat 32 (busiest i))

/-- The pass of tranche `n` begins: c and K (R65). -/
def startPass (n : Nat) (s : State) : State :=
  match stageImg s n with
  | none => s
  | some _ =>
    let c := soundSpeed s.geo.temp
    setGeo s (fun g => { g with passC := c, passK := fDiv (fsWord s) c })

/-- The pass in progress has issued all its work before the next cut-off (R59): what is left to count is counted. -/
def issueEnd (s : State) : State :=
  match stageImg s s.clk.tidx with
  | some i => countSlotless s.clk.tidx i s.geo.work s
  | none => s

/-- The snapshot at a cut-off (R59). -/
def takeSnap (s : State) : State := setGeo s (fun g => { g with snap := s.obj })

/-! ## Descriptors (R89 to R91) -/

/-- A 32-byte record of GEO_STATUS (R91). -/
def geoRecord (s : State) (o : Nat) : List Byte :=
  let w := smFind s.geo.prev o
  let c := fun off => smGet 0 s.geo.cnt (o * 64 + off)
  let foc := w.any (fun x => decide (x.law = 0) && !x.foc.isEmpty)
  let cross := w.any (fun x => x.crossAll || !x.crossZones.isEmpty)
  leBytes 2 o ++ leBytes 1 (objAt s o).law.law ++ leBytes 1 ((if foc then 1 else 0) + (if cross then 2 else 0)) ++
  words32 ([4, 8, 12, 16, 20, 24].map c) ++ leBytes 2 ((w.map GWork.nz).getD 0) ++ zeros 2

/-- GEO_STATUS. -/
def execGeoStatus (d : Desc) (s : State) : Host.Outcome State Fault Refusal :=
  let first := pl d 8 2
  let count := pl d 10 2
  .next (checked d [(0, 13)] [(8, decide (first ≤ 1023)), (10, inRange first count 1024), (12, decide (pl d 12 1 ≤ 1))] s
    (let s1 := hostWrite (pl d 0 8) ((span first count).flatMap (geoRecord s)) s
     finish d stOk (if plBit d 12 0 then setGeo s1 (fun g => { g with cnt := smClearRange g.cnt (first * 64) (count * 64) }) else s1)))

/-- A pair value record of 12 bytes (R61). -/
def recBytes12 (r : PRec) : List Byte :=
  leInt 4 r.gain ++ leBytes 4 r.fdelay ++ leBytes 2 r.air ++
  leBytes 2 (r.out % 1024 + (if r.djump then 1024 else 0) + (if r.hold then 2048 else 0))

/-- The record of a slot in a pass; a slot without one reads zero. -/
def recAt (s : State) (n o j : Nat) : PRec :=
  (smFind s.geo.recs ((n % 2 * 1024 + o) * 2048 + j)).getD { gain := 0, fdelay := 0, air := 0, out := 0, djump := false, hold := false }

/-- What GEO_PAIR_READ writes (R89, R90); a start has zeroed the table (R190). DESIGN CHOICE: before any pass has completed, 16 zero bytes
and no record (log entry 91). -/
def pairReadBytes (s : State) (o : Nat) : List Byte :=
  match s.geo.last with
  | none => zeros 16
  | some n =>
    let a := s.geo.lastA.getD o 0
    leBytes 8 n ++ leBytes 4 a ++ zeros 4 ++ (List.range a).flatMap (fun j => recBytes12 (recAt s n o j))

/-- GEO_PAIR_READ. -/
def execGeoPairRead (d : Desc) (s : State) : Host.Outcome State Fault Refusal :=
  let o := pl d 8 2
  .next (checked d [(0, 10)] [(8, decide (o ≤ 1023))] s (finish d stOk (hostWrite (pl d 0 8) (pairReadBytes s o) s)))

end Sys2Proof.Machine
end

