-- ==== Sys2Proof/Machine/Dram.lean ====
section
/-! DEFINITION. The DRAM controller: the fixed regions of the data address space, lines and their errors, panic, refresh,
training, no-DRAM mode and the patrol scrubber (R389 to R411). -/

namespace Sys2Proof.Machine

/-! ## Addresses (R391, R392, R394) -/

/-- The channel of a data address (R391). -/
def drcChannel (a : Nat) : Nat := a / 64 / 8 % 8

/-- Where a data line lies in its channel (R391): its group, the physical lines of the data and of the group's check bytes, and the column,
row and bank of a physical line. -/
def groupOf (d : Nat) : Nat := d / 8 / 8
def physLine (d : Nat) : Nat := 9 * groupOf d + d % 8
def checkLine (d : Nat) : Nat := 9 * groupOf d + 8
def columnOf (p : Nat) : Nat := p % 32
def rowOf (p : Nat) : Nat := p / 512
def bankOf (p : Nat) : Nat := (p / 32 % 16) ^^^ (rowOf p % 16)

/-- Physical lines per channel of a fit, `DRC_STAT.SIZE` 1 or 2 (R390), and the groups that the data address space takes of them: the last
1,024 lines are the training area (R391, R392). -/
def physLines (size : Nat) : Nat := if size = 2 then 33554432 else 16777216
def groupsPerChannel (size : Nat) : Nat := (physLines size - 1024) / 9

/-- The end of the data address space (R392). -/
def dataEnd (size : Nat) : Nat := groupsPerChannel size * 4096

/-- A cistern group of an object (R102, R394). -/
def cisAddr (o grp : Nat) : Nat := (2048 * o + grp % 2048) * 896

/-- The tail state of an output, its parts, and the regions of lanes and staging slots (R394). -/
def tailBase (o : Nat) : Nat := 0x70000000 + o * 800768
def fdlAddr (o k : Nat) : Nat := tailBase o + k % 31 * 12352
def tailInAddr (o : Nat) : Nat := tailBase o + 382912
def tailOutAddr (o : Nat) : Nat := tailBase o + 404416
def setSpecAddr (o p : Nat) : Nat := tailBase o + 430016 + p * 12352
def laneOutAddr (x : Nat) : Nat := 0xA0E00000 + x * 25600
def slotSpecAddr (x p : Nat) : Nat := 0xA1000000 + x * 370688 + p * 12352

/-- Changes the controller. -/
def setDrc (s : State) (f : Drc → Drc) : State := { s with drc := f s.drc }

/-! ## Lines (R393, R408) -/

/-- The lines that a run of bytes touches. -/
def linesOf (a n : Nat) : List Nat := if n = 0 then [] else (List.range ((a + n - 1) / 64 - a / 64 + 1)).map (a / 64 + ·)

/-- A write of data: the lines it touches are whole again (R393, R408). -/
def dramPut (a : Nat) (bs : List Byte) (s : State) : State :=
  let ls := linesOf a bs.length
  setDrc s (fun d => { d with mem := smWriteBytes d.mem a bs, lost := d.lost.filter (fun l => !decide (l ∈ ls)) })

/-- A data line as its codeword: the data, and the check bytes that lie in the group's check line (R8, R391). Every write of a line writes
both (R393), so that the check bytes are always those of the data. -/
def codeword (s : State) (d : Nat) : List Byte :=
  let b := smReadBytes s.drc.mem (64 * d) 64
  b ++ rsChecks b

/-- The bytes at a physical line of a channel: a data line, a group's check bytes in the order of its lines, or the training area, whose
content no rule states (R391). -/
def physBytes (s : State) (c p : Nat) : List Byte :=
  let g := p / 9 * 8 + c
  if groupsPerChannel s.drc.size ≤ p / 9 then (List.range 64).map (Config.freeByte (8 * p + c))
  else if p % 9 < 8 then smReadBytes s.drc.mem (64 * (8 * g + p % 9)) 64
  else (List.range 8).flatMap (fun i => (codeword s (8 * g + i)).drop 64)

/-- Data as it stands. -/
def dramGet (s : State) (a n : Nat) : List Byte := smReadBytes s.drc.mem a n

/-- Zeroes a region. -/
def dramZero (a n : Nat) (s : State) : State :=
  setDrc s (fun d => { d with mem := smClearRange d.mem a n, lost := d.lost.filter (fun l => !(decide (a / 64 ≤ l) && decide (l * 64 < a + n))) })

/-- A run of bytes holds a line that is known uncorrectable. -/
def dramLost (s : State) (a n : Nat) : Bool := s.drc.lost.any (fun l => decide (l ∈ linesOf a n))

/-- `DRC_ERR_INFO` and `DRC_ERR_ADDR` where no record is held (R408, R410). -/
def holdLine (port a symbols : Nat) (s : State) : State :=
  if Word.bit (getReg s aDrcInfo) 31 then s
  else
    setReg (setReg (setReg s aDrcInfo (BitVec.ofNat 32 (2 ^ 31 + drcChannel a * 2 ^ 24 + port * 2 ^ 20 + symbols * 2 ^ 8)))
      aDrcAddrLo (BitVec.ofNat 32 a)) aDrcAddrHi (BitVec.ofNat 32 (a / 2 ^ 32))

/-- A corrected line counts on its channel (R408, R411). -/
def countCe (c : Nat) (s : State) : State :=
  let old := (getReg s (aDrcCe c)).toNat
  let new := bump 32 old 1
  let thr := Word.bits (getReg s aDrcCfg) 15 0
  let s1 := setReg s (aDrcCe c) (BitVec.ofNat 32 new)
  if thr ≠ 0 ∧ old / thr < new / thr then ledger 0x0F04 2 c new 0 (evRaise aDrcEvt 2 s1) else s1

/-- A line is read for a client (R408): ports 0 cistern, 1 tail, 2 loader, 3 best-effort, 4 scrubber. -/
def lineRead (port a : Nat) (l : Line) (s : State) : State :=
  match l with
  | .good => s
  | .corrected n => holdLine port a n (countCe (drcChannel a) s)
  | .uncorrectable =>
    let s1 := setReg s aDrcUe (BitVec.ofNat 32 (bump 32 (getReg s aDrcUe).toNat 1))
    let s2 := setDrc s1 (fun d => { d with lost := if a / 64 ∈ d.lost then d.lost else d.lost ++ [a / 64] })
    ledgerLim 0x0F03 4 (drcChannel a) 1 (fun c => (drcChannel a, a % 2 ^ 32, c)) (holdLine port a 0xFF (evRaise aDrcEvt 3 s2))

/-- The symbols of a codeword that are read with differences. -/
def flipSymbols (es : List (Nat × Byte)) (b : List Byte) : List Byte :=
  b.zipIdx.map (fun x => es.foldl (fun v e => if e.1 = x.2 then v ^^^ e.2 else v) x.1)

/-- What the decoder makes of a line that is read with errors: the data and the symbols corrected. A line known uncorrectable stays so. -/
def decodeLine (s : State) (e : LineErr) : Option (List Byte × Nat) :=
  if e.line ∈ s.drc.lost then none else (rsDecode (flipSymbols e.symbols (codeword s e.line))).map (fun r => (r.1.take 64, r.2))

/-- The outcome of that read. -/
def lineOutcome (s : State) (e : LineErr) : Line :=
  match decodeLine s e with
  | some (_, 0) => .good
  | some (_, n) => .corrected n
  | none => .uncorrectable

/-- A line lies in one of some runs of bytes, (address, length). -/
def inRuns (runs : List (Nat × Nat)) (l : Nat) : Bool := runs.any (fun r => decide (r.1 / 64 ≤ l) && decide (l * 64 < r.1 + r.2))

/-- The reports of lines read with errors, in order (R408). -/
def readErrs (port : Nat) : List LineErr → State → State
  | [], s => s
  | e :: es, s => readErrs port es (lineRead port (64 * e.line) (lineOutcome s e) s)

/-- The lines of some runs that are read with errors: those an operand names, and those known uncorrectable. -/
def runErrs (runs : List (Nat × Nat)) (errs : List LineErr) (s : State) : List LineErr :=
  let es := errs.filter (fun e => inRuns runs e.line)
  es ++ (s.drc.lost.filter (fun l => inRuns runs l && !es.any (fun e => decide (e.line = l)))).map (fun l => { line := l, symbols := [] })

/-- A client reads runs of bytes (R408): the state with the lines' reports, and the contents as they are delivered: the decoder's data, with
the lines it could not correct among the lost. -/
def readRuns (port : Nat) (runs : List (Nat × Nat)) (errs : List LineErr) (s : State) : State × State :=
  let es := runErrs runs errs s
  let s1 := readErrs port es s
  let fixed := es.filterMap (fun e => (decodeLine s e).map (fun r => (e.line, r.1)))
  (s1, setDrc s1 (fun d => { d with mem := fixed.foldl (fun m e => smWriteBytes m (64 * e.1) e.2) d.mem }))

/-! ## The best-effort port (R392, R393, R395, R406, R407) -/

/-- A best-effort access is answered DECODE: past the end, a write to the render domain's regions, no DRAM, or a training under way. DEDUCED
for the first training, where the rule speaks of a retraining (log entry 103). -/
def bestDenied (s : State) (write : Bool) (a n : Nat) : Bool :=
  s.drc.noDram || s.drc.training || s.drc.retraining || decide (dataEnd s.drc.size < a + n) || (write && decide (a < 0xA4000000))

/-- A run of bytes cut at the lines. -/
def linePieces (a : Nat) (bs : List Byte) : List (Nat × List Byte) :=
  (linesOf a bs.length).map (fun l => (max a (64 * l), (bs.drop (64 * l - a)).take (64 * l + 64 - max a (64 * l))))

/-- The error that an access meets in a line, from those that are named. -/
def errOf (errs : List LineErr) (l : Nat) : LineErr := (errs.find? (fun e => decide (e.line = l))).getD { line := l, symbols := [] }

/-- Bytes of one line are written (R393). A whole line is written without a read; else the line is read and corrected, and the bytes merged.
An uncorrectable line is reported and not written. The Bool: it was written. -/
def putPiece (errs : List LineErr) (x : Nat × List Byte) (s : State) : Bool × State :=
  let l := x.1 / 64
  if x.2.length = 64 then (true, dramPut x.1 x.2 s)
  else match decodeLine s (errOf errs l) with
    | some (b, n) => (true, dramPut (64 * l) (b.take (x.1 % 64) ++ x.2 ++ b.drop (x.1 % 64 + x.2.length))
        (if n = 0 then s else lineRead 3 (64 * l) (.corrected n) s))
    | none => (false, lineRead 3 (64 * l) .uncorrectable s)

/-- The pieces of a run in order. -/
def putPieces (errs : List LineErr) : List (Nat × List Byte) → State → Bool × State
  | [], s => (true, s)
  | x :: xs, s => ((putPiece errs x s).1 && (putPieces errs xs (putPiece errs x s).2).1, (putPieces errs xs (putPiece errs x s).2).2)

/-- A write at the best-effort port: its response code (0 OK, 2 UE, 3 DECODE) and the state it leaves. -/
def bestWrite (a : Nat) (bs : List Byte) (errs : List LineErr) (s : State) : Nat × State :=
  if bestDenied s true a bs.length then (3, s)
  else
    let r := putPieces errs (linePieces a bs) s
    (if r.1 then 0 else 2, r.2)

/-- A read at the best-effort port: its response code, the bytes and the state it leaves. -/
def bestRead (a n : Nat) (errs : List LineErr) (s : State) : Nat × List Byte × State :=
  if bestDenied s false a n then (3, [], s)
  else
    let r := readRuns 3 [(a, n)] errs s
    if (runErrs [(a, n)] errs s).any (fun e => (decodeLine s e).isNone) then (2, [], r.1) else (0, dramGet r.2 a n, r.1)

/-! ## Panic (R397) -/

/-- The cistern port asserts or ends panic. -/
def panicCis (on : Bool) (s : State) : State :=
  evIf (on && !s.drc.panicCis) aDrcEvt 4 (setDrc s (fun d => { d with panicCis := on }))

/-- The tail port asserts or ends panic. -/
def panicTail (on : Bool) (s : State) : State :=
  evIf (on && !s.drc.panicTail) aDrcEvt 4 (setDrc s (fun d => { d with panicTail := on }))

/-- A real-time port holds panic. -/
def inPanic (s : State) : Bool := s.drc.panicCis || s.drc.panicTail

/-! ## Refresh (R402 to R404) -/

/-- The debt limit of a rate code (R402). -/
def debtLimit (rate : Nat) (panic : Bool) : Nat :=
  match rate, panic with
  | 0, true => 8
  | 0, false => 2
  | 1, true => 4
  | 1, false => 1
  | _, true => 2
  | _, false => 1

/-- The limit in force on a channel (R403). -/
def limitOf (s : State) (c : Nat) : Nat := debtLimit (smGet 0 s.drc.rate c) (inPanic s)

/-- What the banks of a channel owe above a limit. -/
def excess (s : State) (c lim : Nat) : List Nat := (List.range 16).map (fun b => smGet 0 s.drc.debt (c * 16 + b) - lim)

/-- The excess is issued as forced refreshes (R404). -/
def payExcess (c lim : Nat) (s : State) : State :=
  let total := (excess s c lim).foldl (· + ·) 0
  setDrc s (fun d => { d with
    debt := smModAll 0 d.debt ((List.range 16).map (c * 16 + ·)) (fun _ x => min x lim),
    forced := smMod 0 d.forced c (fun x => bump 16 x total) })

/-- MR4_POLL: the refresh rate of a channel; quadrupled and above the range are one rate, and each indication above the range is reported
(R402, R404, R411). -/
def execMr4Poll (c v : Nat) (s : State) : Host.Outcome State Fault Refusal :=
  let r := Config.mr4Rate v % 4
  let s1 := setDrc s (fun d => { d with rate := smSet 0 d.rate c r })
  let most := (excess s1 c (limitOf s1 c)).foldl max 0
  let s2 := if min (smGet 0 s.drc.rate c) 2 = min r 2 then s1
    else ledger 0x0F05 2 c r most (evRaise aDrcEvt 6 (payExcess c (limitOf s1 c) s1))
  .next (if r = 3 then ledger 0x0F07 5 c v 0 (evRaise aDrcEvt 7 s2) else s2)

/-- Banks of a channel that fall idle take the refreshes that they owe (R403). -/
def payIdle (c : Nat) (bs : List Nat) (s : State) : State :=
  setDrc s (fun d => { d with debt := smModAll 0 d.debt (bs.map (fun b => c * 16 + b)) (fun _ _ => 0) })

/-- REFRESH_ACCRUAL: a refresh accrues to a bank; an idle bank takes what it is owed, a debt at its limit is not exceeded (R402,
R403, R411). `idled`: the banks of the channel that have fallen idle since its last accrual. -/
def execRefreshAccrual (c b : Nat) (idle : Bool) (idled : List Nat) (s0 : State) : Host.Outcome State Fault Refusal :=
  let s := payIdle c (idled.filter (· < 16)) s0
  let k := c * 16 + b
  let debt := smGet 0 s.drc.debt k + 1
  .next (if s.drc.noDram then s
    else if idle then setDrc s (fun d => { d with debt := smSet 0 d.debt k 0, maxDebt := smMod 0 d.maxDebt c (fun x => max x debt) })
    else if limitOf s c < debt then
      let s1 := setDrc s (fun d => { d with forced := smMod 0 d.forced c (fun x => bump 16 x 1) })
      if inPanic s then ledgerLim 0x0F06 3 c 1 (fun n => (c, b, n)) (evRaise aDrcEvt 5 s1) else s1
    else setDrc s (fun d => { d with debt := smSet 0 d.debt k debt, maxDebt := smMod 0 d.maxDebt c (fun x => max x debt) }))

/-- `DRC_REF_c` as it reads (R410). -/
def drcRefWord (s : State) (c : Nat) : Word :=
  BitVec.ofNat 32 (smGet 0 s.drc.rate c % 4 * 2 ^ 24 + min (smGet 0 s.drc.maxDebt c) 15 * 2 ^ 20 + smGet 0 s.drc.forced c % 65536)

/-- DRC_REF_READ: the read clears MAXDEBT and FORCED (R410). -/
def drcRefReadOp (c : Nat) (s : State) : State :=
  setDrc { s with rdata := [drcRefWord s c] } (fun d => { d with maxDebt := smSet 0 d.maxDebt c 0, forced := smSet 0 d.forced c 0 })
def execDrcRefRead (c : Nat) (be : BitVec 4) (s : State) : Host.Outcome State Fault Refusal := .next (narrow be (drcRefReadOp c s))

/-! ## Training (R405 to R407) -/

/-- The smallest passing window of step 3 or 4, 0.30 UI, in femtoseconds (R405). -/
def eyeMin : Nat := 46875

/-- The narrower eye of a lane, and whether the lane passes (R405, R410). -/
def laneEye (x : LaneEye) : Nat := min x.rdEye x.wrEye
def laneGood (x : LaneEye) : Bool := decide (eyeMin ≤ laneEye x)

/-- EYE_W in whole picoseconds. -/
def laneWidth (x : LaneEye) : Nat := min (laneEye x / 1000) 255

/-- `DRC_TRAIN_l` of the lanes that a training came to: PASS, delays and eye width. -/
def storeLanes : Nat → List LaneEye → State → State
  | _, [], s => s
  | l, x :: xs, s => storeLanes (l + 1) xs
      (setReg s (aDrcTrain l) (BitVec.ofNat 32 ((if laneGood x then 2 ^ 31 else 0) + laneWidth x * 2 ^ 16 + x.wrDly % 256 * 2 ^ 8 + x.rdDly % 256)))

/-- Lanes that a training did not come to, or that a step failed on, have not passed it. -/
def failLanes : List Nat → State → State
  | [], s => s
  | l :: ls, s => failLanes ls (setField s (aDrcTrain l) 31 31 0)

/-- The smallest eye of a training and its lane. -/
def smallestEye : Nat → List LaneEye → Option (Nat × Nat)
  | _, [] => none
  | l, x :: xs => match smallestEye (l + 1) xs with
    | some e => if laneWidth x ≤ e.1 then some (laneWidth x, l) else some e
    | none => some (laneWidth x, l)

/-- `DRC_STAT.SIZE` of a fit: 1 or 2 where every channel has the one density and width of a supported fit, else none (R390). -/
def fitSize (fit : List (Nat × Nat)) : Option Nat :=
  if fit = List.replicate 8 (8, 16) then some 1 else if fit = List.replicate 8 (16, 16) then some 2 else none

/-- The first channel whose fit is not supported, or differs from channel 0's. -/
def fitFault (fit : List (Nat × Nat)) : Nat :=
  ((List.range 8).find? (fun c => decide (fit.getD c (0, 0) ∉ [(8, 16), (16, 16)]) || decide (fit.getD c (0, 0) ≠ fit.getD 0 (0, 0)))).getD 0

/-- The first lane whose eye is too narrow, with the step that found it: 3 the read eye, 4 the write eye (R405). -/
def eyeFault (lanes : List LaneEye) : Option (Nat × Nat × Nat) :=
  match lanes.findIdx? (fun x => decide (x.rdEye < eyeMin)) with
  | some l => some (l / 2, l % 2, 3)
  | none => (lanes.findIdx? (fun x => decide (x.wrEye < eyeMin))).map (fun l => (l / 2, l % 2, 4))

/-- The fault of the earlier step, the first of the two in one step. -/
def firstStep (a b : Option (Nat × Nat × Nat)) : Option (Nat × Nat × Nat) :=
  match a, b with
  | some x, some y => if x.2.2 ≤ y.2.2 then some x else some y
  | some x, none => some x
  | none, y => y

/-- What a training failed on first: channel, byte lane or 0xFF, step of R405. Fit detection is in step 1. -/
def trainFault (r : TrainResult) : Option (Nat × Nat × Nat) :=
  firstStep r.failed (firstStep (if (fitSize r.fit).isNone then some (fitFault r.fit, 0xFF, 1) else none) (eyeFault (r.lanes.take 16)))

/-- No-DRAM mode begins (R406, R411). -/
def enterNoDram (f : Nat × Nat × Nat) (s : State) : State :=
  ledger 0x0F01 5 f.1 f.2.1 f.2.2
    (evRaise aDrcEvt 1 (panicTail false (panicCis false (setDrc s (fun d => { d with ready := false, noDram := true, size := 0 })))))

/-- The lane that a training failed on. -/
def faultLane (r : TrainResult) : Option Nat := (trainFault r).bind (fun f => if f.2.1 < 2 then some (2 * f.1 + f.2.1) else none)

/-- The lanes' registers after a training. -/
def trainLanes (r : TrainResult) (s : State) : State :=
  failLanes ((List.range 16).filter (fun l => decide (r.lanes.length ≤ l) || decide (faultLane r = some l))) (storeLanes 0 (r.lanes.take 16) s)

/-- DRAM_TRAIN_DONE: success or no-DRAM mode (R390, R405 to R407, R411). Training, and retraining in no-DRAM mode, leave zeros. -/
def execDramTrainDone (r : TrainResult) (s : State) : Host.Outcome State Fault Refusal :=
  let keep := s.drc.retraining && !s.drc.noDram
  let s0 := trainLanes r (setField (setDrc s (fun d => { d with training := false, retraining := false })) aDrcCtl 0 0 0)
  .next (match trainFault r with
    | none =>
      let e := (smallestEye 0 (r.lanes.take 16)).getD (0, 0)
      let size := (fitSize r.fit).getD 0
      ledger 0x0F02 1 e.1 e.2 size (evRaise aDrcEvt 0 (setDrc s0 (fun d => { d with
        ready := true, noDram := false, size := size, mem := if keep then d.mem else [], lost := if keep then d.lost else [] })))
    | some f => if s.drc.noDram then s0 else enterNoDram f s0)

/-- A write to `DRC_CTL` (R407, R410): RETRAIN outside STOPPED discards the write. -/
def drcCtlWrite (v : Word) (s : State) : State :=
  if !writeLegal [fld 1 1 .rw 1, fld 0 0 .w1s 0] v then s
  else if Word.bit v 0 && !stopped s then s
  else
    let s1 := setField s aDrcCtl 1 1 (Word.bits v 1 1)
    if Word.bit v 0 && (s.drc.ready || s.drc.noDram) && !s.drc.retraining then
      setField (setDrc s1 (fun d => { d with retraining := true })) aDrcCtl 0 0 1
    else s1
def execDramRetrain (v : Word) (s : State) : Host.Outcome State Fault Refusal := .next (drcCtlWrite v s)

/-- DRAM_SELF_REFRESH_EXIT: after a warm reset the contents are in use again (R486). -/
def execDramSelfRefreshExit (s : State) : Host.Outcome State Fault Refusal :=
  .next (if s.drc.selfRef then setDrc s (fun d => { d with selfRef := false, ready := true }) else s)

/-! ## Scrubbing (R395, R409) -/

/-- SCRUB_READ: a line of the data address space is read, with these symbols in error; a corrected line is written back (R408, R409). The
read and its rewrite are one step, so that no other write comes between them (R395). -/
def execScrubRead (line : Nat) (symbols : List (Nat × Byte)) (s : State) : Host.Outcome State Fault Refusal :=
  let e : LineErr := { line := line, symbols := symbols }
  .next (if !Word.bit (getReg s aDrcCtl) 1 || !s.drc.ready || decide (dataEnd s.drc.size ≤ line * 64) then s
    else match decodeLine s e with
      | some (bs, n) => if n = 0 then s else dramPut (line * 64) bs (lineRead 4 (line * 64) (.corrected n) s)
      | none => lineRead 4 (line * 64) .uncorrectable s)

/-- `DRC_STAT` as it reads (R410). -/
def drcStatWord (s : State) : Word :=
  let b := fun (x : Bool) (k : Nat) => if x then 2 ^ k else 0
  BitVec.ofNat 32 (b (s.drc.training || s.drc.retraining) 31 + b s.drc.noDram 30 + b s.drc.ready 29 + s.drc.size % 4 * 2 ^ 24 +
    b s.drc.panicTail 17 + b s.drc.panicCis 16)

end Sys2Proof.Machine
end

