-- ==== Sys2Proof/Machine/Sram.lean ====
section
/-! DEFINITION. Corrected and uncorrectable lines of the large on-die SRAMs (R8, R471, R477, R479). -/

namespace Sys2Proof.Machine

/-- A line of an array was found uncorrectable: the count, the held record, the event and the ledger record (R471). -/
def sramUe (array line : Nat) (s : State) : State :=
  let s1 := setReg s aSramUe (BitVec.ofNat 32 (bump 32 (getReg s aSramUe).toNat 1))
  let s2 := if Word.bit (getReg s1 aSramInfo) 31 then s1
    else setReg (setReg s1 aSramInfo (BitVec.ofNat 32 (2 ^ 31 + array % 256 * 2 ^ 16 + 0xFF00))) aSramAddr (BitVec.ofNat 32 line)
  ledgerLim 0x0005 4 array 1 (fun c => (array, line, c)) (evRaise aTopEvt 2 s2)

/-- An error of an array was corrected: the counts, the held record, the event, and each 256th time the ledger record (R471, R479). The
data are as if no error had been (R8). -/
def sramCe (x : CorrectedLine) (s : State) : State :=
  let n := smGet 0 s.aon.sramCe x.array + 1
  let s1 := { setReg s aSramCe (BitVec.ofNat 32 (bump 32 (getReg s aSramCe).toNat 1)) with aon := { s.aon with sramCe := smSet 0 s.aon.sramCe x.array n } }
  let s2 := if Word.bit (getReg s1 aSramInfo) 31 then s1
    else setReg (setReg s1 aSramInfo (BitVec.ofNat 32 (2 ^ 31 + x.array % 256 * 2 ^ 16 + x.symbols % 256 * 256))) aSramAddr
      (BitVec.ofNat 32 x.line)
  let s3 := evRaise aTopEvt 3 s2
  if n % 256 = 0 then ledger 0x0006 2 x.array (n % 2 ^ 32) 0 s3 else s3

/-- Corrected lines, in order. -/
def sramCes : List CorrectedLine → State → State
  | [], s => s
  | x :: xs, s => sramCes xs (sramCe x s)

/-- Lines of one array, in order. -/
def sramUes (array : Nat) : List Nat → State → State
  | [], s => s
  | l :: ls, s => sramUes array ls (sramUe array l s)

end Sys2Proof.Machine
end

