-- ==== Sys2Proof/Machine/Window.lean ====
section
/-! DEFINITION. The window store, the conditioning of an object, the cistern and coarse transitions (R40 to R42, R97 to R106,
R118, R121, R122). -/

namespace Sys2Proof.Machine

/-- Changes the pair engine. -/
def setPair (s : State) (f : Pair → Pair) : State := { s with pair := f s.pair }

/-- Adds to a counter of an object's PAIR_STATUS record (R126). -/
def pairCount (o off n : Nat) (s : State) : State := setPair s (fun p => { p with cntObj := bumpAt p.cntObj (o * 64 + off) n })

/-- Adds to a counter of an output's PAIR_STATUS record (R126). -/
def accCount (o off n : Nat) (s : State) : State := setPair s (fun p => { p with cntOut := bumpAt p.cntOut (o * 16 + off) n })

/-! ## Lines of the window store (R97, R99) -/

/-- The window slot of a block: object and ring position. -/
def winSlot (o : Nat) (b : Int) : Nat := o * 1024 + (b % 1024).toNat

/-- The lines that a slot's mantissas, exponent and check lie in. -/
def winLines (w : Nat) : List Nat :=
  let q := w % 4
  (List.range ((48 * q + 47) / 64 + 1 - 48 * q / 64)).map (fun i => w / 4 * 3 + 48 * q / 64 + i) ++ [786432 + w / 128, 794624 + w / 16]

/-- The slots that share a line. -/
def lineSlots (l : Nat) : List Nat :=
  if l < 786432 then [l / 3 * 4 + l % 3, l / 3 * 4 + l % 3 + 1]
  else if l < 794624 then (List.range 128).map ((l - 786432) * 128 + ·)
  else (List.range 16).map ((l - 794624) * 16 + ·)

/-- A line is found uncorrectable; it stays so until every slot that shares it has been rewritten (R99, R471). -/
def markWin (l : Nat) (s : State) : State :=
  let s1 := if l < 786432 then sramUe 1 l s else sramUe 2 (l - 786432) s
  setPair s1 (fun p => { p with winBad := if (smFind p.winBad l).isSome then p.winBad else smPut p.winBad l (lineSlots l) })

/-- Lines in order. -/
def markWins : List Nat → State → State
  | [], s => s
  | l :: ls, s => markWins ls (markWin l s)

/-- A slot has been rewritten. -/
def repairWin (w : Nat) (m : SMap (List Nat)) : SMap (List Nat) :=
  (winLines w).foldl (fun m l => match smFind m l with
    | some left =>
      let rest := left.filter (fun x => decide (x ≠ w))
      if rest.isEmpty then smDrop m l else smPut m l rest
    | none => m) m

/-- Window block `b` of an object is written (R95, R97). -/
def putWin (o b : Nat) (x : Blk) (s : State) : State :=
  setPair s (fun p => { p with win := smSet {} p.win (winSlot o b) x, winBad := repairWin (winSlot o b) p.winBad })

/-- A line is known uncorrectable. -/
def winLineBad (s : State) (l : Nat) : Bool := (smFind s.pair.winBad l).isSome

/-- The lines that sample `j` of a slot is read from. -/
def sampleLines (w j : Nat) : List Nat :=
  let a := 48 * (w % 4) + 3 * j
  [w / 4 * 3 + a / 64, w / 4 * 3 + (a + 2) / 64, 786432 + w / 128]

/-- The window sample w(u) of an object (R97), zero where its line is uncorrectable (R99). -/
def winSample (s : State) (o : Nat) (u : Int) : Int :=
  let w := winSlot o (u / 16)
  let j := (u % 16).toNat
  if (sampleLines w j).any (winLineBad s) then 0 else (smGet {} s.pair.win w).at j

/-- The sample lies in an uncorrectable line. -/
def winBadAt (s : State) (o : Nat) (u : Int) : Bool := (sampleLines (winSlot o (u / 16)) (u % 16).toNat).any (winLineBad s)

/-- WIN_UE of an object, once per tranche (R99, R130); `b` is the window block. -/
def countWinUe (o : Nat) (b : Int) (s : State) : State :=
  if o ∈ s.pair.ueSeen then s
  else
    let s1 := pairCount o 12 1 (setPair s (fun p => { p with ueSeen := o :: p.ueSeen }))
    ledgerLim 0x0A02 4 o 1 (fun c => (o, s32 b, c)) (evRaise aPairEvt 1 s1)

/-! ## Coarse delay (R101, R121) -/

/-- The coarse delay under which window block `b` is written (R103, R121). -/
def blockCoarse (s : State) (o b : Nat) : Nat := coarseIn s (objAt s o) (b - 2)

/-! ## COND (R40 to R42, R168) -/

/-- What enters a sample's conditioning as x1, and its saturation (R38, R40). -/
def admitSmp (trim : Int) (x : ASmp) : Int × Nat :=
  if x.fab then (satS 32 x.v, clips 32 x.v)
  else
    let p := rnd 28 (x.v * 16 * trim)
    (satS 32 p, clips 32 p)

/-- The samples of an object's tranche `k`; zeros where it closed none. -/
def closedOf (ob : Obj) (k : Nat) : List ASmp :=
  match ob.closed with
  | some (c, xs) => if c = k then xs else List.replicate 16 { v := 0, fab := false }
  | none => List.replicate 16 { v := 0, fab := false }

/-- Conditions tranche `k` of an object and stores it: the stored block, the staging of the cistern, the window block of an
object in bypass (R40 to R42, R101, R103). -/
def condOp (k o : Nat) (s : State) : State :=
  let ob := objAt s o
  let xs := (closedOf ob k).map (admitSmp ob.trim)
  let r := bqChain (ob.bq ++ (if ob.prefilt then s.prefilter else [])) ob.bz (xs.map Prod.fst)
  let b := storeBlk r.1
  let nt := (xs.map Prod.snd).foldl (· + ·) 0
  let s1 := setObj s o { ob with bz := r.2.1, stored := some (k, b) }
  let s2 := evIf (decide (0 < nt + r.2.2)) aHgtEvt 3 (objCount 36 r.2.2 o (objCount 32 nt o s1))
  let s3 := if s2.drc.noDram then s2 else setPair s2 (fun p => { p with stg := smSet {} p.stg (o * 32 + k % 32) b })
  if blockCoarse s o k = 0 then putWin o k b s3 else s3

/-- The image under which window blocks are written in P_k: block k is written in every period until the sequencers halt, after a stop's
last data tranche too, since that tranche reads into the next block (R95, R98, R190). -/
def writeImg (s : State) (k : Nat) : Option Img := if issuing s && decide (s.sch.startN ≤ k) then passImg s k else none

/-- COND: the headgate's programme of the period (R168, R175). -/
def execCond (o : Nat) (s : State) : Host.Outcome State Fault Refusal :=
  .next (match writeImg s s.clk.tidx with
    | some _ => condOp s.clk.tidx o s
    | none => s)

/-! ## Cistern groups (R102, R103) -/

/-- A cistern group of 16 tranches, 896 bytes (R102). -/
def groupBytes (bs : List Blk) : List Byte :=
  bs.flatMap (fun b => b.m.flatMap (leInt 3)) ++
  (List.range 8).map (fun i => BitVec.ofNat 8 ((bs.getD (2 * i) {}).e % 16 + (bs.getD (2 * i + 1) {}).e % 16 * 16)) ++
  bs.flatMap (fun b => leBytes 4 b.chk) ++ zeros 56

/-- The tranches of a group as its bytes give them. -/
def groupBlks (g : List Byte) : List Blk :=
  (List.range 16).map (fun t =>
    { m := (List.range 16).map (fun j => signed 24 (field g (48 * t + 3 * j) 3)),
      e := field g (768 + t / 2) 1 / (if t % 2 = 1 then 16 else 1) % 16, chk := field g (776 + 4 * t) 4 })

/-- An object's staged tranche (R103). -/
def stagedBlk (s : State) (o t : Nat) : Blk := smGet {} s.pair.stg (o * 32 + t % 32)

/-- Group `g` of every object is written to DRAM (R103). -/
def writeGroups (g : Nat) : List Nat → State → State
  | [], s => s
  | o :: os, s => writeGroups g os (dramPut (cisAddr o g) (groupBytes ((List.range 16).map (fun i => stagedBlk s o (16 * g + i)))) s)

/-! ## Fetches (R104) -/

/-- The source tranches of window block `b` under a coarse delay (R101). -/
def sourcesOf (c b : Nat) : List Int :=
  let t := (16 * (b : Int) - c) / 16
  if c % 16 = 0 then [t] else [t, t + 1]

/-- The tranche lies before the start: it is zero (R190). -/
def preStart (s : State) (t : Int) : Bool := decide (t < s.sch.startN)

/-- The groups of a block's source tranches that lie in the run. -/
def groupsOf (s : State) (c b : Nat) : List Nat :=
  ((sourcesOf c b).filter (fun t => !preStart s t)).map (fun t => (t / 16).toNat) |>.eraseDups

/-- The coarse delay that a keyed OBJ_COARSE gives an object. -/
def coarseOfAct (o : Nat) : KeyedAct → Option Nat
  | .objCoarse first count c _ => if first ≤ o ∧ o < first + count then some c else none
  | _ => none

/-- The coarse delay that will be in force at `n`, pending changes among it. -/
def coarseGov (s : State) (o n : Nat) : Nat :=
  ((governing s n).foldl (fun x k => match coarseOfAct o k.act with
    | some c => some c
    | none => x) none).getD (coarseAt (objAt s o) n)

/-- The coarse delay under which block `b` will be written, pending changes among it. -/
def aheadCoarse (s : State) (o b : Nat) : Nat := if s.drc.noDram then 0 else coarseGov s o (b - 2)

/-- The groups that the window blocks of an object in the next 16 periods need (R104). -/
def groupsAhead (s : State) (o k : Nat) : List Nat :=
  ((List.range 16).flatMap (fun i =>
    let c := aheadCoarse s o (k + 1 + i)
    if c = 0 then [] else groupsOf s c (k + 1 + i))).eraseDups

/-- Fetches begin in P_k for the groups that the blocks up to k + 16 need and that are not held: a group is fetched 16 periods before
the first block that needs it, or, where a change of coarse delay is accepted later than that, at the next boundary (R104). -/
def issueFor (k o : Nat) (s : State) : State :=
  let had := (s.pair.fetch.filter (fun f => decide (f.obj = o))).map (fun f => f.grp)
  let new := (groupsAhead s o k).filter (fun g => !decide (g ∈ had))
  setPair s (fun p => { p with
    fetch := p.fetch ++ new.map (fun g => { obj := o, grp := g, issued := k, data := none, panic := false }) })

/-- Fetches whose group no later block needs leave the landing buffer. -/
def retireFetches (k : Nat) (s : State) : State :=
  setPair s (fun p => { p with fetch := p.fetch.filter (fun f =>
    decide (f.grp ∈ groupsOf s (aheadCoarse s f.obj k) k) || decide (f.grp ∈ groupsAhead s f.obj k)) })

/-- The cistern port holds panic while a fetch that asserted it is outstanding (R397). -/
def settlePanic (s : State) : State := panicCis (s.pair.fetch.any (fun f => f.panic && f.data.isNone)) s

/-- CISTERN_PANIC: a fetch outstanding for more than 2 periods asserts panic (R104, R129). -/
def execCisternPanic (o g : Nat) (s : State) : Host.Outcome State Fault Refusal :=
  .next (if s.pair.fetch.any (fun f => decide (f.obj = o) && decide (f.grp = g) && f.data.isNone) then
      settlePanic (evRaise aCisEvt 3 (setPair s (fun p => { p with
        fetch := p.fetch.map (fun f => if f.obj = o ∧ f.grp = g then { f with panic := true } else f) })))
    else s)

/-- `CIS_STAT.MAXAGE` keeps the longest fetch (R129). -/
def noteAge (age : Nat) (s : State) : State :=
  setField s aCisStat 15 0 (max (Word.bits (getReg s aCisStat) 15 0) (min age 65535))

/-- CISTERN_FETCH_DONE: a group arrives; `age` in units of 256 core cycles, `errs` the lines read with errors. An uncorrectable line is counted
(R104, R106, R408). -/
def execCisternFetchDone (o g age : Nat) (errs : List LineErr) (s : State) : Host.Outcome State Fault Refusal :=
  .next (if s.pair.fetch.any (fun f => decide (f.obj = o) && decide (f.grp = g) && f.data.isNone) then
      let a := cisAddr o g
      let r := readRuns 0 [(a, 896)] errs s
      let ue := dramLost r.1 a 896
      let data := if ue then none else some (groupBlks (dramGet r.2 a 896))
      let s2 := setPair (noteAge age r.1) (fun p => { p with
        fetch := p.fetch.map (fun f => if f.obj = o ∧ f.grp = g ∧ f.data.isNone then { f with data := some data } else f) })
      let s3 := settlePanic s2
      if ue then ledgerLim 0x0B02 4 o 1 (fun c => (o, g, c)) (evRaise aCisEvt 1 (pairCount o 24 1 s3)) else s3
    else s)

/-- CIS_STAT_READ: the read clears MAXAGE (R129). TRANS counts the transitions in progress in the data tranche being rendered. -/
def cisStatWord (s : State) : Word :=
  let n := s.clk.tidx - 1
  let t := ((s.obj.map (fun e => (gliding e.2 n).length)).foldl (· + ·) 0)
  Word.put (getReg s aCisStat) 20 16 t
def cisStatReadOp (s : State) : State := setField { s with rdata := [cisStatWord s] } aCisStat 15 0 0
def execCisStatRead (be : BitVec 4) (s : State) : Host.Outcome State Fault Refusal := .next (narrow be (cisStatReadOp s))

/-! ## Window blocks from the cistern (R105, R106, R121) -/

/-- A source tranche as the cistern engine has it: 0 good with its block, 1 not arrived, 2 met an uncorrectable line. -/
def fetchedTr (s : State) (o : Nat) (t : Int) : Nat × Blk :=
  if preStart s t then (0, {})
  else match s.pair.fetch.find? (fun f => decide (f.obj = o) && decide ((f.grp : Int) = t / 16)) with
    | some f => match f.data with
      | some (some bs) => (0, bs.getD (t % 16).toNat {})
      | some none => (2, {})
      | none => (1, {})
    | none => (1, {})

/-- The same for a refill, which reads DRAM, or the staging buffer for recent tranches (R121). -/
def refillTr (s : State) (o : Nat) (t : Int) : Nat × Blk :=
  if preStart s t then (0, {})
  else if (s.clk.tidx : Int) - 32 < t then (0, stagedBlk s o t.toNat)
  else
    let g := (t / 16).toNat
    if dramLost s (cisAddr o g) 896 then (2, {})
    else (0, (groupBlks (dramGet s (cisAddr o g) 896)).getD (t % 16).toNat {})

/-- The 16 samples of block `b` from its source tranches: a value belongs to the tranche of its own time index (R105). -/
def joinSources (c b : Nat) (src : Int → Nat × Blk) : List Int :=
  positions.map (fun (j : Nat) =>
    let u : Int := 16 * (b : Int) + (j : Int) - c
    let x := src (u / 16)
    if x.1 = 0 then x.2.at (u % 16).toNat else 0)

/-- Window block `b` of an object under coarse delay `c` is assembled and written; late samples are zero, an uncorrectable
source or a bad source check gives the zero block (R104 to R106). -/
def supplyBlock (c b o : Nat) (src : Int → Nat × Blk) (s : State) : State :=
  let ts := sourcesOf c b
  let bad := ts.find? (fun t => decide ((src t).1 = 0) && !(src t).2.good)
  let ue := ts.any (fun t => decide ((src t).1 = 2))
  let late := ts.find? (fun t => decide ((src t).1 = 1))
  let x : Blk := match ts with
    | [t] => if (src t).1 = 0 then (src t).2 else {}
    | _ => storeBlk (joinSources c b src)
  let s1 := putWin o b (if ue || bad.isSome then {} else x) s
  let s2 := match late with
    | some t => ledgerLim 0x0B01 4 o 1 (fun n => (o, (t / 16).toNat, n)) (evRaise aCisEvt 0 (pairCount o 20 1 s1))
    | none => s1
  match bad with
  | some t => ledgerLim 0x0B03 4 o 1 (fun n => (o, t.toNat % 2 ^ 32, n)) (evRaise aCisEvt 2 (pairCount o 28 1 s2))
  | none => s2

/-- The cistern-supplied block of an object in the write phase of P_k (R95, R101). -/
def supplyObj (k o : Nat) (s : State) : State :=
  let c := blockCoarse s o k
  if c = 0 then s else supplyBlock c k o (fetchedTr s o) s

/-- One refill block; an uncorrectable source counts CIS_UE (R106, R121). -/
def refillBlock (c b o : Nat) (s : State) : State :=
  let ue := (sourcesOf c b).find? (fun t => decide ((refillTr s o t).1 = 2))
  let s1 := supplyBlock c b o (refillTr s o) s
  match ue with
  | some t => ledgerLim 0x0B02 4 o 1 (fun n => (o, (t / 16).toNat, n)) (evRaise aCisEvt 1 (pairCount o 24 1
      (readRuns 0 [(cisAddr o (t / 16).toNat, 896)] [] s1).1))
  | none => s1

/-- The refill blocks of a transition in the write phase of P_k: 64 per period, ascending, up to block N + 1 (R121). -/
def refillList (n k : Nat) : List Nat :=
  if n + 2 ≤ k ∧ k ≤ n + 17 then
    ((List.range 64).map (fun (i : Nat) => (n : Int) - 1005 + 64 * ((k : Int) - n - 2) + (i : Int))).filterMap
      (fun (b : Int) => if 0 ≤ b ∧ b ≤ n + 1 then some (Int.toNat b) else none)
  else []

/-- Lines of DRAM that the refills to come read with errors (R408): a corrected one is reported, an uncorrectable one is known to be lost
when a refill meets it. -/
def refillErrs : List LineErr → State → State
  | [], s => s
  | e :: es, s => refillErrs es (match lineOutcome s e with
    | .uncorrectable => setDrc s (fun d => { d with lost := if e.line ∈ d.lost then d.lost else d.lost ++ [e.line] })
    | l => lineRead 0 (64 * e.line) l s)

/-- The refills of an object. -/
def refillObj (k o : Nat) (s : State) : State :=
  ((objAt s o).trans.filter Trans.glide).foldl (fun s t => (refillList t.n k).foldl (fun s b => refillBlock (if s.drc.noDram then 0 else t.c) b o s) s) s

/-- A transition ends at H_(N+19): COARSE_DONE, record 0x0B04 (R121, R130); a change without one ends silently. -/
def endTrans (k o : Nat) (s : State) : State :=
  let ob := objAt s o
  let done := ob.trans.filter (fun t => decide (t.n + 19 ≤ k))
  match done.getLast? with
  | none => s
  | some l =>
    let s1 := setObj s o { ob with coarse := l.c, trans := ob.trans.filter (fun t => decide (k < t.n + 19)) }
    (done.filter Trans.glide).foldl (fun s t => ledger 0x0B04 1 o t.c t.n (evRaise aPairEvt 6 s)) s1

/-- Every object. -/
def allObjects : List Nat := List.range 1024

/-- The objects that have, or are about to have, a coarse delay. -/
def cisternObjects (s : State) : List Nat := allObjects.filter (fun o =>
  decide ((objAt s o).coarse ≠ 0) || !(objAt s o).trans.isEmpty || s.keyed.any (fun k => (coarseOfAct o k.act).isSome))

/-- The cistern's groups and window blocks at H_k: a finished group goes to DRAM, fetches are issued, the window blocks of P_k and
the refills are written. -/
def cisternTurn (k : Nat) (os : List Nat) (s : State) : State :=
  match writeImg s k with
  | none => s
  | some _ =>
    let s1 := if k % 16 = 0 ∧ 16 ≤ k ∧ s.sch.startN < k ∧ !s.drc.noDram then writeGroups (k / 16 - 1) os s else s
    let s2 := if s1.drc.noDram then settlePanic (setPair s1 (fun p => { p with fetch := [] }))
      else eachObj (issueFor k) (cisternObjects s1) (settlePanic (retireFetches k s1))
    eachObj (refillObj k) os (eachObj (supplyObj k) os s2)

/-- The cistern at H_k (R95, R103 to R106, R121): transitions end, then its groups and window blocks. In no-DRAM mode only the
refills and ends of transitions remain. -/
def cisternBoundary (k : Nat) (s : State) : State := cisternTurn k allObjects (eachObj (endTrans k) allObjects s)

/-! ## OBJ_COARSE (R121, R122, R124, R125) -/

/-- Does a keyed OBJ_COARSE make a transition: an image governed its N at acceptance (R122, R524) and governs it still? -/
def glides (s : State) (k : Keyed) : Bool :=
  match k.act with
  | .objCoarse _ _ _ glide => glide && (govImg s k.n).isSome
  | _ => false

/-- The N of the pending changes of an object's coarse delay that a governing image makes transitions; one that gives the value in
force changes nothing (R122). `x` is that value before them. -/
def pendingTrans (s : State) (o : Nat) : Nat → List Keyed → List Nat
  | _, [] => []
  | x, k :: ks => match coarseOfAct o k.act with
    | some c => if c = x then pendingTrans s o x ks else (if glides s k then [k.n] else []) ++ pendingTrans s o c ks
    | none => pendingTrans s o x ks

/-- The N of every transition of an object, accepted or in progress. -/
def transNs (s : State) (o : Nat) : List Nat :=
  ((objAt s o).trans.filter Trans.glide).map Trans.n ++ pendingTrans s o ((objAt s o).trans.foldl (fun _ t => t.c) (objAt s o).coarse) (s.keyed.mergeSort keyedBefore)

/-- Transitions in progress in data tranche `t`, over every object. -/
def transAt (s : State) (t : Nat) : Nat :=
  (allObjects.map (fun o => ((transNs s o).filter (fun n => decide (n ≤ t) && decide (t ≤ n + 17))).length)).foldl (· + ·) 0

/-- OBJ_COARSE. -/
def execObjCoarse (d : Desc) (s : State) : Host.Outcome State Fault Refusal :=
  let first := pl d 10 2
  let count := pl d 12 2
  let c := pl d 16 4
  .next (checked d [(0, 9), (10, 4), (16, 4)] [(8, decide (pl d 8 1 ≤ 1)), (10, decide (first ≤ 1023)), (12, inRange first count 1024),
      (16, decide (c = 0) || (decide (1024 ≤ c) && decide (c ≤ 524287)))] s
    (let n := keyN d (mTranche s)
     let os := (span first count).filter (fun o => decide (coarseGov s o n ≠ c))
     let win := (List.range 18).map (n + ·)
     let tooMany := fun t => match govImg s t with
       | some i => decide (i.coarsePar < transAt s t + os.length)
       | none => false
     if c ≠ 0 ∧ s.drc.noDram then finish d stNotPermitted s
     else if pastCutoff s n then finish d stLate s
     else if os.isEmpty then finish d stOk s
     else if (govImg s n).isNone then armKeyed n (some d.tok) (.objCoarse first count c false) s
     else if os.any (fun o => (transNs s o).any (fun m => decide (m ≤ n + 17) && decide (n ≤ m + 17))) then finish d stNotPermitted s
     else if ((armedShadow s).map Prod.fst).any (fun m => decide (m ∈ win) && tooMany m) then finish d stNotPermitted s
     else if win.any tooMany then finish d stNoResource s
     else armKeyed n (some d.tok) (.objCoarse first count c true) s))

/-- OBJ_COARSE takes effect at the cut-off of `n`: a transition where an image governs `n` (at acceptance and still), else C' from
data tranche N on, which leaves a transition in progress alone (R122). -/
def applyCoarse (n first count c : Nat) (glide : Bool) (s : State) : State :=
  let run := glide && (govImg s n).isSome
  eachObj (fun o t =>
    let ob := objAt t o
    if coarseAt ob n = c then t
    else setObj t o { ob with trans := ob.trans ++ [{ n := n, c := c, glide := run }] }) (span first count) s

end Sys2Proof.Machine
end

