-- ==== Sys2Proof/Machine/Pair.lean ====
section
/-! DEFINITION. The pair engine: kernels, pair-samples, slots, the audit lane, tag verification, accumulator banks, and the
descriptors of kernels, sinc table and status (R96, R99, R100, R107 to R116, R119 to R121, R124 to R126). -/

namespace Sys2Proof.Machine

/-! ## Kernels (R109 to R111) -/

/-- A quotient rounded under R6. -/
def rndQ (num den : Int) : Int := (2 * num + den) / (2 * den)

/-- A row of the Lagrange ROM (R111). -/
def lagrangeRow (r : Nat) : List Int :=
  let x : Int := r
  let h : Int := 1024
  [0, 0, rndQ (-(x * (x - h) * (x - 2 * h))) 24576, rndQ ((x + h) * (x - h) * (x - 2 * h)) 8192,
   rndQ (-((x + h) * x * (x - 2 * h))) 8192, rndQ ((x + h) * x * (x - h)) 24576, 0, 0]

/-- A row of the linear ROM (R111). -/
def linearRow (r : Nat) : List Int := [0, 0, 0, 262144 - 256 * (r : Int), 256 * r, 0, 0, 0]

/-- A row of the sinc ROM: rows 0 and 1,024 as R111 gives them, the others from the part's ROM. -/
def sincRomRow (r : Nat) : List Int :=
  if r = 0 then [0, 0, 0, 262144, 0, 0, 0, 0]
  else if r = 1024 then [0, 0, 0, 0, 262144, 0, 0, 0]
  else (List.range 8).map (fun k => (Config.sincRom r k).toInt)

/-- A row of a sinc bank. -/
def SincBank.row (b : SincBank) (r : Nat) : List Int :=
  if b.rom then sincRomRow r else (List.range 8).map (fun k => smGet 0 b.tab (r * 8 + k))

/-- The active sinc bank (R72). -/
def sincActive (s : State) : SincBank := if s.pair.sincCur then s.pair.sincB else s.pair.sincA

/-- The sinc bank that the furrows read: a switch keyed to N makes a bank active at the cut-off of N, and reaches the pair-samples with
data tranche N, which the furrows issue from H_(N+1) on (R72, R95, R115). -/
def sincRead (s : State) : SincBank := if s.pair.sincUse then s.pair.sincB else s.pair.sincA

/-- A sinc bank switch keyed to `n` takes effect at its cut-off. -/
def switchSinc (n : Nat) (s : State) : State := setPair s (fun p => { p with sincCur := !p.sincCur, sincSw := p.sincSw ++ [n] })

/-- At H_k the furrows turn to the bank of data tranche k - 1. -/
def useSinc (k : Nat) (s : State) : State :=
  setPair s (fun p => if (p.sincSw.filter (fun n => decide (n + 1 ≤ k))).length % 2 = 1 then
      { p with sincUse := !p.sincUse, sincSw := p.sincSw.filter (fun n => decide (k < n + 1)) }
    else { p with sincSw := p.sincSw.filter (fun n => decide (k < n + 1)) })

/-- A row of a kernel's table. -/
def kernelRow (b : SincBank) (code r : Nat) : List Int :=
  match code with
  | 0 => b.row r
  | 1 => lagrangeRow r
  | _ => linearRow r

/-- The eight coefficients at a fraction of a sample (R110). -/
def coefs (b : SincBank) (code mu : Nat) : List Int :=
  if code = 3 then (if mu < 131072 then [0, 0, 0, 262144, 0, 0, 0, 0] else [0, 0, 0, 0, 262144, 0, 0, 0])
  else
    let lo := kernelRow b code (mu / 256)
    let hi := kernelRow b code (mu / 256 + 1)
    List.zipWith (fun x y => x + rnd 8 ((y - x) * ((mu % 256 : Nat) : Int))) lo hi

/-- The window position and fraction that pair-sample `j` reads at delay `d` (R109). -/
def readPos (n j d : Nat) : Int × Nat :=
  let p : Int := 16 * (n : Int) + j + 4 - d / 262144
  if d % 262144 = 0 then (p, 0) else (p - 1, 262144 - d % 262144)

/-- The interpolated value before its saturation (R112). -/
def interpolate (s : State) (o n j d : Nat) : Int :=
  let p := readPos n j d
  let c := coefs (sincRead s) (objAt s o).kernel p.2
  rnd 18 (dot c ((List.range 8).map (fun (k : Nat) => winSample s o (p.1 - 3 + (k : Int)))))

/-- The first of a pair-sample's tap positions that lies in an uncorrectable line. -/
def badTap (s : State) (o n j d : Nat) : Option Int :=
  ((List.range 8).map (fun (k : Nat) => (readPos n j d).1 - 3 + (k : Int))).find? (winBadAt s o)

/-! ## Slots (R107, R108, R113, R114, R121) -/

/-- A ramp's value at pair-sample `j` (R108). -/
def rampAt (a b : Int) (j : Nat) : Int := a + rnd 4 ((b - a) * ((j : Int) + 1))

/-- The targets of a slot in a tranche (R107): whether delay and air start at them, delay, air, gain. -/
structure Target where
  jump : Bool
  d : Nat
  a : Nat
  g : Int
  deriving DecidableEq, Repr

/-- Tranches since the transition of an object that data tranche `n` lies in (R121). -/
def transition (ob : Obj) (n : Nat) : Option Nat := (gliding ob n).head?.map (fun t => n - t.n)

/-- The targets of a slot (R107, R121). A HOLD_D record carries no values, so it holds in N + 17 too. -/
def targetOfSlot (x : SlotSt) (r : PRec) (tr : Option Nat) : Target :=
  let gain := if tr.any (fun i => decide (i < 17)) then 0 else r.gain
  if x.d = 0 then { jump := true, d := r.fdelay, a := r.air, g := gain }
  else if tr.any (fun i => decide (i < 17)) || r.hold then { jump := false, d := x.d, a := x.a, g := gain }
  else { jump := tr.isSome || r.djump, d := r.fdelay, a := r.air, g := gain }

/-- Delay at pair-sample `j`. -/
def delayAt (x : SlotSt) (t : Target) (j : Nat) : Nat := if t.jump then t.d else (rampAt x.d t.d j).toNat

/-- Air coefficient at pair-sample `j`. -/
def airAt (x : SlotSt) (t : Target) (j : Nat) : Int := if t.jump then t.a else rampAt x.a t.a j

/-- The pair-samples of a slot from a position on: contributions, last filter output, interpolation saturations (R112 to R114). -/
def pairSamples (s : State) (o n : Nat) (x : SlotSt) (t : Target) : List Nat → Int → List Int × Int × Nat
  | [], y => ([], y, 0)
  | j :: js, y =>
    let v := interpolate s o n j (delayAt x t j)
    let xi := satS 32 v
    let y0 := if t.jump && decide (j = 0) then xi else y
    let y1 := xi + rnd 16 (airAt x t j * (y0 - xi))
    let rest := pairSamples s o n x t js y1
    (rnd 23 (y1 * rampAt x.g t.g j) :: rest.1, rest.2.1, clips 32 v + rest.2.2)

/-- Key of word `j` of an output in partition `g` of a bank. -/
def accKey (bank g out j : Nat) : Nat := ((bank * 8 + g) * 1024 + out) * 16 + j

/-- Contributions are added into a partition's words (R114, R116). -/
def addWords (key : Nat) (cs : List Int) (m : SMap Int) : SMap Int :=
  (cs.zipIdx).foldl (fun m e => smMod 0 m (key + e.2) (fun v => v + e.1)) m

/-- The state in which a slot enters data tranche `n`: carried, or fresh (R85, R96, R197). -/
def slotState (s : State) (n o j : Nat) : SlotSt :=
  let x := smGet {} s.pair.slots (o * 2048 + j)
  if n = s.sch.oldN && !carried s n o j x.out then {} else x

/-- A slot's 16 pair-samples in data tranche `n` on furrow `f` (R107 to R114). -/
def slotOp (n f o j : Nat) (s : State) : State :=
  let r := recAt s n o j
  let x := slotState s n o j
  let t := targetOfSlot x r (transition (objAt s o) n)
  let z := pairSamples s o n x t positions x.y
  let bad := positions.findSome? (fun i => badTap s o n i (delayAt x t i))
  let s1 := setPair s (fun p => { p with
    slots := smSet {} p.slots (o * 2048 + j) { d := t.d, a := t.a, y := z.2.1, g := t.g, out := r.out },
    acc := addWords (accKey (n % 2) (f % 8) r.out 0) z.1 p.acc })
  let s2 := evIf (decide (0 < z.2.2)) aPairEvt 3 (pairCount o 8 z.2.2 s1)
  match bad with
  | some u => countWinUe o (u / 16) s2
  | none => s2

/-! ## Audit (R119, R120, R128) -/

/-- A mismatch of the audit lane in a slot of the audited furrow. -/
def auditSlot (n f entry : Nat) (a : AuditObs) (s : State) : State :=
  if !Word.bit (getReg s aAuditCtl) 0 || decide (f ≠ n % 128) then s
  else
    let first := s.pair.audit.isNone
    let acc := match s.pair.audit with
      | some x => { x with count := bump 8 x.count a.count }
      | none => { furrow := f, slot := entry, j := a.j, count := bump 8 0 a.count }
    let s1 := setPair s (fun p => { p with audit := some acc })
    let s2 := setReg s1 aAuditStat (BitVec.ofNat 32 (acc.count * 2 ^ 24 + acc.furrow % 128 * 2 ^ 17 + acc.slot % 8192 * 16 + acc.j % 16))
    if first then
      let s3 := evRaise aPairEvt 0 s2
      if Word.bit (getReg s aAuditCtl) 1 then deviceFault 2 s3 else s3
    else s2

/-- The record of a tranche with mismatches (R120, R130). -/
def auditEnd (n : Nat) (s : State) : State :=
  match s.pair.audit with
  | some a => ledger 0x0A01 5 a.furrow (n % 2 ^ 32) a.count (setPair s (fun p => { p with audit := none }))
  | none => s

/-! ## FURROW_SLOT -/

/-- The schedule guard sees a violation at a slot. -/
def guardSlot (v : Option GuardViol) (s : State) : State := match v with
  | some v => guardFault v s
  | none => s

/-- FURROW_SLOT: an entry of a furrow's programme; `ue` lists window lines found uncorrectable. -/
def execFurrowSlot (f entry : Nat) (ue : List Nat) (audit : Option AuditObs) (viol : Option GuardViol) (s : State) :
    Host.Outcome State Fault Refusal :=
  let n := s.clk.tidx - 1
  .next (match (if s.clk.tidx = 0 then none else stageImg s n).bind (fun i => (i.fur.getD f [])[entry]?) with
    | none => s
    | some e =>
      let s1 := slotOp n f e.obj e.slot (markWins ue s)
      let s2 := match audit with
        | some a => auditSlot n f entry a s1
        | none => s1
      guardSlot viol s2)

/-! ## Tag verification (R99, R100) -/

/-- The oldest readable block of an object is verified: an uncorrectable line drops its check unverified. -/
def verifyObj (b : Int) (o : Nat) (s : State) : State :=
  let w := winSlot o b
  if (winLines w).any (winLineBad s) then countWinUe o b s
  else if (smGet {} s.pair.win w).good then s
  else ledgerLim 0x0A03 4 o 1 (fun c => (o, s32 b, c)) (evRaise aPairEvt 2 (pairCount o 16 1 s))

/-- FURROW_PHASE_START: the verifier's reads of P_k; `ue` lists lines found uncorrectable. -/
def execFurrowPhaseStart (ue : List Nat) (s : State) : Host.Outcome State Fault Refusal :=
  .next (if s.clk.tidx = 0 ∨ (stageImg s (s.clk.tidx - 1)).isNone then s
    else eachObj (verifyObj ((s.clk.tidx : Int) - 1023)) allObjects (markWins ue s))

/-! ## Accumulator banks (R95, R116) -/

/-- Bank `b` is zeroed. -/
def zeroBank (b : Nat) (s : State) : State :=
  setPair s (fun p => { p with acc := smClearRange p.acc (b * 131072) 131072, words := smClearRange p.words (b * 16384) 16384 })

/-- The write phase of P_k begins: bank (k - 1) mod 2 is zeroed, WIN_UE counts anew, and the furrows turn to the sinc bank of data
tranche k - 1. -/
def pairBoundary (k : Nat) (s : State) : State := useSinc k (zeroBank ((k + 1) % 2) (setPair s (fun p => { p with ueSeen := [] })))

/-! ## Descriptors (R124 to R126) -/

/-- OBJ_KERNEL. -/
def execObjKernel (d : Desc) (s : State) : Host.Outcome State Fault Refusal :=
  let first := pl d 10 2
  let count := pl d 12 2
  .next (checked d [(0, 9), (10, 5)] [(8, decide (pl d 8 1 ≤ 1)), (10, decide (first ≤ 1023)), (12, inRange first count 1024),
      (14, decide (pl d 14 1 ≤ 3))] s (armCutoff d (.objKernel first count (pl d 14 1)) s))

/-- OBJ_KERNEL takes effect (R115). -/
def applyKernel (first count code : Nat) (s : State) : State :=
  eachObj (fun o t => setObj t o { objAt t o with kernel := code }) (span first count) s

/-- A sinc bank switch is pending (R128). -/
def ktblPending (s : State) : Bool := s.keyed.any (fun k => isKtblSwitch k.act)

/-- The inactive sinc bank is replaced. -/
def putInactive (b : SincBank) (s : State) : State :=
  setPair s (fun p => if p.sincCur then { p with sincA := b } else { p with sincB := b })

/-- The entries of a loaded sinc table. -/
def sincEntries (b : List Byte) : List Int := (chunks 4 8200 b).map (fun e => signed 32 (leNat e))

/-- The SWITCH of a PAIR_KTBL. -/
def ktblSwitchOp (d : Desc) (s : State) : State :=
  if plBit d 8 2 then armCutoff d (.ktblSwitch (plBit d 8 1 || plBit d 8 3)) s else finish d stOk s

/-- PAIR_KTBL: LOAD or SYNC on acceptance, then SWITCH keyed to N (R72, R124). -/
def execPairKtbl (d : Desc) (s : State) : Host.Outcome State Fault Refusal :=
  .next (checked d [(0, 9), (16, 8)] [(8, decide (pl d 8 1 ≤ 15) && !(plBit d 8 1 && plBit d 8 3))] s
    (if plBit d 8 1 then
      match hostBlock d 0 32800 with
      | none => badBlock d 16 s
      | some b =>
        let xs := sincEntries b
        if !xs.all (fun x => decide (satS 20 x = x)) then badField d 0xFFFF s
        else if ktblPending s then finish d stNotPermitted s
        else ktblSwitchOp d (putInactive { rom := false, tab := xs.zipIdx.foldl (fun m e => smSet 0 m e.2 e.1) [] } s)
    else if plBit d 8 3 then
      if ktblPending s then finish d stNotPermitted s else ktblSwitchOp d (putInactive (sincActive s) s)
    else ktblSwitchOp d s))

/-- An aborted PAIR_KTBL that loaded or synchronised the inactive bank leaves it undefined: every entry is a free value (R124, R324). -/
def voidInactive (s : State) : State :=
  putInactive { rom := false, tab := (List.range 8200).foldl (fun m i => smSet 0 m i (satS 20 (Config.freeEntry s.freeCtr i))) [] } (draw s)

/-- A 32-byte record of an object (R126). -/
def pairRecord (s : State) (o : Nat) : List Byte :=
  let n := s.clk.tidx - 1
  let ob := objAt s o
  let c := coarseIn s ob n
  let tr := transition ob n
  let flags := (if c = 0 then 1 else 0) + (if tr.isSome then 2 else 0) + ob.kernel % 4 * 4
  leBytes 2 o ++ leBytes 1 flags ++ leBytes 1 ((tr.map (fun i => 17 - i)).getD 0) ++ leBytes 4 c ++
  words32 ([8, 12, 16, 20, 24, 28].map (fun off => cntAt s.pair.cntObj (o * 64 + off)))

/-- A 16-byte record of an output (R126). -/
def accRecord (s : State) (o : Nat) : List Byte :=
  leBytes 2 o ++ zeros 2 ++ words32 ([4, 8, 12].map (fun off => cntAt s.pair.cntOut (o * 16 + off)))

/-- The counters of a range are zeroed. -/
def clearPairCounts (mode first count : Nat) (s : State) : State :=
  setPair s (fun p => if mode = 0 then { p with cntObj := smClearRange p.cntObj (first * 64) (count * 64) }
    else { p with cntOut := smClearRange p.cntOut (first * 16) (count * 16) })

/-- PAIR_STATUS. -/
def execPairStatus (d : Desc) (s : State) : Host.Outcome State Fault Refusal :=
  let mode := pl d 8 1
  let first := pl d 10 2
  let count := pl d 12 2
  .next (checked d [(0, 9), (10, 5)] [(8, decide (mode ≤ 1)), (10, decide (first ≤ 1023)), (12, inRange first count 1024),
      (14, decide (pl d 14 1 ≤ 1))] s
    (let s1 := hostWrite (pl d 0 8) ((span first count).flatMap (if mode = 0 then pairRecord s else accRecord s)) s
     finish d stOk (if plBit d 14 0 then clearPairCounts mode first count s1 else s1)))

end Sys2Proof.Machine
end

