-- ==== Sys2Proof/Machine/Correct.lean ====
section
/-! DEFINITION. The correction chain of an output: equaliser, history, FIR head, sluice, forced silence, meters and crossfades
(R131 to R136, R149, R152 to R158). -/

namespace Sys2Proof.Machine

/-! ## Shared -/

/-- RAMP of R152. -/
def rampFn (a b : Int) (i k : Nat) : Int := a + (2 * (b - a) * ((i : Int) + 1) + k) / (2 * (k : Int))

/-- A ramp's value at sample `j` of data tranche `n`. -/
def Ramp.value (r : Ramp) (n j : Nat) : Int :=
  if n < r.n then r.a
  else if 16 * r.len ≤ 16 * (n - r.n) + j then r.b
  else rampFn r.a r.b (16 * (n - r.n) + j) (16 * r.len)

/-- The value in force at the end of data tranche `n - 1`. -/
def Ramp.before (r : Ramp) (n : Nat) : Int := if n ≤ r.n then r.a else r.value (n - 1) 15

/-- Adds to a counter of CORR_STATUS (R161). -/
def corCount (off n o : Nat) (s : State) : State := setOut s o { outAt s o with cnt := bumpAt (outAt s o).cnt off n }

/-- Saturations of a chain that raise `COR_EVT.CLIP` (R162). -/
def corClip (off n o : Nat) (s : State) : State := if n = 0 then s else evRaise aCorEvt 0 (corCount off n o s)

/-- HIST_ERR, once per tranche (R134, R164). -/
def histErr (n o : Nat) (s : State) : State :=
  if (outAt s o).histErrN = some n then s
  else
    let s1 := corCount 28 1 o (setOut s o { outAt s o with histErrN := some n })
    ledgerLim 0x0C01 4 o 1 (fun c => (o, n % 2 ^ 32, c)) (evRaise aCorEvt 2 s1)

/-- The data tranche that the correction engine works on, with its image (R131). -/
def corImg (s : State) : Option (Nat × Img) :=
  if s.clk.tidx < 2 then none else (stageImg s (s.clk.tidx - 2)).map (fun i => (s.clk.tidx - 2, i))

/-- The crossfade of an output that covers data tranche `n` (R149). -/
def xfAt (s : State) (o n : Nat) : Option Xf :=
  s.cor.xfs.find? (fun x => decide (x.out = o) && !x.done && decide (x.n ≤ n) && decide (n < x.stop))

/-- The crossfade whose tail a lane's chain computes for the block from tranche `m` on: the first that touches it (R149, R181). -/
def laneBlockXf (s : State) (x m : Nat) : Option Xf :=
  s.cor.xfs.find? (fun y => decide (y.lane = x) && decide (y.n < m + tailQ s) && decide (m < y.stop))

/-- The crossfade that a lane carries in data tranche `n` (R179). -/
def laneXf (s : State) (i : Img) (x n : Nat) : Option Xf :=
  if x < i.lanes.length then s.cor.xfs.find? (fun y => decide (y.lane = x) && !y.done && decide (y.n ≤ n) && decide (n < y.stop)) else none

/-- Changes a switch. -/
def setXf (x : Xf) (f : Xf → Xf) (s : State) : State :=
  setCor s (fun c => { c with xfs := c.xfs.map (fun y => if y = x then f y else y) })

/-- The weight of a crossfade's new set at sample `j` of data tranche `n` (R149). -/
def xfWeight (x : Xf) (n j : Nat) : Int := rampFn 0 16777216 (16 * (n - x.n) + j) (16 * x.f)

/-- A crossfade of two tranches of samples (R149). -/
def blend (x : Xf) (n : Nat) (old new : List Int) : List Int :=
  positions.map (fun j => nth old j + rnd 24 ((nth new j - nth old j) * xfWeight x n j))

/-! ## Equaliser and history (R132 to R134) -/

/-- The correction input of a tranche with its saturations (R132). -/
def corInput (s : State) (n o : Nat) : List Int × Nat :=
  let v := positions.map (fun j => rnd 4 (smGet 0 s.pair.words ((n % 2 * 1024 + o) * 16 + j)))
  (v.map (satS 32), (v.map (clips 32)).foldl (· + ·) 0)

/-- The new equaliser of a crossfade runs on data tranche `n`, once (R149). -/
def laneBq (x : Xf) (n : Nat) (s : State) : State :=
  let ob := outAt s x.out
  if ob.zNew.any (fun e => decide (e.1 = n)) then s
  else
    let r := bqChain (slotSet s x.slot).bq (if x.n = n then ob.bz else x.bz) (corInput s n x.out).1
    corClip 8 r.2.2 x.out (setXf x (fun y => { y with bz := r.2.1 }) (setOut s x.out { ob with zNew := some (n, r.1) }))

/-- The z of a tranche: the old chain's, crossfaded where a crossfade covers it. -/
def mixZ (s : State) (o n : Nat) (z : List Int) : List Int :=
  match xfAt s o n, (outAt s o).zNew with
  | some x, some e => if e.1 = n then blend x n z e.2 else z
  | _, _ => z

/-- Key of an output's history block (R134). -/
def histKey (o : Nat) (t : Int) : Nat := o * 257 + (t % 257).toNat

/-- An output's equaliser on data tranche `n`, with its history write and the check of the oldest block (R132 to R134, R158). -/
def bqOut (n o lanes : Nat) (s : State) : State :=
  let s0 := match xfAt s o n with
    | some x => if x.lane < lanes then laneBq x n s else s
    | none => s
  let x := corInput s0 n o
  let r := bqChain (outAt s0 o).set.bq (outAt s0 o).bz x.1
  let b := storeBlk (mixZ s0 o n r.1)
  let s1 := setCor (setOut s0 o { outAt s0 o with bz := r.2.1 }) (fun c => { c with hist := smSet {} c.hist (histKey o n) b })
  let s2 := corClip 8 r.2.2 o (corClip 4 x.2 o s1)
  if (smGet {} s2.cor.hist (histKey o ((n : Int) - 256))).good then s2 else histErr n o s2

/-- BQ: an output's equaliser, or the new one of the crossfade in a lane (R179). -/
def execBq (u : CorrUnit) (s : State) : Host.Outcome State Fault Refusal :=
  .next (match corImg s with
    | none => s
    | some (n, i) => match u with
      | .out o => if o < i.cor.length then bqOut n o i.lanes.length s else s
      | .lane x => match laneXf s i x n with
        | some y => laneBq y n s
        | none => s)

/-! ## Head (R135) -/

/-- The history value v(u) of an output, zero where its block is among the bad ones (R134). -/
def histValue (s : State) (o : Nat) (bad : List Nat) (u : Int) : Int :=
  if bad.any (fun b => decide ((b : Int) = u / 16)) then 0 else (smGet {} s.cor.hist (histKey o (u / 16))).at (u % 16).toNat

/-- The head sums of a tranche (R135). -/
def headSums (s : State) (o n : Nat) (taps : List Int) (bad : List Nat) : List Int :=
  positions.map (fun (j : Nat) => sumI (taps.zipIdx.map (fun e => rnd 12 (e.1 * histValue s o bad (16 * (n : Int) + (j : Int) - (e.2 : Int))))))

/-- The taps that a set's head issues under a reservation. -/
def headTaps (c : CSet) (headMax : Nat) : List Int := (c.head.take c.headLen).take headMax

/-- The head array works on an output, or on a lane's new set; `ue` lists the history blocks, by data tranche, that met an
uncorrectable line. -/
def headOp (n o : Nat) (c : CSet) (e : CEnt) (lane : Bool) (ue : List Nat) (s : State) : State :=
  let sums := headSums s o n (headTaps c e.headMax) ue
  let ob := outAt s o
  let s1 := setOut s o (if lane then { ob with headNew := some (n, sums) } else { ob with head := some (n, sums) })
  if ue.isEmpty then s1 else histErr n o (sramUes 6 (ue.map (fun (b : Nat) => histKey o (b : Int))) s1)

/-- HEAD. -/
def execHead (u : CorrUnit) (ue : List Nat) (s : State) : Host.Outcome State Fault Refusal :=
  .next (match corImg s with
    | none => s
    | some (n, i) => match u with
      | .out o => match i.cor[o]? with
        | some e => headOp n o (outAt s o).set e false ue s
        | none => s
      | .lane x => match laneXf s i x n with
        | some y => match i.cor[y.out]? with
          | some e => headOp n y.out (slotSet s y.slot) e true ue s
          | none => s
        | none => s)

/-! ## Tail samples (R136, R143 to R145) -/

/-- The first data tranche that an output's tail serves: its reservation's, the start's, or that of a CORR_CLEAR_STATE. -/
def tailStart (s : State) (o : Nat) : Nat := max s.sch.startN ((outAt s o).tailFrom.getD 0)

/-- The tail's results can carry signal in data tranche `n`: their input block is not wholly before the tail's start. -/
def tailLive (s : State) (o n : Nat) : Bool := decide (tailStart s o / tailQ s + 2 ≤ n / tailQ s)

/-- The check of a tail output tranche, over its 96 bytes (R144, R158). -/
def tailCheck (xs : List Int) : Nat := crc32c (xs.flatMap (leInt 6))

/-- A tail output tranche from the on-die buffer: `none` where it is missing, bad or uncorrectable (R145). `src`: an output, or
1,024 + lane. -/
def bufferedTail (s : State) (src n : Nat) : Option (List Int) :=
  match smGet none s.cor.buf (src * 2 + n / 16 % 2) with
  | some g => if g.grp = n / 16 then (g.trs.getD (n % 16) none).bind (fun e => if e.2 = tailCheck e.1 then some e.1 else none) else none
  | none => none

/-- TAIL_MISS with the block that the tranche or chain belongs to (R145, R164). -/
def tailMiss (o block : Nat) (s : State) : State :=
  ledgerLim 0x0C02 4 o 1 (fun c => (o, block % 2 ^ 32, c)) (evRaise aCorEvt 3 (corCount 24 1 o s))

/-- The tail samples of data tranche `n` for a set, and whether a miss counts (R145). Without a reservation, without DRAM, before
the tail's first results, or for a lane's set without a tail, they are zero uncounted. -/
def tailTr (s : State) (o n src : Nat) (c : CSet) (e : CEnt) : List Int × Bool :=
  let zero := List.replicate 16 0
  if e.tailMax = 0 ∨ s.drc.noDram ∨ tailLive s o n = false ∨ (1024 ≤ src ∧ c.parts = 0) then (zero, false)
  else match bufferedTail s src n with
    | some t => (t, false)
    | none => (zero, true)

/-- Where the tail of an output's active set lies in data tranche `n`: a lane's ring in the rest of the block in which a
crossfade ended, else the output's own. -/
def tailSrc (s : State) (o n : Nat) : Nat :=
  match s.cor.xfs.find? (fun x => decide (x.out = o) && x.done && decide (x.stop ≤ n) && decide ((x.stop - 1) / tailQ s = n / tailQ s)) with
  | some x => 1024 + x.lane
  | none => o

/-- The convolution output of a tranche with its saturations (R136). -/
def convOut (c : CSet) (sums t : List Int) : List Int × Nat :=
  let v := positions.map (fun j => rnd (11 - c.shift) (nth sums j + nth t j * 32))
  (v.map (satS 32), (v.map (clips 32)).foldl (· + ·) 0)

/-- Head sums that are those of data tranche `n`. -/
def sumsOf (h : Option (Nat × List Int)) (n : Nat) : List Int := match h with
  | some e => if e.1 = n then e.2 else []
  | none => []

/-! ## Sluice (R153, R155) -/

/-- The forced-silence factor at sample `j` of the tranche in hand; the last tranche of a stop ramps to zero (R155, R192). -/
def zsAt (s : State) (n j : Nat) : Int :=
  let z := rampFn s.cor.zs s.cor.zTo j 16
  if s.sch.stopN = some n then min z (rampFn 16777216 0 j 16) else z

/-- A sluice sample with its saturations (R153). -/
def sluiceSample (s : State) (ob : Out) (n j : Nat) (yc : Int) : Int × Nat :=
  let a := rnd 28 (yc * ob.gain.value n j)
  let y2 := rnd 24 (satS 32 a * ob.mute.value n j)
  let y3 := rnd 24 (y2 * zsAt s n j)
  let z := rnd 4 y3
  (satS 24 z, clips 32 a + clips 24 z)

/-- A meter takes a sample at an output time index (R156). -/
def meterStep (m : Meter) (t : Nat) (x : Int) : Meter :=
  let up := !m.any || decide (m.mx < x)
  let down := !m.any || decide (x < m.mn)
  { mx := if up then x else m.mx, mxT := if up then t else m.mxT, mn := if down then x else m.mn, mnT := if down then t else m.mnT,
    sumsq := (m.sumsq + (x * x).toNat) % 2 ^ 64, any := true }

/-- A meter takes a tranche. -/
def meterRun (m : Meter) (t : Nat) (xs : List Int) : Meter := xs.zipIdx.foldl (fun m e => meterStep m (t + e.2) e.1) m

/-- CLIP_OUT of an output (R153, R164). -/
def clipOut (n k o : Nat) (s : State) : State :=
  if k = 0 then s
  else ledgerLim 0x0C03 2 o k (fun c => (o, n % 2 ^ 32, c)) (evRaise aCorEvt 1 (corCount 20 k o s))

/-- The sluice of an output on data tranche `n`: transmit staging, check and meter (R131, R153, R156, R158, R281). -/
def sluiceOp (n o : Nat) (yc : List Int) (s : State) : State :=
  let ob := outAt s o
  let r := positions.map (fun j => sluiceSample s ob n j (nth yc j))
  let xs := r.map Prod.fst
  let chk := trancheCheck xs 0
  let s1 := setOut s o { ob with outChk := chk, meter := meterRun ob.meter (16 * n + 64) xs }
  let s2 := { s1 with mp := { s1.mp with stg := smSet none s1.mp.stg (o * 16 + (n + 4) % 16) (some { m := n + 4, xs := xs, chk := chk, whole := true }) } }
  clipOut n ((r.map Prod.snd).foldl (· + ·) 0) o s2

/-- The join of head and tail for a set, its saturations and misses counted: the convolution output. -/
def joinOp (n o src : Nat) (c : CSet) (e : CEnt) (sums : List Int) (s : State) : List Int × State :=
  let t := tailTr s o n src c e
  let y := convOut c sums t.1
  let s1 := if t.2 then tailMiss o (n / tailQ s) s else s
  (y.1, corClip 12 y.2 o s1)

/-- Where the tail of a lane's set lies in data tranche `n`: 1,024 + lane, or nowhere (any other number) where the lane's chain of the block
computed another crossfade's. -/
def laneSrc (s : State) (y : Xf) (n : Nat) : Nat :=
  if (laneBlockXf s y.lane (n / tailQ s * tailQ s)).any (fun z => decide (z.out = y.out) && decide (z.n = y.n)) then 1024 + y.lane else 2048

/-- SLU: the sluice unit's work for an output, or for the crossfade in a lane (R136, R149, R153, R179). An output whose crossfade has no lane
sluices its own set. -/
def execSlu (u : CorrUnit) (s : State) : Host.Outcome State Fault Refusal :=
  .next (match corImg s with
    | none => s
    | some (n, i) => match u with
      | .out o => match i.cor[o]? with
        | some e =>
          if (xfAt s o n).any (fun y => decide (y.lane < i.lanes.length)) then s
          else
            let r := joinOp n o (tailSrc s o n) (outAt s o).set e (sumsOf (outAt s o).head n) s
            sluiceOp n o r.1 r.2
        | none => s
      | .lane x => match laneXf s i x n with
        | some y => match i.cor[y.out]? with
          | some e =>
            let a := joinOp n y.out (tailSrc s y.out n) (outAt s y.out).set e (sumsOf (outAt s y.out).head n) s
            let b := joinOp n y.out (laneSrc s y n) (slotSet s y.slot) e (sumsOf (outAt s y.out).headNew n) a.2
            sluiceOp n y.out (blend y n a.1 b.1) b.2
          | none => s
        | none => s)

/-! ## Boundaries (R148, R149, R155, R156) -/

/-- A cause of forced silence that begins or ends is recorded (R155, R164). -/
def silenceCause (cause : Nat) (was now : Bool) (k : Nat) (s : State) : State :=
  if was = now then s else ledger 0x0C05 3 cause (if now then 0 else 1) (k % 2 ^ 32) s

/-- Forced silence as it is seen at H_k: Zs ramps across data tranche k - 2 (R155). -/
def silenceBoundary (k : Nat) (s : State) : State :=
  let pin := s.aon.silLow
  let guard := s.sch.guardHold
  let s1 := silenceCause 2 s.cor.silGuard guard k (silenceCause 1 s.cor.silPin pin k s)
  setCor s1 (fun c => { c with silPin := pin, silGuard := guard, zs := c.zTo, zTo := if pin || guard then 0 else 16777216 })

/-- Every output. -/
def allOutputs : List Nat := List.range 1024

/-- A meter window ends with data tranche `n` (R156). -/
def meterBoundary (n : Nat) (s : State) : State :=
  if s.cor.meterN0 ≤ n ∧ (n - s.cor.meterN0 + 1) % s.cor.meterW = 0 then
    evRaise aCorEvt 5 (setCor s (fun c => { c with
      out := smModAll {} c.out allOutputs (fun _ x => { x with latched := x.meter, meter := {} }),
      meterFirst := n + 1 - c.meterW, readGroups := c.groups }))
  else s

/-- Switches whose deadline has come are committed and complete OK (R23, R148, R323). -/
def commitSwitches (s : State) : State :=
  let due := s.cor.xfs.filter (fun x => x.tok.isSome && !beforeH s (switchDeadline s x.out x.slot x.n))
  reportAll stOk (due.map Xf.tok) (setCor s (fun c => { c with xfs := c.xfs.map (fun x => if x ∈ due then { x with tok := none } else x) }))

/-- The partition spectra of an output's active set and of a slot change places (R149, R394). -/
def swapSpectra (o k : Nat) (s : State) : State :=
  if s.drc.noDram then s
  else
    let a := dramGet s (setSpecAddr o 0) 370560
    let b := dramGet s (slotSpecAddr k 0) 370560
    dramPut (slotSpecAddr k 0) a (dramPut (setSpecAddr o 0) b s)

/-- A crossfade ends: the output has the new set, the slot its previous one (R149). -/
def endXf (x : Xf) (s : State) : State :=
  let ob := outAt s x.out
  let s1 := swapSpectra x.out x.slot s
  let s2 := setOut s1 x.out { ob with set := slotSet s x.slot, bz := if x.lane < 64 then x.bz else ob.bz, zNew := none, headNew := none }
  let s3 := setCor s2 (fun c => { c with slots := smSet {} c.slots x.slot ob.set })
  ledger 0x0C04 1 x.out x.slot (x.n % 2 ^ 32) (evRaise aCorEvt 4 (setXf x (fun y => { y with done := true }) s3))

/-- Crossfades end, in order. -/
def endXfs : List Xf → State → State
  | [], s => s
  | x :: xs, s => endXfs xs (endXf x s)

/-- At H_k: switches are committed, crossfades end, and those whose block is over leave (R148, R149). -/
def switchBoundary (k : Nat) (s : State) : State :=
  let s1 := commitSwitches s
  let s2 := endXfs (s1.cor.xfs.filter (fun x => !x.done && decide (x.stop + 2 ≤ k))) s1
  setCor s2 (fun c => { c with xfs := c.xfs.filter (fun x => !(x.done && decide (((x.stop - 1) / tailQ s + 1) * tailQ s + 2 ≤ k))) })

end Sys2Proof.Machine
end

