-- ==== Sys2Proof/Machine/Fft.lean ====
section
/-! DEFINITION. The transform of the correction tail: twiddles, the radix-2² transform, spectral blocks as stored, frequency
accumulation and the inverse (R138 to R144). -/

namespace Sys2Proof.Machine

/-- A complex value of two integer components. -/
structure Cx where
  re : Int := 0
  im : Int := 0
  deriving DecidableEq, Repr

/-! ## Twiddles (R140) -/

/-- π scaled by 2^128. -/
def piFix : Int := 0x3243f6a8885a308d313198a2e03707345

/-- The alternating Taylor sum from `term`, the one of order `k`, with the square `x2` of the angle; all scaled by 2^128. -/
def taylor : Nat → Nat → Int → Int → Int
  | 0, _, _, _ => 0
  | n + 1, k, term, x2 => term - taylor n (k + 2) (term * x2 / 2 ^ 128 / ((k + 1) * (k + 2) : Nat)) x2

/-- Cosine and sine of 2πt/n for t ≤ n/8, scaled by 2^128. -/
def octant (n t : Nat) : Int × Int :=
  let x := 2 * piFix * t / n
  let x2 := x * x / 2 ^ 128
  (taylor 20 0 (2 ^ 128) x2, taylor 20 1 x x2)

/-- Cosine and sine of 2πt/n for t ≤ n/4. -/
def quadrant (n t : Nat) : Int × Int :=
  if 8 * t ≤ n then octant n t else let c := octant n (n / 4 - t); (c.2, c.1)

/-- Cosine and sine of 2πt/n. -/
def cosSin (n t : Nat) : Int × Int :=
  let c := quadrant n (t % n % (n / 4))
  match t % n / (n / 4) with
  | 0 => c
  | 1 => (-c.2, c.1)
  | 2 => (-c.1, -c.2)
  | _ => (c.2, -c.1)

/-- TW[t] for transforms of length `n` (R140): the exact values rounded to Q2.30, whose rounding the 128-bit approximation decides. -/
def twiddle (n t : Nat) : Cx :=
  let c := cosSin n t
  { re := rnd 98 c.1, im := rnd 98 (-c.2) }

/-! ## The transform (R139) -/

/-- BF of R139. -/
def bfSum (u w : Cx) : Cx := { re := rnd 1 (u.re + w.re), im := rnd 1 (u.im + w.im) }
/-- BF of R139, second output. -/
def bfDif (u w : Cx) : Cx := { re := rnd 1 (u.re - w.re), im := rnd 1 (u.im - w.im) }

/-- TWM of R139, with its saturations. -/
def twm (z w : Cx) : Cx × Nat :=
  let re := rnd 30 (z.re * w.re - z.im * w.im)
  let im := rnd 30 (z.re * w.im + z.im * w.re)
  ({ re := satS 56 re, im := satS 56 im }, clips 56 re + clips 56 im)

/-- The four quarters of a block of length `n / step` after its two butterfly columns, from index `n3` on. -/
def column (n step : Nat) : Nat → List Cx → List Cx → List Cx → List Cx → (List Cx × List Cx) × (List Cx × List Cx) × Nat
  | n3, a :: as, b :: bs, c :: cs, d :: ds =>
    let e0 := bfSum a c
    let e2 := bfDif a c
    let e1 := bfSum b d
    let q := bfDif b d
    let e3 : Cx := { re := q.im, im := -q.re }
    let t1 := twm (bfDif e0 e1) (twiddle n (step * 2 * n3))
    let t2 := twm (bfSum e2 e3) (twiddle n (step * n3))
    let t3 := twm (bfDif e2 e3) (twiddle n (step * 3 * n3))
    let r := column n step (n3 + 1) as bs cs ds
    ((bfSum e0 e1 :: r.1.1, t1.1 :: r.1.2), (t2.1 :: r.2.1.1, t3.1 :: r.2.1.2), t1.2 + t2.2 + t3.2 + r.2.2)
  | _, _, _, _, _ => (([], []), ([], []), 0)

/-- The last butterflies, where a block has length 2. -/
def lastPair : List Cx → List Cx
  | [u, w] => [bfSum u w, bfDif u w]
  | l => l

/-- The stages of the transform on a block of length `m`, with their saturations. -/
def stages (n : Nat) : Nat → Nat → List Cx → List Cx × Nat
  | 0, _, d => (lastPair d, 0)
  | k + 1, m, d =>
    if m < 4 then (lastPair d, 0)
    else
      let h := m / 4
      let c := column n (n / m) 0 (d.take h) ((d.drop h).take h) ((d.drop (2 * h)).take h) (d.drop (3 * h))
      let r0 := stages n k h c.1.1
      let r1 := stages n k h c.1.2
      let r2 := stages n k h c.2.1.1
      let r3 := stages n k h c.2.1.2
      (r0.1 ++ r1.1 ++ r2.1 ++ r3.1, c.2.2 + r0.2 + r1.2 + r2.2 + r3.2)

/-- Reversal of the `m` low bits. -/
def bitRev : Nat → Nat → Nat
  | 0, _ => 0
  | m + 1, k => k % 2 * 2 ^ m + bitRev m (k / 2)

/-- FFT of length 2^m (R139), with its saturations. -/
def fft (m : Nat) (d : List Cx) : List Cx × Nat :=
  let r := stages (2 ^ m) m (2 ^ m) d
  ((List.range (2 ^ m)).map (fun k => r.1.getD (bitRev m k) {}), r.2)

/-! ## Spectra as stored (R141, R144) -/

/-- The values of a spectrum's bins 0 to b - 1 with bin b packed into bin 0. -/
def packBins (b : Nat) (x : List Cx) : List Cx :=
  match x.take b with
  | z :: zs => { re := z.re, im := (x.getD b {}).re } :: zs
  | [] => []

/-- A spectral block's exponent and mantissas (R118). -/
def specBlock (x : List Cx) : Nat × List Int :=
  let v := x.flatMap (fun z => [z.re, z.im])
  let e := pickExp 15 0 v
  (e, v.map (fun y => satS 24 (rnd e y)))

/-- A spectrum's bytes: the exponent line, then 96 bytes per block of 16 bins (R144). -/
def specBytes (b : Nat) (x : List Cx) : List Byte :=
  let blocks := (List.range (b / 16)).map (fun q => specBlock ((x.drop (16 * q)).take 16))
  let es := (List.range (b / 32)).map (fun i => BitVec.ofNat 8 ((blocks.getD (2 * i) (0, [])).1 + 16 * (blocks.getD (2 * i + 1) (0, [])).1))
  es ++ List.replicate (64 - b / 32) 0 ++ blocks.flatMap (fun e => e.2.flatMap (leInt 3))

/-- The bins of a stored spectrum. -/
def specBins (b : Nat) (bs : List Byte) : List Cx :=
  (List.range b).map (fun i =>
    let e := field bs (i / 32) 1 / (if i / 16 % 2 = 1 then 16 else 1) % 16
    { re := signed 24 (field bs (64 + 6 * i) 3) * 2 ^ e, im := signed 24 (field bs (64 + 6 * i + 3) 3) * 2 ^ e })

/-! ## Frequency accumulation and the inverse (R142, R143) -/

/-- The product of a bin, or of the packed bin 0. -/
def binTerm (sz : Nat) (first : Bool) (x h : Cx) : Cx :=
  if first then { re := rnd sz (x.re * h.re), im := rnd sz (x.im * h.im) }
  else { re := rnd sz (x.re * h.re - x.im * h.im), im := rnd sz (x.re * h.im + x.im * h.re) }

/-- Adds a partition's term to the accumulation. -/
def addTerm (sz : Nat) (z x h : List Cx) : List Cx :=
  (z.zip (x.zip h)).zipIdx.map (fun e =>
    let t := binTerm sz (decide (e.2 = 0)) e.1.2.1 e.1.2.2
    { re := e.1.1.re + t.re, im := e.1.1.im + t.im })

/-- Saturation of the accumulated bins. -/
def satBins (z : List Cx) : List Cx × Nat :=
  (z.map (fun x => { re := satS 56 x.re, im := satS 56 x.im }), (z.map (fun x => clips 56 x.re + clips 56 x.im)).foldl (· + ·) 0)

/-- The frame of the inverse transform (R143). -/
def inverseFrame (b : Nat) (z : List Cx) : List Cx :=
  let z0 := z.headD {}
  { re := z0.re, im := 0 } :: (z.drop 1).map (fun x => { re := x.re, im := -x.im }) ++ [{ re := z0.im, im := 0 }] ++
  ((z.drop 1).take (b - 1)).reverse

/-- The tail samples of a block from the accumulated bins, with the saturations (R142, R143). -/
def tailSamples (m : Nat) (z : List Cx) : List Int × Nat :=
  let b := 2 ^ m / 2
  let s := satBins z
  let r := fft m (inverseFrame b s.1)
  let t := (r.1.drop b).map Cx.re
  (t.map (satS 48), s.2 + r.2 + (t.map (clips 48)).foldl (· + ·) 0)

end Sys2Proof.Machine
end

