-- ==== Sys2Proof/Machine/Sign.lean ====
section
/-! DEFINITION. Digest and signature of images: schedule images and steward firmware (R186, R188, R343, R344). -/

namespace Sys2Proof.Machine

/-- The digest of an image whose DIGEST field lies at bytes [at, at + 32), taken as zero (R186, R343). -/
def imageDigest (off : Nat) (body : List Byte) : List Byte :=
  sha256 (body.take off ++ List.replicate 32 0 ++ body.drop (off + 32))

/-- The image's DIGEST field is right. -/
def digestGood (off : Nat) (body : List Byte) : Bool := decide (imageDigest off body = (body.drop off).take 32)

/-- The trailer's signature of a digest verifies under the customer public key (R186). -/
def sigGood (digest trailer : List Byte) : Bool :=
  ecdsaVerify Config.pubKeyX.toNat Config.pubKeyY.toNat (beNat digest) (beNat (trailer.take 32)) (beNat ((trailer.drop 32).take 32))

/-- The verdict of R188: whether the image passes, and whether it shows as signed. -/
def signVerdict (signed : Bool) (digest trailer : List Byte) : Bool × Bool :=
  if Config.enforce then
    let ok := signed && Config.pubKeyPresent && sigGood digest trailer
    (ok, ok)
  else if signed && Config.pubKeyPresent then
    let ok := sigGood digest trailer
    (ok, ok)
  else (true, false)

end Sys2Proof.Machine
end

