-- ==== Sys2Proof/Machine/Image.lean ====
section
/-! DEFINITION. Schedule images: their sections as the formats of R183 to R185, R237 and R287 lay them out, and the load
checks of R187. -/

namespace Sys2Proof.Machine

/-! ## Layout -/

/-- A directory entry (R183). -/
structure DirEnt where
  ty : Nat
  uniform : Bool
  off : Nat
  len : Nat
  crc : Nat
  deriving DecidableEq, Repr

/-- The directory (R183). -/
def imgDir (b : List Byte) : List DirEnt :=
  (List.range (field b 20 2)).map (fun i =>
    let e := (b.drop (256 + 16 * i)).take 16
    { ty := field e 0 2, uniform := decide (field e 2 2 % 2 = 1), off := field e 4 4, len := field e 8 4, crc := field e 12 4 })

/-- TOTAL_LEN. -/
def imgTotal (b : List Byte) : Nat := field b 16 4

/-- The bytes before any trailer (R186). -/
def imgBody (b : List Byte) : List Byte := fit (imgTotal b - (if field b 7 1 % 2 = 1 then 64 else 0)) b

/-- The bytes of a section. -/
def secBytes (b : List Byte) (e : DirEnt) : List Byte := fit e.len (b.drop e.off)

/-- The section of a type; a missing one is empty. -/
def secOf (b : List Byte) (t : Nat) : List Byte :=
  match (imgDir b).find? (fun e => decide (e.ty = t)) with
  | some e => secBytes b e
  | none => []

/-- `n` records of a size; what lies past the section's end reads as zero. -/
def records (size : Nat) : Nat → List Byte → List (List Byte)
  | 0, _ => []
  | n + 1, bs => fit size (bs.take size) :: records size n (bs.drop size)

/-- A counted list of records and what follows it. Of records past the section's end, which read as zero, two at most are kept. -/
def countedList (cnt size : Nat) (bs : List Byte) : List (List Byte) × List Byte :=
  let n := min (field bs 0 cnt) (bs.length / size + 2)
  (records size n (bs.drop cnt), bs.drop (cnt + size * n))

/-- Consecutive counted lists. -/
def countedLists (cnt size : Nat) : Nat → List Byte → List (List (List Byte)) × List Byte
  | 0, bs => ([], bs)
  | n + 1, bs =>
    let r := countedList cnt size bs
    let t := countedLists cnt size n r.2
    (r.1 :: t.1, t.2)

/-- A u16 list. -/
def u16s (rs : List (List Byte)) : List Nat := rs.map leNat

/-- The unit records of the GEO section (R184). -/
def geoUnits : Nat → List Byte → List (Nat × List Nat)
  | 0, _ => []
  | n + 1, bs =>
    let r := countedList 2 2 (bs.drop 4)
    (field bs 0 4, u16s r.1) :: geoUnits n r.2

/-- An OBJ entry (R185). -/
def parseObj (r : List Byte) : OEnt :=
  { first := field r 0 4, a := field r 4 2, dirs := field r 6 1, merge := field r 7 1, laws := field r 8 1,
    hmode := field r 9 1, hlen := field r 10 1 }

/-- A FUR slot entry (R185). -/
def parseFur (r : List Byte) : FEnt :=
  let v := leNat r
  { obj := v % 1024, slot := v / 2 ^ 10 % 2048, cycle := v / 2 ^ 21 % 2 ^ 19, aset := v / 2 ^ 40 % 8192 }

/-- A COR record (R185). -/
def parseCor (r : List Byte) : CEnt :=
  { headMax := field r 0 2, tailMax := field r 2 1, dp := field r 3 1, bq := field r 4 4, head := field r 8 4, slu := field r 12 4 }

/-- A launch entry (R237); `x` is the whole XPT section. -/
def parseLaunch (x r : List Byte) : Launch :=
  { cycle := field r 0 4, dest := field r 4 2, b4 := field r 6 1, stream := field r 8 2, hadd := field r 10 1, ttl := field r 11 1,
    srcs := u16s (records 2 (field r 7 1) (x.drop (field r 12 4))) }

/-- An import entry (R237). -/
def parseImp (r : List Byte) : ImpEnt :=
  { src := field r 0 2, stream := field r 2 2, ch := field r 4 1, hadd := field r 5 1 % 16, link := field r 5 1 / 16,
    out := field r 6 2, cycle := field r 8 4 }

/-- A transmit stream record (R287). -/
def parseTx (x r : List Byte) : TxEnt :=
  { stream := field r 0 1, portA := field r 1 1, portB := field r 2 1, pcode := field r 3 1, channels := field r 4 1,
    stg := u16s (records 2 (field r 4 1) (x.drop (field r 8 4))) }

/-- A FORM entry (R287). -/
def parseForm (r : List Byte) : FormEnt :=
  { phase := field r 0 2, stream := field r 2 1, cycle := field r 4 4, dofs := signed 16 (field r 8 2) }

/-- An OUT import entry (R287). -/
def parseOutImp (r : List Byte) : OutImp :=
  { src := field r 0 2, stream := field r 2 2, ch := field r 4 1, link := field r 5 1 / 16, stg := field r 6 2 }

/-- The image as its sections give it. -/
def parseImg (b : List Byte) : Img :=
  let f := field b 22 2
  let xf := field b 26 1
  let uni := ((imgDir b).find? (fun e => decide (e.ty = 7))).any DirEnt.uniform
  let cor := (records 16 (1024 + xf) (secOf b 6)).map parseCor
  let fur := ((countedLists 4 8 128 (secOf b 5)).1).map (List.map parseFur)
  let x := secOf b 8
  let l := countedLists 4 16 16 x
  let i := countedList 4 12 l.2
  let t := countedList 4 16 i.2
  let fm := countedLists 4 12 4 t.2
  let os := countedList 4 12 fm.2
  { rate := field b 6 1, id := field b 8 8, f := f, cmax := field b 24 1, coarsePar := field b 25 1, xfPar := xf,
    slotTotal := field b 28 4, pTyp := field b 32 4, pMax := field b 36 4,
    obj := (records 16 1024 (secOf b 1)).map parseObj,
    aset := records 128 ((secOf b 2).length / 128) (secOf b 2),
    hgt := ((countedLists 2 2 8 (secOf b 3)).1).map u16s,
    geo := geoUnits 32 (secOf b 4),
    fur := fur,
    cor := cor.take 1024, lanes := cor.drop 1024,
    tail := ((countedLists 2 8 (if uni then 1 else f) (secOf b 7)).1).map (List.map (fun r => (field r 0 2, field r 4 4))),
    tailUniform := uni,
    launches := l.1.map (List.map (parseLaunch x)), imports := i.1.map parseImp, txs := t.1.map (parseTx x),
    forms := fm.1.map (List.map parseForm), outImp := os.1.map parseOutImp,
    slots := (((fur.flatten).map (fun e => (e.obj * 2048 + e.slot, e.aset))).mergeSort (fun p q => decide (p.1 ≤ q.1))) }

/-! ## Constants of a rate (R15, R137, R180, R182, R275) -/

/-- L of a rate. -/
def rateL (r : Nat) : Nat := if isDouble r then 196608 else 393216

/-- Q of a rate. -/
def rateQ (r : Nat) : Nat := if isDouble r then 64 else 128

/-- W_F of a rate. -/
def rateWF (r : Nat) : Nat := if isDouble r then 704 else 1536

/-- Core cycles per second. -/
def fCore (r : Nat) : Nat := if is48 r then 1179648000 else 1083801600

/-- Bytes of a stored spectrum at a rate (R144). -/
def rateSpec (r : Nat) : Nat := 64 + 6 * 16 * rateQ r

/-- Samples of a packet: P of a packet code (R275). -/
def packetP (r code : Nat) : Nat :=
  (match code with
    | 0 => 6
    | 1 => 12
    | 2 => 16
    | _ => 48) * (if isDouble r then 2 else 1)

/-- The phases in which the tail programme is given: one list where the section is uniform, else one a phase (R166). -/
def tailPhase (i : Img) (p : Nat) : List (Nat × Nat) := if i.tailUniform then i.tail.getD 0 [] else i.tail.getD p []

/-! ## Checks (R187) -/

/-- The first of several faults. -/
def firstFault {α : Type} : List (Option α) → Option α
  | [] => none
  | some x :: _ => some x
  | none :: xs => firstFault xs

/-- A fault at `x` where the condition fails. -/
def need {α : Type} (ok : Bool) (x : α) : Option α := if ok then none else some x

/-- 0x01. -/
def check01 (b : List Byte) : Option Nat :=
  need (decide (field b 0 4 = 0x43534157) && decide (field b 4 2 = 1) && decide (imgTotal b ≤ 16777216) &&
    decide (field b 7 1 < 2) && decide (field b 27 1 = 0) && ((b.drop 80).take 176).all (fun x => decide (x = 0))) 0

/-- Two sections share a byte. -/
def overlap (x y : DirEnt) : Bool := decide (x.off < y.off + y.len) && decide (y.off < x.off + x.len)

/-- The faults of the directory's entries, in order: an entry that is no section's or repeats one, lies outside the image, or
overlaps an earlier one. -/
def dirFaults (b : List Byte) : List DirEnt → List DirEnt → Option Nat
  | _, [] => none
  | before, e :: es =>
    if decide (1 ≤ e.ty) && decide (e.ty ≤ 8) && !before.any (fun x => decide (x.ty = e.ty)) &&
        decide (256 + 16 * field b 20 2 ≤ e.off) && decide (e.off + e.len ≤ (imgBody b).length) && !before.any (overlap e) &&
        (decide (e.ty ≠ 2) || (decide (e.len % 128 = 0) && decide (e.len ≤ 128 * 4096)))
    then dirFaults b (e :: before) es else some e.ty

/-- 0x02. -/
def check02 (b : List Byte) : Option Nat :=
  if 256 + 16 * field b 20 2 ≤ (imgBody b).length then
    match dirFaults b [] (imgDir b) with
    | some t => some t
    | none => need (decide (field b 20 2 = 8)) 0
  else some 0

/-- 0x03. -/
def check03 (b : List Byte) : Option Nat :=
  firstFault ((imgDir b).map (fun e => need (decide (crc32c (secBytes b e) = e.crc)) e.ty))

/-- 0x06. -/
def check06 (i : Img) : Option Nat :=
  need (decide (i.rate ≤ 3) && decide (1 ≤ i.f) && decide (i.f % 16 = 0) && decide (i.f % rateQ i.rate = 0) && decide (i.f ≤ 3072) &&
    decide (1 ≤ i.cmax) && decide (i.cmax ≤ 16) && decide (1 ≤ i.coarsePar) && decide (i.coarsePar ≤ 16) &&
    decide (1 ≤ i.xfPar) && decide (i.xfPar ≤ 64)) 0

/-- 0x07. -/
def check07 (limit : Nat) (i : Img) : Option Nat := need (decide (limit = 0) || decide (i.pMax ≤ limit)) 0

/-- The first object at which the slots that the furrows name differ from those the directory gives (R187). -/
def slotFault : List Nat → List Nat → Option Nat
  | [], [] => none
  | x :: _, [] => some (x / 2048)
  | [], y :: _ => some (y / 2048)
  | x :: xs, y :: ys => if x = y then slotFault xs ys else some (min x y / 2048)

/-- Objects with their entries. -/
def objEnts (i : Img) : List (OEnt × Nat) := i.obj.zipIdx

/-- 0x08. `raw` holds the OBJ records, for their reserved bytes. -/
def check08 (raw : List (List Byte)) (i : Img) : Option Nat :=
  let named := i.slots.map Prod.fst
  let given := (objEnts i).flatMap (fun e => (List.range e.1.a).map (fun j => e.2 * 2048 + j))
  firstFault [
    firstFault ((objEnts i).map (fun e => need (decide (e.1.a ≤ 2048)) e.2)),
    firstFault (i.fur.zipIdx.map (fun f => need (decide (f.1.length ≤ 8192)) (0x8000 + f.2))),
    need (decide (i.slotTotal ≤ 1048576) && decide (i.slotTotal = i.fur.flatten.length)) 0xFFFF,
    slotFault named given,
    firstFault ((objEnts i).map (fun e => need (decide (e.1.a ≤ 16) || decide (e.1.laws / 8 % 2 = 0)) e.2)),
    firstFault ((objEnts i).map (fun e => need (decide (1 ≤ e.1.hlen) && decide (e.1.hlen ≤ 64)) e.2)),
    firstFault ((objEnts i).map (fun e => need (decide (e.1.dirs ≤ 5) && decide (e.1.merge ≤ 1) && decide (e.1.hmode ≤ 2) &&
      decide (e.1.laws < 16)) e.2)),
    firstFault (raw.zipIdx.map (fun e => need ((e.1.drop 11).all (fun x => decide (x = 0))) e.2))]

/-- 0x09. -/
def check09 (i : Img) : Option Nat :=
  firstFault (i.fur.zipIdx.flatMap (fun f => f.1.map (fun e =>
    if 5120 ≤ e.aset then some (0x8000 + f.2)
    else if e.aset < 1024 then none
    else need ((i.aset.getD (e.aset - 1024) []).any (fun x => decide (x ≠ 0))) (e.aset - 1024))))

/-- 0x0A: the lists' objects with their datapath and position. -/
def check0A (i : Img) : Option Nat :=
  let all := i.hgt.zipIdx.flatMap (fun d => d.1.zipIdx.map (fun e => (d.2, e.2, e.1)))
  let clash := fun (x : Nat × Nat × Nat) => i.hgt.zipIdx.any (fun d => decide (d.2 < x.1) &&
    decide (x.2.1 < d.1.length) && decide ((d.1.getD x.2.1 0) % 256 = x.2.2 % 256))
  let twice := fun (x : Nat × Nat × Nat) => decide (1024 ≤ x.2.2) ||
    all.any (fun y => decide (y.2.2 = x.2.2) && (decide (y.1 < x.1) || (decide (y.1 = x.1) && decide (y.2.1 < x.2.1))))
  firstFault (all.map (fun x => need (!twice x && decide (96 * x.2.1 + 136 ≤ 16383) && !clash x) x.1) ++
    [need (decide (all.length = 1024)) 7])

/-- Issue cycles of an object on its geometry unit (R168, R176). -/
def geoCycles (i : Img) (o : Nat) : Nat :=
  let e := i.obj.getD o {}
  4 + e.dirs * (i.cmax + 2) + e.merge + e.a

/-- 0x0B. -/
def check0B (i : Img) : Option Nat :=
  let seen := fun (u o : Nat) => (i.geo.take u).any (fun x => decide (o ∈ x.2))
  let bad := i.geo.zipIdx.map (fun u => need (u.1.2.all (fun o => decide (o < 1024) && !seen u.2 o) && decide u.1.2.Nodup &&
    decide (u.1.1 + (u.1.2.map (geoCycles i)).sum ≤ rateL i.rate - 1536)) u.2)
  firstFault (bad ++ [need (decide ((i.geo.map (fun u => u.2.length)).sum = 1024)) 31])

/-- The entries of a furrow keep to R178. -/
def furGood (l phi : Nat) : Nat → List FEnt → Bool
  | _, [] => true
  | free, e :: es => decide (e.cycle % 16 = phi) && decide (free ≤ e.cycle) && decide (e.cycle + 15 ≤ l - 8193) && furGood l phi (e.cycle + 16) es

/-- A furrow that reads a window bank in a cycle in which an earlier one of the list reads it: bank, cycle, furrow (R170). -/
def bankFault : List (Nat × Nat × Nat) → Option Nat
  | x :: y :: rest => if x.1 = y.1 ∧ y.2.1 < x.2.1 + 16 then some y.2.2 else bankFault (y :: rest)
  | _ => none

/-- 0x0C. `raw` holds the slot entries, for their bits [63:53]. -/
def check0C (raw : List (List (List Byte))) (i : Img) : Option Nat :=
  let reads := (i.fur.zipIdx.flatMap (fun f => f.1.map (fun e => (e.obj % 256, e.cycle, f.2)))).mergeSort
    (fun a b => decide (a.1 < b.1) || (decide (a.1 = b.1) && decide (a.2.1 ≤ b.2.1)))
  firstFault [
    firstFault (i.fur.zipIdx.map (fun f => need (furGood (rateL i.rate) (f.2 / 8) 32768 f.1) f.2)),
    firstFault (raw.zipIdx.map (fun f => need (f.1.all (fun r => decide (leNat r < 2 ^ 53))) f.2)),
    bankFault reads]

/-- Uses of one resource: start, length, whose. The first that begins before the one ahead of it ends. -/
def clashOf : List (Nat × Nat × Nat) → Option Nat
  | x :: y :: rest => if y.1 < x.1 + x.2.1 then some y.2.2 else clashOf (y :: rest)
  | _ => none

/-- The uses of a resource do not overlap; a use of no cycles holds nothing. -/
def busyFault (uses : List (Nat × Nat × Nat)) : Option Nat :=
  clashOf ((uses.filter (fun u => decide (0 < u.2.1))).mergeSort (fun a b => decide (a.1 ≤ b.1)))

/-- 0x0D: the rules of R179. -/
def check0D (i : Img) : Option Nat :=
  let l := rateL i.rate
  let bb := 16 * rateQ i.rate
  let outs := i.cor.zipIdx
  let lanes := i.lanes.zipIdx
  let laneHead := 2 * bb / 16
  let firstBq := (i.cor.map CEnt.bq).foldl min (2 ^ 32)
  let lastBq := (i.cor.map CEnt.bq).foldl max 0
  let headEnd := max ((i.cor.map (fun e => e.head + e.headMax / 16)).foldl max 0) ((i.lanes.map (fun e => e.head + laneHead)).foldl max 0)
  let bqUse := fun (p : Nat) => (outs.filter (fun e => decide (e.1.dp = p))).map (fun e => (e.1.bq, 256, e.2)) ++
    (lanes.filter (fun e => decide (e.1.dp = p))).map (fun e => (e.1.bq, 256, 0x8000 + e.2))
  firstFault [
    firstFault (outs.map (fun e => need (decide (e.1.headMax % 16 = 0) && decide (e.1.headMax ≤ 2 * bb) && decide (e.1.tailMax ≤ 30) &&
      decide (e.1.dp < 4) && decide (e.1.bq + 15 ≤ l - 4097) && decide (e.1.bq + 288 ≤ e.1.head) &&
      decide (e.1.head + e.1.headMax / 16 + 24 ≤ e.1.slu) && decide (e.1.slu + 40 ≤ l - 1)) e.2)),
    firstFault (lanes.map (fun e => need (decide (e.1.headMax = 0) && decide (e.1.tailMax = 0) && decide (e.1.dp < 4) &&
      decide (e.1.bq ≤ firstBq) && decide (lastBq + 288 ≤ e.1.head) && decide (headEnd + 24 ≤ e.1.slu) &&
      decide (e.1.slu + 40 ≤ l - 1)) (0x8000 + e.2))),
    firstFault ((List.range 4).map (fun p => busyFault (bqUse p))),
    busyFault (outs.map (fun e => (e.1.head, e.1.headMax / 16, e.2)) ++ lanes.map (fun e => (e.1.head, laneHead, 0x8000 + e.2))),
    busyFault (outs.map (fun e => (e.1.slu, 16, e.2)) ++ lanes.map (fun e => (e.1.slu, 16, 0x8000 + e.2)))]

/-! ### Tail (R180, R181, R400) -/

/-- A tail chain: whose, its start counted from the frame's start, and TM. -/
structure Chain where
  who : Nat
  phase : Nat
  cycle : Nat
  start : Nat
  tm : Nat
  deriving DecidableEq, Repr

/-- The chains of the frame. -/
def chainsOf (i : Img) : List Chain :=
  (List.range i.f).flatMap (fun p => (tailPhase i p).map (fun e =>
    { who := e.1, phase := p, cycle := e.2, start := p * rateL i.rate + e.2,
      tm := if e.1 < 1024 then (i.cor.getD e.1 { headMax := 0, tailMax := 0, dp := 0, bq := 0, head := 0, slu := 0 }).tailMax else 30 }))

/-- D: how long a chain lasts (R180). -/
def chainD (r tm : Nat) : Nat := 8192 + 2 * rateWF r + (tm + 2) * rateQ r

/-- The outputs and lanes that have a chain a block (R181). -/
def reservedTails (i : Img) : List Nat :=
  ((i.cor.zipIdx.filter (fun e => decide (1 ≤ e.1.tailMax))).map Prod.snd) ++ (List.range i.lanes.length).map (0x8000 + ·)

/-- A chain lies in the work window and ends in time (R180), and is one that an output or lane has. -/
def chainFits (i : Img) (c : Chain) : Bool :=
  let q := rateQ i.rate
  decide (c.who ∈ reservedTails i) && decide (2 ≤ c.phase % q) && decide (c.phase % q ≤ q - 15) && decide (c.cycle < rateL i.rate) &&
  decide (c.phase % q * rateL i.rate + c.cycle + chainD i.rate c.tm ≤ (q - 14) * rateL i.rate)

/-- The DRAM requests of a chain: issue cycle, due cycle, bytes (R180, R400). -/
def chainReqs (r : Nat) (c : Chain) : List (Nat × Nat × Nat) :=
  let wf := rateWF r
  let wb := rateQ r
  let sp := rateSpec r
  let at_ := fun (n : Nat) => c.start + n
  [(at_ 0, at_ 8192, 2 * 56 * rateQ r)] ++
  (List.range (c.tm - 1)).map (fun p => (at_ (wf + 128 * p), at_ (8192 + wf + (p + 1) * wb), sp)) ++
  (List.range c.tm).map (fun p => (at_ (wf + 128 * p + 64), at_ (8192 + wf + p * wb), sp)) ++
  [(at_ (8192 + wf), at_ (8192 + wf + 8192), sp),
   (at_ (8192 + 2 * wf + c.tm * wb), at_ (8192 + 2 * wf + c.tm * wb + 8192), 100 * rateQ r)]

/-- The cycles of the tail port that a chain holds (R180). -/
def chainPort (r : Nat) (c : Chain) : List (Nat × Nat × Nat) :=
  let wf := rateWF r
  let wb := rateQ r
  [(c.start, 64, c.who)] ++
  (List.range (c.tm - 1)).map (fun p => (c.start + wf + 128 * p, 64, c.who)) ++
  (List.range c.tm).map (fun p => (c.start + wf + 128 * p + 64, 64, c.who)) ++
  [(c.start + 8192 + 2 * wf + c.tm * wb, 2 * wb, c.who)]

/-- The bytes requested in a period stay within 48 L (R181). -/
def periodFits (r : Nat) (reqs : List (Nat × Nat × Nat)) (p : Nat) : Bool :=
  decide (((reqs.filter (fun q => decide (q.1 / rateL r = p))).map (fun q => q.2.2)).sum ≤ 48 * rateL r)

/-- Requests in the order in which they are due, those issued before `s` left out: the bytes due by each due cycle stay within
56 bytes per cycle from `s`. -/
def demandFrom (s : Nat) : Nat → List (Nat × Nat × Nat) → Bool
  | _, [] => true
  | n, q :: qs =>
    if q.1 < s then demandFrom s n qs
    else decide (n + q.2.2 ≤ 56 * (q.2.1 - s)) && demandFrom s (n + q.2.2) qs

/-- The demand bound of R400, for requests in two frames on end, over the intervals that begin with a chain's first request, as
R400 measures a full chain. -/
def demandFits (starts : List Nat) (reqs : List (Nat × Nat × Nat)) : Bool :=
  let due := reqs.mergeSort (fun a b => decide (a.2.1 ≤ b.2.1))
  starts.all (fun s => demandFrom s 0 due)

/-- 0x0E. -/
def check0E (i : Img) : Option Nat :=
  let r := i.rate
  let cs := chainsOf i
  let q := rateQ r
  let wb := q
  let per := fun (w blk : Nat) => (cs.filter (fun c => decide (c.who = w) && decide (c.phase / q = blk))).length
  let reqs := cs.flatMap (chainReqs r)
  let twice := reqs ++ reqs.map (fun x => (x.1 + i.f * rateL r, x.2.1 + i.f * rateL r, x.2.2))
  firstFault [
    firstFault (cs.map (fun c => need (chainFits i c) c.who)),
    firstFault ((reservedTails i).map (fun w => need ((List.range (i.f / q)).all (fun b => decide (per w b = 1))) w)),
    busyFault (cs.flatMap (fun c => [(c.start + 8192, rateWF r, c.who), (c.start + 8192 + rateWF r + c.tm * wb, rateWF r, c.who)])),
    busyFault (cs.map (fun c => (c.start + 8192 + rateWF r, c.tm * wb, c.who))),
    busyFault (cs.flatMap (chainPort r)),
    need ((List.range i.f).all (periodFits r reqs)) 0xFFFF,
    need (demandFits (cs.map Chain.start) twice) 0xFFFF]

/-! ### Transport (R182, R231, R237, R287) -/

/-- The launcher cycles of a caravan of `n` channels (R182, R216). -/
def launchCycles (r n : Nat) : Nat := ((32 + 56 * n) * fCore r + 3124999999) / 3125000000

/-- The type of a launch's caravan (R214). -/
def Launch.ty (x : Launch) : Nat := x.b4 % 16

/-- Launches of a link with their issue order: they do not overlap, in the period or around its end. -/
def launchesGood (r : Nat) (xs : List Launch) : Bool :=
  let use := xs.map (fun x => (x.cycle, launchCycles r x.srcs.length, 0))
  (busyFault use).isNone && xs.all (fun x => decide (x.cycle < rateL r) &&
    xs.all (fun y => decide (x.cycle + launchCycles r x.srcs.length ≤ y.cycle + rateL r)))

/-- The cycle from which a channel can be launched; `j` counts the partial-sum channels before it (R174, R182). -/
def channelReady (i : Img) (ty src j : Nat) : Nat :=
  match ty with
  | 1 => match (i.hgt.filterMap (fun d => d.findIdx? (fun o => decide (o = src)))).head? with
    | some p => 96 * p + 136
    | none => rateL i.rate
  | 2 => rateL i.rate - 5088 + j
  | _ => match i.cor[src]? with
    | some e => e.slu + 40
    | none => rateL i.rate

/-- Every launch carries ready channels; `j` is the number of partial-sum channels of earlier links and launches (R231). -/
def readyFault (i : Img) : Nat → List (Nat × Launch) → Option Nat
  | _, [] => none
  | j, (link, x) :: rest =>
    let n := x.srcs.length
    let ok := decide (1 ≤ x.ty) && decide (x.ty ≤ 3) && decide (1 ≤ n) && decide (n ≤ 64) &&
      (x.srcs.zipIdx.all (fun s => decide (s.1 < 1024) && decide (channelReady i x.ty s.1 (j + s.2) ≤ x.cycle))) &&
      (decide (x.ty ≠ 2) || decide (j + n ≤ 1024))
    if ok then readyFault i (if x.ty = 2 then j + n else j) rest else some link

/-- The launches of all links, in the order of the section. -/
def allLaunches (i : Img) : List (Nat × Launch) := i.launches.zipIdx.flatMap (fun l => l.1.map (fun x => (l.2, x)))

/-- The import table: merge cycles in the window, 16 words a cycle (R174, R182). -/
def importsGood (i : Img) : Bool :=
  let l := rateL i.rate
  i.imports.all (fun e => decide (l - 7136 ≤ e.cycle) && decide (e.cycle ≤ l - 6113)) && decide ((i.imports.map ImpEnt.cycle).Nodup)

/-- A record of the transmit stream table (R275, R282, R287). -/
def txGood (i : Img) (t : TxEnt) : Bool :=
  decide (t.stream < 128) && decide ((i.txs.filter (fun u => decide (u.stream = t.stream))).length = 1) && decide (t.portA < 4) &&
  (decide (t.portB < 4) || decide (t.portB = 255)) && decide (t.pcode < 4) && decide (1 ≤ t.channels) && decide (t.channels ≤ 64) &&
  decide (t.channels * packetP i.rate t.pcode * 3 ≤ 9216) && t.stg.all (fun c => decide (c < 2048))

/-- The stream of a FORM entry. -/
def formStream (i : Img) (e : FormEnt) : Option TxEnt := i.txs.find? (fun t => decide (t.stream = e.stream))

/-- A FORM entry of port `p` (R287). -/
def formGood (i : Img) (p : Nat) (e : FormEnt) : Bool :=
  match formStream i e with
  | some t =>
    let pp := packetP i.rate t.pcode
    decide (t.portA = p) && decide (e.phase < i.f) && decide (e.cycle < rateL i.rate) &&
    decide ((16 * (e.phase : Int) + e.dofs) % pp = 0) && decide (-96 ≤ e.dofs) &&
    (!t.stg.all (fun c => decide (c < 1024)) || decide (e.dofs + pp ≤ 32))
  | none => false

/-- The packets of a stream cover each run of P time indices once over the frame (R287). -/
def formsCover (i : Img) (t : TxEnt) : Bool :=
  let pp := packetP i.rate t.pcode
  let us := ((i.forms.getD t.portA []).filter (fun e => decide (e.stream = t.stream))).map
    (fun e => (16 * (e.phase : Int) + e.dofs) % (16 * i.f : Nat))
  decide (16 * i.f % pp = 0) && decide (us.length = 16 * i.f / pp) && decide us.Nodup

/-- 0x0F. -/
def check0F (i : Img) : Option Nat :=
  firstFault [
    firstFault (i.launches.zipIdx.map (fun l => need (launchesGood i.rate l.1) l.2)),
    readyFault i 0 (allLaunches i),
    need (importsGood i) 0xFFFF,
    firstFault (i.txs.map (fun t => need (txGood i t) (0x0200 + t.stream))),
    firstFault (i.forms.zipIdx.map (fun p => need (p.1.all (formGood i p.2) &&
      decide ((p.1.map (fun e => (e.phase, e.cycle))).Nodup) &&
      (i.txs.filter (fun t => decide (t.portA = p.2))).all (formsCover i)) (0x0100 + p.2))),
    need (i.outImp.all (fun e => decide (1024 ≤ e.stg) && decide (e.stg < 2048))) 0xFFFE]

/-! ### The checks in order -/

/-- The checks after 0x05, in order, each with its code. -/
def imgChecks (limit : Nat) (b : List Byte) (i : Img) : Option (Nat × Nat) :=
  let raw8 := records 16 1024 (secOf b 1)
  let rawC := (countedLists 4 8 128 (secOf b 5)).1
  match check06 i with
  | some d => some (0x06, d)
  | none => match check07 limit i with
    | some d => some (0x07, d)
    | none => match check08 raw8 i with
      | some d => some (0x08, d)
      | none => match check09 i with
        | some d => some (0x09, d)
        | none => match check0A i with
          | some d => some (0x0A, d)
          | none => match check0B i with
            | some d => some (0x0B, d)
            | none => match check0C rawC i with
              | some d => some (0x0C, d)
              | none => match check0D i with
                | some d => some (0x0D, d)
                | none => match check0E i with
                  | some d => some (0x0E, d)
                  | none => match check0F i with
                    | some d => some (0x0F, d)
                    | none => none

/-- The signature's verdict of an image (R186, R188). -/
def imgSign (b : List Byte) : Bool × Bool :=
  signVerdict (decide (field b 7 1 % 2 = 1)) (imageDigest 48 (imgBody b)) (fit 64 (b.drop (imgBody b).length))

/-- The first check that an image fails, with its DETAIL (R187). -/
def imgVerdict (limit : Nat) (b : List Byte) : Option (Nat × Nat) :=
  match check01 b with
  | some d => some (0x01, d)
  | none => match check02 b with
    | some d => some (0x02, d)
    | none => match check03 b with
      | some d => some (0x03, d)
      | none =>
        if !digestGood 48 (imgBody b) then some (0x04, 0)
        else if !(imgSign b).1 then some (0x05, 0)
        else imgChecks limit b (parseImg b)

/-- The completion status of a failed check (R187). -/
def checkStatus (code : Nat) : Nat :=
  if code = 3 ∨ code = 4 ∨ code = 5 then stIntegrity else if code = 7 then stNotPermitted else stBad

end Sys2Proof.Machine
end

