-- ==== Sys2Proof/Machine/Tail.lean ====
section
/-! DEFINITION. The correction tail: its rings in DRAM, its chains, and the on-die tail buffer (R137 to R145, R151, R180, R195). -/

namespace Sys2Proof.Machine

/-! ## Sizes (R137 to R144) -/

/-- B: the tail block in samples. -/
def tailB (s : State) : Nat := 16 * tailQ s

/-- log2 of the transform's length. -/
def fftBits (s : State) : Nat := if isDouble s.clk.rate then 11 else 12

/-- Groups of 16 tranches in a block. -/
def blockGroups (s : State) : Nat := tailQ s / 16

/-- Bytes of a stored spectrum (R144). -/
def specSize (s : State) : Nat := 64 + 6 * tailB s

/-- The bins of a spectrum in DRAM. -/
def specAt (s : State) (a : Nat) : List Cx := specBins (tailB s) (dramGet s a (specSize s))

/-- The image whose tail programme computes the results that serve tranche `m` (R195): that of a committed swap from its N on. -/
def tailImg (s : State) (m : Nat) : Option Img :=
  if issuing s then
    match s.sch.swap with
    | some w => if !w.switched && decide (w.n ≤ m) && !swapPending s w then s.sch.shadowImg else passImg s m
    | none => passImg s m
  else none

/-- An output's reservation in an image. -/
def corEnt (i : Option Img) (o : Nat) : Option CEnt := i.bind (fun x => x.cor[o]?)

/-- An output has a tail reservation. -/
def hasTail (i : Option Img) (o : Nat) : Bool := (corEnt i o).any (fun e => decide (1 ≤ e.tailMax))

/-! ## Tail input ring (R144) -/

/-- The DRAM address of group `g` of history tranches. -/
def tailInGroup (s : State) (o g : Nat) : Nat :=
  tailInAddr o + (g / blockGroups s % 3 * blockGroups s + g % blockGroups s) * 896

/-- A group of an output's history as it enters the ring: nothing before the tail's start. -/
def inGroup (s : State) (o g : Nat) : List Blk :=
  (List.range 16).map (fun i => if 16 * g + i < tailStart s o then {} else smGet {} s.cor.hist (histKey o (16 * g + i : Nat)))

/-- Group `g` of every output with a reservation is written (R144). -/
def writeInGroups (g : Nat) (s : State) : State :=
  eachObj (fun o t => if hasTail (stageImg t (16 * g + 15)) o then dramPut (tailInGroup t o g) (groupBytes (inGroup t o g)) t else t) allOutputs s

/-! ## Chains (R137 to R143, R180) -/

/-- A tranche of a frame: its values, and whether it is bad (R145). `bad`: its data are not there (R180). -/
def frameTr (s : State) (o : Nat) (t : Int) (bad : Bool) : List Int × Bool :=
  let zero := List.replicate 16 0
  if t < tailStart s o then (zero, false)
  else
    let a := tailInGroup s o (t / 16).toNat
    let b := (groupBlks (dramGet s a 896)).getD (t % 16).toNat {}
    if bad || dramLost s (a + 48 * (t % 16).toNat) 48 || dramLost s (a + 768) 128 || !b.good then (zero, true)
    else (positions.map b.at, false)

/-- The frame of input block `b`: its 2B values and the tranches that are bad; `bad` lists frame positions, in tranches (R138). -/
def frameOf (s : State) (o b : Nat) (bad : List Nat) : List Int × List Int :=
  let q := tailQ s
  let trs := (List.range (2 * q)).map (fun (i : Nat) => ((q : Int) * b - q + i, frameTr s o ((q : Int) * b - q + i) (decide (i ∈ bad))))
  (trs.flatMap (fun e => e.2.1), (trs.filter (fun e => e.2.2)).map Prod.fst)

/-- HIST_ERR of each bad tranche of a frame (R145). -/
def frameErrs (o : Nat) : List Int → State → State
  | [], s => s
  | t :: ts, s => frameErrs o ts
      (ledgerLim 0x0C01 4 o 1 (fun c => (o, t.toNat % 2 ^ 32, c)) (evRaise aCorEvt 2 (corCount 28 1 o s)))

/-- A partition's term is left out: its data are not there, or a line is uncorrectable (R145, R180). -/
def partBad (s : State) (o b p specA : Nat) (bad : List Nat) : Bool :=
  decide (p ∈ bad) || dramLost s specA (specSize s) || (decide (1 ≤ p) && dramLost s (fdlAddr o (b - p)) (specSize s))

/-- The accumulation over the partitions of a set (R142): `x0` is X_b, `addr` gives the partition spectra. -/
def accumulate (s : State) (o b : Nat) (x0 : List Cx) (addr : Nat → Nat) (bad : List Nat) : List Nat → List Cx → List Cx
  | [], z => z
  | p :: ps, z =>
    let x := if p = 0 then x0 else if b < p then [] else specAt s (fdlAddr o (b - p))
    accumulate s o b x0 addr bad ps
      (if x.isEmpty || partBad s o b p (addr p) bad then z
       else addTerm (if isDouble s.clk.rate then 13 else 11) z x (specAt s (addr p)))

/-- A block's tail output as its groups lie in the ring: 256 samples and 16 checks each (R144). -/
def outGroups (t : List Int) : List Byte :=
  (List.range (t.length / 256)).flatMap (fun g =>
    let xs := (t.drop (256 * g)).take 256
    xs.flatMap (leInt 6) ++ (List.range 16).flatMap (fun i => leBytes 4 (tailCheck ((xs.drop (16 * i)).take 16))))

/-- What a chain reads of DRAM (R180): the groups of input blocks b - 1 and b, X_(b-1) on, and the partition spectra, up to its TM. -/
def chainRuns (s : State) (o b tm : Nat) (addr : Nat → Nat) : List (Nat × Nat) :=
  let q := blockGroups s
  ((List.range (2 * q)).filter (fun i => decide (q ≤ q * b + i))).map (fun i => (tailInGroup s o (q * b + i - q), 896)) ++
  (List.range (tm - 1)).map (fun p => (fdlAddr o (b + 30 - p), specSize s)) ++
  (List.range tm).map (fun p => (addr p, specSize s))

/-- A tail chain on input block `b` of an output for one set: frame, spectrum, accumulation, inverse and tail output at `outA`. `own`: the
output's own chain, which stores X_b. Lines and data that it misses are treated under R145. -/
def chainOp (o b tm : Nat) (c : CSet) (addr : Nat → Nat) (outA : Nat) (own : Bool) (obs : ChainObs) (s : State) : State :=
  let rd := readRuns 1 (chainRuns s o b tm addr) obs.errs s
  let v := rd.2
  let f := frameOf v o b obs.lateFrame
  let r := fft (fftBits s) (f.1.map (fun x => { re := x * 64, im := 0 }))
  let xb := specBytes (tailB s) (packBins (tailB s) r.1)
  let late := obs.latePart.filter (fun p => decide (p < c.parts))
  let z := accumulate v o b (specBins (tailB s) xb) addr late (List.range c.parts) (List.replicate (tailB s) {})
  let t := tailSamples (fftBits s) z
  let miss := (List.range c.parts).any (fun p => partBad v o b p (addr p) late)
  let s1 := frameErrs o f.2 (if own then dramPut (fdlAddr o b) xb rd.1 else rd.1)
  let s2 := corClip 16 (r.2 + t.2) o (dramPut (outA + b % 2 * blockGroups s * 1600) (outGroups t.1) s1)
  if miss then tailMiss o b s2 else s2

/-- The addresses of the partition spectra of the set in force at `n` (R394). -/
def specAddrs (s : State) (o n : Nat) : Nat → Nat := match slotAt s o n with
  | some k => slotSpecAddr k
  | none => setSpecAddr o

/-- The smallest slack since the last read (R163). -/
def noteSlack (slack : Nat) (s : State) : State :=
  setField s aCorStat 15 0 (min (Word.bits (getReg s aCorStat) 15 0) slack)

/-- The chain's name in an image's tail section (R185), and in the tail's stores. -/
def chainName : CorrUnit → Nat
  | .out o => o
  | .lane x => 0x8000 + x
def chainSrc : CorrUnit → Nat
  | .out o => o
  | .lane x => 1024 + x

/-- The tail port holds panic while a fetch is outstanding for more than 2 periods, or late chain data have not arrived (R397). -/
def settleTail (s : State) : State := panicTail (s.cor.tailReq.any (fun f => f.panic) || !s.cor.lateChain.isEmpty) s

/-- Chain data that have not arrived 2,048 core cycles before they are needed assert panic (R397). -/
def chainPanic (src : Nat) (obs : ChainObs) (s : State) : State :=
  if obs.panic then settleTail (setCor s (fun c => { c with lateChain := src :: c.lateChain.filter (fun x => decide (x ≠ src)) })) else s

/-- A chain of the tail section on input block `b`, whose results serve the block from tranche `m` on (R137, R180, R181). -/
def tailUnit (u : CorrUnit) (i : Img) (b m : Nat) (obs : ChainObs) (s : State) : State :=
  match u with
  | .out o => if hasTail (some i) o then
      chainOp o b ((corEnt (some i) o).map CEnt.tailMax |>.getD 0) (setAt s o m) (specAddrs s o m) (tailOutAddr o) true obs s else s
  | .lane x => match laneBlockXf s x m with
    | some y => if hasTail (some i) y.out && decide (x < i.lanes.length) then
        chainOp y.out b 30 (slotSet s y.slot) (slotSpecAddr y.slot) (laneOutAddr x) false obs s else s
    | none => s

/-- TAIL_CHAIN: a chain that the image's tail section starts in this phase of the frame (R166, R179); `slack` in units of 256 core cycles.
In no-DRAM mode the tail port issues nothing (R406). -/
def execTailChain (u : CorrUnit) (slack : Nat) (obs : ChainObs) (s : State) : Host.Outcome State Fault Refusal :=
  let q := tailQ s
  let k := s.clk.tidx
  let b := (k - 2) / q - 1
  let m := q * (b + 2)
  .next (if s.drc.noDram ∨ k < q + 2 then s
    else match tailImg s m with
      | none => s
      | some i => if (tailPhase i (k % i.f)).any (fun e => decide (e.1 = chainName u)) then
          noteSlack slack (chainPanic (chainSrc u) obs (tailUnit u i b m obs s)) else s)

/-! ## Tail output fetches (R144, R397) -/

/-- The lanes whose tail serves a tranche of group `g`. -/
def laneNeeds (s : State) (g : Nat) : List Nat :=
  (s.cor.xfs.filter (fun x => x.tok.isNone && decide (x.n < 16 * g + 16) && decide (16 * g / tailQ s ≤ (x.stop - 1) / tailQ s) &&
    hasTail (tailImg s (16 * g)) x.out)).map (fun x => 1024 + x.lane)

/-- Group `g` of tail output is fetched for the outputs and lanes that need it. -/
def issueTail (k g : Nat) (s : State) : State :=
  let need := allOutputs.filter (hasTail (tailImg s (16 * g))) ++ laneNeeds s g
  setCor s (fun c => { c with tailReq := c.tailReq ++ need.map (fun o => { out := o, grp := g, issued := k, panic := false }) })

/-- The tail at H_k: the finished history group goes to the ring, the next output group is fetched, late fetches assert panic, and
fetches whose group is over are dropped (R144, R397). -/
def tailBoundary (k : Nat) (s : State) : State :=
  if s.drc.noDram then setCor s (fun c => { c with tailReq := [], buf := [], lateChain := [] })
  else
    let s1 := if k % 16 = 2 ∧ 18 ≤ k then writeInGroups ((k - 18) / 16) s else s
    let s2 := if k % 16 = 2 then issueTail k ((k + 14) / 16) s1 else s1
    settleTail (setCor s2 (fun c =>
      let live := c.tailReq.filter (fun f => decide (k < 16 * f.grp + 18))
      { c with tailReq := live.map (fun f => if f.issued + 2 < k then { f with panic := true } else f) }))

/-- The DRAM address of a group of tail output of an output, or of lane `src - 1024`. -/
def outGroupAddr (s : State) (src g : Nat) : Nat :=
  (if src < 1024 then tailOutAddr src else laneOutAddr (src - 1024)) + (g / blockGroups s % 2 * blockGroups s + g % blockGroups s) * 1600

/-- The tranches of a fetched group with their checks; one whose samples or check lie in an uncorrectable line is missing. -/
def groupTrs (s : State) (a : Nat) : List (Option (List Int × Nat)) :=
  let bs := dramGet s a 1600
  (List.range 16).map (fun t =>
    if dramLost s (a + 96 * t) 96 || dramLost s (a + 1536) 64 then none
    else some ((List.range 16).map (fun j => signed 48 (field bs (96 * t + 6 * j) 6)), field bs (1536 + 4 * t) 4))

/-- TAIL_READ_DONE: a group of tail output, or the last late data of a chain, arrives (R144, R145, R397, R408). -/
def execTailReadDone (r : TailRead) (s : State) : Host.Outcome State Fault Refusal :=
  .next (match r with
    | .chain src => settleTail (setCor s (fun c => { c with lateChain := c.lateChain.filter (fun x => decide (x ≠ src)) }))
    | .output o g errs =>
      if s.cor.tailReq.any (fun f => decide (f.out = o) && decide (f.grp = g)) then
        let a := outGroupAddr s o g
        let r := readRuns 1 [(a, 1600)] errs s
        let got : TailGrp := { grp := g, trs := groupTrs r.2 a }
        settleTail (setCor r.1 (fun c => { c with
          tailReq := c.tailReq.filter (fun f => !(decide (f.out = o) && decide (f.grp = g))),
          buf := smSet none c.buf (o * 2 + g % 2) (some got) }))
      else s)

/-! ## Zero rings (R145, R151, R159, R190) -/

/-- An output's frequency delay line and tail rings are zero, and what is on die of them is gone; the tail serves from `n` on. -/
def zeroTail (n o : Nat) (s : State) : State :=
  let s1 := setCor (setOut s o { outAt s o with tailFrom := some n }) (fun c => { c with
    buf := smDrop (smDrop c.buf (o * 2)) (o * 2 + 1),
    tailReq := c.tailReq.filter (fun f => decide (f.out ≠ o)) })
  if s.drc.noDram then s1 else dramZero (tailBase o) 430016 s1

/-- The outputs whose tail reservation is new in an image start from zero rings at `n` (R145, R151). -/
def startTails (n : Nat) (old new : Option Img) (s : State) : State :=
  eachObj (fun o t => if hasTail new o && !hasTail old o then zeroTail n o t else t) allOutputs s

/-- Reservations that begin (R145, R151, R195): with a swap at H_(N-Q+2), with a restart that takes the shadow at H_N, which it may follow
by less than Q periods (R201). -/
def newReservations (k : Nat) (s : State) : State :=
  match s.sch.swap with
  | some w =>
    if !w.switched && decide (w.n + 2 = k + tailQ s) then startTails w.n s.sch.activeImg s.sch.shadowImg s
    else if w.byRestart && decide (w.n = k) then startTails w.n s.sch.old s.sch.activeImg s
    else s
  | none => s

/-- CORR_CLEAR_STATE takes effect (R159): equaliser state, history, delay line and tail rings from data tranche `n` on. -/
def clearOut (n o : Nat) (s : State) : State :=
  zeroTail n o (setCor (setOut s o { outAt s o with bz := List.replicate 16 {}, zNew := none, head := none, headNew := none })
    (fun c => { c with hist := smClearRange c.hist (o * 257) 257 }))

end Sys2Proof.Machine
end

