-- ==== Sys2Proof/Machine/CorrDesc.lean ====
section
/-! DEFINITION. The descriptors of output correction, sluices and meters, and the read of `COR_STAT` (R146 to R150, R154, R156,
R157, R159 to R163, R196). -/

namespace Sys2Proof.Machine

/-- A set fits a reservation (R146). -/
def setFits (c : CSet) (e : CEnt) : Bool := decide (c.headLen ≤ e.headMax) && decide (c.parts ≤ e.tailMax)

/-- A set fits an output's reservation in an image. -/
def fitsImg (c : CSet) (i : Img) (o : Nat) : Bool := (i.cor[o]?).any (setFits c)

/-- A slot is being loaded, or held by a pending or running switch (R147, R163). -/
def slotBusy (s : State) (k : Nat) : Bool :=
  s.cor.loading.any (fun x => decide (x.slot = k)) || s.cor.xfs.any (fun x => decide (x.slot = k) && !x.done)

/-- Crossfades that cover data tranche `n` (R150). -/
def crossfadesAt (s : State) (n : Nat) : Nat := (s.cor.xfs.filter (fun x => !x.done && decide (x.n ≤ n) && decide (n < x.stop))).length

/-! ## CORR_STAGE (R147) -/

/-- The spectrum of partition `p` of a list of tail taps, as stored (R138, R139, R141). -/
def partSpectrum (s : State) (taps : List Int) (p : Nat) : List Byte :=
  let b := tailB s
  let h := (taps.drop (p * b)).take b
  let r := fft (fftBits s) (h.map (fun c => (⟨c * 4096, 0⟩ : Cx)) ++ List.replicate b (⟨0, 0⟩ : Cx))
  specBytes b (packBins b r.1)

/-- The partition spectra are stored in a slot's region (R394). -/
def storeParts (k : Nat) (taps : List Int) : List Nat → State → State
  | [], s => s
  | p :: ps, s => storeParts k taps ps (dramPut (slotSpecAddr k p) (partSpectrum s taps p) s)

/-- Taps of a host block: s32 entries. -/
def tapsOf (n : Nat) (b : List Byte) : List Int := (chunks 4 n b).map (fun e => signed 32 (leNat e))

/-- Entries hold s24 values. -/
def taps24 (l : List Int) : Bool := l.all fits24

/-- The parts that a CORR_STAGE loads: sections, head taps, tail taps; `none` at the offset of a block that cannot be read. -/
def stageBlocks (d : Desc) (s : State) : (Option (List Byte) × Option (List Byte) × Option (List Byte)) :=
  let lb := plBit d 1 0
  let lh := plBit d 1 1
  let hl := pl d 2 2
  let n := pl d 4 1 * tailB s
  let i1 := if lb then 1 else 0
  let i2 := i1 + (if lh then 1 else 0)
  (if lb then hostBlock d 0 320 else some [],
   if lh ∧ 0 < hl then hostBlock d i1 (4 * hl) else some [],
   if plBit d 1 2 ∧ 0 < n then hostBlock d i2 (4 * n) else some [])

/-- CORR_STAGE is accepted: what it loads goes into the slot, which is loading until its last partition is stored. -/
def stageOp (d : Desc) (bq hd tl : List Byte) (s : State) : State :=
  let k := pl d 0 1
  let c := slotSet s k
  let parts := pl d 4 1
  let c1 : CSet := { c with
    bq := if plBit d 1 0 then (List.range 16).map (fun i => bqcAt bq (20 * i)) else c.bq,
    head := if plBit d 1 1 then tapsOf (pl d 2 2) hd else c.head,
    headLen := if plBit d 1 1 then pl d 2 2 else c.headLen,
    parts := if plBit d 1 2 then parts else c.parts,
    shift := pl d 5 1 }
  let s1 := if plBit d 1 2 then storeParts k (tapsOf (parts * tailB s) tl) (List.range parts) s else s
  let job : Staging := { slot := k, tok := d.tok, parts := parts }
  setCor s1 (fun x => { x with slots := smSet {} x.slots k c1, loading := x.loading ++ [job] })

/-- CORR_STAGE. -/
def execCorrStage (d : Desc) (s : State) : Host.Outcome State Fault Refusal :=
  let hl := pl d 2 2
  let parts := pl d 4 1
  .next (checked d [(0, 6), (8, 24)] [(0, decide (pl d 0 1 ≤ 63)), (1, decide (pl d 1 1 ≤ 7)), (2, decide (hl % 16 = 0) && decide (hl ≤ 2 * tailB s)),
      (4, decide (parts ≤ 30)), (5, decide (pl d 5 1 ≤ 3))] s
    (match stageBlocks d s with
      | (none, _, _) => badBlock d 8 s
      | (_, none, _) => badBlock d 16 s
      | (_, _, none) => badBlock d 24 s
      | (some bq, some hd, some tl) =>
        if !(taps24 (tapsOf (hd.length / 4) hd) && taps24 (tapsOf (tl.length / 4) tl)) then badField d 0xFFFF s
        else if 0 < parts ∧ s.drc.noDram then finish d stNotPermitted s
        else if slotBusy s (pl d 0 1) then finish d stNotPermitted s
        else stageOp d bq hd tl s))

/-- CORR_STAGE_DONE: the last partition is stored (R147). -/
def execCorrStageDone (k : Nat) (s : State) : Host.Outcome State Fault Refusal :=
  .next (match s.cor.loading.find? (fun x => decide (x.slot = k)) with
    | some x => report x.tok stOk 0 0 (setCor s (fun c => { c with loading := c.loading.filter (fun y => decide (y.slot ≠ k)) }))
    | none => s)

/-- What an abort leaves in a slot that was loading: undefined content in its range (R324), a free value. -/
def freeSet (ctr : Nat) : CSet :=
  let f := fun i => Config.freeInt (ctr + i)
  { bq := (List.range 16).map (fun i => { b0 := satS 32 (f (5 * i)), b1 := satS 32 (f (5 * i + 1)), b2 := satS 32 (f (5 * i + 2)),
                                          a1 := satS 32 (f (5 * i + 3)), a2 := satS 32 (f (5 * i + 4)) }),
    head := (List.range 4096).map (fun i => satS 24 (f (80 + i))), headLen := (f 4176).toNat % 257 * 16,
    parts := (f 4177).toNat % 31, shift := (f 4178).toNat % 4 }

/-- A load of a slot is withdrawn by an abort (R324). -/
def dropStage (x : Staging) (s : State) : State :=
  let s1 := setCor s (fun c => { c with slots := smSet {} c.slots x.slot (freeSet s.freeCtr), loading := c.loading.filter (fun y => decide (y.slot ≠ x.slot)) })
  let s2 := { s1 with freeCtr := s.freeCtr + 4180 }
  if s.drc.noDram then s2 else dramPut (slotSpecAddr x.slot 0) ((List.range 370560).map (Config.freeByte s2.freeCtr)) (draw s2)

/-! ## CORR_SWITCH (R148 to R150, R179, R196) -/

/-- The N of a switch with NOW: the earliest whose deadline has not passed (R148). -/
def switchNow (s : State) (o k : Nat) : Nat :=
  let t := if s.clk.tidxValid then s.clk.tidx else 0
  t + ((List.range (2 * tailQ s + 1)).find? (fun i => beforeH s (switchDeadline s o k (t + i)))).getD 0

/-- Two crossfades need different lanes: they share a data tranche, or both need the tail of a block. -/
def laneClash (s : State) (n f : Nat) (tails : Bool) (x : Xf) : Bool :=
  let q := tailQ s
  (decide (x.n < n + f) && decide (n < x.stop)) ||
  (tails && (decide (0 < (slotSet s x.slot).parts) || decide (0 < (setAt s x.out x.n).parts)) &&
    decide (x.n / q ≤ (n + f - 1) / q) && decide (n / q ≤ (x.stop - 1) / q))

/-- Some crossfade has a set with a tail on either side. -/
def hasTails (s : State) (n o k : Nat) : Bool := decide (0 < (slotSet s k).parts) || decide (0 < (setAt s o n).parts)

/-- The lowest lane below `par` that is free for the crossfade of output `o` (R179): free in its tranches and, where sets have tails, in the
blocks that they serve; else free in its tranches, and its tail is missed where the lane computes another's. None free: 64. -/
def freeLane (s : State) (n f o k par : Nat) : Nat :=
  let used := fun tails => ((s.cor.xfs.filter (fun x => !x.done && !(decide (x.out = o) && decide (x.n = n)) && laneClash s n f tails x)).map Xf.lane)
  match (List.range par).find? (fun l => !decide (l ∈ used (hasTails s n o k))) with
  | some l => l
  | none => ((List.range par).find? (fun l => !decide (l ∈ used false))).getD 64

/-- The lanes that the images governing a crossfade's tranches have. -/
def xfPar (s : State) (n f : Nat) : Nat := ((List.range f).filterMap (fun i => (govImg s (n + i)).map Img.xfPar)).foldl min 64

/-- A crossfade moves to another lane with what its lane's tail has stored. -/
def moveLane (x : Xf) (l : Nat) (s : State) : State :=
  let s1 := setCor s (fun c => { c with
    xfs := c.xfs.map (fun y => if y = x then { y with lane := l } else y),
    buf := smSet none (smSet none c.buf ((1024 + l) * 2) (smGet none c.buf ((1024 + x.lane) * 2)))
      ((1024 + l) * 2 + 1) (smGet none c.buf ((1024 + x.lane) * 2 + 1)),
    tailReq := c.tailReq.map (fun r => if r.out = 1024 + x.lane then { r with out := 1024 + l } else r) })
  if s.drc.noDram ∨ 64 ≤ x.lane then s1 else dramPut (laneOutAddr l) (dramGet s (laneOutAddr x.lane) 25600) s1

/-- Crossfades whose lane the governing images do not have take one that is free, so that a swap to an image of fewer lanes carries them
(R151); so do those that had none free when they were accepted. -/
def assignLanes : List Xf → State → State
  | [], s => s
  | x :: xs, s =>
    let par := xfPar s x.n x.f
    let l := freeLane s x.n x.f x.out x.slot par
    assignLanes xs (if x.done || decide (x.lane < par) || decide (64 ≤ l) then s else moveLane x l s)

/-- Another switch of the output has not begun, or covers `n` (R150). -/
def outBusy (s : State) (o n : Nat) : Bool :=
  s.cor.xfs.any (fun x => decide (x.out = o) && !x.done && (beforeH s ((x.n : Int) + 2) || (decide (x.n ≤ n) && decide (n < x.stop))))

/-- An armed swap would be incompatible with the switch (R151, R196). -/
def switchBreaksSwap (s : State) (o n f : Nat) (c : CSet) : Bool :=
  match armedShadow s with
  | some (m, i) => !fitsImg c i o || (decide (n ≤ m) && decide (m < n + f) && decide (i.xfPar < crossfadesAt s m + 1))
  | none => false

/-- CORR_SWITCH. -/
def execCorrSwitch (d : Desc) (s : State) : Host.Outcome State Fault Refusal :=
  let o := pl d 10 2
  let k := pl d 12 1
  let f := pl d 13 1
  .next (checked d [(0, 9), (10, 4)] [(8, decide (pl d 8 1 ≤ 1)), (10, decide (o ≤ 1023)), (12, decide (k ≤ 63)), (13, decide (1 ≤ f) && decide (f ≤ 16))] s
    (let n := keyN d (switchNow s o k)
     let c := slotSet s k
     let full := (List.range f).any (fun i => (govImg s (n + i)).any (fun g => decide (g.xfPar < crossfadesAt s (n + i) + 1)))
     if !beforeH s (switchDeadline s o k n) then finish d stLate s
     else if slotBusy s k || outBusy s o n || (govImg s n).any (fun i => !fitsImg c i o) || switchBreaksSwap s o n f c then finish d stNotPermitted s
     else if full then finish d stNoResource s
     else
       let x : Xf := { n := n, f := f, out := o, slot := k, lane := freeLane s n f o k (xfPar s n f), tok := some d.tok,
                       bz := List.replicate 16 {}, done := false }
       setCor s (fun e => { e with xfs := e.xfs ++ [x] })))

/-! ## CORR_SET_READ (R159) -/

/-- A set as CORR_SET_READ writes it, but for its spectra. -/
def setBytes (c : CSet) : List Byte :=
  leBytes 2 c.headLen ++ leBytes 1 c.parts ++ leBytes 1 c.shift ++ zeros 12 ++
  c.bq.flatMap (fun q => leInt 4 q.b0 ++ leInt 4 q.b1 ++ leInt 4 q.b2 ++ leInt 4 q.a1 ++ leInt 4 q.a2) ++
  (List.range c.headLen).flatMap (fun i => leInt 4 (nth c.head i))

/-- CORR_SET_READ; `errs` are the lines read with errors. An uncorrectable line of a spectrum completes INTEGRITY (R408); in no-DRAM mode no
line of DRAM is used, and the read of a set with partition spectra is refused as CORR_STAGE is (R160, R406). -/
def execCorrSetRead (d : Desc) (errs : List LineErr) (s : State) : Host.Outcome State Fault Refusal :=
  let mode := pl d 8 1
  let x := pl d 10 2
  .next (checked d [(0, 9), (10, 2)] [(8, decide (mode ≤ 1)), (10, decide (x ≤ if mode = 0 then 1023 else 63))] s
    (let c := if mode = 0 then (outAt s x).set else slotSet s x
     let addr := fun p => if mode = 0 then setSpecAddr x p else slotSpecAddr x p
     let runs := (List.range c.parts).map (fun p => (addr p, specSize s))
     let r := readRuns 2 runs errs s
     if 0 < c.parts ∧ s.drc.noDram then finish d stNotPermitted s
     else if runs.any (fun x => dramLost r.2 x.1 x.2) then finish d stIntegrity r.1
     else finish d stOk (hostWrite (pl d 0 8) (setBytes c ++ runs.flatMap (fun x => dramGet r.2 x.1 x.2)) r.1)))

/-! ## Sluices (R154) -/

/-- SLUICE_SET. RT is tested where it is used, and so is MRT. -/
def execSluiceSet (d : Desc) (s : State) : Host.Outcome State Fault Refusal :=
  let first := pl d 10 2
  let count := pl d 12 2
  let sg := plBit d 8 1
  let sm := plBit d 8 2
  .next (checked d [(0, 9), (10, 4), (16, 8)] [(8, decide (pl d 8 1 ≤ 7)), (10, decide (first ≤ 1023)), (12, inRange first count 1024),
      (16, decide (pl d 16 4 ≤ 0x40000000)), (20, !sg || (decide (1 ≤ pl d 20 2) && decide (pl d 20 2 ≤ 64))), (22, decide (pl d 22 1 ≤ 1)),
      (23, !sm || (decide (1 ≤ pl d 23 1) && decide (pl d 23 1 ≤ 16)))] s
    (armOutput d (.sluiceSet first count (if sg then some ((pl d 16 4 : Nat), pl d 20 2) else none)
      (if sm then some (plBit d 22 0, pl d 23 1) else none)) s))

/-- SLUICE_SET takes effect at `n`: ramps begin at the values in force (R154). -/
def applySluice (n first count : Nat) (gain : Option (Int × Nat)) (mute : Option (Bool × Nat)) (s : State) : State :=
  eachObj (fun o t =>
    let x := outAt t o
    let x1 := match gain with
      | some g => { x with gain := { a := x.gain.before n, b := g.1, n := n, len := g.2 } }
      | none => x
    setOut t o (match mute with
      | some m => { x1 with mute := { a := x1.mute.before n, b := if m.1 then 0 else 16777216, n := n, len := m.2 }, muted := m.1 }
      | none => x1)) (span first count) s

/-! ## Meters (R156, R157, R160) -/

/-- METER_CFG. -/
def execMeterCfg (d : Desc) (s : State) : Host.Outcome State Fault Refusal :=
  let w := pl d 10 2
  .next (checked d [(0, 9), (10, 2), (16, 8)] [(8, decide (pl d 8 1 ≤ 1)), (10, decide (1 ≤ w) && decide (w ≤ 4096))] s
    (match hostBlock d 0 2048 with
      | some b => armOutput d (.meterCfg w (chunks 128 16 b)) s
      | none => badBlock d 16 s))

/-- METER_CFG takes effect at `n`: a new window begins (R156). -/
def applyMeter (n w : Nat) (groups : List (List Byte)) (s : State) : State :=
  setCor s (fun c => { c with meterW := w, meterN0 := n, groups := groups, out := smModAll {} c.out allOutputs (fun _ x => { x with meter := {} }) })

/-- PEAK of a latched meter (R157). -/
def peakOf (m : Meter) : Int := max m.mx (-m.mn)

/-- The member of a group with the largest (or smallest) PEAK, the lowest output among equals (R157). -/
def pickPeak (s : State) (largest : Bool) : List Nat → Option (Nat × Int)
  | [] => none
  | o :: os =>
    let p := peakOf (outAt s o).latched
    match pickPeak s largest os with
    | some b => if (if largest then decide (b.2 ≤ p) else decide (p ≤ b.2)) then some (o, p) else some b
    | none => some (o, p)

/-- A 48-byte record of an output (R160). -/
def meterRecord (s : State) (o : Nat) : List Byte :=
  let m := (outAt s o).latched
  leBytes 2 o ++ zeros 2 ++ leInt 4 m.mx ++ leInt 4 m.mn ++ zeros 4 ++ leBytes 8 m.mxT ++ leBytes 8 m.mnT ++ leBytes 8 m.sumsq ++ leBytes 8 s.cor.meterFirst

/-- A 32-byte record of a group (R160). -/
def groupRecord (s : State) (g : Nat) : List Byte :=
  let os := allOutputs.filter (bitSet (s.cor.readGroups.getD g []))
  let hi := (pickPeak s true os).getD (0xFFFF, 0)
  let lo := (pickPeak s false os).getD (0xFFFF, 0)
  leBytes 1 g ++ zeros 1 ++ leBytes 2 os.length ++ leBytes 2 hi.1 ++ leBytes 2 lo.1 ++ leInt 4 hi.2 ++ leInt 4 lo.2 ++ leBytes 8 s.cor.meterFirst ++ zeros 8

/-- METER_READ. -/
def execMeterRead (d : Desc) (s : State) : Host.Outcome State Fault Refusal :=
  let mode := pl d 8 1
  let first := pl d 10 2
  let count := pl d 12 2
  let size := if mode = 1 then 16 else 1024
  .next (checked d [(0, 9), (10, 4)] [(8, decide (mode ≤ 1)), (10, decide (first < size)), (12, inRange first count size)] s
    (finish d stOk (hostWrite (pl d 0 8) ((span first count).flatMap (if mode = 0 then meterRecord s else groupRecord s)) s)))

/-! ## CORR_STATUS and CORR_CLEAR_STATE (R159 to R161) -/

/-- Zs is below 2^24 in the tranche in hand (R163). -/
def silentNow (s : State) : Bool := decide (s.cor.zs < 16777216) || decide (s.cor.zTo < 16777216)

/-- A 32-byte record of an output (R161). -/
def corrRecord (s : State) (o : Nat) : List Byte :=
  let n := s.clk.tidx - 2
  let b := fun (x : Bool) (k : Nat) => if x then 2 ^ k else 0
  let slot := ((s.cor.xfs.find? (fun x => decide (x.out = o) && !x.done)).map Xf.slot).getD 0xFF
  leBytes 2 o ++ leBytes 1 (b (xfAt s o n).isSome 0 + b (hasTail (stageImg s n) o) 1 + b (silentNow s) 2 + b (outAt s o).muted 3) ++
  leBytes 1 slot ++ words32 ([4, 8, 12, 16, 20, 24, 28].map (cntAt (outAt s o).cnt))

/-- CORR_STATUS. -/
def execCorrStatus (d : Desc) (s : State) : Host.Outcome State Fault Refusal :=
  let first := pl d 10 2
  let count := pl d 12 2
  .next (checked d [(0, 8), (10, 5)] [(10, decide (first ≤ 1023)), (12, inRange first count 1024), (14, decide (pl d 14 1 ≤ 1))] s
    (let s1 := hostWrite (pl d 0 8) ((span first count).flatMap (corrRecord s)) s
     finish d stOk (if plBit d 14 0 then eachObj (fun o t => setOut t o { outAt t o with cnt := [] }) (span first count) s1 else s1)))

/-- CORR_CLEAR_STATE. -/
def execCorrClearState (d : Desc) (s : State) : Host.Outcome State Fault Refusal :=
  let first := pl d 10 2
  let count := pl d 12 2
  .next (checked d [(0, 9), (10, 4)] [(8, decide (pl d 8 1 ≤ 1)), (10, decide (first ≤ 1023)), (12, inRange first count 1024)] s
    (let n := keyN d (if s.clk.tidxValid then s.clk.tidx else 0)
     if beforeH s ((n : Int) + 1) && (span first count).any (fun o => (xfAt s o n).isSome) then finish d stNotPermitted s
     else armOutput d (.corrClear first count) s))

/-! ## COR_STAT (R163) -/

/-- `COR_STAT` as it reads. -/
def corStatWord (s : State) : Word :=
  Word.put (getReg s aCorStat) 22 16 (min 64 (if s.clk.tidx < 2 then 0 else crossfadesAt s (s.clk.tidx - 2)))

/-- COR_STAT_READ: the read resets TAIL_SLACK. -/
def corStatReadOp (s : State) : State := setField { s with rdata := [corStatWord s] } aCorStat 15 0 0xFFFF
def execCorStatRead (be : BitVec 4) (s : State) : Host.Outcome State Fault Refusal := .next (narrow be (corStatReadOp s))

end Sys2Proof.Machine
end

