-- ==== Sys2Proof/Machine/Schedule.lean ====
section
/-! DEFINITION. Loading, starting, swapping, stopping and restarting schedule images, and the schedule records (R187 to R206,
R520, R524). -/

namespace Sys2Proof.Machine

/-! ## Stores (R183, R187) -/

/-- The bytes of a store up to its last non-zero one. -/
def trimZeros (b : List Byte) : List Byte := (b.reverse.dropWhile (fun x => decide (x = 0))).reverse

/-- Bytes written into a store at an offset. -/
def storeWrite (b : List Byte) (off : Nat) (bs : List Byte) : List Byte :=
  trimZeros (fit off (b.take off) ++ bs ++ b.drop (off + bs.length))

/-- A matrix write into the shadow store, which lies at 0x0200_0000 (R187). An armed swap takes the store as it stands. -/
def shadowPut (a : Nat) (bs : List Byte) (s : State) : State :=
  if bs.isEmpty || decide (a < 0x02000000) || decide (0x03000000 < a + bs.length) then s
  else
    let b := storeWrite s.sch.shadow (a - 0x02000000) bs
    setSch s (fun h => { h with
      shadow := b, shadowValid := false, shadowSigned := false,
      shadowImg := if h.shadowImg.isSome then some (parseImg b) else none })

/-- SHADOW_STORE_WRITE (R187). -/
def execShadowStoreWrite (a : Nat) (bs : List Byte) (s : State) : Host.Outcome State Fault Refusal := .next (shadowPut a bs s)

/-! ## Loading (R187, R188, R205, R206) -/

/-- A swap is armed, or its sections are switching (R194). -/
def swapArmed (s : State) : Bool := s.sch.swap.any (fun w => !w.byRestart)

/-- An armed action of a kind: 1 start, 3 stop, 4 restart. -/
def armedKind (s : State) (k : Nat) : Option Armed := s.sch.armed.filter (fun a => decide (a.kind = k))

/-- `SCH_LOAD_STAT.CHECK` and DETAIL. -/
def loadStat (code detail : Nat) (s : State) : State :=
  setReg s aLoadStat (BitVec.ofNat 32 (code * 65536 + detail % 65536))

/-- The load checks end (R187): the image becomes the valid shadow, or the failed check is recorded. -/
def loadDone (s : State) : State :=
  match s.sch.loading with
  | none => s
  | some tok =>
    let b := s.sch.shadow
    let s0 := setSch s (fun h => { h with loading := none })
    match imgVerdict (getReg s aPwrLimit).toNat b with
    | none => report tok stOk 0 0 (evRaise aSchEvt 1 (loadStat 0 0 (setSch s0 (fun h =>
        { h with shadowValid := true, shadowSigned := (imgSign b).2, shadowImg := some (parseImg b) }))))
    | some (code, detail) =>
      let st := checkStatus code
      report tok st 0 (if st = stIntegrity then code else if st = stBad then 0xFFFF else 0)
        (ledger 0x0D03 3 code detail (field b 8 4) (evRaise aSchEvt 2 (loadStat code detail s0)))

/-- SCH_LOAD_DONE. -/
def execSchLoadDone (s : State) : Host.Outcome State Fault Refusal := .next (loadDone s)

/-- A load begins: the shadow is not valid, and a copy overwrites the store. -/
def loadBegin (tok : Nat) (img : Option (List Byte)) (s : State) : State :=
  let s1 := loadDone s
  setSch s1 (fun h => { h with
    loading := some tok, shadowValid := false, shadowSigned := false, shadowImg := none,
    shadow := match img with
      | some b => storeWrite h.shadow 0 b
      | none => h.shadow })

/-- SCH_LOAD (R187, R194, R204). -/
def execSchLoad (d : Desc) (s : State) : Host.Outcome State Fault Refusal :=
  let n := pl d 8 4
  let inPlace := plBit d 12 0
  .next (checked d [(0, 13)] [(8, inPlace || (decide (1 ≤ n) && decide (n ≤ 16777216))), (12, decide (pl d 12 1 ≤ 1))] s
    (match (if inPlace then some none else (hostBlock d 0 n).map some) with
      | none => badBlock d 0 s
      | some img => if swapArmed s || (armedKind s 1).isSome then finish d stNotPermitted s else loadBegin d.tok img s))

/-! ## Tests of an image against the state (R191, R196) -/

/-- Every output's active set, and the set of every switch that has not ended, fits its reservation (R151, R191). -/
def setsFit (s : State) (i : Img) : Bool :=
  allOutputs.all (fun o => fitsImg (outAt s o).set i o) &&
  s.cor.xfs.all (fun x => x.done || fitsImg (slotSet s x.slot) i x.out)

/-- CMAX covers every COUNT of both Pan layout banks. -/
def cmaxCovers (s : State) (i : Img) : Bool :=
  (cellsOf s 0).all (fun w => decide (cellCount w ≤ i.cmax)) && (cellsOf s 1).all (fun w => decide (cellCount w ≤ i.cmax))

/-- The shadow suits the state that will be in force at N (R191). -/
def suitsStart (s : State) (i : Img) (n : Nat) : Bool :=
  setsFit s i && cmaxCovers s i && allObjects.all (fun o => !enableAt s o n || lawFits (i.ent o) (lawAt s o n))

/-- The shadow is compatible with the active state for a swap at N (R196). -/
def compatible (s : State) (i : Img) (n : Nat) : Bool :=
  (s.sch.activeImg.any (fun a => decide (a.rate = i.rate))) && setsFit s i && decide (crossfadesAt s n ≤ i.xfPar) &&
  decide (transAt s n ≤ i.coarsePar) && cmaxCovers s i &&
  allObjects.all (fun o => !(objAt s o).enable || lawFits (i.ent o) (objAt s o).law)

/-- The valid shadow. -/
def validShadow (s : State) : Option Img := if s.sch.shadowValid then s.sch.shadowImg else none

/-! ## Arming (R191 to R194, R201) -/

/-- Arms a start, stop or restart. -/
def arm (kind n tok : Nat) (shadow : Bool) (s : State) : State :=
  setSch s (fun h => { h with armed := some { kind := kind, n := n, tok := tok, shadow := shadow, origin := h.st } })

/-- Every assembly buffer is empty: the headgate placed nothing while STOPPED (R520). -/
def emptyAssembly (s : State) : State := { s with obj := smModAll {} s.obj (s.obj.map Prod.fst) (fun _ ob => { ob with asm := [] }) }

/-- SCH_START (R191, R204). -/
def execSchStart (d : Desc) (s : State) : Host.Outcome State Fault Refusal :=
  .next (checked d [(0, 9)] [(8, decide (pl d 8 1 ≤ 1))] s
    (let n := keyN d (leastBefore s 1)
     if !beforeH s ((n : Int) - 1) then finish d stLate s
     else match validShadow s with
       | none => finish d stNotPermitted s
       | some i =>
         if stopped s && s.clk.rateSet && decide (i.rate = s.clk.rate) && suitsStart s i n
         then setRender 1 (emptyAssembly (arm 1 n d.tok false s)) else finish d stNotPermitted s))

/-- The least multiple of `f` at or above `n`. -/
def upTo (n f : Nat) : Nat := if f = 0 then n else (n + f - 1) / f * f

/-- SCH_SWAP (R194, R196, R204). -/
def execSchSwap (d : Desc) (s : State) : Host.Outcome State Fault Refusal :=
  .next (checked d [(0, 9)] [(8, decide (pl d 8 1 ≤ 1))] s
    (match validShadow s, s.sch.activeImg with
      | some i, some a =>
        let f := Nat.lcm i.f a.f
        let n := keyN d (upTo (leastBefore s (tailQ s - 1)) f)
        if n % i.f ≠ 0 ∨ n % a.f ≠ 0 then badField d 0 s
        else if !beforeH s ((n : Int) - tailQ s + 1) then finish d stLate s
        else if decide (s.sch.st = 2) && s.sch.swap.isNone && s.sch.armed.isNone && compatible s i n then
          setSch s (fun h => { h with swap := some { n := n, tok := d.tok, switched := false, byRestart := false } })
        else finish d stNotPermitted s
      | _, _ => finish d stNotPermitted s))

/-- SCH_STOP (R192, R204). -/
def execSchStop (d : Desc) (s : State) : Host.Outcome State Fault Refusal :=
  .next (checked d [(0, 9)] [(8, decide (pl d 8 1 ≤ 1))] s
    (let n := keyN d (leastBefore s 1)
     if !beforeH s ((n : Int) - 1) then finish d stLate s
     else if (decide (s.sch.st = 2) || decide (s.sch.st = 4)) && s.sch.armed.isNone && !swapArmed s then
       setRender 3 (setSch (arm 3 n d.tok false s) (fun h => { h with stopN := some n }))
     else finish d stNotPermitted s))

/-- SCH_RESTART (R201, R204): the active store's digest is recomputed, or the shadow tested. -/
def execSchRestart (d : Desc) (s : State) : Host.Outcome State Fault Refusal :=
  .next (checked d [(0, 9)] [(8, decide (pl d 8 1 ≤ 3))] s
    (let n := keyN d (leastBefore s 1)
     let shadow := plBit d 8 1
     if !beforeH s ((n : Int) - 1) then finish d stLate s
     else if !(decide (s.sch.st = 4) && s.sch.armed.isNone) then finish d stNotPermitted s
     else if shadow then
       (if (validShadow s).any (fun i => compatible s i n) then arm 4 n d.tok true s else finish d stNotPermitted s)
     else if digestGood 48 (imgBody s.sch.active) then arm 4 n d.tok false s
     else report d.tok stIntegrity 0 4 s))

/-! ## Cancelling (R193) -/

/-- The stop is withdrawn: rendering goes on in the state in which it was accepted. -/
def cancelStop (a : Armed) (s : State) : State :=
  report a.tok stFlushed 0 0 (setRender a.origin (setSch s (fun h => { h with armed := none, stopN := none })))

/-- An armed swap is withdrawn. -/
def cancelSwap (w : SwapSt) (s : State) : State := report w.tok stFlushed 0 0 (setSch s (fun h => { h with swap := none }))

/-- SCH_CANCEL of a start, stop or restart: withdrawn before its deadline. -/
def cancelArmed (d : Desc) (k : Nat) (undo : Armed → State → State) (s : State) : State :=
  match armedKind s k with
  | none => finish d stNotPermitted s
  | some a => if armedPending s a then finish d stOk (undo a s) else finish d stLate s

/-- SCH_CANCEL (R193, R204). -/
def execSchCancel (d : Desc) (s : State) : Host.Outcome State Fault Refusal :=
  let kind := pl d 0 1
  .next (checked d [(0, 1)] [(0, decide (1 ≤ kind) && decide (kind ≤ 4))] s
    (match kind with
      | 1 => cancelArmed d 1 (fun _ t => dropStart t) s
      | 2 => match s.sch.swap with
        | none => finish d stNotPermitted s
        | some w =>
          if w.byRestart then finish d stNotPermitted s
          else if swapPending s w then finish d stOk (cancelSwap w s) else finish d stLate s
      | 3 => cancelArmed d 3 cancelStop s
      | _ => cancelArmed d 4 (fun a t => report a.tok stFlushed 0 0 (setSch t (fun h => { h with armed := none }))) s))

/-! ## Records (R204) -/

/-- N of the armed start, swap or stop, and of a restart where `restart` asks for it; all bits set where none is armed (R204, R205). -/
def armedN (restart : Bool) (s : State) : Nat :=
  match s.sch.armed.filter (fun a => restart || decide (a.kind ≠ 4)), s.sch.swap.filter (fun w => !w.byRestart) with
  | some a, _ => a.n
  | none, some w => w.n
  | none, none => 2 ^ 64 - 1

/-- The shadow's IMAGE_ID, zero where it is not valid. -/
def shadowId (s : State) : Nat := ((validShadow s).map Img.id).getD 0

/-- Byte 1 of the schedule status record. -/
def schFlags (s : State) : Nat :=
  (if swapArmed s then 1 else 0) + (if s.sch.shadowValid then 2 else 0) + (if s.sch.activeSigned then 4 else 0) +
  (if s.sch.shadowSigned then 8 else 0)

/-- The 64-byte schedule status record. -/
def schRecord (s : State) : List Byte :=
  leBytes 1 s.sch.st ++ leBytes 1 (schFlags s) ++ leBytes 2 (if s.clk.tidx < 2 then 0 else crossfadesAt s (s.clk.tidx - 2)) ++
  leBytes 4 (getReg s aGuardCnt).toNat ++ leBytes 8 (activeId s) ++ leBytes 8 (shadowId s) ++ leBytes 8 (armedN false s) ++
  leBytes 4 s.sch.liveDrop ++ leBytes 2 (min s.sch.masked 65535) ++ zeros 2 ++ leBytes 8 s.sch.lastAct ++
  leBytes 8 (s.sch.firstGuard.getD 0) ++ zeros 8

/-- SCH_STATUS. -/
def execSchStatus (d : Desc) (s : State) : Host.Outcome State Fault Refusal :=
  .next (checked d [(0, 9)] [(8, decide (pl d 8 1 ≤ 1))] s
    (let s1 := hostWrite (pl d 0 8) (schRecord s) s
     finish d stOk (if plBit d 8 0 then setReg (setSch s1 (fun h => { h with liveDrop := 0, masked := 0 })) aGuardCnt 0 else s1)))

/-- SCH_INFO: 384 bytes of a store. -/
def execSchInfo (d : Desc) (s : State) : Host.Outcome State Fault Refusal :=
  .next (checked d [(0, 9)] [(8, decide (pl d 8 1 ≤ 1))] s
    (finish d stOk (hostWrite (pl d 0 8) (fit 384 (if plBit d 8 0 then s.sch.shadow else s.sch.active)) s)))

/-! ## Activation at H_N (R190, R194, R195, R197, R198) -/

/-- The active image and the shadow change places at H_N. -/
def exchange (n : Nat) (s : State) : State :=
  setSch s (fun h => { h with
    active := h.shadow, shadow := h.active, activeImg := h.shadowImg, shadowImg := h.activeImg,
    activeSigned := h.shadowSigned, shadowSigned := h.activeSigned, shadowValid := h.activeImg.isSome,
    old := h.activeImg, oldN := n })

/-- The objects whose HMODE or HLEN the new image changes start a fade at N (R198). -/
def newFades (n : Nat) (was : Option Img) (s : State) : State :=
  match s.sch.activeImg with
  | none => s
  | some i =>
    let before := fun o => (was.map (fun x => x.ent o)).getD {}
    let moved := allObjects.filter (fun o => decide ((i.ent o).hmode ≠ (before o).hmode) || decide ((i.ent o).hlen ≠ (before o).hlen))
    setGeo s (fun g => { g with fade := moved.foldl (fun m o => smSet 0 m o n) g.fade })

/-- Record 0x0D02 (R206). -/
def becomeActive (n : Nat) (s : State) : State :=
  ledger 0x0D02 1 (activeId s) (activeId s / 2 ^ 32) n (setSch s (fun h => { h with lastAct := n }))

/-- No guard fault since the last start or restart (R205). -/
def newRun (s : State) : State :=
  setReg (setReg (setReg (setSch s (fun h => { h with guardHold := false, firstGuard := none })) aGuardStat 0) aGuardTrLo 0) aGuardTrHi 0

/-- Windows, accumulators, slot state and pair value records are zero (R190). -/
def zeroPair (s : State) : State :=
  setGeo (setPair s (fun p => { p with
    win := [], winBad := [], ueSeen := [], slots := [], acc := [], words := [], held := [], psum := [], audit := none, stg := [], fetch := [] }))
    (fun g => { g with recs := [], prev := [], work := [] })

/-- An output's equaliser, history and tail are zero (R190). -/
def zeroOut (o : Nat) (s : State) : State :=
  let s1 := setOut s o { outAt s o with bz := List.replicate 16 {}, zNew := none, head := none, headNew := none, tailFrom := none }
  if s.drc.noDram then s1 else dramZero (tailBase o) 430016 s1

/-- Histories, tails, crossfade equalisers and the sections of the objects are zero (R190). -/
def zeroChains (s : State) : State :=
  let s1 := eachObj zeroOut allOutputs (setCor s (fun c => { c with
    hist := [], buf := [], tailReq := [], lateChain := [], xfs := c.xfs.map (fun x => { x with bz := List.replicate 16 {} }) }))
  let s2 := if s1.drc.noDram then s1 else dramZero 0xA0E00000 0x200000 s1
  { s2 with obj := smModAll {} s2.obj (s2.obj.map Prod.fst) (fun _ ob =>
      { ob with bz := [{}, {}, {}, {}, {}, {}], closed := none, stored := none, whole := true }) }

/-- START_ACTIVATE (R190). -/
def startActivate (a : Armed) (s : State) : State :=
  let was := s.sch.activeImg
  let s1 := exchange a.n (zeroChains (zeroPair s))
  let s2 := setSch s1 (fun h => { h with armed := none, startN := a.n, stopN := none, old := none })
  report a.tok stOk 0 0 (becomeActive a.n (setRender 2 (newFades a.n was (newRun s2))))

/-- The slots of the old image that sounded in tranche `n - 1` and are not carried into the new one (R197). -/
def liveDrops (n : Nat) (old new : Img) (s : State) : List (Nat × Nat) :=
  (old.slots.map (fun e => (e.1 / 2048, e.1 % 2048))).filter (fun x =>
    match smFind s.geo.recs (((n + 1) % 2 * 1024 + x.1) * 2048 + x.2) with
    | some r => decide (r.gain ≠ 0) && !((new.code x.1 x.2).isSome && decide (r.out ∈ new.slotOuts x.1 x.2))
    | none => false)

/-- Live drops are counted, and recorded once for the swap (R197, R206). -/
def countDrops (n : Nat) (ds : List (Nat × Nat)) (s : State) : State :=
  match ds with
  | [] => s
  | x :: _ => ledger 0x0D04 2 x.1 x.2 n (evRaise aSchEvt 4 (setSch s (fun h => { h with liveDrop := bump 32 h.liveDrop ds.length })))

/-- The shadow becomes active at H_N while the sequencers run (R195, R197, R201). -/
def switchImages (n : Nat) (s : State) : State :=
  match s.sch.shadowImg, s.sch.activeImg with
  | some new, some old => newFades n (some old) (countDrops n (liveDrops n old new s) (exchange n s))
  | _, _ => s

/-- A swap completes once its last section has switched (R194). -/
def swapDone (w : SwapSt) (s : State) : State :=
  let s1 := setSch s (fun h => { h with swap := none })
  if w.byRestart then s1 else report w.tok stOk 0 0 (becomeActive w.n (evRaise aSchEvt 3 s1))

/-- The swap at H_k: the sections of the headgate and geometry switch at H_N, those of correction at H_(N+2) (R195). -/
def swapBoundary (k : Nat) (s : State) : State :=
  match s.sch.swap with
  | none => s
  | some w =>
    if !w.switched && decide (w.n = k) then
      setSch (switchImages k s) (fun h => { h with swap := some { w with switched := true } })
    else if w.switched && decide (w.n + 2 ≤ k) then swapDone w s else s

/-- Guard silence ends and rendering resumes (R201). -/
def restartDone (a : Armed) (s : State) : State :=
  let s1 := newRun (setSch s (fun h => { h with armed := none }))
  report a.tok stOk 0 0 (ledger 0x0D06 3 (if a.shadow then 1 else 0) a.n (getReg s aGuardCnt).toNat (setRender 2 s1))

/-- RESTART_ACTIVATE (R201): with SHADOW, the shadow must still be valid. -/
def restartActivate (a : Armed) (s : State) : State :=
  if !a.shadow then restartDone a s
  else if (validShadow s).isSome then
    let s1 := match s.sch.swap with
      | some w => swapDone w s
      | none => s
    let s2 := setSch (switchImages a.n s1) (fun h => { h with swap := some { n := a.n, tok := a.tok, switched := true, byRestart := true } })
    restartDone a (becomeActive a.n s2)
  else report a.tok stNotPermitted 0 0 (setSch s (fun h => { h with armed := none }))

/-- STOP_COMPLETE (R23, R192): the sequencers halt, and pending keyed actions are flushed. DESIGN CHOICE: at this instant, the end of
P_(N+2), since no rule names one (log entry 86). -/
def stopComplete (a : Armed) (s : State) : State :=
  report a.tok stOk 0 0 (ledger 0x0D05 1 a.n 0 0 (flushRender (setRender 0 (setSch s (fun h => { h with armed := none, stopN := none })))))

/-- A start or restart takes effect at H_k, or a stop completes (R190, R192, R201). -/
def armedBoundary (k : Nat) (s : State) : State :=
  match s.sch.armed with
  | none => s
  | some a =>
    match a.kind with
    | 1 => if a.n = k then startActivate a s else s
    | 3 => if a.n + 3 = k then stopComplete a s else s
    | _ => if a.n = k then restartActivate a s else s

end Sys2Proof.Machine
end

