-- ==== Sys2Proof/Machine/Fabric.lean ====
section
/-! DEFINITION. Bruon links, frames and egress queues, epochs and route tables, caravan headers, discovery and management
messages (R207 to R226, R233 to R235). -/

namespace Sys2Proof.Machine

/-! ## Links (R208 to R211) -/

/-- Changes the fabric block. -/
def setFab (s : State) (f : Fab → Fab) : State := { s with fab := f s.fab }

/-- Changes a link. -/
def setLink (s : State) (l : Nat) (x : LinkSt) : State := setFab s (fun b => { b with link := smSet {} b.link l x })

/-- A counter of a link's status record (R239). -/
def linkCount (l off n : Nat) (s : State) : State := setLink s l { linkSt s l with cnt := bumpAt (linkSt s l).cnt off n }

/-- Link 15 is reserved for the duplex cross-link (R211, R449). -/
def reserved15 (s : State) (l : Nat) : Bool := s.dpx.en && decide (l = 15)

/-- The link is UP. -/
def linkUp (s : State) (l : Nat) : Bool := decide ((linkSt s l).st = 3)

/-- The device's fabric address, where it is valid (R217). -/
def fabAddr (s : State) : Option Nat :=
  let a := getReg s aFabAddr
  if Word.bit a 16 then some (Word.bits a 15 0) else none

/-- SRC of a caravan launched here (R213). -/
def srcField (s : State) : Nat := (fabAddr s).getD 0xFFFF

/-- A link reaches UP (R208, R241). -/
def linkGoesUp (l : Nat) (s : State) : State :=
  let x := linkSt s l
  let s1 := ledger 0x0701 1 l (x.peerId % 2 ^ 32) x.peerLink (evRaise aFabEvt 0 (setLink s l { x with st := 3 }))
  fabSource l false (if reserved15 s l then xlinkChange true s1 else s1)

/-- A link leaves UP for state `st` (R208, R241): causes 1 block lock, 2 FEC limit, 3 HELLO lost, 4 disabled. What waits in its
queue cannot be sent any more. -/
def linkGoesDown (cause st l : Nat) (s : State) : State :=
  let x := linkSt s l
  let x1 := { x with st := st, gotHello := false, queue := [], fwdBytes := 0, downs := if cause = 4 then x.downs else bump 16 x.downs 1 }
  let s1 := ledger 0x0702 3 l cause x1.downs (evRaise aFabEvt 1 (setLink s l x1))
  fabSource l true (if reserved15 s l then xlinkChange false s1 else s1)

/-- LINK_LOCK. -/
def execLinkLock (l : Nat) (s : State) : Host.Outcome State Fault Refusal :=
  .next (if (linkSt s l).st = 1 then setLink s l { linkSt s l with st := 2, gotHello := false } else s)

/-- LINK_LOCK_TIMEOUT: acquisition starts again. -/
def execLinkLockTimeout (l : Nat) (s : State) : Host.Outcome State Fault Refusal :=
  .next (if (linkSt s l).st = 1 then setLink s l { linkSt s l with lockFail := bump 32 (linkSt s l).lockFail 1 } else s)

/-- LINK_LOCK_LOSS. -/
def execLinkLockLoss (l : Nat) (s : State) : Host.Outcome State Fault Refusal := .next (if linkUp s l then linkGoesDown 1 1 l s else s)

/-- FEC_WINDOW: the codewords of a 1 ms window. -/
def execFecWindow (l corrected uncorrectable : Nat) (s : State) : Host.Outcome State Fault Refusal :=
  let s1 := linkCount l 16 uncorrectable (linkCount l 12 corrected s)
  .next (if linkUp s l ∧ (linkSt s l).fecLim < uncorrectable then linkGoesDown 2 1 l s1 else s1)

/-- HELLO_TIMEOUT: 1 s in HELLO. -/
def execHelloTimeout (l : Nat) (s : State) : Host.Outcome State Fault Refusal :=
  .next (if (linkSt s l).st = 2 then setLink s l { linkSt s l with st := 1, gotHello := false } else s)

/-- HELLO_LOST: 10 ms without a valid HELLO; ACK falls with it (R209). -/
def execHelloLost (l : Nat) (s : State) : Host.Outcome State Fault Refusal :=
  let s1 := setLink s l { linkSt s l with ack := false }
  .next (if linkUp s l then linkGoesDown 3 1 l s1 else setLink s1 l { linkSt s1 l with gotHello := false })

/-! ## Egress (R212, R222) -/

/-- Adds a frame to a link's queue. -/
def queueFrame (l : Nat) (f : EFrame) (s : State) : State := setLink s l { linkSt s l with queue := (linkSt s l).queue ++ [f] }

/-- A caravan as a frame (R212). -/
def caravanFrame (cls : Nat) (bs : List Byte) (fail : Bool) : EFrame := { cls := cls, bytes := 1 :: bs, fail := fail }

/-- The HELLO frame (R209). -/
def helloBytes (s : State) (l : Nat) : List Byte :=
  let b := leBytes 8 Config.deviceId.toNat ++ leBytes 2 (Word.bits (getReg s aFabAddr) 15 0) ++
    leBytes 1 ((if (fabAddr s).isSome then 1 else 0) + (if reserved15 s l then 2 else 0)) ++ leBytes 1 l ++
    leBytes 1 (if (linkSt s l).ack then 1 else 0) ++ zeros 15
  b ++ leBytes 4 (crc32c b)

/-- HELLO_SEND. -/
def execHelloSend (l : Nat) (s : State) : Host.Outcome State Fault Refusal :=
  .next (if (linkSt s l).st = 0 then s else queueFrame l { cls := 2, bytes := 2 :: helloBytes s l, fail := false } s)

/-- The position of the next frame of a queue: the first of the lowest class (R222). -/
def nextFrame (q : List EFrame) : Option Nat :=
  match q.findIdx? (fun f => decide (f.cls = 0)) with
  | some i => some i
  | none => match q.findIdx? (fun f => decide (f.cls = 1)) with
    | some i => some i
    | none => if q.isEmpty then none else some 0

/-- Samples of a caravan's records that a queue of audio lost or missed read as zero: record * 16 + sample, 3 bytes each, from the byte
`at_` on (R26, R215). -/
def slipCaravan (at_ : Nat) (ps : List Nat) (b : List Byte) : List Byte :=
  b.zipIdx.map (fun e => if ps.any (fun p => decide (at_ + 56 * (p / 16) + 3 * (p % 16) ≤ e.2) &&
    decide (e.2 < at_ + 56 * (p / 16) + 3 * (p % 16) + 3)) then 0 else e.1)

/-- A slip of the queue between D_CORE and a link is counted (R26). -/
def linkSlip (l dir : Nat) (s : State) : State := setFab s (fun b => { b with slips := bumpAt b.slips (l * 2 + dir) 1 })

/-- EGRESS_FRAME_START: the link starts its next frame; `defer` is how long a launch has waited, in core cycles; `slip`: the queue from
D_CORE slipped in a launched caravan. -/
def execEgressFrameStart (l defer : Nat) (slip : Option QSlip) (s : State) : Host.Outcome State Fault Refusal :=
  .next (let x := linkSt s l
    match (if s.aon.trip then none else nextFrame x.queue) with
    | none => s
    | some i =>
      let f := x.queue.getD i { cls := 2, bytes := [], fail := false }
      let x1 := { x with queue := x.queue.eraseIdx i, fwdBytes := if f.cls = 0 then x.fwdBytes - (f.bytes.length - 1) else x.fwdBytes,
                         defer := if f.cls = 1 then max x.defer (min defer 65535) else x.defer }
      let q := if f.cls = 1 then slip else none
      let s0 := if q.isSome then linkSlip l 1 s else s
      let s1 := emit (.link l (match q with
        | some q => slipCaravan 17 q.at_ f.bytes
        | none => f.bytes)) (setLink s0 l x1)
      if f.fail then emit (.linkAbort l) s1 else s1)

/-! ## Discards (R220, R241) -/

/-- A caravan is discarded: `off` its counter of link `l`, `hdr` where the record names it among HCRC failures, loops and
missing routes. -/
def dropCaravan (off : Nat) (hdr : Bool) (l : Nat) (s : State) : State :=
  let s1 := evRaise aFabEvt 2 (linkCount l off 1 s)
  let x := linkSt s1 l
  let x1 := if hdr then { x with dropHdr := x.dropHdr + 1 } else { x with dropOther := x.dropOther + 1 }
  let fresh := decide ((smGet {} s.lgr.lim (0x0707 * 2 ^ 20 + l)).win ≠ some (ledgerWindow s))
  let s2 := ledgerLim 0x0707 2 l 1 (fun _ => (l, x1.dropHdr, x1.dropOther)) (setLink s1 l x1)
  if fresh then setLink s2 l { linkSt s2 l with dropHdr := 0, dropOther := 0 } else s2

/-- A forwarded copy joins the forward buffer of an egress link, 16 KiB, or is discarded whole (R222). -/
def forwardTo (bs : List Byte) (fail : Bool) (l : Nat) (s : State) : State :=
  let x := linkSt s l
  if 16384 < x.fwdBytes + bs.length then dropCaravan 32 false l s
  else setLink s l { x with queue := x.queue ++ [caravanFrame 0 bs fail], fwdBytes := x.fwdBytes + bs.length }

/-- The same for the links of a list. -/
def forwardAll (bs : List Byte) (fail : Bool) : List Nat → State → State
  | [], s => s
  | l :: ls, s => forwardAll bs fail ls (forwardTo bs fail l s)

/-! ## Epochs and route tables (R219, R224, R225) -/

/-- A frame of an epoch is launched or received: its bank is not quiet. -/
def hearEpoch (e : Nat) (s : State) : State :=
  setFab s (fun b => if e = b.cur then { b with quietCur := false, heardCur := true } else { b with quiet := false, heardOther := true })

/-- The epoch of the caravans of data tranche `n` (R224). -/
def epochOf (s : State) (n : Nat) : Nat :=
  match s.fab.switchN with
  | some m => if n < m then 1 - s.fab.cur else s.fab.cur
  | none => s.fab.cur

/-- EPOCH_QUIET: a whole period has passed. -/
def quietBoundary (s : State) : State :=
  let q := !s.fab.heardOther
  evIf (q && !s.fab.quiet) aFabEvt 8 (setFab s (fun b => { b with quiet := q, quietCur := !b.heardCur, heardOther := false, heardCur := false }))

/-- EPOCH_SWITCH_APPLY at H_k, and its end once the last caravan of an earlier data tranche has gone, after P_(N+1) (R224, R226). -/
def epochBoundary (k : Nat) (s : State) : State :=
  let s1 := match s.fab.switchN with
    | some n => if n + 2 ≤ k then
        let t := setFab s (fun b => { b with switchN := none, switchTok := none })
        (match s.fab.switchTok with
          | some tok => report tok stOk 0 0 t
          | none => t)
      else s
    | none => s
  match s1.fab.armed with
  | some (n, tok) =>
    if n = k then
      let e := 1 - s1.fab.cur
      ledger 0x0704 2 e n 0 (evRaise aFabEvt 7 (setFab s1 (fun b => { b with
        cur := e, armed := none, switchN := some n, switchTok := some tok, quiet := b.quietCur, quietCur := b.quiet,
        heardOther := b.heardCur, heardCur := b.heardOther })))
    else s1
  | none => s1

/-- The links of a mask, link 15 ignored where it is reserved (R211). -/
def maskLinks (s : State) (m : Nat) : List Nat :=
  (List.range 16).filter (fun l => decide (m / 2 ^ l % 2 = 1) && !reserved15 s l)

/-- A waybill entry of a bank (R219). -/
def waybill (s : State) (bank dest : Nat) : Nat := smGet 0 s.fab.wb (bank * 65536 + dest)
def groupMask (s : State) (bank g : Nat) : Nat := smGet 0 s.fab.grp (bank * 4096 + g)
def bcastMask (s : State) (bank : Nat) : Nat := smGet 0 s.fab.bcast bank

/-! ## Caravan headers (R213, R214) -/

/-- A caravan header. -/
structure CHdr where
  dest : Nat
  src : Nat
  ty : Nat
  epoch : Nat
  grp : Bool
  bcast : Bool
  count : Nat
  stream : Nat
  tidx : Nat
  hadd : Nat
  ttl : Nat
  plen : Nat
  deriving DecidableEq, Repr

/-- Byte 4. -/
def CHdr.byte4 (h : CHdr) : Nat := h.ty % 16 + h.epoch % 2 * 16 + (if h.grp then 32 else 0) + (if h.bcast then 64 else 0)

/-- The header's bytes, HCRC with TTL taken as zero. -/
def hdrBytes (h : CHdr) : List Byte :=
  let a := leBytes 2 h.dest ++ leBytes 2 h.src ++ leBytes 1 h.byte4 ++ leBytes 1 h.count ++ leBytes 2 h.stream ++ leBytes 2 h.tidx ++
    leBytes 1 h.hadd
  let z := leBytes 2 h.plen
  a ++ leBytes 1 h.ttl ++ z ++ leBytes 2 (crc16 (a ++ leBytes 1 0 ++ z))

/-- A header as received. -/
def hdrOf (b : List Byte) : CHdr :=
  let f := field b 4 1
  { dest := field b 0 2, src := field b 2 2, ty := f % 16, epoch := f / 16 % 2, grp := decide (f / 32 % 2 = 1), bcast := decide (f / 64 % 2 = 1),
    count := field b 5 1, stream := field b 6 2, tidx := field b 8 2, hadd := field b 10 1 % 16, ttl := field b 11 1, plen := field b 12 2 }

/-- HCRC is right. -/
def hcrcGood (b : List Byte) : Bool :=
  decide (16 ≤ b.length) && decide (crc16 (b.take 11 ++ leBytes 1 0 ++ (b.drop 12).take 2) = field b 14 2)

/-- PLEN matches TYPE and COUNT, the TYPE is not reserved, GRP and BCAST are not both set (R213, R214). -/
def hdrLegal (h : CHdr) : Bool :=
  !(h.grp && h.bcast) &&
  (match h.ty with
    | 1 => decide (1 ≤ h.count) && decide (h.count ≤ 64) && decide (h.plen = 56 * h.count)
    | 2 => decide (1 ≤ h.count) && decide (h.count ≤ 64) && decide (h.plen = 56 * h.count)
    | 3 => decide (1 ≤ h.count) && decide (h.count ≤ 64) && decide (h.plen = 56 * h.count)
    | 8 => decide (h.count = 0) && decide (8 ≤ h.plen) && decide (h.plen ≤ 1024) && decide (h.plen % 8 = 0)
    | 9 => decide (h.count = 0) && decide (40 ≤ h.plen) && decide (h.plen % 8 = 0)
    | 10 => decide (h.count = 0) && decide (h.plen = 48)
    | _ => false)

/-- A free header for fields that the spec leaves open in a caravan launched here (STREAM, HADD, TTL; DEST and EPOCH of DISC). -/
def openHdr (s : State) : CHdr :=
  let w := Config.freeWord s.freeCtr
  { dest := Word.bits w 15 0, src := srcField s, ty := 0, epoch := Word.bits w 16 16, grp := false, bcast := false, count := 0,
    stream := Word.bits w 31 16, tidx := 0, hadd := Word.bits w 20 17 % 10, ttl := Word.bits w 25 21 + 1, plen := 0 }

/-! ## Channel records (R215) -/

/-- A channel record. -/
def recBytes (b : Blk) : List Byte := b.m.flatMap (leInt 3) ++ leBytes 1 (b.e % 16) ++ zeros 3 ++ leBytes 4 b.chk

/-- A channel record as received. Its check covers bytes 0 to 48 as they came, bits [7:4] of byte 48 among them: the block is good exactly
where that check passes (R215). -/
def recOf (r : List Byte) : Blk :=
  let m := positions.map (fun j => signed 24 (field r (3 * j) 3))
  let e := field r 48 1 % 16
  { m := m, e := e, chk := if field r 52 4 = crc32c (r.take 49) then trancheCheck m e
                           else if field r 52 4 = trancheCheck m e then (field r 52 4 + 1) % 2 ^ 32 else field r 52 4 }

/-! ## Management and discovery messages (R50, R233 to R235) -/

/-- Afinal runs on some core. -/
def afinalUp (s : State) : Bool := (List.range 16).any (fun c => decide ((core s c).run = .afinal))

/-- The fabric address changes (R218, R241): `remote` 1 by discovery. -/
def setAddress (a : Nat) (valid : Bool) (remote : Nat) (s : State) : State :=
  let new := a % 65536 + (if valid then 65536 else 0)
  let old := (getReg s aFabAddr).toNat
  if old = new then s else ledger 0x0706 2 old new remote (setReg s aFabAddr (BitVec.ofNat 32 new))

/-- The body of a PROBE's reply (R234). -/
def probeBody (s : State) : List Byte :=
  leBytes 8 Config.deviceId.toNat ++ leBytes 2 (Word.bits (getReg s aFabAddr) 15 0) ++
  leBytes 1 ((if (fabAddr s).isSome then 1 else 0) + (if s.dpx.en then 2 else 0)) ++ zeros 5 ++
  (List.range 16).flatMap (fun l =>
    let x := linkSt s l
    leBytes 1 x.st ++ leBytes 1 x.peerLink ++ zeros 2 ++ leBytes 8 (if x.st = 3 then x.peerId else 0))

/-- SET_ADDR at its target: the status and the new state (R234). -/
def discSetAddr (body : List Byte) (s : State) : Nat × State :=
  if field body 0 8 ≠ Config.deviceId.toNat then (stBad, s)
  else if (fabAddr s).isSome && !Word.bit (getReg s aFabCtl) 0 then (stNotPermitted, s)
  else (stOk, setAddress (field body 8 2) true 1 s)

/-- The reply's body and what the operation does; `none`: no such operation. -/
def discAnswer (op : Nat) (body : List Byte) (s : State) : Option (List Byte) × State :=
  match op with
  | 1 => (some (probeBody s), s)
  | 2 => let r := discSetAddr body s
         (some (leBytes 1 r.1), r.2)
  | _ => (none, s)

/-- A nibble of FWD or RET. -/
def nibble (p : List Byte) (base k : Nat) : Nat := field p (base + k / 2) 1 / (if k % 2 = 1 then 16 else 1) % 16

/-- Nibbles as 16 bytes. -/
def nibbleBytes (xs : List Nat) : List Byte :=
  (List.range 16).map (fun i => BitVec.ofNat 8 (xs.getD (2 * i) 0 % 16 + xs.getD (2 * i + 1) 0 % 16 * 16))

/-- Zero padding to a multiple of 8. -/
def pad8 (b : List Byte) : List Byte := b ++ zeros ((8 - b.length % 8) % 8)

/-- The payload of a reply (R233). -/
def replyPayload (p body : List Byte) : List Byte :=
  let hops := field p 0 1
  pad8 (leBytes 1 hops ++ leBytes 1 0 ++ leBytes 1 (field p 2 1 + 128) ++ leBytes 1 (field p 3 1) ++
    nibbleBytes ((List.range hops).map (fun k => nibble p 20 (hops - 1 - k))) ++ zeros 16 ++ body)

/-- A DISC caravan is queued on a link that is UP. -/
def sendDisc (l : Nat) (p : List Byte) (s : State) : State :=
  if linkUp s l && !reserved15 s l then
    let h := { openHdr s with ty := 9, plen := p.length }
    queueFrame l (caravanFrame 2 (hdrBytes h ++ p) false) (draw s)
  else s

/-- A reply reaches its originator: FAB_DISC completes with it in host memory (R234). -/
def discReply (p : List Byte) (s : State) : State :=
  match s.fab.disc.find? (fun r => decide (r.tag = field p 3 1)) with
  | some r => report r.tok stOk 0 0 (hostWrite r.addr p (setFab s (fun b => { b with disc := b.disc.erase r })))
  | none => s

/-- The target of a DISC caravan that came on link `i` (R233, R234). -/
def discTarget (i : Nat) (p : List Byte) (s : State) : State :=
  if !afinalUp s then s
  else if 128 ≤ field p 2 1 then discReply p s
  else match discAnswer (field p 2 1) (p.drop 36) s with
    | (some body, t) => sendDisc i (replyPayload p body) t
    | (none, t) => t

/-- A datagram of object metadata (R50): discarded whole where it is bad; `relay`: a repeated number is no jump (R235). -/
def metaDatagram (b : List Byte) (relay : Bool) (s : State) : State :=
  let n := field b 2 2
  if field b 0 2 ≠ 1 ∨ n = 0 ∨ 30 < n ∨ b.length ≠ 16 + 48 * n then setFab s (fun f => { f with metaBad := bump 32 f.metaBad 1 })
  else
    let seq := field b 8 4
    let last := smGet none s.fab.metaSeq (field b 4 4)
    let jump := last.any (fun q => decide (seq ≠ (q + 1) % 2 ^ 32) && !(relay && decide (seq = q)))
    let s1 := setFab s (fun f => { f with metaSeq := smSet none f.metaSeq (field b 4 4) (some seq),
                                          metaJump := if jump then bump 32 f.metaJump 1 else f.metaJump })
    (takeSegs (chunks 48 n (b.drop 16)) stOk s1).2

/-- The management header and body (R235). -/
def mgmtBytes (cls seq : Nat) (body : List Byte) : List Byte := pad8 (leBytes 1 cls ++ leBytes 1 0 ++ leBytes 2 body.length ++ leBytes 4 seq ++ body)

/-- The links on which a caravan launched here departs (R220, R224, R235): unicast by waybill, group or broadcast mask. -/
def launchLinks (s : State) (bank : Nat) (dest : Nat) (grp bcast : Bool) : List Nat :=
  (if bcast then maskLinks s (bcastMask s bank) else if grp then maskLinks s (groupMask s bank dest)
   else
    let w := waybill s bank dest
    if w / 16 % 2 = 1 ∧ !reserved15 s (w % 16) then [w % 16] else []).filter (fun l => linkUp s l)

/-- Queues a frame on each link of a list. -/
def queueAll (f : EFrame) : List Nat → State → State
  | [], s => s
  | l :: ls, s => queueAll f ls (queueFrame l f s)

/-- Launches a MGMT caravan (R224, R235); `ttl`: none leaves it open. A device without a valid address launches none (R217). -/
def sendMgmt (dest : Nat) (grp bcast : Bool) (ttl : Option Nat) (p : List Byte) (s : State) : State :=
  let e := s.fab.cur
  let o := openHdr s
  let h := { o with dest := dest, ty := 8, epoch := e, grp := grp, bcast := bcast, ttl := ttl.getD o.ttl, plen := p.length }
  let ls := launchLinks s e dest grp bcast
  if ls.isEmpty || (fabAddr s).isNone then s else hearEpoch e (queueAll (caravanFrame 2 (hdrBytes h ++ p) false) ls (draw s))

/-- The 16 bytes of a remote completion (R316, R235). -/
def remoteCpl (entry : List Byte) (status result detail : Nat) : List Byte :=
  cplBytes { tok := 0, sq := 0, cid := field entry 2 2, opcode := field entry 0 1, status := status, result := result, detail := detail,
             uncertain := false } 0 false

/-- A token for a remote operation: above those of the submission rings. -/
def remoteTok (s : State) : Nat :=
  1024 + ((List.range (s.fab.remoteRun.length + 1)).find? (fun k => !s.fab.remoteRun.any (fun r => decide (r.1 = 1024 + k)))).getD 0

/-- A remote descriptor arrives (R235): Afinal runs it as its host's, or refuses it; a repeated number is ignored. An undefined opcode
completes BAD_DESCRIPTOR at byte offset 0, as in a submission ring (R313, R319). -/
def remoteRequest (src seq : Nat) (entry : List Byte) (s : State) : State :=
  if (src, seq) ∈ s.fab.remoteSeen then s
  else
    let s1 := setFab s (fun b => { b with remoteSeen := b.remoteSeen ++ [(src, seq)] })
    if !Word.bit (getReg s aFabCtl) 0 then sendMgmt src false false none (mgmtBytes 2 seq (remoteCpl entry stNotPermitted 0 0)) s1
    else if !opcodeDefined (field entry 0 1) then sendMgmt src false false none (mgmtBytes 2 seq (remoteCpl entry stBad 0 0)) s1
    else setFab s1 (fun b => { b with remoteRun := b.remoteRun ++ [(remoteTok s, src, seq, entry)] })

/-- Completions of remote operations whose owners have an outcome to report return to their senders (R235). -/
def remoteReturns : List (Nat × Nat × Nat × List Byte) → State → State
  | [], s => s
  | r :: rs, s =>
    remoteReturns rs (match s.outcomes.find? (fun o => decide (o.tok = r.1)) with
      | some o => sendMgmt r.2.1 false false none (mgmtBytes 2 r.2.2.1 (remoteCpl r.2.2.2 o.status o.result o.detail))
          (setFab { s with outcomes := s.outcomes.erase o } (fun b => { b with remoteRun := b.remoteRun.erase r }))
      | none => s)

/-- A remote completion arrives: FAB_REMOTE completes OK once it is in host memory (R239). -/
def remoteDone (src seq : Nat) (body : List Byte) (s : State) : State :=
  match s.fab.remote.find? (fun r => decide (r.seq = seq) && decide (r.dest = src)) with
  | some r => report r.tok stOk 0 0 (hostWrite r.addr (fit 16 body) (setFab s (fun b => { b with remote := b.remote.erase r })))
  | none => s

/-- Afinal takes a management message from `src` (R235). -/
def mgmtTake (src : Nat) (p : List Byte) (s : State) : State :=
  let body := (p.drop 8).take (field p 2 2)
  let seq := field p 4 4
  match field p 0 1 with
  | 1 => remoteRequest src seq (fit 64 body) s
  | 2 => remoteDone src seq body s
  | 3 => metaDatagram body true s
  | 4 => evRaise aFabEvt 10 (setFab s (fun b => { b with users := b.users ++ [body] }))
  | _ => s

/-- A MGMT or DISC payload goes to the stewards as a frame (R346, R349, R356); the answer tells whether it was taken. -/
def fabricFrame (l : Nat) (disc : Bool) (p : List Byte) (s : State) : Bool × State :=
  let t := stewardFrame (2072 + l) (Word.bits (getReg s aSrcPrio) 10 8) 3 (0x60 + l) (l + (if disc then 256 else 0)) p [] s
  (decide (s.stw.items.length < t.stw.items.length), t)

/-- A MGMT payload is delivered here. -/
def deliverMgmt (l src : Nat) (p : List Byte) (s : State) : State :=
  let r := fabricFrame l false p s
  if r.1 && afinalUp s then mgmtTake src p r.2 else r.2

end Sys2Proof.Machine
end

