-- ==== Sys2Proof/Machine/Caravan.lean ====
section
/-! DEFINITION. Caravans: reception, import and forwarding, launches, HELLO and TICK reception, and the hand-over phase with
the partial-sum merge and export (R116 to R118, R174, R209, R210, R220 to R232). -/

namespace Sys2Proof.Machine

/-! ## HELLO and TICK (R208 to R210, R218) -/

/-- A valid HELLO frame is recorded; the second in a row with ACK brings the link UP. -/
def helloTake (l : Nat) (b : List Byte) (s : State) : State :=
  let x := linkSt s l
  let up := decide (x.st = 2) && x.gotHello && decide (field b 12 1 % 2 = 1)
  let s1 := setLink s l { x with peerId := field b 0 8, peerLink := field b 11 1, peerAddr := field b 8 2, gotHello := true, ack := true }
  let clash := decide (field b 10 1 % 2 = 1) && decide (fabAddr s = some (field b 8 2)) && decide (field b 0 8 ≠ Config.deviceId.toNat)
  let s2 := evIf clash aFabEvt 11 s1
  if up then linkGoesUp l s2 else s2

/-- HELLO_RECEIVE: a bad CRC is ignored; frames count in HELLO and UP. -/
def execHelloReceive (l : Nat) (b : List Byte) (s : State) : Host.Outcome State Fault Refusal :=
  .next (if b.length = 32 ∧ crc32c (b.take 28) = field b 28 4 ∧ 2 ≤ (linkSt s l).st then helloTake l b s else s)

/-- A TICK whose sender's boundary lies `skew` core cycles from this device's nearest one. A sender that is ahead may mark the boundary
that has not come here yet. -/
def tickTake (l low24 : Nat) (skew : Int) (s : State) : State :=
  let k := s.clk.tidx
  let same := decide (low24 % 2 ^ 24 = k % 2 ^ 24) || (decide (skew < 0) && decide (low24 % 2 ^ 24 = (k + 1) % 2 ^ 24))
  let late := decide ((fCore s.clk.rate : Int) < skew.natAbs * 100000)
  fabSource l (!same || !linkUp s l) (evIf (!same || late) aFabEvt 9 (setLink s l { linkSt s l with skew := skew }))

/-- TICK_RECEIVE: the block arrives `arrival` core cycles after this device's nearest boundary, carrying `delay`, which is removed. A block
of type 0x4B with another marker is no TICK. A device without a tranche index has nothing to compare (R210). -/
def execTickReceive (l marker low24 delay : Nat) (arrival : Int) (s : State) : Host.Outcome State Fault Refusal :=
  .next (if marker = 0xB7 ∧ (linkSt s l).st ≠ 0 ∧ s.clk.tidxValid then tickTake l low24 (arrival - delay) s else s)

/-! ## Import of object audio (R38, R39, R227) -/

/-- An OBJ stream's fabric counters. -/
def setStream (x : Nat) (f : ObjStream → ObjStream) (s : State) : State :=
  setFab s (fun b => { b with objStr := smMod {} b.objStr x f })

/-- The stream is in use: an object is mapped to it in tranche `m`. -/
def streamInUse (s : State) (x m : Nat) : Bool := !(fedFrom s 2 x m).isEmpty

/-- A record of an OBJ stream arrives for tranche `m`: its counters. -/
def countRecord (x ch m : Nat) (s : State) : State :=
  if !streamInUse s x m then s
  else match window s m with
    | 0 =>
      let seen := smGet [] (smGet {} s.fab.objStr x).seen m
      if ch ∈ seen then setStream x (fun o => { o with dup := bump 32 o.dup 1 }) s
      else setStream x (fun o => { o with seen := smSet [] o.seen m (seen ++ [ch]) }) s
    | 1 => evRaise aFabEvt 4 (setStream x (fun o => { o with late := bump 32 o.late 1 }) s)
    | _ => s

/-- The channels of an OBJ caravan enter the headgate. -/
def importObj (x m : Nat) : List (Blk × Nat) → State → State
  | [], s => s
  | (b, ch) :: rest, s => importObj x m rest (importChannel x ch m b (countRecord x ch m s))

/-- At the close of tranche `c`: MISSING of each OBJ stream in use that brought nothing (R227, R241). -/
def streamsClose (c : Nat) : List Nat → State → State
  | [], s => s
  | x :: xs, s =>
    let o := smGet {} s.fab.objStr x
    let s1 := if (smGet [] o.seen c).isEmpty then
        let t := evRaise aFabEvt 3 (setStream x (fun o => { o with missing := bump 32 o.missing 1 }) s)
        ledgerLim 0x0703 3 (0x8000 + x) 1 (fun n => (0x8000 + x, c % 2 ^ 32, n)) t
      else s
    streamsClose c xs (setStream x (fun o => { o with seen := o.seen.filter (fun e => decide (c < e.1)) }) s1)

/-- The OBJ streams in use in tranche `c`. -/
def streamsAt (s : State) (c : Nat) : List Nat :=
  (((List.range 1024).map (fun o => srcAt s o c)).filter (fun x => decide (x.ty = 2))).map Src.idx |>.dedup

/-- The fabric's part of a headgate close. -/
def fabricClose (c : Nat) (s : State) : State := streamsClose c (streamsAt s c) s

/-! ## Import of partial sums (R228) -/

/-- A counter of an import entry: 4 MISSING, 8 LATE, 12 EARLY, 16 DUP, 20 CHK_ERR, 24 HADD_ERR. -/
def impCount (e off : Nat) (s : State) : State := setFab s (fun b => { b with impCnt := bumpAt b.impCnt (e * 32 + off) 1 })

/-- A channel that an import entry names arrives with tranche index `n`, complete in core cycle `cycle`: its deadline is the entry's merge
cycle (R174, R228). -/
def holdImport (x : ImpEnt) (e cycle n hadd : Nat) (b : Blk) (s : State) : State :=
  let k := s.clk.tidx
  if n + 2 < k ∨ (n + 2 = k ∧ (s.pair.merged ∨ x.cycle ≤ cycle)) then evRaise aFabEvt 4 (impCount e 8 s)
  else if k ≤ n then impCount e 12 s
  else if s.pair.held.any (fun h => decide (h.entry = e) && decide (h.n = n)) then impCount e 16 s
  else setPair s (fun p => { p with held := p.held ++ [{ entry := e, n := n, hadd := hadd, blk := b }] })

/-- The image whose import table takes sender tranche `n`: that of data tranche n + 1 here (R195). -/
def importImg (s : State) (n : Nat) : Option Img :=
  let k := s.clk.tidx
  stageImg s (max (k - 1) (min (n + 1) k))

/-- An arriving channel is offered to every entry of a table that names it. -/
def offerImports (h : CHdr) (l cycle n ch : Nat) (b : Blk) : List (ImpEnt × Nat) → State → State
  | [], s => s
  | (e, i) :: es, s =>
    offerImports h l cycle n ch b es (if e.src = h.src ∧ e.stream = h.stream ∧ e.ch = ch ∧ (e.link = 15 ∨ e.link = l)
      then holdImport e i cycle n h.hadd b s else s)

/-- The channels of a PSUM caravan. -/
def importPsum (h : CHdr) (l cycle n : Nat) : List (Blk × Nat) → State → State
  | [], s => s
  | (b, ch) :: rest, s =>
    importPsum h l cycle n rest (match importImg s n with
      | some i => offerImports h l cycle n ch b i.imports.zipIdx s
      | none => s)

/-! ## Import of outputs (R281, R453) -/

/-- The staging ring holds output tranche `m` in this period, or will at the next boundary. -/
def stagingTakes (s : State) (m : Nat) : Bool := decide (s.clk.tidx ≤ m + 6) && decide (m ≤ s.clk.tidx + 2)

/-- A channel of data tranche `n` is staged; one whose check fails reads as zero, as not complete. -/
def stageOut (ch n : Nat) (b : Blk) (s : State) : State :=
  let m := n + 4
  if stagingTakes s m && b.good then
    { s with mp := { s.mp with stg := smSet none s.mp.stg (ch * 16 + m % 16) (some { m := m, xs := positions.map b.at, chk := b.chk, whole := true }) } }
  else s

/-- An arriving channel is staged by every entry of the OUT import list that names it. -/
def offerOut (h : CHdr) (l n ch : Nat) (b : Blk) : List OutImp → State → State
  | [], s => s
  | e :: es, s => offerOut h l n ch b es (if e.src = h.src ∧ e.stream = h.stream ∧ e.ch = ch ∧ (e.link = 15 ∨ e.link = l)
      then stageOut e.stg n b s else s)

/-- The channels of an OUT caravan. -/
def importOut (h : CHdr) (l n : Nat) : List (Blk × Nat) → State → State
  | [], s => s
  | (b, ch) :: rest, s =>
    importOut h l n rest (match stageImg s n with
      | some i => offerOut h l n ch b i.outImp s
      | none => s)

/-! ## Reception (R220, R223, R233) -/

/-- The channel records that were completely received (R223). -/
def wholeRecords (b : List Byte) (count : Nat) : List (Blk × Nat) :=
  ((chunks 56 (min count ((b.length - 16) / 56)) (b.drop 16)).map recOf).zipIdx

/-- Local delivery of a caravan (R220 step 4); `cycle`: the core cycle of the period in which it was complete. -/
def deliver (l cycle : Nat) (h : CHdr) (b : List Byte) (whole : Bool) (s : State) : State :=
  let n := extend16 (headC s) h.tidx
  let rs := wholeRecords b h.count
  match h.ty with
  | 1 => importObj h.stream (n + 1) rs s
  | 2 => importPsum h l cycle n rs s
  | 3 => importOut h l n rs s
  | _ => if whole then deliverMgmt l h.src (b.drop 16) s else s

/-- A copy with TTL decremented; HCRC does not cover TTL. -/
def decTtl (b : List Byte) (ttl : Nat) : List Byte := b.take 11 ++ leBytes 1 (ttl - 1) ++ b.drop 12

/-- The copies of a caravan depart (R220 steps 5 and 6). -/
def forwardOn (l : Nat) (h : CHdr) (b : List Byte) (whole here : Bool) (s : State) : State :=
  let multi := h.grp || h.bcast
  let w := waybill s h.epoch h.dest
  if !multi && here then s
  else if !multi && decide (w / 16 % 2 = 0) then dropCaravan 28 true l s
  else if !multi && decide (w % 16 = l) then dropCaravan 24 true l s
  else
    let set := if h.bcast then maskLinks s (bcastMask s h.epoch) else if h.grp then maskLinks s (groupMask s h.epoch h.dest) else [w % 16]
    let others := set.filter (fun x => decide (x ≠ l))
    let up := others.filter (fun x => linkUp s x && !reserved15 s x)
    let s1 := if up.length < others.length then dropCaravan 32 false l s else s
    if up.isEmpty then s1
    else if h.ttl ≤ 1 then (if multi then s1 else dropCaravan 32 false l s1)
    else forwardAll (decTtl b h.ttl) (!whole) up s1

/-- What a caravan brings D_CORE through the queue of its link: a slip leaves samples zero and is counted (R26). -/
def deliverQueue (l cycle : Nat) (h : CHdr) (b : List Byte) (whole : Bool) (slip : Option QSlip) (s : State) : State :=
  match slip with
  | some q => if h.ty ∈ [1, 2, 3] then deliver l cycle h (slipCaravan 16 q.at_ b) whole (linkSlip l 0 s) else deliver l cycle h b whole s
  | none => deliver l cycle h b whole s

/-- A caravan that is neither DISC nor DPX (R220 steps 2 to 6). -/
def routeCaravan (l cycle : Nat) (h : CHdr) (b : List Byte) (whole : Bool) (slip : Option QSlip) (s : State) : State :=
  match fabAddr s with
  | none => s
  | some a =>
    if h.src = a then dropCaravan 24 true l s
    else
      let s2 := if h.epoch ≠ s.fab.cur then linkCount l 36 1 s else s
      let here := h.bcast || h.grp || decide (h.dest = a)
      let s3 := forwardOn l h b whole here s2
      if here then deliverQueue l cycle h b whole slip s3 else s3

/-- A DISC caravan (R233): RET and PTR are written as it passes. -/
def discReceive (l : Nat) (b : List Byte) (whole : Bool) (s : State) : State :=
  let p := b.drop 16
  let ptr := field p 1 1
  let at_ := 20 + ptr / 2
  let old := field p at_ 1
  let new := if ptr % 2 = 1 then old % 16 + 16 * l else old / 16 * 16 + l
  let p1 := p.take 1 ++ leBytes 1 (ptr + 1) ++ (p.take at_).drop 2 ++ leBytes 1 new ++ p.drop (at_ + 1)
  if ptr + 1 = field p 0 1 then (if whole then let r := fabricFrame l true p1 s
                                              (if r.1 then discTarget l p1 r.2 else r.2) else s)
  else
    let e := nibble p1 4 (ptr + 1)
    if linkUp s e && !reserved15 s e then forwardTo (b.take 16 ++ p1) (!whole) e s else dropCaravan 32 false l s

/-- A frame was received: its epoch's bank is not quiet, whatever becomes of the frame (R225). No bank routes a DISC or DPX caravan. -/
def hearFrame (h : CHdr) (s : State) : State := if h.ty = 9 ∨ h.ty = 10 then s else hearEpoch h.epoch s

/-- A caravan with a good HCRC. -/
def takeCaravan (l cycle : Nat) (h : CHdr) (b : List Byte) (whole : Bool) (slip : Option QSlip) (s0 : State) : State :=
  let s := hearFrame h s0
  if !hdrLegal h || (whole && decide (b.length ≠ 16 + h.plen)) then dropCaravan 20 false l s
  else if h.ty = 10 then
    (if reserved15 s l then (if whole then dpxFrameReceive (b.drop 16) s else s) else dropCaravan 20 false l s)
  else if reserved15 s l then dropCaravan 20 false l s
  else if h.ty = 9 then discReceive l b whole s
  else routeCaravan l cycle h b whole slip s

/-- CARAVAN_RECEIVE, complete in core cycle `cycle` of the period: `whole` is false where the frame ended with an error block or its link left UP; `slip`: the queue into D_CORE
slipped in a caravan that carries audio. -/
def execCaravanReceive (l cycle : Nat) (b : List Byte) (whole : Bool) (slip : Option QSlip) (s : State) : Host.Outcome State Fault Refusal :=
  .next (if !linkUp s l then s
    else if !hcrcGood b then (if whole || decide (16 ≤ b.length) then dropCaravan 20 true l s else s)
    else takeCaravan l cycle (hdrOf b) b whole slip s)

/-! ## Hand-over (R116 to R118, R174, R228) -/

/-- The exact sum of a word's partitions (R172). -/
def mergeWord (s : State) (bank o j : Nat) : Int := sumI ((List.range 8).map (fun g => smGet 0 s.pair.acc (accKey bank g o j)))

/-- Key of a merged word. -/
def wordKey (bank o j : Nat) : Nat := (bank * 1024 + o) * 16 + j

/-- The words of a list of outputs are merged. -/
def mergeOuts (bank : Nat) : List Nat → State → State
  | [], s => s
  | o :: os, s =>
    mergeOuts bank os (setPair s (fun p => { p with words := positions.foldl (fun m j => smSet 0 m (wordKey bank o j) (mergeWord s bank o j)) p.words }))

/-- Residue mismatches (R116, R120, R130). -/
def residues (n : Nat) : List (Nat × Nat) → State → State
  | [], s => s
  | (o, _) :: rest, s =>
    residues n rest (ledgerLim 0x0A04 5 o 1 (fun c => (o, n % 2 ^ 32, c)) (evRaise aPairEvt 4 (accCount o 8 1 s)))

/-- A device fault where residue mismatches are to raise one (R120, R441). -/
def residueFault (bad : List (Nat × Nat)) (s : State) : State :=
  if !bad.isEmpty && Word.bit (getReg s aAuditCtl) 1 then deviceFault 3 s else s

/-- A block is added into an output's words (R117). -/
def addBlock (bank o : Nat) (b : Blk) (s : State) : State :=
  setPair s (fun p => { p with words := positions.foldl (fun m j => smMod 0 m (wordKey bank o j) (· + b.at j)) p.words })

/-- An import entry at its merge cycle in P_k (R228). -/
def mergeImport (k bank i : Nat) (e : ImpEnt) (s : State) : State :=
  match s.pair.held.find? (fun h => decide (h.entry = i) && decide (h.n + 2 = k)) with
  | none =>
    ledgerLim 0x0703 3 i 1 (fun c => (i, k % 2 ^ 32, c)) (evRaise aFabEvt 3 (impCount i 4 s))
  | some h =>
    if h.hadd ≠ e.hadd then
      ledgerLim 0x0705 3 i 1 (fun c => (i, h.hadd, c)) (evRaise aFabEvt 6 (impCount i 24 s))
    else if !h.blk.good then evRaise aFabEvt 5 (impCount i 20 s)
    else if e.out < 1024 then addBlock bank e.out h.blk s else s

/-- The entries of a table in order. -/
def mergeImports (k bank : Nat) : List (ImpEnt × Nat) → State → State
  | [], s => s
  | (e, i) :: es, s => mergeImports k bank es (mergeImport k bank i e s)

/-- Saturation of an output's words to s48 (R116). -/
def satOut (bank o : Nat) (s : State) : State :=
  let ws := positions.map (fun j => smGet 0 s.pair.words (wordKey bank o j))
  let n := (ws.map (clips 48)).foldl (· + ·) 0
  if n = 0 then s
  else evRaise aPairEvt 3 (accCount o 4 n (setPair s (fun p => { p with
    words := positions.foldl (fun m j => smMod 0 m (wordKey bank o j) (satS 48)) p.words })))

/-- A block move with saturation where no exponent fits (R118): the block and the samples saturated. -/
def moveBlk (xs : List Int) : Blk × Nat :=
  let b := storeBlk xs
  let n := (b.m.filter (fun x => !fits24 x)).length
  if n = 0 then (b, 0)
  else
    let m := b.m.map (satS 24)
    ({ m := m, e := b.e, chk := trancheCheck m b.e }, n)

/-- The export of one output (R118). -/
def exportOut (n bank o : Nat) (s : State) : State :=
  let r := moveBlk (positions.map (fun j => smGet 0 s.pair.words (wordKey bank o j)))
  let s1 := setPair s (fun p => { p with psum := smSet none p.psum o (some (n, r.1)) })
  if r.2 = 0 then s1 else evRaise aPairEvt 5 (accCount o 4 r.2 (accCount o 12 1 s1))

/-- The outputs that an image's launches export, in the order of its transport section (R174). -/
def exportsOf (i : Img) : List Nat := ((allLaunches i).filter (fun x => decide (x.2.ty = 2))).flatMap (fun x => x.2.srcs) |>.dedup

/-- The import merge, the saturation to s48 and the export block moves of P_k (R174): every merge cycle has passed when the first
partial sum is launched, or the period ends. -/
def mergeTurn (k : Nat) (i : Img) (s : State) : State :=
  let bank := (k - 1) % 2
  let s1 := mergeImports k bank i.imports.zipIdx s
  let s2 := setPair s1 (fun p => { p with held := p.held.filter (fun h => decide (k < h.n + 2)), merged := true })
  eachObj (exportOut (k - 1) bank) (exportsOf i) (eachObj (satOut bank) allOutputs s2)

/-- The same where the hand-over phase has begun and the merge has not run. -/
def settleMerge (s : State) : State :=
  match stageImg s (s.clk.tidx - 1) with
  | some i => if s.pair.mergeDone && !s.pair.merged then mergeTurn s.clk.tidx i s else s
  | none => s

/-- HANDOVER_PHASE_START: the hand-over of P_k begins with the partition merge; `badResidue` lists outputs and words whose residue did not
match. -/
def handoverOp (n : Nat) (badResidue : List (Nat × Nat)) (s : State) : State :=
  let bank := n % 2
  let s1 := mergeOuts bank allOutputs (auditEnd n s)
  let s2 := residueFault badResidue (residues n badResidue s1)
  setPair s2 (fun p => { p with mergeDone := true })
def execHandoverPhaseStart (badResidue : List (Nat × Nat)) (s : State) : Host.Outcome State Fault Refusal :=
  .next (if s.clk.tidx = 0 then s
    else match stageImg s (s.clk.tidx - 1) with
      | some _ => if s.pair.mergeDone then s else handoverOp (s.clk.tidx - 1) badResidue s
      | none => s)

/-! ## Launches (R117, R182, R224, R237, R453) -/

/-- The data tranche that a launch carries in P_k (R237). -/
def launchTranche (k ty : Nat) : Nat := if ty = 1 then k else if ty = 2 then k - 1 else k - 2

/-- The image whose transport section holds an entry: the active one's entries from 0 on, those of an image that is leaving from
65,536 on. -/
def xptImg (s : State) (entry : Nat) : Option Img × Nat := if entry < 65536 then (s.sch.activeImg, entry) else (s.sch.old, entry - 65536)

/-- The image works on data tranche `n` in the transport section (R195). -/
def xptServes (s : State) (entry n : Nat) : Bool := renders s n && decide ((entry < 65536) = (s.sch.oldN ≤ n))

/-- A staged tranche of a channel for output tranche `m`, where it is complete. -/
def stagedAt (s : State) (ch m : Nat) : Option Stg :=
  match smGet none s.mp.stg (ch * 16 + m % 16) with
  | some g => if g.m = m ∧ g.whole then some g else none
  | none => none

/-- The time index whose sample is sent for output time index `u`: in the gap of an uncommanded switch the held one (R446). -/
def heldIndex (s : State) (u : Nat) : Nat :=
  match s.dpx.gap with
  | some (h, ud) => if ud < u ∧ u < 16 * (h + 1) then ud else u
  | none => u

/-- The sample of a staging channel that is sent for output time index `u`, where its tranche is complete; a held one is zero
while SIL_N is seen low (R281, R446). -/
def outSample (s : State) (ch u : Nat) : Option Int :=
  let v := heldIndex s u
  match stagedAt s ch (v / 16) with
  | some g => some (if v ≠ u ∧ s.cor.silPin then 0 else nth g.xs (v % 16))
  | none => none

/-- Some sample of output tranche `m` is held. -/
def anyHeld (s : State) (m : Nat) : Bool := positions.any (fun j => decide (heldIndex s (16 * m + j) ≠ 16 * m + j))

/-- The record of a launched channel: what its source holds at the launch (R167, R446, R453). -/
def launchRecord (s : State) (ty n src : Nat) : Blk × Bool :=
  match ty with
  | 1 => (match (objAt s src).stored with
    | some (_, b) => b
    | none => {}, false)
  | 2 => (match smGet none s.pair.psum src with
    | some (_, b) => b
    | none => {}, false)
  | _ => match stagedAt s src (n + 4) with
    | some g => let b : Blk := { m := g.xs, e := 0, chk := g.chk }
                if !b.good then ({}, true)
                else if anyHeld s (n + 4) then
                  let xs := positions.map (fun j => (outSample s src (16 * (n + 4) + j)).getD 0)
                  ({ m := xs, e := 0, chk := trancheCheck xs 0 }, false)
                else (b, false)
    | none => ({}, false)

/-- LAUNCH_CHK for the channels that failed (R453). -/
def launchChecks : List (Nat × Bool) → State → State
  | [], s => s
  | (ch, bad) :: rest, s => launchChecks rest (if bad then handoffCheck 1 ch s else s)

/-- A launch of data tranche `n` (R182, R237): nothing departs from a link that is not UP or without a valid address (R208, R217). -/
def launchOp (l n : Nat) (x : Launch) (s : State) : State :=
  let e := epochOf s n
  let rs := x.srcs.map (fun o => (o, launchRecord s x.ty n o))
  let h : CHdr := { dest := x.dest, src := srcField s, ty := x.ty, epoch := e, grp := decide (x.b4 / 32 % 2 = 1),
                    bcast := decide (x.b4 / 64 % 2 = 1), count := x.srcs.length, stream := x.stream, tidx := n % 65536,
                    hadd := x.hadd, ttl := x.ttl, plen := 56 * x.srcs.length }
  let s1 := if x.ty = 3 then launchChecks (rs.map (fun c => (c.1, c.2.2))) s else s
  if linkUp s l && !reserved15 s l && (fabAddr s).isSome then
    hearEpoch e (queueFrame l (caravanFrame 1 (hdrBytes h ++ rs.flatMap (fun c => recBytes c.2.1)) false) s1)
  else s1

/-- LAUNCH: entry of a link's list; a partial sum is ready at its export (R174, R182). -/
def execLaunch (l entry : Nat) (s : State) : Host.Outcome State Fault Refusal :=
  let r := xptImg s entry
  .next (match r.1.bind (fun i => (i.launches.getD l [])[r.2]?) with
    | none => s
    | some x =>
      let n := launchTranche s.clk.tidx x.ty
      if !xptServes s entry n then s else launchOp l n x (if x.ty = 2 then settleMerge s else s))

/-- A duplex caravan departs on link 15 (R450). -/
def sendDpx (p : List Byte) (s : State) : State :=
  if linkUp s 15 then
    let h := { openHdr s with dest := 0, ty := 10, ttl := 1, tidx := field p 0 2, plen := p.length }
    queueFrame 15 (caravanFrame 1 (hdrBytes h ++ p) false) (draw s)
  else s

end Sys2Proof.Machine
end

