-- ==== Sys2Proof/Machine/Matrix.lean ====
section
/-! DEFINITION. The bus matrix: paths, targets, errors and their record, timeouts, late responses and master resets, and the
end of a register-window access (R335, R379 to R388). -/

namespace Sys2Proof.Machine

/-- The target of an internal address (R379), in the column order of R380; 15: none. -/
def targetOf (a : Nat) : Nat :=
  if a < 0x01400000 then 0
  else if 0x02000000 ≤ a ∧ a < 0x03000000 then 1
  else if 0x03000000 ≤ a ∧ a < 0x03C00000 then 2
  else if 0x03C00000 ≤ a ∧ a < 0x04000000 then 3
  else if 0x08000000 ≤ a ∧ a < 0x08400000 then 4
  else if 0x10000000 ≤ a ∧ a < 0x20000000 then 5
  else 15

/-- The path from a master to a target exists in the direction of the access (R380). -/
def pathExists (master target : Nat) (write : Bool) : Bool :=
  match master, target with
  | 0, 0 => true
  | 0, 4 => true
  | 0, 5 => true
  | 0, 1 => !write
  | 0, 2 => !write
  | 0, 3 => !write
  | 1, 2 => true
  | 1, 4 => true
  | 1, 5 => true
  | 2, 0 => true
  | 2, 1 => true
  | 2, 2 => true
  | 2, 3 => !write
  | 2, 4 => true
  | 2, 5 => true
  | 3, 4 => true
  | 4, 1 => write
  | 4, 6 => !write
  | 5, 4 => write
  | 5, 5 => write
  | 5, 6 => write
  | 6, 4 => !write
  | 7, 0 => true
  | 7, 3 => !write
  | 7, 4 => true
  | _, _ => false

/-- The bit of `MTX_EVT` for a response code: 1 TIMEOUT, 2 UE, 3 DECODE (R387). -/
def mtxBit (code : Nat) : Nat := if code = 1 then 1 else if code = 2 then 2 else 0

/-- `MTX_ERR_INFO` for a transaction (R387). -/
def errInfo (code : Nat) (t : Txn) : Word :=
  BitVec.ofNat 32 (2 ^ 31 + code % 16 * 2 ^ 16 + t.master % 16 * 2 ^ 12 + t.target % 16 * 2 ^ 8 + (if t.write then 128 else 0) + t.id % 32)

/-- The record of the first error, kept until HELD is cleared (R385, R387). -/
def holdError (code : Nat) (t : Txn) (s : State) : State :=
  if Word.bit (getReg s aMtxInfo) 31 then s
  else setReg (setReg (setReg s aMtxInfo (errInfo code t)) aMtxAddrLo (BitVec.ofNat 32 t.addr)) aMtxAddrHi (BitVec.ofNat 32 (t.addr / 2 ^ 32))

/-- A transaction ends with a response other than OK (R385, R388). -/
def mtxError (code : Nat) (t : Txn) (s : State) : State :=
  let s1 := holdError code t (evRaise aMtxEvt (mtxBit code) s)
  if code = 1 then ledgerLim 0x0301 3 t.target 1 (fun n => (pair16 t.master t.target, t.addr, n)) s1
  else if code = 3 then ledgerLim 0x0302 2 t.master 1 (fun n => (t.master, t.addr, n)) s1
  else s1

/-! ## Requests held back (R384, R386) -/

/-- How many transactions of one master may be outstanding at a target. -/
def creditLimit (target : Nat) : Nat := if target = 5 then 16 else if target = 4 ∨ target = 6 then 8 else 4

/-- The port holds a transaction back: its master's converter is finishing a burst, its ID has a transaction outstanding at another target, its
credits at the target are used up (a timed-out one keeps its credit, R385), or an earlier request of its ID is held back. -/
def holdsBack (t : Txn) (queue : List HeldReq) (s : State) : Bool :=
  decide (t.master ∈ s.mtx.draining) ||
  s.mtx.pending.any (fun p => decide (p.master = t.master) && decide (p.id = t.id) && decide (p.target ≠ t.target)) ||
  decide (creditLimit t.target ≤ ((s.mtx.pending ++ s.mtx.late).filter (fun p => decide (p.master = t.master) && decide (p.target = t.target))).length) ||
  queue.any (fun h => decide (h.txn.master = t.master) && decide (h.txn.id = t.id))

/-- Changes the matrix. -/
def setMtx (s : State) (f : Mtx → Mtx) : State := { s with mtx := f s.mtx }

/-- Holds a request back. -/
def holdReq (h : HeldReq) (s : State) : State := setMtx s (fun m => { m with held := m.held ++ [h] })

/-! ## Register windows (R335, R474) -/

/-- The control and data registers of the host's window and of the service port's. -/
def winCtl (svc : Bool) : Nat := if svc then aSvcRwinCtl else aRwinCtl
def winData (svc : Bool) : Nat := if svc then aSvcRwinData else aRwinData
def winAddr (svc : Bool) : Nat := if svc then aSvcRwinAddr else aRwinAddr

/-- The master of a window. -/
def winMaster (svc : Bool) : Nat := if svc then 7 else 0

/-- The access is running: BUSY. -/
def winBusy (svc : Bool) (s : State) : Bool := Word.bit (getReg s (winCtl svc)) 31

/-- An access ends with an ERR code; a read leaves its data (R335). -/
def winEnd (svc write : Bool) (err : Nat) (data : Word) (s : State) : State :=
  let s1 := setReg s (winCtl svc) (BitVec.ofNat 32 (err * 2 ^ 29))
  if write then s1 else setReg s1 (winData svc) data

/-- The transaction is the one that a window waits for. -/
def ofWindow (svc : Bool) (t : Txn) (s : State) : Bool :=
  winBusy svc s && decide (t.master = winMaster svc) && decide (t ∈ s.mtx.pending)

/-- A window's access that was answered TIMEOUT ends with ERR 1. -/
def winTimeout (svc : Bool) (t : Txn) (s : State) : State :=
  if ofWindow svc t s then winEnd svc t.write 1 0 s else s

end Sys2Proof.Machine
end

