-- ==== Sys2Proof/Machine/Monitor.lean ====
section
/-! DEFINITION. Stimulus, capture chain and writer, monitor buses and outputs (R421 to R434). -/

namespace Sys2Proof.Machine

/-- Changes the local-audio block. -/
def setLau (s : State) (f : Lau → Lau) : State := { s with lau := f s.lau }

/-- A serial audio port. -/
def sapAt (s : State) (p : Nat) : SapPort := smGet {} s.lau.sap p

/-- Changes a serial audio port. -/
def setSap (p : Nat) (x : SapPort) (s : State) : State := setLau s (fun l => { l with sap := smSet {} l.sap p x })

/-- The media-time index at which the period in progress begins: H_k is the nominal time of sample 16(k + 1). -/
def periodStart (s : State) : Nat := 16 * (s.clk.tidx + 1)

/-- The sample of port index `f` of a port's channel. -/
def sapSample (s : State) (p ch f : Nat) : Int := smGet 0 (sapAt s p).ins (f * 2 + ch)

/-! ## Ramps (R152, R424) -/

/-- A ramp's present value. -/
def SRamp.now (r : SRamp) : Int := if r.k ≤ r.i then r.b else if r.i = 0 then r.a else rampFn r.a r.b (r.i - 1) r.k

/-- A ramp's value at the next sample, and the ramp after it. -/
def SRamp.step (r : SRamp) : Int × SRamp := if r.k ≤ r.i then (r.b, r) else (rampFn r.a r.b r.i r.k, { r with i := r.i + 1 })

/-- A new target replaces a ramp, from the present value. -/
def SRamp.goTo (r : SRamp) (b : Int) (k : Nat) : SRamp := if r.b = b then r else { a := r.now, b := b, i := 0, k := k }

/-- The forced-silence factor Zm of a render-rate time index (R428). -/
def zmAt (s : State) (t : Nat) : Int := rampFn s.lau.zm s.lau.zmTo (t % 16) 16

/-! ## Stimulus (R421) -/

/-- The stimulus sample of time index `t`. -/
def stimAt (s : State) (t : Nat) : Int :=
  match s.lau.stim.running with
  | none => 0
  | some (n, again) =>
    let len := s.lau.stim.xs.length
    if t < 16 * n ∨ len = 0 then 0
    else if t - 16 * n < len then nth s.lau.stim.xs (t - 16 * n)
    else if again then nth s.lau.stim.xs ((t - 16 * n) % len) else 0

/-- At H_k: an armed start is committed at H_(N-2) and begins at H_(N-1); a play that does not repeat ends. -/
def stimBoundary (k : Nat) (s : State) : State :=
  let st := s.lau.stim
  let s1 := match st.armed with
    | some (n, again, tok) =>
      if n ≤ k + 1 then reportAll stOk [tok] (setLau s (fun l => { l with stim := { l.stim with armed := none, running := some (n, again) } }))
      else if n ≤ k + 2 then reportAll stOk [tok] (setLau s (fun l => { l with stim := { l.stim with armed := some (n, again, none) } }))
      else s
    | none => s
  match s1.lau.stim.running with
  | some (n, false) => if 16 * n + s1.lau.stim.xs.length ≤ 16 * (k + 1) then
      evRaise aLauEvt 11 (setLau s1 (fun l => { l with stim := { l.stim with running := none } })) else s1
  | _ => s1

/-! ## Capture chain (R431, R432) -/

/-- L1, L2 and L3 of a response (R432). -/
def capLens (c : Cap) : Nat × Nat × Nat :=
  match c.resp with
  | 0 => (c.l1, c.l2, c.l3)
  | 1 => (47, 95, 63)
  | 2 => (23, 47, 31)
  | 3 => (31, 63, 47)
  | 4 => (15, 31, 15)
  | 5 => (47, 95, 1)
  | _ => (15, 31, 1)

/-- The coefficients of a stage: loaded, or of the ROM. -/
def capCoefs (c : Cap) (stage : Nat) : List Int :=
  let l := capLens c
  let n := if stage = 1 then l.1 else if stage = 2 then l.2.1 else l.2.2
  let at_ := if stage = 1 then 0 else if stage = 2 then l.1 else l.1 + l.2.1
  if c.resp = 0 then (List.range n).map (fun i => nth c.taps (at_ + i)) else (List.range n).map (fun i => (Config.capRom c.resp stage i).toInt)

/-- D: port samples per capture output. -/
def capD (s : State) : Nat := if isDouble s.clk.rate then 2 else 4

/-- N_u (R432). -/
def capNu (s : State) : Nat :=
  let l := capLens s.lau.cap
  let span := if isDouble s.clk.rate then (l.1 - 1) + 2 * (l.2.2 - 1) else (l.1 - 1) + 2 * (l.2.1 - 1) + 4 * (l.2.2 - 1)
  (span + capD s - 1) / capD s

/-- Key of a channel's sample store. -/
def capKey (c i : Nat) : Nat := c * 2 ^ 40 + i

/-- A filter sum: coefficient k by the sample k places earlier. -/
def firSum (cs : List Int) (x : Int → Int) (n : Int) : Int := sumI (cs.zipIdx.map (fun e => e.1 * x (n - e.2)))

/-- One stage's output: the exact sum, rounded and saturated, and 1 where it saturated. -/
def capStage (cs : List Int) (sh : Nat) (x : Int → Int) (n : Int) : Int × Nat :=
  let v := rnd (23 - sh) (firSum cs x n)
  (satS 32 v, clips 32 v)

/-- A store read at an index that may lie before the first. -/
def capStoreAt (m : SMap Int) (c : Nat) (i : Int) : Int := if i < 0 then 0 else smGet 0 m (capKey c i.toNat)

/-- The input of a capture channel: zero below port index D x 16N. -/
def capInput (s : State) (c : Nat) (i : Int) : Int :=
  let p := s.lau.cap.srcs.getD c (0, 0)
  if i < (capD s * 16 * s.lau.cap.first : Nat) then 0 else sapSample s p.1 p.2 i.toNat * 16

/-- Capture output `t` of a channel. -/
def capOne (t c : Nat) (s : State) : State :=
  let k := s.lau.cap
  let d := isDouble s.clk.rate
  let put1 := fun (m : SMap Int) (i : Nat) => let r := capStage (capCoefs k 1) k.sh1 (capInput s c) (2 * i)
    (smSet 0 m (capKey c i) r.1, r.2)
  let a := if d then put1 k.y1 t else (let r := put1 k.y1 (2 * t - 1)
                                       let q := put1 r.1 (2 * t)
                                       (q.1, r.2 + q.2))
  let b := if d then (capStoreAt a.1 c t, 0) else capStage (capCoefs k 2) k.sh2 (capStoreAt a.1 c) (2 * t)
  let y2 := smSet 0 k.y2 (capKey c t) b.1
  let e := capStage (capCoefs k 3) k.sh3 (capStoreAt y2 c) t
  let n := a.2 + b.2 + e.2
  evIf (decide (0 < n)) aLauEvt 10 (setLau s (fun l => { l with cap := { l.cap with
    y1 := a.1, y2 := y2, out := smSet 0 l.cap.out (capKey c t) e.1, clips := bump 32 l.cap.clips n } }))

/-- The enabled capture channels. -/
def capChannels (s : State) : List Nat := (List.range 8).filter (fun c => decide (s.lau.cap.mask / 2 ^ c % 2 = 1))

/-- The same for the channels of a list. -/
def capAll (t : Nat) : List Nat → State → State
  | [], s => s
  | c :: cs, s => capAll t cs (capOne t c s)

/-- The capture outputs that are due up to time index `t`, at most `fuel` of them. -/
def capUpTo (t : Nat) : Nat → State → State
  | 0, s => s
  | fuel + 1, s =>
    if s.lau.cap.running.isSome ∧ s.lau.cap.next ≤ t then
      let s1 := capAll s.lau.cap.next (capChannels s) s
      capUpTo t fuel (setLau s1 (fun l => { l with cap := { l.cap with next := l.cap.next + 1 } }))
    else s

/-! ## Capture start, end and writer (R433, R434) -/

/-- Capture ends. -/
def captureEnd (s : State) : State := evRaise aLauEvt 8 (setLau s (fun l => { l with cap := { l.cap with running := none } }))

/-- Capture is stopped: what is not written is discarded, and the writer is a reset master (R386). -/
def captureStop (s : State) : State :=
  if s.lau.cap.running.isSome then
    captureEnd (resetMasters [5] (setLau s (fun l => { l with cap := { l.cap with queue := [] } })))
  else s

/-- A capture block of channel `c` of tranche `n`. -/
def captureBlock (s : State) (n c : Nat) : List Byte :=
  let u := (positions.filter (fun j => decide (16 * n + j < 16 * s.lau.cap.first + capNu s))).foldl (fun a j => a + 2 ^ j) 0
  let b := positions.flatMap (fun j => leInt 4 (smGet 0 s.lau.cap.out (capKey c (16 * n + j)))) ++ leBytes 8 n ++ leBytes 1 c ++ zeros 1 ++ leBytes 2 u
  b ++ leBytes 4 (crc32c b)

/-- A write into a capture space: 0 control SRAM, at its internal addresses, 1 DRAM, 2 host. What the matrix answers DECODE changes nothing (R380,
R385, R392, R395). -/
def captureWrite (space a : Nat) (bs : List Byte) (s : State) : State :=
  let t : Txn := { master := 5, target := if space = 0 then targetOf a else 5, write := true, id := 0, addr := a }
  match space with
  | 0 =>
    if targetOf a = 4 ∧ targetOf (a + bs.length - 1) = 4 then { s with stw := { s.stw with sram := smWriteBytes s.stw.sram (a - 0x08000000) bs } }
    else mtxError 3 t s
  | 1 =>
    let r := bestWrite a bs [] s
    if r.1 = 0 then r.2 else mtxError r.1 t r.2
  | _ => hostWrite a bs s

/-- The same for a list of writes. -/
def captureWrites (space : Nat) : List (Nat × List Byte) → State → State
  | [], s => s
  | (a, bs) :: ws, s => captureWrites space ws (captureWrite space a bs s)

/-- The capture space takes blocks: host traffic flows, and the writer's port is not finishing a burst (R331, R386). -/
def capOpen (s : State) : Bool := (decide (s.lau.cap.space ≠ 2) || canHost s) && !decide (5 ∈ s.mtx.draining)

/-- Waiting tranches are written once the space takes them. -/
def captureFlush : List (Nat × List (Nat × List Byte)) → State → State
  | [], s => setLau s (fun l => { l with cap := { l.cap with queue := [] } })
  | (n, ws) :: rest, s =>
    if capOpen s then captureFlush rest (captureWrites s.lau.cap.space ws s) else setLau s (fun l => { l with cap := { l.cap with queue := (n, ws) :: rest } })

/-- The blocks of a tranche that cannot be queued are discarded. -/
def captureDrop (n : Nat) : List Nat → State → State
  | [], s => s
  | c :: cs, s => captureDrop n cs (ledgerLim 0x1005 2 0 1 (fun k => (c, n % 2 ^ 32, k))
      (evRaise aLauEvt 9 (setLau s (fun l => { l with cap := { l.cap with drops := bump 32 l.cap.drops 1 } }))))

/-- The blocks of tranche `n` are written, held, or dropped; the progress follows, and a one-shot capture that is full stops. -/
def captureTranche (n : Nat) (s : State) : State :=
  let k := s.lau.cap
  let cs := capChannels s
  let place := fun (c : Nat) => k.base + 80 * ((n - k.first) % k.len * cs.length + (cs.idxOf c))
  let ws := cs.map (fun c => (place c, captureBlock s n c)) ++ [(k.prog, leBytes 8 (k.written + 1))]
  let held := !capOpen s || !k.queue.isEmpty
  let full := held && decide (4 ≤ k.queue.length)
  let s1 := if full then captureDrop n cs s
    else
      let t := setLau s (fun l => { l with cap := { l.cap with blocks := bump 32 l.cap.blocks cs.length, written := l.cap.written + 1 } })
      if held then setLau t (fun l => { l with cap := { l.cap with queue := l.cap.queue ++ [(n, ws)] } }) else captureWrites k.space ws t
  if !k.cont && decide (k.len ≤ n + 1 - k.first) then captureEnd s1 else s1

/-- Stores keep only what a later sample can need. -/
def capTrim (lo : Nat) (m : SMap Int) : SMap Int := m.filter (fun e => decide (lo ≤ e.1 % 2 ^ 40))

/-- At H_k: outputs of the period that has ended, the blocks of tranche k - 2, a start committed at H_(N-2) and begun at
H_(N-1). -/
def captureBoundary (k : Nat) (s : State) : State :=
  let s0 := captureFlush s.lau.cap.queue (capUpTo (16 * (k + 1) - 1) 64 s)
  let s1 := match s0.lau.cap.running with
    | some n => if n + 2 ≤ k then captureTranche (k - 2) s0 else s0
    | none => s0
  let s2 := setLau s1 (fun l => { l with cap := { l.cap with
    y1 := capTrim (32 * (k + 1) - 400) l.cap.y1, y2 := capTrim (16 * (k + 1) - 200) l.cap.y2, out := capTrim (16 * (k + 1) - 64) l.cap.out } })
  match s2.lau.cap.armed with
  | some (n, tok) =>
    if n ≤ k + 1 then
      evRaise aLauEvt 7 (reportAll stOk [tok] (setLau s2 (fun l => { l with cap := { l.cap with
        armed := none, running := some n, first := n, next := 16 * n, written := 0, y1 := [], y2 := [], out := [] } })))
    else if n ≤ k + 2 then reportAll stOk [tok] (setLau s2 (fun l => { l with cap := { l.cap with armed := some (n, none) } }))
    else s2
  | none => s2

/-! ## Monitor buses (R422 to R425) -/

/-- A monitor bus. -/
def busAt (s : State) (b : Nat) : Bus := smGet {} s.lau.bus b

/-- Changes a monitor bus. -/
def setBus (b : Nat) (x : Bus) (s : State) : State := setLau s (fun l => { l with bus := smSet {} l.bus b x })

/-- A counter of a monitor record: 4 MIX_CLIP, 8 ST_CLIP, 12 QSLIP (R436). -/
def busCount (b off n : Nat) (s : State) : State := setBus b { busAt s b with cnt := bumpAt (busAt s b).cnt off n } s

/-- A render tap at bus sample `t`: a staged output 2 samples earlier, or a conditioned object sample 18 earlier (R422); `false`:
it is not yet present. -/
def tapSample (s : State) (tap t : Nat) : Int × Bool :=
  if 32768 ≤ tap then
    let u := t - 2
    match stagedAt s (tap % 1024) (u / 16) with
    | some g => (nth g.xs (u % 16) * 16, true)
    | none => (0, !issuing s)
  else
    let u := t - 18
    let n := u / 16
    match (objAt s (tap % 1024)).stored with
    | some (m, _) => if n ≤ m then (if m < n + 32 then (stagedBlk s (tap % 1024) n).at (u % 16) else 0, true) else (0, !issuing s)
    | none => (0, !issuing s)

/-- A bus input's source sample at bus sample `t`. -/
def mixSource (s : State) (x : MixIn) (t : Nat) : Int × Bool :=
  match x.code with
  | 1 =>
    let p := sapAt s (x.idx / 2)
    if !p.enabled || p.lost || !sapAtRender s (x.idx / 2) then (0, true)
    else (sapSample s (x.idx / 2) (x.idx % 2) (t - 2) * 16, p.last.any (fun f => decide (t ≤ f + 3)))
  | 2 => tapSample s (s.lau.taps.getD x.idx 0) t
  | 3 => match s.lau.cap.running with
    | some n => if t < 16 * n + 2 then (0, true) else (smGet 0 s.lau.cap.out (capKey x.idx (t - 2)), decide (t < s.lau.cap.next + 2))
    | none => (0, true)
  | 4 => (stimAt s (t - 2) * 16, true)
  | _ => (0, true)

/-- An input that has a source or a gain in motion. -/
def MixIn.live (x : MixIn) : Bool := decide (x.code ≠ 0) || decide (x.ramp.i < x.ramp.k)

/-- N_active (R425). -/
def nActive (b : Bus) : Nat := (b.ins.filter (fun x => decide (x.gain ≠ 0) && !x.mute)).length

/-- The target of A (R425). -/
def scaleTarget (b : Bus) : Int :=
  if !b.auto then 268435456
  else
    let n := nActive b
    if n ≤ 1 then 268435456 else if n ≤ 2 then 190037749 else if n ≤ 4 then 134536424 else if n ≤ 8 then 95244494
    else if n ≤ 16 then 67427938 else 47735324

/-- K samples of a bus's ramps (R424). -/
def rampLen (s : State) (ms : Nat) : Nat := (2 * ms * rateHz s.clk.rate + 1000) / 2000

/-- Bus sample `t` (R423). -/
def busSample (b t : Nat) (s : State) : State :=
  let x := busAt s b
  let ins := x.ins.map (fun i => if i.live then
      let g := i.ramp.step
      let v := mixSource s i t
      (rnd 28 (v.1 * g.1), (!v.2 : Bool), { i with ramp := g.2 })
    else (0, false, i))
  let a := x.scale.step
  let g := x.gain.step
  let u := rnd 28 (sumI (ins.map Prod.fst) * a.1)
  let v := rnd 28 (satS 32 u * g.1)
  let w := bqChain x.bq x.bz [satS 32 v]
  let y := rnd 4 (rnd 24 (nth w.1 0 * zmAt s t))
  let n := clips 32 u + clips 32 v + w.2.2 + clips 24 y
  let q := (ins.filter (fun e => e.2.1)).length
  let s1 := setBus b { x with ins := ins.map (fun e => e.2.2), scale := a.2, gain := g.2, bz := w.2.1, next := t + 1,
                              out := smSet 0 (x.out.filter (fun e => decide (t < e.1 + 64))) t (satS 24 y) } s
  let s2 := if n = 0 then s1 else ledgerLim 0x1006 1 b n (fun c => (b, tidxLow s, c)) (evRaise aLauEvt 3 (busCount b 4 n s1))
  if q = 0 then s2 else evRaise aLauEvt 12 (busCount b 12 q s2)

/-- The bus samples that are due up to `t`, at most `fuel` of them. -/
def busUpTo (b t : Nat) : Nat → State → State
  | 0, s => s
  | fuel + 1, s => if (busAt s b).next ≤ t then busUpTo b t fuel (busSample b (busAt s b).next s) else s

/-- A bus catches up to `t`; after a jump of the tranche index it begins with the period in progress. -/
def busAdvance (b t : Nat) (s : State) : State :=
  let x := busAt s b
  let s0 := if x.next + 64 < t ∨ t + 64 < x.next then setBus b { x with next := periodStart s } s else s
  busUpTo b t 64 (capUpTo (t - 2) 64 s0)

/-! ## Monitor outputs (R426 to R430) -/

/-- The code of a monitor output whose live code is `live` (R429). -/
def monCode (s : State) (m : Mon) (live : Int) : Int :=
  let c := signed 24 (getReg s aMonClear).toNat
  if m.clear then c
  else if m.returning then c + rnd 24 ((live - c) * (if m.ret = 0 then 0 else rampFn 0 16777216 (m.ret - 1) 384))
  else live

/-- What an interpolator gives: its response is not in the spec. -/
def interpFree (s : State) : Int := satS 24 (Config.freeInt s.freeCtr)

/-- A side-tone sample reaches the modulator of output `k` (R426). -/
def sideTone (k t : Nat) (x : Int) (s : State) : State :=
  let m := monAt s k
  let g := m.gst.step
  let v := interpFree s + rnd 24 (rnd 28 (x * g.1) * zmAt s t)
  let s1 := setMon (draw s) k { m with gst := g.2, mod := monCode s m (satS 24 v) }
  if clips 24 v = 0 then s1 else evRaise aLauEvt 4 (busCount k 8 1 s1)

/-- At a tranche boundary the outputs of a list go on: a return ramp by a tranche of modulator samples, then the live code. -/
def monTick : List Nat → State → State
  | [], s => s
  | k :: ks, s =>
    let m := monAt s k
    let r := m.ret + (if isDouble s.clk.rate then 64 else 128)
    let m1 := if m.returning then { m with ret := min r 384, returning := decide (r < 384) } else m
    monTick ks (setMon (draw s) k { m1 with mod := monCode s m1 (interpFree s) })

/-- The buses of a list catch up. -/
def busAll (t : Nat) : List Nat → State → State
  | [], s => s
  | b :: bs, s => busAll t bs (busAdvance b t s)

/-- Local audio at H_k: the samples of the period that has ended, capture, stimulus, forced silence as SIL_N is seen (R428). -/
def audioBoundary (k : Nat) (s : State) : State :=
  let s1 := busAll (16 * (k + 1) - 1) (List.range 8) s
  let s2 := stimBoundary k (captureBoundary k s1)
  monTick (List.range 8) (setLau s2 (fun l => { l with zm := l.zmTo, zmTo := if s.aon.silLow then 0 else 16777216 }))

/-- MON_CLR_N changes (R429). -/
def monClr (low : Bool) (s : State) : State :=
  if s.aon.monClrLow = low then s
  else
    let s1 := { s with aon := { s.aon with monClrLow := low } }
    monSettleAll (ledger 0x1004 2 (if low then 0 else 1) (Word.bits (getReg s aMonClear) 23 0) 0 (evRaise aLauEvt 6 s1))

/-- MON_CLR_ASSERT and MON_CLR_RELEASE. -/
def execMonClrAssert (s : State) : Host.Outcome State Fault Refusal := .next (monClr true s)
def execMonClrRelease (s : State) : Host.Outcome State Fault Refusal := .next (monClr false s)

/-- SIL_N_CHANGE: a change of level raises `TOP_EVT.SIL` (R477); it acts at the boundaries at which it is seen (R155, R428). -/
def execSilNChange (high : Bool) (s : State) : Host.Outcome State Fault Refusal :=
  .next (evIf (decide (s.aon.silLow = high)) aTopEvt 5 { s with aon := { s.aon with silLow := !high } })

/-- MON_COMPLY_TIMER (R430): pin 0 IOP, 1 ION. -/
def execMonComplyTimer (k pin : Nat) (outside : Bool) (s : State) : Host.Outcome State Fault Refusal :=
  let m := monAt s k
  .next (if outside then
      (if pin ∈ m.comply then s
       else ledger 0x1003 3 k pin 0 (evRaise aLauEvt 5 (setMon s k { m with comply := m.comply ++ [pin] })))
    else setMon s k { m with comply := m.comply.filter (fun p => decide (p ≠ pin)) })

end Sys2Proof.Machine
end

