-- ==== Sys2Proof/Machine/Sap.lean ====
section
/-! DEFINITION. Serial audio ports: frames, port indices, slips, aligned groups, outputs (R412 to R420). -/

namespace Sys2Proof.Machine

/-- A counter of a port's record: 4 SLIP, 8 UNDERRUN, 12 CLIP (R436). -/
def sapCount (p off n : Nat) (s : State) : State := setSap p { sapAt s p with cnt := bumpAt (sapAt s p).cnt off n } s

/-- A word on SDI as s24, and whether it saturated (R413). -/
def fromWord (word w : Nat) : Int × Nat :=
  if word = 16 then (signed 16 w * 256, 0)
  else if word = 24 then (signed 24 w, 0)
  else let v := rnd 8 (signed 32 w)
       (satS 24 v, clips 24 v)

/-- An s24 sample as a word on SDO (R413). -/
def toWord (word : Nat) (v : Int) : Int × Nat :=
  if word = 16 then (satS 16 (rnd 8 v), clips 16 (rnd 8 v))
  else if word = 24 then (v, 0) else (v * 256, 0)

/-- The port index at which the period in progress begins (R415). -/
def portStart (s : State) (p : Nat) : Nat :=
  let m := (sapAt s p).m
  if isDouble s.clk.rate then periodStart s * m / 2 else periodStart s * m

/-- A slip (R416). -/
def sapSlip (p : Nat) (s : State) : State :=
  let s1 := evRaise aLauEvt 0 (sapCount p 4 1 s)
  ledgerLim 0x1001 3 p 1 (fun _ => (p, 2, cntAt (sapAt s1 p).cnt 4)) s1

/-- A member of an aligned group has no edge at this position (R419). -/
def groupUnderrun (p : Nat) (s : State) : State :=
  let x := sapAt s p
  if x.group = 255 ∨ x.whole = false then s
  else
    let s1 := sapCount p 8 1 (setSap p { x with whole := false } s)
    ledger 0x1002 2 x.group p (cntAt (sapAt s1 p).cnt 8) (evRaise aLauEvt 1 s1)

/-- SAP_WS_EDGE: a slave's edge with the index it is given (R416); `aligned`: within a quarter frame of the leader's (R419). -/
def wsEdge (p f : Nat) (aligned : Bool) (s : State) : State :=
  let x := sapAt s p
  let bad := decide (x.group ≠ 255) && !aligned
  let same := decide (x.last = some f) && !x.lost
  let skip := x.last.any (fun l => decide (f ≠ l + 1)) && !same && !x.lost
  let s1 := setSap p { x with last := some f, lost := false, dropIn := same, unaligned := bad, whole := x.whole } s
  let s2 := if same || skip then sapSlip p s1 else s1
  if bad then groupUnderrun p s2 else setSap p { sapAt s2 p with whole := true } s2
def execSapWsEdge (p f : Nat) (aligned : Bool) (s : State) : Host.Outcome State Fault Refusal :=
  .next (if (sapAt s p).enabled ∧ (sapAt s p).master = false ∧ p < 16 then wsEdge p f aligned s else s)

/-- SAP_LOST: a slave port without an edge for 4 frame periods (R416). -/
def execSapLost (p : Nat) (s : State) : Host.Outcome State Fault Refusal :=
  let x := sapAt s p
  .next (if x.enabled ∧ x.master = false ∧ x.lost = false ∧ p < 16 then
      groupUnderrun p (ledger 0x1001 3 p 1 (cntAt x.cnt 4) (evRaise aLauEvt 2 (setSap p { x with lost := true } s)))
    else s)

/-- The input samples of frame `f` have port index f + 1 (R415). -/
def takeInput (p f : Nat) (v0 v1 : Int × Nat) (s : State) : State :=
  let t := f + 1
  let x := sapAt s p
  let s1 := sapCount p 12 (v0.2 + v1.2) (setSap p { x with
    ins := smSet 0 (smSet 0 (x.ins.filter (fun e => decide (2 * t < e.1 + 800))) (t * 2) v0.1) (t * 2 + 1) v1.1 } s)
  if sapAtRender s p && s.clk.tidxValid then
    placeSample { ty := 3, idx := p, ch := 1 } t v1.1 (placeSample { ty := 3, idx := p, ch := 0 } t v0.1 s1)
  else s1

/-- The side-tones that a port feeds, with the samples of its channels that enter the modulators at render index `t`. -/
def sideTones (p t : Nat) (x0 x1 : Int) : List Nat → State → State
  | [], s => s
  | k :: ks, s =>
    let m := monAt s k
    sideTones p t x0 x1 ks (if m.stOn ∧ m.stPort = p then sideTone k t (if m.stCh = 0 then x0 else x1) s else s)

/-- The render-rate index in whose tranche a frame falls. -/
def renderIndex (s : State) (p f : Nat) : Nat := (if isDouble s.clk.rate then f * 2 else f) / max 1 (sapAt s p).m

/-- A bus that a port's output takes catches up. -/
def feedBus (p f code idx : Nat) (s : State) : State := if code = 2 ∧ sapAtRender s p then busAdvance idx f s else s

/-- The sample of an output source at port index `f` (R418). -/
def outputOf (s : State) (f code idx : Nat) : Int :=
  match code with
  | 1 => (outSample s idx f).getD 0
  | 2 => smGet 0 (busAt s idx).out f
  | 3 => stimAt s f
  | _ => 0

/-- The staged tranche that an output source is sent from fails its check (R453). -/
def stagedBad (s : State) (f code idx : Nat) : Bool :=
  decide (code = 1) && (stagedAt s idx (heldIndex s f / 16)).any (fun g => decide (g.chk ≠ trancheCheck g.xs 0))

/-- What SDO carries for one channel: zero off the render rate, while the device does not drive, and while the core clock does
not run (R244, R417, R420). -/
def sdoSample (s : State) (p f code idx : Nat) : Int × Nat :=
  if !sapAtRender s p || !driving s || !coreRuns s || stagedBad s f code idx then (0, 0)
  else toWord (sapAt s p).word (rnd 24 (outputOf s f code idx * zmAt s f))

/-- SAP_CHK, once for each tranche that a port's channel sends (R453). -/
def sapCheck (p f code idx : Nat) (s : State) : State :=
  if sapAtRender s p && stagedBad s f code idx && !(sapAt s p).last.any (fun l => decide (l / 16 = f / 16)) then handoffCheck 2 idx s else s

/-- The outputs of frame `f`; a port with DPX_HIZ is not driven while the device does not drive (R420). -/
def sendFrame (p f : Nat) (s : State) : State :=
  let x := sapAt s p
  let s1 := sapCheck p f x.src1 x.idx1 (sapCheck p f x.src0 x.idx0 (feedBus p f x.src1 x.idx1 (feedBus p f x.src0 x.idx0 s)))
  let a := sdoSample s1 p f x.src0 x.idx0
  let b := sdoSample s1 p f x.src1 x.idx1
  if x.dpxHiz && !driving s then s1 else emit (.sap p f [a.1, b.1]) (sapCount p 12 (a.2 + b.2) s1)

/-- SAP_FRAME: nothing runs in a thermal trip (R470). The words of channels 0 and 1 on SDI. As frame `f` ends, the side-tone sample of frame f - 2, whose port index is f - 1, enters
the modulators (R415, R426). -/
def sapFrame (p w0 w1 : Nat) (s : State) : State :=
  let x := sapAt s p
  let f := if x.master then max ((x.last.map (· + 1)).getD 0) (portStart s p) else x.last.getD 0
  let a := if x.unaligned then (0, 0) else fromWord x.word w0
  let b := if x.unaligned then (0, 0) else fromWord x.word w1
  let s1 := sendFrame p f s
  let s2 := if x.dropIn || x.unaligned then s1 else takeInput p f a b s1
  let s3 := sideTones p (renderIndex s p (f + 1)) (sapSample s2 p 0 (f - 1)) (sapSample s2 p 1 (f - 1)) (List.range 8) s2
  setSap p { sapAt s3 p with last := some f, dropIn := false, unaligned := false } s3
def execSapFrame (p w0 w1 : Nat) (s : State) : Host.Outcome State Fault Refusal :=
  .next (if s.aon.trip = false ∧ p < 16 ∧ (sapAt s p).enabled ∧ (sapAt s p).lost = false ∧ ((sapAt s p).master ∨ (sapAt s p).last.isSome) then sapFrame p w0 w1 s
    else s)

end Sys2Proof.Machine
end

