-- ==== Sys2Proof/Machine/AudioDesc.lean ====
section
/-! DEFINITION. The descriptors of local audio (R412, R417, R421 to R426, R432 to R436). -/

namespace Sys2Proof.Machine

/-! ## Ports (R412, R417, R435, R436) -/

/-- An object is, or is to be, mapped to a port. -/
def portMapped (s : State) (p : Nat) : Bool :=
  s.obj.any (fun e => decide (e.2.src.ty = 3) && decide (e.2.src.idx = p)) ||
    s.keyed.any (fun k => match k.act with
      | .objMap _ _ ty idx _ => decide (ty = 3) && decide (idx = p)
      | _ => false)

/-- A port is the source of a side-tone or of a capture channel. -/
def portUsed (s : State) (p : Nat) : Bool :=
  (List.range 8).any (fun k => (monAt s k).stOn && decide ((monAt s k).stPort = p)) ||
    (capChannels s).any (fun c => decide ((s.lau.cap.srcs.getD c (0, 0)).1 = p))

/-- The index of an output source is within its limit (R418). -/
def sourceIdx (code idx : Nat) : Bool := if code = 1 then decide (idx ≤ 2047) else if code = 2 then decide (idx ≤ 7) else decide (idx = 0)

/-- SAP_CFG. -/
def execSapCfg (d : Desc) (s : State) : Host.Outcome State Fault Refusal :=
  let p := pl d 0 1
  let x := sapAt s p
  let m := pl d 4 1
  let g := pl d 5 1
  let render := decide (m = if isDouble s.clk.rate then 2 else 1)
  let mates := (List.range 16).filter (fun q => decide (q ≠ p) && decide ((sapAt s q).group = g) && (sapAt s q).enabled)
  .next (checked d [(0, 12)] [(0, decide (p ≤ 15)), (1, decide (pl d 1 1 ≤ 15)), (2, decide (pl d 2 1 ∈ [16, 24, 32])),
      (3, decide (pl d 3 1 ∈ [24, 32]) && decide (pl d 2 1 ≤ pl d 3 1)), (4, decide (m ∈ [1, 2, 4])),
      (5, decide (g = 255) || (decide (g ≤ 7) && mates.all (fun q => decide ((sapAt s q).m = m)))),
      (6, decide (pl d 6 1 ≤ 3) && (render || decide (pl d 6 1 = 0))), (7, decide (pl d 7 1 ≤ 3) && (render || decide (pl d 7 1 = 0))),
      (8, sourceIdx (pl d 6 1) (pl d 8 2)), (10, sourceIdx (pl d 7 1) (pl d 10 2))] s
    (if (decide (x.m ≠ m) || decide (x.enabled ≠ plBit d 1 0)) && (portMapped s p || portUsed s p) then finish d stNotPermitted s
     else finish d stOk (setSap p { x with
       enabled := plBit d 1 0, master := plBit d 1 1, lj := plBit d 1 2, dpxHiz := plBit d 1 3, word := pl d 2 1, slot := pl d 3 1,
       m := m, group := g, src0 := pl d 6 1, src1 := pl d 7 1, idx0 := pl d 8 2, idx1 := pl d 10 2,
       lost := false, last := none, dropIn := false, unaligned := false, whole := true, ins := [] } s)))

/-! ## Mixer (R422 to R426) -/

/-- Gains are 0 to 4.0. -/
def gainField (v : Nat) : Bool := decide (v ≤ 0x40000000)

/-- A bus's inputs are retargeted: each gain ramps to its target, zero where it is muted. -/
def retarget (k : Nat) (old : MixIn) (new : MixIn) : MixIn := { new with ramp := old.ramp.goTo (if new.mute then 0 else new.gain) k }

/-- A bus with its automatic scale retargeted (R425). -/
def rescale (k : Nat) (x : Bus) : Bus := { x with scale := x.scale.goTo (scaleTarget x) k }

/-- An input record of MIX_BUS. -/
def mixRecord (r : List Byte) : MixIn :=
  { code := field r 0 1, idx := field r 1 1, mute := decide (field r 2 1 = 1), gain := field r 4 4 }

/-- An input record is within its limits; a serial input must come from a port at the render rate. -/
def mixOk (s : State) (r : List Byte) : Bool :=
  let i := field r 1 1
  decide (field r 2 1 ≤ 1) && decide (field r 3 1 = 0) && gainField (field r 4 4) &&
  (match field r 0 1 with
    | 0 => decide (i = 0)
    | 1 => decide (i ≤ 31) && sapAtRender s (i / 2)
    | 2 => decide (i ≤ 63)
    | 3 => decide (i ≤ 7)
    | 4 => decide (i = 0)
    | _ => false)

/-- The bus after MIX_BUS. -/
def mixApply (d : Desc) (ins bq : List Byte) (k : Nat) (x : Bus) : Bus :=
  let x1 : Bus := { x with
    auto := plBit d 1 0, rt := pl d 2 2,
    ins := if plBit d 1 2 then List.zipWith (retarget k) x.ins ((chunks 8 32 ins).map mixRecord) else x.ins,
    bq := if plBit d 1 1 then (List.range 4).map (fun i => bqcAt bq (20 * i)) else x.bq,
    gain := if plBit d 1 3 then x.gain.goTo (pl d 4 4) k else x.gain,
    interp := if plBit d 1 4 then pl d 24 1 else x.interp }
  rescale k x1

/-- MIX_BUS. -/
def execMixBus (d : Desc) (s : State) : Host.Outcome State Fault Refusal :=
  let b := pl d 0 1
  let li := plBit d 1 2
  let lq := plBit d 1 1
  .next (checked d ([(0, 8), (24, 1)] ++ (if li then [(8, 8)] else []) ++ (if lq then [(16, 8)] else []))
      [(0, decide (b ≤ 7)), (1, decide (pl d 1 1 ≤ 31)), (2, decide (1 ≤ pl d 2 2) && decide (pl d 2 2 ≤ 1000)), (4, gainField (pl d 4 4)),
       (24, decide (pl d 24 1 ≤ 1))] s
    (match (if li then hostBlock d 0 256 else some []), (if lq then hostBlock d (if li then 1 else 0) 80 else some []) with
      | none, _ => badBlock d 8 s
      | _, none => badBlock d 16 s
      | some i, some q =>
        if li && !(chunks 8 32 i).all (mixOk s) then badField d 0xFFFF s
        else finish d stOk (setBus b (mixApply d i q (rampLen s (pl d 2 2)) (busAt s b)) s)))

/-- MIX_INPUT. -/
def execMixInput (d : Desc) (s : State) : Host.Outcome State Fault Refusal :=
  let b := pl d 0 1
  let i := pl d 1 1
  let x := busAt s b
  let k := rampLen s x.rt
  let old := x.ins.getD i {}
  .next (checked d [(0, 3), (4, 4)] [(0, decide (b ≤ 7)), (1, decide (i ≤ 31)), (2, decide (pl d 2 1 ≤ 1)), (4, gainField (pl d 4 4))] s
    (finish d stOk (setBus b (rescale k { x with
      ins := x.ins.set i (retarget k old { old with mute := decide (pl d 2 1 = 1), gain := pl d 4 4 }) }) s)))

/-- MON_TAPS. -/
def execMonTaps (d : Desc) (s : State) : Host.Outcome State Fault Refusal :=
  .next (checked d [(0, 8)] [] s
    (match hostBlock d 0 128 with
      | none => badBlock d 0 s
      | some b =>
        let ts := (chunks 2 64 b).map leNat
        if ts.any (fun t => decide (t % 32768 ≥ 1024)) then badField d 0xFFFF s
        else finish d stOk (setLau s (fun l => { l with taps := ts }))))

/-- SIDETONE: the gain ramps over 48 port samples. -/
def execSidetone (d : Desc) (s : State) : Host.Outcome State Fault Refusal :=
  let k := pl d 0 1
  let m := monAt s k
  .next (checked d [(0, 8)] [(0, decide (k ≤ 7)), (1, decide (pl d 1 1 ≤ 1)), (2, decide (pl d 2 1 ≤ 15)), (3, decide (pl d 3 1 ≤ 1)),
      (4, gainField (pl d 4 4))] s
    (finish d stOk (setMon s k { m with stOn := plBit d 1 0, stPort := pl d 2 1, stCh := pl d 3 1, gst := m.gst.goTo (pl d 4 4) 48 })))

/-! ## Capture (R432 to R434) -/

/-- Capture is armed or running. -/
def capBusy (s : State) : Bool := s.lau.cap.armed.isSome || s.lau.cap.running.isSome

/-- The sources of a CAP_CFG. -/
def capSources (d : Desc) : List (Nat × Nat) := (List.range 8).map (fun c => (pl d (8 + 2 * c) 1, pl d (9 + 2 * c) 1))

/-- CAP_CFG: an enabled channel's port must run at m = 4. -/
def execCapCfg (d : Desc) (s : State) : Host.Outcome State Fault Refusal :=
  let k := s.lau.cap
  let on := fun (c : Nat) => decide (pl d 4 1 / 2 ^ c % 2 = 1)
  let limits := (List.range 8).flatMap (fun c =>
    [(8 + 2 * c, decide (pl d (8 + 2 * c) 1 ≤ 15) && (!on c || decide ((sapAt s (pl d (8 + 2 * c) 1)).m = 4))),
     (9 + 2 * c, decide (pl d (9 + 2 * c) 1 ≤ 1))])
  .next (checked d [(0, 5), (8, 16)] ([(0, decide (pl d 0 1 ≤ 6)), (1, decide (pl d 1 1 ≤ 7)), (2, decide (pl d 2 1 ≤ 7)),
      (3, decide (pl d 3 1 ≤ 7))] ++ limits) s
    (if (decide (k.resp ≠ pl d 0 1) || decide (k.sh1 ≠ pl d 1 1) || decide (k.sh2 ≠ pl d 2 1) || decide (k.sh3 ≠ pl d 3 1)) && capBusy s then
       finish d stNotPermitted s
     else finish d stOk (setLau s (fun l => { l with cap := { l.cap with
       resp := pl d 0 1, sh1 := pl d 1 1, sh2 := pl d 2 1, sh3 := pl d 3 1, mask := pl d 4 1, srcs := capSources d } }))))

/-- CAP_COEF. -/
def execCapCoef (d : Desc) (s : State) : Host.Outcome State Fault Refusal :=
  let l1 := pl d 8 1
  let l2 := pl d 9 1
  let l3 := pl d 10 1
  .next (checked d [(0, 11)] [(8, decide (3 ≤ l1) && decide (l1 ≤ 63) && decide (l1 % 4 = 3)),
      (9, decide (3 ≤ l2) && decide (l2 ≤ 127) && decide (l2 % 4 = 3)), (10, decide (1 ≤ l3) && decide (l3 ≤ 127))] s
    (match hostBlock d 0 (4 * (l1 + l2 + l3)) with
      | none => badBlock d 0 s
      | some b =>
        let ts := tapsOf (l1 + l2 + l3) b
        if !taps24 ts then badField d 0xFFFF s
        else if capBusy s then finish d stNotPermitted s
        else finish d stOk (setLau s (fun l => { l with cap := { l.cap with l1 := l1, l2 := l2, l3 := l3, taps := ts } }))))

/-- CAP_DEST. -/
def execCapDest (d : Desc) (s : State) : Host.Outcome State Fault Refusal :=
  .next (checked d [(0, 10), (12, 12)] [(8, decide (pl d 8 1 ≤ 2)), (9, decide (pl d 9 1 ≤ 1)),
      (12, decide (1 ≤ pl d 12 4) && decide (pl d 12 4 ≤ 16777216))] s
    (if (decide (pl d 8 1 = 1) && s.drc.noDram) || capBusy s then finish d stNotPermitted s
     else finish d stOk (setLau s (fun l => { l with cap := { l.cap with
       base := pl d 0 8, space := pl d 8 1, cont := plBit d 9 0, len := pl d 12 4, prog := pl d 16 8 } }))))

/-- A capture start is armed and replaces an earlier one that has not begun (R433). -/
def armCapture (n tok : Nat) (s : State) : State :=
  let gone := match s.lau.cap.armed with
    | some (_, t) => [t]
    | none => []
  reportAll stFlushed gone (setLau s (fun l => { l with cap := { l.cap with armed := some (n, some tok) } }))

/-- A capture start keyed to N, of CAP_START and TIME_TRIG. -/
def captureArm (d : Desc) (n : Nat) (s : State) : State :=
  if !beforeH s ((n : Int) - 2) then finish d stLate s
  else if s.lau.cap.running.isSome then finish d stNotPermitted s
  else armCapture n d.tok s

/-- CAP_START. -/
def execCapStart (d : Desc) (s : State) : Host.Outcome State Fault Refusal :=
  .next (checked d [(0, 9)] [(8, decide (pl d 8 1 ≤ 1))] s (captureArm d (keyN d (leastBefore s 2)) s))

/-- CAP_STOP. -/
def execCapStop (d : Desc) (s : State) : Host.Outcome State Fault Refusal :=
  .next (checked d [] [] s (finish d stOk (captureStop s)))

/-! ## Stimulus (R421) -/

/-- STIM_LOAD. -/
def execStimLoad (d : Desc) (s : State) : Host.Outcome State Fault Refusal :=
  let n := pl d 8 4
  .next (checked d [(0, 12)] [(8, decide (1 ≤ n) && decide (n ≤ 65536))] s
    (match hostBlock d 0 (4 * n) with
      | none => badBlock d 0 s
      | some b =>
        let xs := tapsOf n b
        if !taps24 xs then badField d 0xFFFF s
        else if s.lau.stim.running.isSome then finish d stNotPermitted s
        else finish d stOk (setLau s (fun l => { l with stim := { l.stim with xs := xs } }))))

/-- A stimulus start is armed and replaces an earlier one that has not begun. -/
def armStimulus (n tok : Nat) (again : Bool) (s : State) : State :=
  let gone := match s.lau.stim.armed with
    | some (_, _, t) => [t]
    | none => []
  reportAll stFlushed gone (setLau s (fun l => { l with stim := { l.stim with armed := some (n, again, some tok) } }))

/-- A stimulus start keyed to N, of STIM_START and TIME_TRIG. -/
def stimulusArm (d : Desc) (n : Nat) (again : Bool) (s : State) : State :=
  if beforeH s ((n : Int) - 2) then armStimulus n d.tok again s else finish d stLate s

/-- Play ends at once. -/
def stimulusStop (s : State) : State :=
  match s.lau.stim.running with
  | some (_, again) => evIf (!again) aLauEvt 11 (setLau s (fun l => { l with stim := { l.stim with running := none } }))
  | none => s

/-- STIM_START, and STIM_STOP, its flag. -/
def stimulusOp (d : Desc) (s : State) : State :=
  checked d [(0, 9)] [(8, decide (pl d 8 1 ≤ 7))] s
    (if plBit d 8 2 then finish d stOk (stimulusStop s) else stimulusArm d (keyN d (leastBefore s 2)) (plBit d 8 1) s)
def execStimStart (d : Desc) (s : State) : Host.Outcome State Fault Refusal := .next (stimulusOp d s)
def execStimStop (d : Desc) (s : State) : Host.Outcome State Fault Refusal := .next (stimulusOp d s)

/-! ## LAU_STATUS (R436) -/

/-- A port's record. -/
def sapRecord (s : State) (p : Nat) : List Byte :=
  let x := sapAt s p
  leBytes 1 ((if x.enabled then 1 else 0) + (if x.master then 2 else 0) + (if x.lost then 4 else 0)) ++ leBytes 1 x.group ++ zeros 2 ++
    words32 ([4, 8, 12].map (cntAt x.cnt))

/-- A monitor's record. -/
def monRecord (s : State) (k : Nat) : List Byte :=
  let m := monAt s k
  leBytes 1 (nActive (busAt s k)) ++ leBytes 1 ((if m.comply.isEmpty then 0 else 1) + (if m.clear then 2 else 0)) ++ zeros 2 ++
    words32 ([4, 8, 12].map (cntAt (busAt s k).cnt))

/-- The 416 bytes. -/
def lauRecord (s : State) : List Byte :=
  let c := s.lau.cap
  (List.range 16).flatMap (sapRecord s) ++ (List.range 8).flatMap (monRecord s) ++
    leBytes 1 ((if c.armed.isSome then 1 else 0) + (if c.running.isSome then 2 else 0)) ++ leBytes 1 c.resp ++ leBytes 1 (capNu s) ++ zeros 1 ++
    leBytes 8 c.first ++ words32 [c.blocks, c.drops, c.clips] ++ zeros 8

/-- The counters are zeroed. -/
def lauClear (s : State) : State :=
  setLau s (fun l => { l with
    sap := smModAll {} l.sap (l.sap.map Prod.fst) (fun _ x => { x with cnt := [] }),
    bus := smModAll {} l.bus (l.bus.map Prod.fst) (fun _ x => { x with cnt := [] }),
    cap := { l.cap with blocks := 0, drops := 0, clips := 0 } })

/-- LAU_STATUS. -/
def execLauStatus (d : Desc) (s : State) : Host.Outcome State Fault Refusal :=
  .next (checked d [(0, 9)] [(8, decide (pl d 8 1 ≤ 1))] s
    (let t := hostWrite (pl d 0 8) (lauRecord s) s
     finish d stOk (if plBit d 8 0 then lauClear t else t)))

/-- `LAU_STAT` (R437). -/
def lauStat (s : State) : Nat :=
  let bits := fun (n at_ : Nat) (p : Nat → Bool) => ((List.range n).filter p).foldl (fun a i => a + 2 ^ (at_ + i)) 0
  bits 16 16 (fun p => (sapAt s p).lost) + bits 8 8 (fun k => !(monAt s k).comply.isEmpty) +
    (if s.lau.stim.running.isSome then 8 else 0) + (if s.lau.cap.running.isSome then 4 else 0) + (if s.lau.cap.armed.isSome then 2 else 0) +
    (if s.aon.monClrLow then 1 else 0)

end Sys2Proof.Machine
end

