-- ==== Sys2Proof/Machine/ClkDesc.lean ====
section
/-! DEFINITION. The descriptors of the reference selector and the setting of the tranche index (R244, R245, R254 to R260, R264 to
R266). -/

namespace Sys2Proof.Machine

/-! ## CLK_RATE (R244, R245) -/

/-- The origin of the tranche index is not available (R245). -/
def originGone (d : Desc) (s : State) : Bool :=
  match pl d 1 1 with
  | 0 => !s.ptp.valid
  | 1 => decide ((linkSt s (pl d 2 1)).st ≠ 3)
  | _ => false

/-- The clean-up PLL is set for a rate: a change of family gates the core clock, so the selector unlocks and capture stops (R244, R261,
R433). The family in force is that of the last request, or of the rate that is set. -/
def takeFamily (rate : Nat) (s : State) : State :=
  if is48 rate = is48 ((s.clk.rateReq.getLast?.map RateReq.rate).getD s.clk.rate) then s else captureStop (unlock s)

/-- CLK_RATE: it completes, and the rate counts as set, when the tranche index has been set. -/
def execClkRate (d : Desc) (s : State) : Host.Outcome State Fault Refusal :=
  .next (checked d [(0, 3), (8, 8)] [(0, decide (pl d 0 1 ≤ 3)), (1, decide (pl d 1 1 ≤ 2)),
      (2, if pl d 1 1 = 1 then decide (pl d 2 1 ≤ 15) else decide (pl d 2 1 = 0))] s
    (if decide (s.sch.st ≠ 0) || originGone d s then finish d stNotPermitted s
     else
       let q : RateReq := { tok := d.tok, rate := pl d 0 1, src := pl d 1 1, link := pl d 2 1, n := pl d 8 8 }
       setClk (takeFamily (pl d 0 1) s) (fun c => { c with rateReq := c.rateReq ++ [q] })))

/-- The number nearest to `n` whose low 24 bits are `low`, the lower one of two. -/
def nearest24 (n low : Nat) : Nat :=
  let base := n / 16777216 * 16777216 + low % 16777216
  let up := if base + 8388608 < n then base + 16777216 else base
  if n + 8388608 ≤ up ∧ 16777216 ≤ up then up - 16777216 else up

/-- The index k whose H_k is nearest to a device time in ns (R245). -/
def indexAt (rate dt : Nat) : Nat := (dt * rateHz rate + 8000000000) / 16000000000 - 1

/-- k0 of a request (R245). -/
def firstIndex (q : RateReq) (tick24 : Nat) (s : State) : Nat :=
  match q.src with
  | 0 => indexAt q.rate s.ptp.dt
  | 1 => nearest24 q.n tick24
  | _ => q.n

/-- A new index: which sources governed the tranches of the old count is of no more use (R34). -/
def forgetMaps (s : State) : State := { s with obj := smModAll {} s.obj (s.obj.map Prod.fst) (fun _ ob => { ob with was := [] }) }

/-- The tranche index and the rate of a request take effect, and CLK_RATE completes (R244, R269). -/
def takeIndex (q : RateReq) (k : Nat) (s : State) : State :=
  let s1 := setClk (forgetMaps s) (fun c => { c with
    rate := q.rate, tidx := k, tidxValid := true, rateSet := true, cutoffDone := false, rateReq := [],
    buildout := if q.src = 0 ∧ c.active = 1 then 0 else c.buildout })
  reportAll stOk (s.clk.rateReq.map (fun r => some r.tok))
    (ledger 0x0406 2 (pair16 q.rate q.src) (k % 2 ^ 32) (k / 2 ^ 32) (evRaise aClkEvt 7 s1))

/-- CLK_RATE_TIMEOUT: a CLK_RATE has not completed in 50 ms (R265). -/
def execClkRateTimeout (s : State) : Host.Outcome State Fault Refusal :=
  .next (reportAll stTimeout (s.clk.rateReq.map (fun r => some r.tok)) (setClk s (fun c => { c with rateReq := [] })))

/-! ## CLK_REF_CFG (R247 to R252, R260) -/

/-- The largest bandwidth code of a reference in a mode (R247, R260). -/
def bwLimit (r mode : Nat) : Nat := if r = 6 then 5 else if (r = 4 ∨ r = 5) ∧ mode = 1 then 1 else 6

/-- The mode is one that the reference has (R264). -/
def modeOk (r mode : Nat) : Bool := decide (mode ≤ if r = 6 then 15 else if 2 ≤ r ∧ r ≤ 5 then 1 else 0)

/-- An enabled reference starts to qualify, its monitors fresh; the XO is qualified as soon as it is enabled. -/
def enableRef (r : Nat) (s : State) : State :=
  let x := refAt s r
  let s1 := setRef r { x with
    q := 1, rejAt := [], periods := 0, lastEdge := none, winOfs := 0, favg := 0, favgHist := [], drift := 0, relOfs := 0,
    driftSecs := 0, driftNow := false, srcBad := false, wtrFrom := none, wtrDone := false } s
  if r = 7 then refQualify 7 s1 else if sourceBad s1 r then refFault r 7 s1 else s1

/-- A disabled reference is OFF; the selector leaves it where it is active (R252, R253). -/
def disableRef (r : Nat) (s : State) : State :=
  let x := refAt s r
  let s1 := setRef r { x with q := 0, cause := 8, wtrFrom := none, wtrDone := false } s
  let s2 := evIf (decide (x.q = 2)) aClkEvt 2 s1
  if following s && decide (s.clk.active = r) then autoSwitch (enterHoldover r 8 false s2) else settleWtr s2

/-- The configuration a CLK_REF_CFG gives. -/
def refFields (d : Desc) (x : RefSt) : RefSt :=
  { x with
    enabled := plBit d 1 0, mode := pl d 2 1, bw := pl d 3 1, pullPpm := pl d 4 2, qualTime := pl d 6 2, w := pl d 8 2,
    rateLim := pl d 10 2, ofsLim := pl d 12 4, relLim := pl d 16 4 }

/-- CLK_REF_CFG. -/
def execClkRefCfg (d : Desc) (s : State) : Host.Outcome State Fault Refusal :=
  let r := pl d 0 1
  let mode := pl d 2 1
  let x := refAt s r
  .next (checked d [(0, 20)] [(0, decide (1 ≤ r) && decide (r ≤ 7)), (1, decide (pl d 1 1 ≤ 1)), (2, modeOk r mode),
      (3, decide (pl d 3 1 ≤ bwLimit r mode)), (4, decide (1 ≤ pl d 4 2) && decide (pl d 4 2 ≤ 500)),
      (6, decide (1 ≤ pl d 6 2) && decide (pl d 6 2 ≤ 600)), (8, decide (1 ≤ pl d 8 2) && decide (pl d 8 2 ≤ 1000)),
      (10, decide (pl d 10 2 ≤ 10000)), (12, decide (pl d 12 4 ≤ 500000)), (16, decide (pl d 16 4 ≤ 500000))] s
    (let s1 := setRef r (refFields d x) s
     finish d stOk (if plBit d 1 0 && !x.enabled then enableRef r s1
       else if !plBit d 1 0 && x.enabled then disableRef r s1 else s1)))

/-! ## CLK_SEL_CFG, CLK_SELECT (R253 to R255, R258) -/

/-- The list codes of a CLK_SEL_CFG. -/
def selCodes (d : Desc) : List Nat := (List.range (min (pl d 1 1) 6)).map (fun i => pl d (2 + i) 1)

/-- Code `i` of the list is within limits: 1 to 7 and new in the order up to the count, zero past it. -/
def selCodeOk (d : Desc) (i : Nat) : Bool :=
  let c := pl d (2 + i) 1
  if i < pl d 1 1 then decide (1 ≤ c) && decide (c ≤ 7) && !decide (c ∈ pl d 0 1 :: (selCodes d).take i) else decide (c = 0)

/-- CLK_SEL_CFG: a timer of a reference that is no longer better is cleared, and all of them where selection is not revertive. -/
def execClkSelCfg (d : Desc) (s : State) : Host.Outcome State Fault Refusal :=
  .next (checked d [(0, 16)] ([(0, decide (1 ≤ pl d 0 1) && decide (pl d 0 1 ≤ 7)), (1, decide (pl d 1 1 ≤ 6)), (8, decide (pl d 8 1 ≤ 3)),
      (9, decide (1 ≤ pl d 9 1) && decide (pl d 9 1 ≤ 10)), (10, decide (pl d 10 2 ≤ 3600))] ++
      (List.range 6).map (fun i => (2 + i, selCodeOk d i))) s
    (let rs := [1, 2, 3, 4, 5, 6, 7]
     let s1 := setClk s (fun c => { c with
       selRef := pl d 0 1, order := selCodes d, revertive := plBit d 8 0, bleed := plBit d 8 1, bleedRate := pl d 9 1, wtr := pl d 10 2,
       mapLim := pl d 12 4 })
     let s2 := if plBit d 8 0 then (if following s1 then pruneTimers rs s1 else s1) else rs.foldl (fun t r => clearTimer r t) s1
     finish d stOk (settleWtr (autoSwitch s2))))

/-- CLK_SELECT: during a switch, or while unlocked, it waits for the end of the switch (R256, R263). -/
def execClkSelect (d : Desc) (s : State) : Host.Outcome State Fault Refusal :=
  let t := pl d 0 1
  .next (checked d [(0, 1)] [(0, decide (t ≤ 7) || decide (t = 255))] s
    (if s.clk.st = 0 ∨ s.clk.st = 2 then setClk s (fun c => { c with pendSel := c.pendSel ++ [(d.tok, t)] })
     else settleWtr (selectNow d.tok t s)))

/-! ## CLK_STATUS (R266) -/

/-- Seconds of wait-to-restore remaining. -/
def wtrLeft (s : State) (x : RefSt) : Nat :=
  match x.wtrFrom with
  | some t => if x.wtrDone then 0 else (s.clk.wtr * 1024 - (s.lgr.ptime - t) + 1023) / 1024
  | none => 0

/-- A reference's record: the phase is a free value but for the XO's, and so is a drift rate before W seconds have passed. The XO has
neither drift against itself. -/
def refRecord (s : State) (r : Nat) : List Byte :=
  let x := refAt s r
  let drift := if r = 7 then 0 else if driftKnown x then x.drift else Config.freeInt (s.freeCtr + 8 + r)
  let phase := if r = 7 then 0 else Config.freeInt (s.freeCtr + r)
  leBytes 1 x.q ++ leBytes 1 x.cause ++ leBytes 2 x.rejAt.length ++
    words32 [x.reject, s32 (satS 32 x.winOfs), s32 (satS 32 x.favg), s32 (satS 32 drift), s32 (satS 32 x.relOfs), s32 (satS 32 phase)] ++
    leBytes 2 (wtrLeft s x) ++ zeros 2

/-- The 240 bytes. -/
def clkRecord (s : State) : List Byte :=
  let c := s.clk
  let b := fun (x : Bool) (k : Nat) => if x then 2 ^ k else 0
  leBytes 1 c.st ++ leBytes 1 c.active ++ leBytes 1 (b c.xoSuspect 0 + b c.holdNoHist 1 + b s.ptp.valid 2 + b c.forced 3) ++ zeros 1 ++
    words32 [s32 (satS 32 c.buildout), s32 c.hold, 0] ++ (List.range 7).flatMap (fun i => refRecord s (i + 1))

/-- CLK_STATUS. -/
def execClkStatus (d : Desc) (s : State) : Host.Outcome State Fault Refusal :=
  .next (checked d [(0, 9)] [(8, decide (pl d 8 1 ≤ 1))] s
    (let t := { hostWrite (pl d 0 8) (clkRecord s) s with freeCtr := s.freeCtr + 16 }
     finish d stOk (if plBit d 8 0 then
       setClk t (fun c => { c with refs := smModAll {} c.refs (c.refs.map Prod.fst) (fun _ x => { x with reject := 0 }) }) else t)))

end Sys2Proof.Machine
end

