-- ==== Sys2Proof/Machine/FabDesc.lean ====
section
/-! DEFINITION. The fabric's descriptors, and the timers of discovery and remote descriptors (R208, R218, R225, R234, R235, R238,
R239). -/

namespace Sys2Proof.Machine

/-! ## Links and address (R208, R218) -/

/-- A link is enabled with its FEC limit. -/
def enableLink (lim l : Nat) (s : State) : State :=
  let x := linkSt s l
  setLink s l { x with st := if x.st = 0 then 1 else x.st, fecLim := lim }

/-- A link is disabled. -/
def disableLink (lim l : Nat) (s : State) : State :=
  let s1 := setLink s l { linkSt s l with fecLim := lim }
  if linkUp s l then linkGoesDown 4 0 l s1
  else setLink s1 l { linkSt s1 l with st := 0, gotHello := false, queue := [], fwdBytes := 0 }

/-- The same for the links of a list. -/
def ctlLinks (on : Bool) (lim : Nat) : List Nat → State → State
  | [], s => s
  | l :: ls, s => ctlLinks on lim ls (if on then enableLink lim l s else disableLink lim l s)

/-- FAB_LINK_CTL. -/
def execFabLinkCtl (d : Desc) (s : State) : Host.Outcome State Fault Refusal :=
  .next (checked d [(0, 4)] [(2, decide (pl d 2 1 ≤ 1)), (3, decide (1 ≤ pl d 3 1))] s
    (finish d stOk (ctlLinks (plBit d 2 0) (pl d 3 1) (maskLinks s (pl d 0 2)) s)))

/-- FAB_IDENT. -/
def execFabIdent (d : Desc) (s : State) : Host.Outcome State Fault Refusal :=
  .next (checked d [(0, 3)] [(2, decide (pl d 2 1 ≤ 1))] s (finish d stOk (setAddress (pl d 0 2) (plBit d 2 0) 0 s)))

/-! ## Route banks (R219, R224, R225, R239) -/

/-- A load or sync of the bank that is not current: refused while a switch is armed or while the bank is not quiet. -/
def bankWrite (d : Desc) (s : State) (put : Nat → State → State) : State :=
  if s.fab.armed.isSome then finish d stNotPermitted s
  else if !s.fab.quiet then finish d stStale s
  else finish d stOk (put (1 - s.fab.cur) s)

/-- Writes values at rising addresses of a table. -/
def putRow (m : SMap Nat) : Nat → List Nat → SMap Nat
  | _, [] => m
  | a, v :: vs => putRow (smSet 0 m a v) (a + 1) vs

/-- FAB_WB_LOAD. -/
def execFabWbLoad (d : Desc) (s : State) : Host.Outcome State Fault Refusal :=
  let first := pl d 8 2
  let count := pl d 10 2 + 1
  .next (checked d [(0, 12)] [(10, decide (first + count ≤ 65536))] s
    (match hostBlock d 0 count with
      | none => badBlock d 0 s
      | some b =>
        let es := b.map BitVec.toNat
        if es.any (fun e => decide (32 ≤ e)) then badField d 0xFFFF s
        else if s.dpx.en && es.any (fun e => decide (e = 31)) then finish d stNotPermitted s
        else bankWrite d s (fun k t => setFab t (fun f => { f with wb := putRow f.wb (k * 65536 + first) es }))))

/-- FAB_GRP_LOAD. -/
def execFabGrpLoad (d : Desc) (s : State) : Host.Outcome State Fault Refusal :=
  let first := pl d 8 2
  let count := pl d 10 2
  .next (checked d [(0, 13), (14, 2)] [(8, decide (first < 4096)), (10, decide (first + count ≤ 4096)), (12, decide (pl d 12 1 ≤ 1))] s
    (match (if count = 0 then some [] else hostBlock d 0 (4 * count)) with
      | none => badBlock d 0 s
      | some b =>
        let es := (chunks 4 count b).map leNat
        if es.any (fun e => decide (65536 ≤ e)) then badField d 0xFFFF s
        else bankWrite d s (fun k t => setFab t (fun f => { f with
          grp := putRow f.grp (k * 4096 + first) es, bcast := if plBit d 12 0 then smSet 0 f.bcast k (pl d 14 2) else f.bcast }))))

/-- Copies bank `cur` of a table of `size` entries over the other bank. -/
def copyRoutes (m : SMap Nat) (cur size : Nat) : SMap Nat :=
  ((smClearRange m ((1 - cur) * size) size).filter (fun e => decide (cur * size ≤ e.1) && decide (e.1 < (cur + 1) * size))).foldl
    (fun t e => smSet 0 t ((1 - cur) * size + (e.1 - cur * size)) e.2) (smClearRange m ((1 - cur) * size) size)

/-- FAB_BANK_SYNC. -/
def execFabBankSync (d : Desc) (s : State) : Host.Outcome State Fault Refusal :=
  .next (checked d [] [] s (bankWrite d s (fun _ t => setFab t (fun f => { f with
    wb := copyRoutes f.wb f.cur 65536, grp := copyRoutes f.grp f.cur 4096, bcast := copyRoutes f.bcast f.cur 1 }))))

/-- FAB_EPOCH_SWITCH: its deadline is H_(N-1). -/
def execFabEpochSwitch (d : Desc) (s : State) : Host.Outcome State Fault Refusal :=
  .next (checked d [(0, 9)] [(8, decide (pl d 8 1 ≤ 1))] s
    (let n := keyN d (leastBefore s 1)
     if !beforeH s ((n : Int) - 1) then finish d stLate s
     else if s.fab.armed.isSome then finish d stNotPermitted s
     else setFab s (fun f => { f with armed := some (n, d.tok) })))

/-! ## Discovery (R233, R234) -/

/-- The request waits for its reply. -/
def discWait (d : Desc) (p : List Byte) (s : State) : State :=
  setFab s (fun f => { f with disc := f.disc ++ [{ tag := field p 3 1, tok := d.tok, addr := pl d 8 8 }] })

/-- FAB_DISC is accepted: a route without hops is answered here; a device without a valid address launches nothing (R217). -/
def discStart (d : Desc) (p : List Byte) (s : State) : State :=
  if field p 0 1 = 0 then
    match discAnswer (field p 2 1) (p.drop 36) s with
    | (some body, t) => finish d stOk (hostWrite (pl d 8 8) (replyPayload p body) t)
    | (none, t) => discWait d p t
  else if (fabAddr s).isSome then sendDisc (nibble p 4 0) p (discWait d p s)
  else discWait d p s

/-- FAB_DISC. -/
def execFabDisc (d : Desc) (s : State) : Host.Outcome State Fault Refusal :=
  let n := pl d 16 2
  .next (checked d [(0, 18)] [(16, decide (40 ≤ n) && decide (n ≤ 1024) && decide (n % 8 = 0))] s
    (match hostBlock d 0 n with
      | none => badBlock d 0 s
      | some p => if 32 < field p 0 1 then badField d 0xFFFF s else discStart d p s))

/-- FAB_DISC_TIMEOUT: 100 ms without a reply to the request with this tag. -/
def execFabDiscTimeout (tag : Nat) (s : State) : Host.Outcome State Fault Refusal :=
  .next (match s.fab.disc.find? (fun r => decide (r.tag = tag)) with
    | some r => report r.tok stTimeout 0 0 (setFab s (fun b => { b with disc := b.disc.erase r }))
    | none => s)

/-! ## Management and remote descriptors (R235) -/

/-- FAB_MGMT_SEND. -/
def execFabMgmtSend (d : Desc) (s : State) : Host.Outcome State Fault Refusal :=
  let n := pl d 8 2
  let f := pl d 12 1
  .next (checked d [(0, 14)] [(8, decide (8 ≤ n) && decide (n ≤ 1024) && decide (n % 8 = 0)), (12, decide (f ≤ 2)),
      (10, !plBit d 12 0 || decide (pl d 10 2 ≤ 4095)), (13, decide (1 ≤ pl d 13 1) && decide (pl d 13 1 ≤ 32))] s
    (match hostBlock d 0 n with
      | none => badBlock d 0 s
      | some p =>
        if (fabAddr s).isNone then finish d stNotPermitted s
        else finish d stOk (sendMgmt (pl d 10 2) (plBit d 12 0) (plBit d 12 1) (some (pl d 13 1)) p s)))

/-- FAB_REMOTE. -/
def execFabRemote (d : Desc) (s : State) : Host.Outcome State Fault Refusal :=
  .next (checked d [(0, 18)] [] s
    (match hostBlock d 0 64 with
      | none => badBlock d 0 s
      | some e =>
        if (fabAddr s).isNone then finish d stNotPermitted s
        else
          let q := smGet 0 s.fab.seqOut 1
          sendMgmt (pl d 16 2) false false none (mgmtBytes 1 q e) (setFab s (fun f => { f with
            seqOut := smSet 0 f.seqOut 1 ((q + 1) % 2 ^ 32),
            remote := f.remote ++ [{ seq := q, tok := d.tok, addr := pl d 8 8, dest := pl d 16 2, entry := e, tries := 0 }] }))))

/-- REMOTE_RETRANSMIT: 10 ms without the completion of the descriptor sent with this number. -/
def execRemoteRetransmit (q : Nat) (s : State) : Host.Outcome State Fault Refusal :=
  .next (match s.fab.remote.find? (fun r => decide (r.seq = q)) with
    | none => s
    | some r =>
      if 3 ≤ r.tries then report r.tok stTimeout 0 0 (setFab s (fun b => { b with remote := b.remote.erase r }))
      else sendMgmt r.dest false false none (mgmtBytes 1 q r.entry) (setFab s (fun b => { b with
        remote := b.remote.map (fun x => if x.seq = q then { x with tries := x.tries + 1 } else x) })))

/-! ## FAB_STATUS (R239) -/

/-- A link's record. -/
def linkRecord (s : State) (l : Nat) : List Byte :=
  let x := linkSt s l
  leBytes 1 l ++ leBytes 1 x.st ++ leBytes 1 x.peerLink ++ zeros 1 ++ leBytes 8 x.peerId ++
  words32 ([12, 16, 20, 24, 28, 32, 36].map (cntAt x.cnt)) ++ leInt 4 x.skew ++ leBytes 2 x.defer ++ leBytes 2 x.downs

/-- An import entry's record. -/
def importRecord (s : State) (e : Nat) : List Byte :=
  leBytes 2 e ++ zeros 2 ++ words32 ([4, 8, 12, 16, 20, 24].map (fun k => cntAt s.fab.impCnt (e * 32 + k)))

/-- An OBJ stream's record. -/
def streamRecord (s : State) (x : Nat) : List Byte :=
  let o := smGet {} s.fab.objStr x
  leBytes 2 x ++ zeros 2 ++ words32 [o.missing, o.late, o.dup]

/-- The number of records a mode has. -/
def fabTableSize (s : State) : Nat → Nat
  | 0 => 16
  | 1 => match s.sch.activeImg with
    | some i => i.imports.length
    | none => 0
  | _ => 65536

/-- The records of a mode are read: LAUNCH_DEFER clears, and with CLEAR the counters. -/
def fabClear (mode : Nat) (clear : Bool) : List Nat → State → State
  | [], s => s
  | k :: ks, s => fabClear mode clear ks (match mode with
    | 0 =>
      let x := linkSt s k
      setLink s k { x with defer := 0, cnt := if clear then [] else x.cnt, downs := if clear then 0 else x.downs }
    | 1 => if clear then setFab s (fun f => { f with impCnt := smClearRange f.impCnt (k * 32) 32 }) else s
    | _ => if clear then setFab s (fun f => { f with
        objStr := smMod {} f.objStr k (fun o => { o with missing := 0, late := 0, dup := 0 }) }) else s)

/-- FAB_STATUS. -/
def execFabStatus (d : Desc) (s : State) : Host.Outcome State Fault Refusal :=
  let mode := pl d 8 1
  let first := pl d 10 2
  let count := pl d 12 2
  let size := fabTableSize s mode
  let rec' := match mode with
    | 0 => linkRecord s
    | 1 => importRecord s
    | _ => streamRecord s
  .next (checked d [(0, 9), (10, 5)] [(8, decide (mode ≤ 2)), (10, decide (first < size)), (12, inRange first count size),
      (14, decide (pl d 14 1 ≤ 1))] s
    (finish d stOk (fabClear mode (plBit d 14 0) (span first count) (hostWrite (pl d 0 8) ((span first count).flatMap rec') s))))

end Sys2Proof.Machine
end

