-- ==== Sys2Proof/Machine/Steward.lean ====
section
/-! DEFINITION. The stewards: get-work, done, forward and add, owner reports, heartbeats, user firmware, boot, and the
steward descriptors (R340 to R368, R487 to R489). -/

namespace Sys2Proof.Machine

/-! ## Get-work and grants (R351 to R358) -/

/-- The dispatcher's one grant of a control cycle: the longest-waiting core that has an eligible item (R352). -/
def nextGrant (s : State) : Option (Nat × Nat × Item) :=
  (waitingCores s).findSome? (fun c => (pickItem s c s.stw.items).map (fun e => (c, e.1, e.2)))

/-- A core starts to wait in get-work (R351). -/
def startWait (c : Nat) (be : BitVec 4) (s : State) : State :=
  tickSeq (setCore s c { core s c with waiting := some s.stw.nextSeq, be := be })

/-- GET_WORK (R351, R357): four items held end it with CAUSE 3, a zero timeout with nothing eligible with CAUSE 1. -/
def execGetWork (c : Nat) (be : BitVec 4) (s : State) : Host.Outcome State Fault Refusal :=
  .next (if (core s c).waiting.isSome then s
    else if 4 ≤ (heldItems s c).length then nullHandle c 3 s
    else if Word.bits (getReg s (aDsp c 0x40)) 23 0 = 0 ∧ (pickItem s c s.stw.items).isNone then nullHandle c 1 s
    else startWait c be s)

/-- DSP_GRANT (R352, R359). -/
def execDspGrant (s : State) : Host.Outcome State Fault Refusal :=
  .next (match nextGrant s with
    | some (c, slot, i) => grantTo c slot i s
    | none => s)

/-- GET_WORK_TIMEOUT (R351, R357): 0xFF_FFFF is no timeout. -/
def execGetWorkTimeout (c : Nat) (s : State) : Host.Outcome State Fault Refusal :=
  .next (if (core s c).waiting.isSome ∧ Word.bits (getReg s (aDsp c 0x40)) 23 0 ≠ 0xFFFFFF then nullHandle c 1 s else s)

/-- AFFINITY_EXPIRY (R353). -/
def execAffinityExpiry (slot : Nat) (s : State) : Host.Outcome State Fault Refusal :=
  .next (match smFind s.stw.items slot with
    | some i => putItem s slot { i with resv := none }
    | none => s)

/-! ## Done, forward, add (R354, R355) -/

/-- The flow remembers the core that completed or forwarded one of its items (R353). -/
def rememberCore (f c : Nat) (s : State) : State :=
  { s with stw := { s.stw with flows := smMod {} s.stw.flows f (fun x => { x with last := some c }) } }

/-- A handle that the core does not hold (R354). -/
def badHandleAt (s : State) : State :=
  evRaise aDspEvt 2 { s with stw := { s.stw with badHandle := bump 32 s.stw.badHandle 1 } }

/-- The item in a slot, where the core holds it in service. -/
def heldAt (s : State) (c slot : Nat) : Option Item :=
  match smFind s.stw.items slot with
  | some i => if i.st = .inService c then some i else none
  | none => none

/-- DSP_DONE (R354). -/
def dspDone (c : Nat) (v : Word) (s : State) : State :=
  let slot := Word.bits v 25 13
  match heldAt s c slot with
  | some i => if v = handle slot i.flow then freeSlotOf slot (rememberCore i.flow c s) else badHandleAt s
  | none => badHandleAt s
def execDspDone (c : Nat) (v : Word) (s : State) : Host.Outcome State Fault Refusal := .next (dspDone c v s)

/-- Moves a held item to the tail of a flow and releases its own flow (R354). -/
def forwardItem (c slot target : Nat) (i : Item) (s : State) : State :=
  advanceFlow i.flow (addAt slot { i with flow := target } (rememberCore i.flow c s))

/-- DSP_FWD (R354): the target flow in bits [27:16], the slot in bits [12:0]. DESIGN CHOICE: the spec gives bits [31:28] and [15:13] no field,
and the model ignores them, where R10 would discard a write with reserved bits set (log entry 107). -/
def dspFwd (c : Nat) (v : Word) (s : State) : State :=
  let slot := Word.bits v 12 0
  match heldAt s c slot with
  | some i => forwardItem c slot (Word.bits v 27 16) i s
  | none => badHandleAt s
def execDspFwd (c : Nat) (v : Word) (s : State) : Host.Outcome State Fault Refusal := .next (dspFwd c v s)

/-- The item staged in `DSP_ADD_W0_n` to `DSP_ADD_W3_n` (R346, R350). -/
def stagedItem (s : State) (c : Nat) : Item :=
  let w0 := getReg s (aDsp c 0x10)
  let w3 := getReg s (aDsp c 0x1C)
  mkItem (Word.bits w0 11 0) (Word.bits w0 14 12) (Word.bits w0 23 16) (Word.bits w0 31 24)
    (getReg s (aDsp c 0x14)).toNat (getReg s (aDsp c 0x18)).toNat (Word.bits w3 15 0) (Word.bits w3 31 16)

/-- The flows a core may add to (R355). -/
def mayAdd (s : State) (c f : Nat) : Bool := decide ((core s c).run ≠ .user) || decide (2048 ≤ f)

/-- `DSP_ADD_RES_n` (R355). -/
def addResult (c r : Nat) (s : State) : State := setReg s (aDsp c 0x24) (BitVec.ofNat 32 r)

/-- DSP_ADD (R350, R355): a write of 1 to `DSP_ADD_GO_n`. -/
def dspAdd (c : Nat) (v : Word) (s : State) : State :=
  let i := stagedItem s c
  if v ≠ 1 then s
  else if !mayAdd s c i.flow then addResult c 2 s
  else if i.kind < 0x10 then addResult c 3 s
  else match freeSlot s with
    | some slot => addResult c 0 (addAt slot i s)
    | none => addResult c 1 s
def execDspAdd (c : Nat) (v : Word) (s : State) : Host.Outcome State Fault Refusal := .next (dspAdd c v s)

/-! ## Owner reports (R323, R360) -/

/-- A write of `STW_CPL_CMD_n`: the ACTION selects the report. A withdrawal takes back the operation's armed keyed actions
with `undo`. -/
def cplReport (undo : Nat → State → State) (c : Nat) (cmd : Word) (s0 : State) : State :=
  let s := commitOutcomes s0
  if !cmdLegal cmd then s
  else match Word.bits cmd 31 30 with
    | 0 => reportCommit c s
    | 1 => reportComplete c (Word.bits cmd 23 16) (Word.bits cmd 15 0) s
    | _ => match reportWithdraw c s with
      | (some tok, t) => undo tok t
      | (none, t) => t

/-! ## Liveness (R362, R363) -/

/-- The cores of the heartbeat mask that have not written for 10 ms, as a mask. -/
def silentMask (s : State) : Nat :=
  ((List.range 16).filter (fun n => Word.bit (getReg s aHbMask) n && !(core s n).hb)).foldl (fun m n => m + 2 ^ n) 0

/-- `TOP_GSTAT.STW_ALIVE` follows the heartbeats; its fall raises HB_LOST, record 0x0E02, and a device fault where DPX_CFG
asks for one (R362, R441). -/
def settleAlive (s : State) : State :=
  let m := silentMask s
  if m = 0 then { s with stw := { s.stw with alive := true } }
  else
    let s1 := { s with stw := { s.stw with alive := false } }
    if s.stw.alive then
      let s2 := ledger 0x0E02 5 m 0 0 (evRaise aDspEvt 0 s1)
      if s.dpx.hbFault then deviceFault 5 s2 else s2
    else s1

/-- A core's heartbeat (R362, R367, R489). -/
def heartbeatOp (c : Nat) (s : State) : State :=
  let s1 := setCore s c { core s c with hb := true }
  settleAlive { s1 with stw := { s1.stw with firstHb := true } }

/-- The cores of a mask are silent. -/
def silence (mask : Nat) : List Nat → State → State
  | [], s => s
  | n :: ns, s => silence mask ns (if mask / 2 ^ n % 2 = 1 then setCore s n { core s n with hb := false } else s)

/-- HB_LOST (R362): the cores of the mask have not written for 10 ms. -/
def execHbLost (mask : Nat) (s : State) : Host.Outcome State Fault Refusal :=
  .next (settleAlive (silence mask (List.range 16) s))

/-- SVC_LIMIT (R363): once for an item. -/
def execSvcLimit (slot : Nat) (s : State) : Host.Outcome State Fault Refusal :=
  .next (match smFind s.stw.items slot with
    | some i => match i.st with
      | .inService c =>
        if i.long ∨ getReg s aSvcLim = 0 then s
        else ledger 0x0E05 3 c i.flow i.kind (evRaise aDspEvt 4 (putItem s slot { i with long := true }))
      | _ => s
    | none => s)

/-! ## Timeouts of operations (R326) -/

/-- OP_TIMEOUT (R326): the operation is aborted, with TIMEOUT in place of ABORTED. -/
def execOpTimeout (tok : Nat) (s0 : State) : Host.Outcome State Fault Refusal :=
  let s := commitOutcomes s0
  .next (match findOp s tok with
    | some o =>
      if o.timeoutMs = 0 ∨ o.st = .committed then s
      else
        let s1 := { s with hif := { s.hif with ops := s.hif.ops.map (fun p => if p.tok = tok then { p with tmo := true } else p) } }
        (abortOne { o with tmo := true } s1).2.2
    | none => s)

/-! ## Firmware images (R343, R344) -/

/-- A section entry of a firmware image. -/
structure FwSec where
  target : Nat
  off : Nat
  dest : Nat
  len : Nat
  deriving DecidableEq, Repr

/-- The section entries. -/
def fwSections (b : List Byte) : List FwSec :=
  (List.range (field b 20 2)).map (fun i =>
    { target := field b (64 + 16 * i) 1, off := field b (68 + 16 * i) 4, dest := field b (72 + 16 * i) 4, len := field b (76 + 16 * i) 4 })

/-- Address range of a section's target; a user image keeps to the user region of control SRAM (R341, R344). -/
def fwRange (kind target : Nat) : Nat × Nat :=
  match target with
  | 0 => (0xF0000000, 0xF0010000)
  | 1 => (0xF0010000, 0xF0020000)
  | _ => (if kind = 1 then 0x08300000 else 0x08000000, 0x08400000)

/-- The image without its trailer. -/
def fwBody (b : List Byte) : List Byte := b.take (field b 12 4 - if field b 7 1 % 2 = 1 then 64 else 0)

/-- A section lies within the image, after its header and its `count` entries, and within its target. -/
def secGood (kind count n : Nat) (x : FwSec) : Bool :=
  decide (x.target ≤ 2) && decide (64 + 16 * count ≤ x.off) && decide (x.off + x.len ≤ n) && decide ((fwRange kind x.target).1 ≤ x.dest) &&
  decide (x.dest + x.len ≤ (fwRange kind x.target).2)

/-- Lengths and section bounds (R343, R344). -/
def fwLengths (kind : Nat) (b : List Byte) : Bool :=
  let n := field b 20 2
  decide (64 ≤ b.length) && decide (field b 12 4 ≤ b.length) && decide (field b 12 4 ≤ 1048576) && decide (1 ≤ n) && decide (n ≤ 8) &&
  decide (64 + 16 * n ≤ (fwBody b).length) && (fwSections b).all (secGood kind n (fwBody b).length) &&
  decide (0xF0000000 ≤ field b 16 4) && decide (field b 16 4 < 0xF0010000)

/-- The first check of R344 that a firmware image fails, numbered as `TOP_BOOT_STAT.CHECK`; 0: it is accepted. -/
def fwCheck (kind : Nat) (b : List Byte) : Nat :=
  if field b 0 4 ≠ 0x57545357 ∨ field b 4 2 ≠ 1 ∨ field b 6 1 ≠ kind then 1
  else if !fwLengths kind b then 2
  else if !digestGood 32 (fwBody b) then 3
  else if !(signVerdict (decide (field b 7 1 % 2 = 1)) (imageDigest 32 (fwBody b)) (b.drop (fwBody b).length)).1 then 4
  else 0

/-- The image as staged. -/
def fwImage (b : List Byte) : FwImage := { version := field b 8 4, entry := field b 16 4, bytes := b }

/-- Puts one section into a core's TCMs or into control SRAM. -/
def loadSection (c : Nat) (b : List Byte) (x : FwSec) (w : Stw) : Stw :=
  let bs := (b.drop x.off).take x.len
  match x.target with
  | 0 => { w with itcm := smWriteBytes w.itcm (c * 65536 + (x.dest - 0xF0000000)) bs }
  | 1 => { w with dtcm := smWriteBytes w.dtcm (c * 65536 + (x.dest - 0xF0010000)) bs }
  | _ => { w with sram := smWriteBytes w.sram (x.dest - 0x08000000) bs }

/-- Loads an image into a core. -/
def loadCore (b : List Byte) (c : Nat) (w : Stw) : Stw := (fwSections b).foldl (fun w x => loadSection c b x w) w

/-- Loads an image into the cores of a list. -/
def loadCores (b : List Byte) (cs : List Nat) (w : Stw) : Stw := cs.foldl (fun w c => loadCore b c w) w

/-- The cores of a list come out of reset and run firmware of a kind, with a range of flows: machine mode, no region and counters at zero (R340,
R345, R357). -/
def runCores (r : CoreRun) (range : Nat) : List Nat → State → State
  | [], s => s
  | c :: cs, s => runCores r range cs (setField (setCore s c { core s c with
      run := r, waiting := none, user := false, pmp := [], cycle := 0, time := 0, instret := 0, fault := none }) (aDsp c 0x48) 1 0 range)

/-! ## Boot (R342, R487 to R489) -/

/-- BOOT_GO: a write of `TOP_BOOT_LEN` (R10, R488). GO has no effect while STATE is not 0; the image comes from the host over
its DMA engine, or lies in control SRAM. -/
def bootWrite (v : Word) (image : Option (List Byte)) (s : State) : State :=
  if !writeLegal [fld 31 31 .w1s 0, fldIn 20 0 .rw 0 64 1048576] v then s
  else
    let s1 := setField s aBootLen 20 0 (Word.bits v 20 0)
    if !Word.bit v 31 || decide (s.aon.bootState ≠ 0) then s1
    else
      let img := if s.aon.bootSrc = 2 then some (smReadBytes s.stw.sram 0 (Word.bits v 20 0))
                 else if s.hif.bme then image else none
      setField { s1 with aon := { s1.aon with bootBusy := true, bootState := 1, bootImg := img } } aBootLen 31 31 1
def execBootGo (v : Word) (image : Option (List Byte)) (s : State) : Host.Outcome State Fault Refusal :=
  .next (bootWrite v image s)

/-- The boot source's check code and the image (R342, R488). -/
def bootVerdict (s : State) (flash : Option (List Byte)) : Nat × List Byte :=
  if s.aon.bootSrc = 3 then (6, [])
  else match (if s.aon.bootSrc = 1 then flash else s.aon.bootImg) with
    | none => (5, [])
    | some b => (fwCheck 0 b, b)

/-- CORES_RELEASED (R342, R488): the image is loaded and all 16 cores released, or it is refused. -/
def execCoresReleased (flash : Option (List Byte)) (s : State) : Host.Outcome State Fault Refusal :=
  let r := bootVerdict s flash
  let auto := decide (s.aon.bootSrc % 2 = 1)
  let s0 := setField { s with aon := { s.aon with bootBusy := false, bootImg := none, bootCheck := r.1 } } aBootLen 31 31 0
  .next (if s.aon.bootState ≠ 1 then s
    else if r.1 = 0 then
      let s1 := { s0 with aon := { s0.aon with bootState := 2 },
                          stw := { loadCores r.2 (List.range 16) s0.stw with afinalVer := field r.2 8 4 } }
      runCores .afinal 0 (List.range 16) s1
    else
      let s1 := ledger 0x0E01 6 r.1 s.aon.bootSrc 0 { s0 with aon := { s0.aon with bootState := if auto then 3 else 0 } }
      if auto then setCore s1 0 { core s1 0 with run := .parked } else s1)

/-! ## User firmware (R345, R364) -/

/-- The cores of a mask. -/
def maskCores (m : Nat) : List Nat := (List.range 16).filter (fun n => decide (m / 2 ^ n % 2 = 1))

/-- A core runs user firmware, or a start is about to run it there. -/
def runsUser (s : State) (c : Nat) : Bool :=
  decide ((core s c).run = .user) || s.stw.stops.any (fun j => j.start && decide (c ∈ j.cores))

/-- Some core runs user firmware. -/
def userUp (s : State) : Bool := (List.range 16).any (fun c => decide ((core s c).run = .user))

/-- STW_FW_LOAD (R344, R365, R366). -/
def execStwFwLoad (d : Desc) (s : State) : Host.Outcome State Fault Refusal :=
  let n := pl d 8 4
  .next (checked d [(0, 12)] [(8, decide (64 ≤ n) && decide (n ≤ 1048576))] s
    (match hostBlock d 0 n with
      | none => badBlock d 0 s
      | some b =>
        match fwCheck 1 b with
        | 0 => finish d stOk { s with stw := { s.stw with staged := some (fwImage b) } }
        | 1 => badField d 0xFFFF s
        | 2 => badField d 0xFFFF s
        | k => report d.tok stIntegrity 0 k s))

/-- The stop of a set of cores begins: RANGE is none, and the halt follows (R364). -/
def startStop (cores : List Nat) (tok : Nat) (start : Bool) (s : State) : State :=
  let s1 := cores.foldl (fun t c => setField t (aDsp c 0x48) 1 0 3) s
  { s1 with stw := { s1.stw with stops := s1.stw.stops ++ [{ cores := cores, tok := tok, start := start }] } }

/-- STW_FW_START (R345, R365, R366): the named cores are stopped first. -/
def execStwFwStart (d : Desc) (s : State) : Host.Outcome State Fault Refusal :=
  .next (checked d [(0, 2)] [(0, decide (pl d 0 1 = 0))] s
    (if s.stw.staged.isNone || (maskCores (pl d 0 2)).any (runsUser s) then finish d stNotPermitted s
     else startStop (maskCores (pl d 0 2)) d.tok true s))

/-- STW_FW_STOP (R364, R365). -/
def execStwFwStop (d : Desc) (s : State) : Host.Outcome State Fault Refusal :=
  .next (checked d [(0, 2)] [(0, decide (pl d 0 1 = 0))] s (startStop (maskCores (pl d 0 2)) d.tok false s))

/-- The staged image starts on the cores: user flows only (R345). -/
def startUser (cores : List Nat) (s : State) : State :=
  match s.stw.staged with
  | some f => runCores .user 1 cores { s with stw := { loadCores f.bytes cores s.stw with userVer := f.version } }
  | none => s

/-- USER_OPCODE (R365): forwarded to flow 3,072 + (opcode - 0xB8) by the core that holds the operation's item, or refused
where no user firmware runs. -/
def execUserOpcode (opcode : Nat) (d : Desc) (s : State) : Host.Outcome State Fault Refusal :=
  .next (if !userUp s then finish d stNotPermitted s
    else match opSlot s d.tok with
      | some (slot, i) => match i.st with
        | .inService c => forwardItem c slot (3072 + (opcode - 0xB8)) i s
        | _ => s
      | none => s)

/-! ## Dispatcher descriptors (R365, R366) -/

/-- DSP_FLOW_CFG. -/
def execDspFlowCfg (d : Desc) (s : State) : Host.Outcome State Fault Refusal :=
  let first := pl d 0 2
  let count := pl d 2 2
  .next (checked d [(0, 5), (6, 2)] [(0, decide (2088 ≤ first) && decide (first ≤ 4095)), (2, inRange first count 4096),
      (4, decide (pl d 4 1 ≤ 1)), (6, decide (pl d 6 2 ≤ 1023))] s
    (if s.stw.items.any (fun e => decide (first ≤ e.2.flow) && decide (e.2.flow < first + count)) then finish d stNotPermitted s
     else
      let fl := smModAll {} s.stw.flows (span first count) (fun _ x => { x with parallel := plBit d 4 0, affWin := pl d 6 2 })
      finish d stOk { s with stw := { s.stw with flows := fl } }))

/-- A mask of cores. -/
def coreMask (f : Nat → Bool) : Nat := ((List.range 16).filter f).foldl (fun m n => m + 2 ^ n) 0

/-- The 128 bytes of STW_STATUS (R366). -/
def stwRecord (s : State) : List Byte :=
  leBytes 2 (freeItems s) ++ leBytes 2 s.stw.fbFree ++ leBytes 2 (coreMask (fun c => decide ((core s c).run = .user))) ++
  leBytes 2 (coreMask (fun c => (core s c).hb)) ++
  words32 ([s.stw.afinalVer, s.stw.userVer] ++
    (List.range 8).map (fun p => (s.stw.items.filter (fun e => decide (e.2.st = .ready) && decide (e.2.prio = p))).length) ++
    (List.range 16).map (fun c => (core s c).grants) ++
    [s.stw.rxNoItem, s.stw.rxNoBuf, s.stw.badHandle, s.stw.itemLost])

/-- The dispatcher's counters are zeroed. -/
def clearStw (s : State) : State :=
  let s1 := (List.range 16).foldl (fun t c => setCore t c { core t c with grants := 0 }) s
  { s1 with stw := { s1.stw with rxNoItem := 0, rxNoBuf := 0, badHandle := 0, itemLost := 0 } }

/-- STW_STATUS. -/
def execStwStatus (d : Desc) (s : State) : Host.Outcome State Fault Refusal :=
  .next (checked d [(0, 9)] [(8, decide (pl d 8 1 ≤ 1))] s
    (let s1 := hostWrite (pl d 0 8) (stwRecord s) s
     finish d stOk (if plBit d 8 0 then clearStw s1 else s1)))

/-- DSP_LIMITS. -/
def execDspLimits (d : Desc) (s : State) : Host.Outcome State Fault Refusal :=
  .next (checked d [(0, 6)] [] s
    (finish d stOk (settleAlive (setReg (setReg s aSvcLim (BitVec.ofNat 32 (pl d 0 4))) aHbMask (BitVec.ofNat 32 (pl d 4 2))))))

end Sys2Proof.Machine
end

