-- ==== Sys2Proof/Machine/Media.lean ====
section
/-! DEFINITION. Media ports and receive streams: link, frame classification, RTP reception, mappings and the receive store
(R270 to R280, R525). -/

namespace Sys2Proof.Machine

/-! ## Ports (R270 to R273) -/

/-- Changes the media block. -/
def setMp (s : State) (f : Mp → Mp) : State := { s with mp := f s.mp }

/-- A media port. -/
def portAt (s : State) (n : Nat) : MpPort := smGet {} s.mp.port n

/-- Changes a media port. -/
def setPort (n : Nat) (x : MpPort) (s : State) : State := setMp s (fun m => { m with port := smSet {} m.port n x })

/-- A counter of a port's record (R301). -/
def portCount (n off : Nat) (s : State) : State := setPort n { portAt s n with cnt := bumpAt (portAt s n).cnt off 1 } s

/-- A port's MAC address: the OTP base address plus n unless one is configured (R270). -/
def portMac (s : State) (n : Nat) : Nat := if (portAt s n).mac = 0 then (Config.otpMac.toNat + n) % 2 ^ 48 else (portAt s n).mac

/-- A port goes DOWN (R271, R305). -/
def portDown (n : Nat) (s : State) : State :=
  let s1 := portCount n 80 (setPort n { portAt s n with up := false } s)
  ledger 0x0601 3 n (cntAt (portAt s1 n).cnt 80) 0 (evRaise (aMpEvt n) 0 s1)

/-- A port comes UP. -/
def portUp (n : Nat) (s : State) : State :=
  let x := portAt s n
  ledger 0x0602 1 n (if x.fast then 1 else 0) (if x.fec then 1 else 0) (evRaise (aMpEvt n) 0 (setPort n { x with up := true } s))

/-- MP_LOCK_LOSS. -/
def execMpLockLoss (n : Nat) (s : State) : Host.Outcome State Fault Refusal :=
  .next (if n < 4 then
      let s1 := setPort n { portAt s n with locked := false } s
      if (portAt s n).up then portDown n s1 else s1
    else s)

/-- MP_LOCK_GAIN: the 10 ms to UP begin. -/
def execMpLockGain (n : Nat) (s : State) : Host.Outcome State Fault Refusal :=
  .next (if n < 4 then setPort n { portAt s n with locked := true } s else s)

/-- MP_UP_TIMER. -/
def execMpUpTimer (n : Nat) (s : State) : Host.Outcome State Fault Refusal :=
  .next (if n < 4 ∧ (portAt s n).enabled ∧ (portAt s n).locked ∧ (portAt s n).up = false then portUp n s else s)

/-- LOW_POWER_IDLE_RECEIVE (R273). -/
def execLowPowerIdleReceive (n : Nat) (s : State) : Host.Outcome State Fault Refusal := .next (if n < 4 then portCount n 52 s else s)

/-- PAUSE_EXPIRY (R272). -/
def execPauseExpiry (n : Nat) (s : State) : Host.Outcome State Fault Refusal :=
  .next (if n < 4 then setPort n { portAt s n with paused := false, quanta := 0 } s else s)

/-! ## Frames (R274) -/

/-- Big-endian field of a frame. -/
def be (b : List Byte) (off n : Nat) : Nat := beNat ((b.drop off).take n)

/-- The 16-bit words of a header, their one's-complement sum folded. -/
def sum16 : List Byte → Nat
  | a :: b :: rest => a.toNat * 256 + b.toNat + sum16 rest
  | [a] => a.toNat * 256
  | [] => 0

/-- One's-complement folding to 16 bits. -/
def fold16 (x : Nat) : Nat :=
  let y := x % 65536 + x / 65536
  y % 65536 + y / 65536

/-- A frame as the MAC sees it: VLAN tag, EtherType, the bytes after it. -/
structure Eth where
  dst : Nat
  vid : Option Nat
  ty : Nat
  body : List Byte
  deriving DecidableEq, Repr

/-- Reads a frame. -/
def ethOf (b : List Byte) : Eth :=
  if be b 12 2 = 0x8100 then { dst := be b 0 6, vid := some (be b 14 2 % 4096), ty := be b 16 2, body := b.drop 18 }
  else { dst := be b 0 6, vid := none, ty := be b 12 2, body := b.drop 14 }

/-- An IPv4 packet. -/
structure Ip where
  good : Bool
  proto : Nat
  src : Nat
  dst : Nat
  body : List Byte
  deriving DecidableEq, Repr

/-- Reads an IPv4 packet: good where its header checksum is right and it is no fragment. -/
def ipOf (b : List Byte) : Ip :=
  let hl := be b 0 1 % 16 * 4
  let len := be b 2 2
  let frag := be b 6 2 % 16384
  { good := decide (be b 0 1 / 16 = 4) && decide (20 ≤ hl) && decide (hl ≤ b.length) && decide (fold16 (sum16 (b.take hl)) = 65535) && decide (frag = 0),
    proto := be b 9 1, src := be b 12 4, dst := be b 16 4, body := (b.take len).drop hl }

/-- A UDP checksum is absent or right (R274). -/
def udpGood (i : Ip) : Bool :=
  decide (be i.body 6 2 = 0) ||
    decide (fold16 (sum16 i.body + i.src / 65536 + i.src % 65536 + i.dst / 65536 + i.dst % 65536 + 17 + i.body.length) = 65535)

/-- The multicast MAC address of an IPv4 group. -/
def groupMac (ip : Nat) : Nat := 0x01005E000000 + ip % 2 ^ 23

/-- A receive stream. -/
def rxAt (s : State) (x : Nat) : RxStream := smGet {} s.mp.rx x

/-- Changes a receive stream. -/
def setRx (x : Nat) (r : RxStream) (s : State) : State := setMp s (fun m => { m with rx := smSet {} m.rx x r })

/-- A counter of a stream's record (R301). -/
def rxCount (x off n : Nat) (s : State) : State := setRx x { rxAt s x with cnt := bumpAt (rxAt s x).cnt off n } s

/-- The configured streams that are enabled. -/
def rxEnabled (s : State) : List (Nat × RxStream) := s.mp.rx.filter (fun e => e.2.enabled)

/-- Multicast MAC addresses that a port takes: its streams' groups, PTP, IGMP (R274). -/
def takesMac (s : State) (n mac : Nat) : Bool :=
  decide (mac = portMac s n) || decide (mac = 2 ^ 48 - 1) || decide (mac ∈ [0x01005E000181, 0x01005E00006B, 0x01005E000001, 0x01005E000016]) ||
    (rxEnabled s).any (fun e => (decide (e.2.portA = n) && decide (mac = groupMac e.2.groupA)) ||
      (e.2.pathBEn && decide (e.2.portB = n) && decide (mac = groupMac e.2.groupB)))

/-- A discard of steps 1 to 7. -/
def rxErr (n off : Nat) (s : State) : State := evRaise (aMpEvt n) 1 (portCount n off s)

/-- A MAC control frame (R272): a PAUSE frame that does not pause, and a PFC frame, are discarded (R302). -/
def macControl (n : Nat) (b : List Byte) (s : State) : State :=
  match be b 0 2 with
  | 1 =>
    let s1 := evRaise (aMpEvt n) 5 (portCount n 44 s)
    if (portAt s n).pauseEn then setPort n { portAt s1 n with paused := decide (be b 2 2 ≠ 0), quanta := be b 2 2 } s1
    else evRaise (aMpEvt n) 1 s1
  | 0x101 => rxErr n 48 s
  | _ => s

/-! ## Mappings (R277) -/

/-- The mapping in force of a stream, its set's where it is in one. -/
def rxMapping (s : State) (x : Nat) : RxMapping :=
  match setOf s x with
  | some k => smGet {} s.mp.setMap k
  | none => smGet {} s.mp.strMap x

/-- The changes of a stream's mapping to come, in order. -/
def rxPending (s : State) (x : Nat) : List (Nat × RxMapping) :=
  (s.keyed.mergeSort keyedBefore).filterMap (fun k => match k.act with
    | .mpRxMap isSet idx ofs rxd =>
      if (if isSet then setOf s x = some idx else (setOf s x = none ∧ idx = x)) then some (k.n, { rtpOfs := ofs, rxd := rxd }) else none
    | _ => none)

/-- The time index of an RTP timestamp under a mapping, in 16c - 2^31 to 16c + 2^31 - 1. -/
def timeOf (c : Nat) (m : RxMapping) (ts : Nat) : Int :=
  let base : Int := 16 * (c : Int) - 2147483648
  let v : Int := (ts : Int) - m.rtpOfs + m.rxd
  base + (v - base) % 4294967296

/-- The time index under the mapping in force and the changes to come. -/
def timeUnder (c ts : Nat) : Int → List (Nat × RxMapping) → Int
  | old, [] => old
  | old, (n, m) :: rest =>
    let new := timeOf c m ts
    timeUnder c ts (if 16 * (n : Int) ≤ new then new else if old < 16 * (n : Int) then old else new) rest

/-- The time index of a sample with RTP timestamp `ts` (plus its place in the packet). -/
def rxTime (s : State) (x ts : Nat) : Int := timeUnder (headC s) ts (timeOf (headC s) (rxMapping s x) ts) (rxPending s x)

/-! ## The receive store (R278 to R280, R520) -/

/-- Samples of a packet of a stream. -/
def rxSamples (s : State) (r : RxStream) : Nat := packetP s.clk.rate r.pcode

/-- S: the samples of time index that the store holds for a receive delay and a packet length. -/
def storeSpan (rxd p : Nat) : Nat := (rxd + 2 * p + 15) / 16 * 16

/-- Bytes allocated to a stream. -/
def storeBytes (s : State) (r : RxStream) (rxd : Nat) : Nat :=
  if r.enabled then (r.channels * storeSpan rxd (rxSamples s r) * 3 + 63) / 64 * 64 else 0

/-- Hands the stored samples of a list of tranches to the headgate. -/
def handTranches (x : Nat) : List Nat → State → State
  | [], s => s
  | m :: ms, s =>
    let es := (rxAt s x).store.filter (fun e => decide (e.1 / 1024 = m))
    handTranches x ms (es.foldl (fun t e => match e.2 with
      | some v => placeSample { ty := 1, idx := x, ch := e.1 % 64 } (e.1 / 64) v t
      | none => t) s)

/-- The samples of the tranches that have entered the assembly window are handed over; while STOPPED the store keeps all. -/
def handStream (x : Nat) (s : State) : State :=
  let r := rxAt s x
  if stopped s then setRx x { r with handed := 0 } s
  else
    let c := headC s
    let lo := max c r.handed
    let s1 := handTranches x ((List.range 8).filterMap (fun i => if lo ≤ c + i then some (c + i) else none)) s
    setRx x { rxAt s1 x with handed := max r.handed (c + 8), store := (rxAt s1 x).store.filter (fun e => decide (16 * c ≤ e.1 / 64)) } s1

/-- The same for every stream, as the assembly window moves. -/
def handAll : List Nat → State → State
  | [], s => s
  | x :: xs, s => handAll xs (handStream x s)

/-- An object counter's discard of a stream's sample: LATE or EARLY of the objects fed (R34, R278). -/
def rxDiscard (kind x ch t : Nat) (s : State) : State :=
  if stopped s then s else discardFor kind 1 (fedBy s { ty := 1, idx := x, ch := ch } (t / 16)) s

/-- A sample arrives (R278, R280, R520). -/
def rxSample (x ch : Nat) (t : Int) (v : Int) (s : State) : State :=
  let r := rxAt s x
  let c := headC s
  if t < 16 * (c : Int) then
    let early := decide (s.sch.st = 1) && s.sch.armed.any (fun a => decide (t < 16 * (a.n : Int)))
    rxCount x 20 1 (if early then s else rxDiscard 1 x ch t.toNat s)
  else if 16 * (c : Int) + storeSpan (rxMapping s x).rxd (rxSamples s r) ≤ t then rxCount x 24 1 (rxDiscard 2 x ch t.toNat s)
  else
    let k := t.toNat * 64 + ch
    if (smGet none r.store k).isSome then rxCount x 28 1 s
    else
      let s1 := setRx x { r with store := smSet none r.store k (some v) } s
      if t.toNat / 16 < r.handed ∧ stopped s = false then placeSample { ty := 1, idx := x, ch := ch } t.toNat v s1 else s1

/-- The channels of one sample instant. -/
def rxInstant (x : Nat) (t : Int) : List (Int × Nat) → State → State
  | [], s => s
  | (v, ch) :: rest, s => rxInstant x t rest (rxSample x ch t v s)

/-- The channels of one instant as the queue into D_CORE delivers them: an overrun discards samples, an underrun reads zero (R26). `base` is
the place of the first among the samples of the packet. -/
def slipInstant (slip : Option QSlip) (base : Nat) (vs : List (Int × Nat)) : List (Int × Nat) :=
  match slip with
  | none => vs
  | some q => if q.overrun then vs.filter (fun e => !decide (base + e.2 ∈ q.at_))
              else vs.map (fun e => if base + e.2 ∈ q.at_ then (0, e.2) else e)

/-- The samples of a packet. -/
def rxPayload (slip : Option QSlip) (x channels ts : Nat) : Nat → List (List Byte) → State → State
  | _, [], s => s
  | i, b :: bs, s =>
    rxPayload slip x channels ts (i + 1) bs
      (rxInstant x (rxTime s x (ts + i))
        (slipInstant slip (i * channels) ((chunks 3 channels b).map (fun e => signed 24 (beNat e))).zipIdx) s)

/-! ## RTP packets (R276, R37, R279) -/

/-- A packet's RTP header, and its payload after CSRC list, extension and padding. -/
structure Rtp where
  v : Nat
  pt : Nat
  seq : Nat
  ts : Nat
  ssrc : Nat
  payload : Option (List Byte)
  deriving DecidableEq, Repr

/-- Reads an RTP packet. -/
def rtpOf (b : List Byte) : Rtp :=
  let f := be b 0 1
  let cs := 12 + 4 * (f % 16)
  let ext := if f / 16 % 2 = 1 then 4 + 4 * be b (cs + 2) 2 else 0
  let pad := if f / 32 % 2 = 1 then be b (b.length - 1) 1 else 0
  { v := f / 64, pt := be b 1 1 % 128, seq := be b 2 2, ts := be b 4 4, ssrc := be b 8 4,
    payload := if 12 ≤ b.length ∧ cs + ext + pad ≤ b.length then some ((b.drop (cs + ext)).take (b.length - cs - ext - pad)) else none }

/-- A path after a packet, the packets lost, and whether a sender slip is seen (R276, R37). `fresh`: the packet has a new SSRC. -/
def pathTake (p : RxPath) (fresh : Bool) (seq ts n : Nat) : RxPath × Nat × Bool :=
  let asRef : RxPath := { ref := some seq, behind := 0, lastTs := ts, lastN := n, down := false }
  match p.ref with
  | none => (asRef, 0, false)
  | some r =>
    let d := (seq + 65536 - r) % 65536
    if fresh then (asRef, 0, false)
    else if 1 ≤ d ∧ d ≤ 32767 then (asRef, d - 1, decide (d = 1) && decide (ts ≠ (p.lastTs + p.lastN) % 2 ^ 32))
    else if p.behind = 7 then (asRef, 0, false)
    else ({ p with behind := p.behind + 1, down := false }, 0, false)

/-- The smaller and the larger of a margin and the one kept. -/
def minO (a : Option Int) (v : Int) : Option Int := some (match a with
  | some x => min x v
  | none => v)
def maxO (a : Option Int) (v : Int) : Option Int := some (match a with
  | some x => max x v
  | none => v)

/-- A slip of the queue between D_CORE and a port is counted (R26). -/
def portSlip (n dir : Nat) (s : State) : State := setMp s (fun m => { m with slips := bumpAt m.slips (n * 2 + dir) 1 })

/-- The arrival margin of a packet whose first sample has time index `t` and whose frame ends in core cycle `cycle` of the period: the time
from there to 4 us before the nominal instant of time index t + 1, which is H_k where t + 1 = 16 (k + 1) (R246, R279). How the nanoseconds
round, and the margin before a tranche index is set, are free. -/
def arrivalMargin (s : State) (t : Int) (cycle : Nat) : Int :=
  let c : Int := (t + 1 - 16 * (s.clk.tidx + 1)) * (trancheCycles s / 16 : Nat) - cycle
  if s.clk.tidxValid then c * 1000000000 / fCore s.clk.rate - 4000 + (if Config.freeBool s.freeCtr then 1 else 0)
  else Config.freeInt s.freeCtr

/-- A packet of a stream path is accepted. -/
def rxAccept (x : Nat) (pathB : Bool) (f : RxFrame) (p : Rtp) (body : List Byte) (s : State) : State :=
  let r := rxAt s x
  let fresh := r.ssrc.any (fun q => decide (q ≠ p.ssrc))
  let n := rxSamples s r
  let k := pathTake (if pathB then r.b else r.a) fresh p.seq p.ts n
  let m := arrivalMargin s (rxTime s x p.ts) f.cycle
  let r1 : RxStream := { r with
    ssrc := some p.ssrc, lastTs := p.ts, minMargin := minO r.minMargin m, maxMargin := maxO r.maxMargin m,
    a := if pathB then r.a else k.1, b := if pathB then k.1 else r.b }
  let s1 := setRx x r1 (draw s)
  let s2 := rxCount x (if pathB then 16 else 12) k.2.1 (rxCount x (if pathB then 8 else 4) 1 s1)
  let s3 := if fresh then rxCount x 36 1 s2 else s2
  let s4 := if k.2.2 then
      (let t := rxTime s3 x p.ts
       let u := rxCount x 40 1 s3
       if stopped u then u else evRaise aHgtEvt 2 (eachObj (objCount 62 1) (fedFrom u 1 x (t.toNat / 16)) u))
    else s3
  rxPayload f.slip x r.channels p.ts 0 (chunks (3 * r.channels) n body) (handStream x s4)

/-- A packet on a stream path (R276), with the slip of its port's queue. -/
def rxPacket (n x : Nat) (pathB : Bool) (f : RxFrame) (b : List Byte) (s : State) : State :=
  let r := rxAt s x
  let p := rtpOf b
  match p.payload with
  | some body => if p.v = 2 ∧ p.pt = r.pt ∧ body.length = r.channels * rxSamples s r * 3 then 
      rxAccept x pathB f p body (if f.slip.isSome then portSlip n 0 s else s) else rxCount x 32 1 s
  | none => rxCount x 32 1 s

/-- The stream path that a UDP datagram on a port belongs to. -/
def rxMatch (s : State) (n : Nat) (i : Ip) : Option (Nat × Bool) :=
  let port := be i.body 2 2
  (rxEnabled s).findSome? (fun e =>
    let r := e.2
    if r.portA = n ∧ r.groupA = i.dst ∧ r.udpA = port ∧ (r.srcA = 0 ∨ r.srcA = i.src) then some (e.1, false)
    else if r.pathBEn ∧ r.portB = n ∧ r.groupB = i.dst ∧ r.udpB = port ∧ (r.srcB = 0 ∨ r.srcB = i.src) then some (e.1, true)
    else none)

/-! ## Frames that stewards send (R270, R284) -/

/-- Bytes waiting in a queue. -/
def queueBytes (q : List TxFrame) : Nat := q.foldl (fun a f => a + f.bytes.length) 0

/-- A frame joins the 64 KiB queue of a port, or is discarded. -/
def queueTx (n : Nat) (f : TxFrame) (s : State) : State :=
  let x := portAt s n
  if 65536 < queueBytes x.queue + f.bytes.length then evIf (decide (f.cls = 1)) (aMpEvt n) 3 (portCount n 64 s)
  else setPort n { x with queue := x.queue ++ [f] } s

/-- The one's-complement checksum of a header. -/
def headerSum (b : List Byte) : Nat := 65535 - fold16 (sum16 b)

/-- An Ethernet frame from a port, with its VLAN tag where one is enabled. -/
def ethFrame (s : State) (n mac pcp ty : Nat) (body : List Byte) : List Byte :=
  let x := portAt s n
  let tag := if x.vlanEn then beBytes 2 0x8100 ++ beBytes 2 (pcp * 8192 + x.vid) else []
  beBytes 6 mac ++ beBytes 6 (portMac s n) ++ tag ++ beBytes 2 ty ++ body

/-- An IPv4 packet from a port: the first 16 bits, identification and flags, TTL, protocol, destination, options. -/
def ipPacket (s : State) (n tos ident ttl proto dst : Nat) (opts body : List Byte) : List Byte :=
  let h := beBytes 1 (0x45 + opts.length / 4) ++ beBytes 1 tos ++ beBytes 2 (20 + opts.length + body.length) ++ beBytes 4 ident ++
    beBytes 1 ttl ++ beBytes 1 proto
  let a := beBytes 4 (portAt s n).ip ++ beBytes 4 dst
  h ++ beBytes 2 (headerSum (h ++ a ++ opts)) ++ a ++ opts ++ body

/-- Afinal sends a frame. The PCP of its tag and the octets that pad it to 64 bytes are given nowhere: free values. -/
def afinalSend (n mac ty : Nat) (body : List Byte) (s : State) : State :=
  let b := ethFrame s n mac (Word.bits (Config.freeWord s.freeCtr) 2 0) ty body
  queueTx n { cls := 2, stream := 0, seqId := 0, report := false,
              bytes := b ++ (List.range (60 - b.length)).map (Config.freeByte s.freeCtr) } (draw s)

/-! ## ARP, ICMP echo and IGMP (R274, R275). PRESUMED: the formats are those of RFC 826, RFC 792 and RFC 3376 (log entry 93). -/

/-- An ARP request for the port's own address is answered. -/
def arpAnswer (n : Nat) (b : List Byte) (s : State) : State :=
  if be b 0 8 = 0x0001080006040001 ∧ be b 24 4 = (portAt s n).ip ∧ (portAt s n).ip ≠ 0 then
    afinalSend n (be b 8 6) 0x0806 (beBytes 8 0x0001080006040002 ++ beBytes 6 (portMac s n) ++ beBytes 4 (portAt s n).ip ++ (b.drop 8).take 10) s
  else s

/-- An ICMP echo request to the port's own address is answered. The header fields that no rule gives are free. -/
def echoAnswer (n mac : Nat) (i : Ip) (s : State) : State :=
  let w := Config.freeWord s.freeCtr
  if i.dst = (portAt s n).ip ∧ be i.body 0 2 = 0x0800 ∧ 8 ≤ i.body.length ∧ fold16 (sum16 i.body) = 65535 then
    let data := i.body.drop 4
    afinalSend n mac 0x0800 (ipPacket s n (Word.bits w 7 0) (Word.bits w 31 16 * 65536 + Word.bits w 8 8 * 16384) (portAt s n).ttl 1 i.src []
      (beBytes 2 0 ++ beBytes 2 (headerSum (beBytes 4 0 ++ data)) ++ data)) (draw s)
  else s

/-- The groups and sources of the enabled paths on a port. -/
def pathsOn (s : State) (n : Nat) : List (Nat × Nat) :=
  (rxEnabled s).flatMap (fun e => (if e.2.portA = n then [(e.2.groupA, e.2.srcA)] else []) ++
    (if e.2.pathBEn ∧ e.2.portB = n then [(e.2.groupB, e.2.srcB)] else []))

/-- An IGMPv3 group record: `inc` its type with a source, `exc` without one. -/
def igmpRecord (inc exc : Nat) (p : Nat × Nat) : List Byte :=
  if p.2 = 0 then beBytes 1 exc ++ zeros 3 ++ beBytes 4 p.1 else beBytes 1 inc ++ zeros 1 ++ beBytes 2 1 ++ beBytes 4 p.1 ++ beBytes 4 p.2

/-- A membership report of some paths, with TTL 1 and the router alert option. -/
def igmpReport (n inc exc : Nat) (ps : List (Nat × Nat)) (s : State) : State :=
  if ps.isEmpty then s
  else
    let body := beBytes 4 0 ++ beBytes 2 ps.length ++ ps.flatMap (igmpRecord inc exc)
    let sum := headerSum (beBytes 4 0x22000000 ++ body.drop 2)
    afinalSend n 0x01005E000016 0x0800 (ipPacket s n 0xC0 0 1 2 0xE0000016 (beBytes 4 0x94040000) (beBytes 2 0x2200 ++ beBytes 2 sum ++ body.drop 2)) s

/-- A membership query is answered with the state of the paths that it asks about: every group, one, or one with some sources. -/
def igmpAnswer (n : Nat) (b : List Byte) (s : State) : State :=
  let sources := (List.range (be b 10 2)).map (fun k => be b (12 + 4 * k) 4)
  if be b 0 1 = 0x11 ∧ fold16 (sum16 b) = 65535 then
    igmpReport n 1 2 ((pathsOn s n).filter (fun p => (decide (be b 4 4 = 0) || decide (p.1 = be b 4 4)) &&
      (sources.isEmpty || decide (p.2 = 0) || decide (p.2 ∈ sources)))) s
  else s

/-! ## Step 9: the stewards (R50, R274, R289 to R291, R349) -/

/-- The ingress constant of a port's mode in tenths of a ns (R290). -/
def ingressTenths (x : MpPort) : Nat := if x.fast then (if x.fec then 1792 else 832) else (if x.fec then 2048 else 960)

/-- A receive stamp referred to the port's pins, in 2^-16 ns. -/
def ingressStamp (x : MpPort) (raw : Nat) : Nat := (raw * 10 - ingressTenths x * 65536) / 10

/-- The trailer of a frame (R291). DEDUCED: its stamp is valid while device time is (log entry 93). -/
def trailer (s : State) (n : Nat) (f : RxFrame) : List Byte :=
  let t := ingressStamp (portAt s n) f.stamp
  leBytes 6 (t / 65536 / 1000000000) ++ leBytes 2 (t % 65536) ++ leBytes 4 (t / 65536 % 1000000000) ++ leBytes 1 n ++
    leBytes 1 (if s.ptp.valid then 1 else 0) ++ zeros 2

/-- A peer-delay message on a port of the time unit is counted and ignored (R289). -/
def peerDelay (n : Nat) (b : List Byte) (s : State) : State :=
  if s.ptp.st ≠ 0 ∧ (n = s.ptp.portA ∨ n = s.ptp.portB) ∧ be b 0 1 % 16 ∈ [2, 3, 10] then
    { s with ptp := { s.ptp with nPeer := bump 32 s.ptp.nPeer 1 } }
  else s

/-- A datagram is a PTP message. -/
def isPtp (i : Ip) : Bool := decide (i.proto = 17) && decide (be i.body 2 2 ∈ [319, 320])

/-- What Afinal does with a frame of its ring (R50, R274, R275, R289). -/
def afinalFrame (n : Nat) (f : RxFrame) (e : Eth) (i : Option Ip) (s : State) : State :=
  match i with
  | none => if e.ty = 0x0806 then arpAnswer n e.body s else s
  | some k =>
    if k.proto = 1 then echoAnswer n (be f.bytes 6 6) k s
    else if k.proto = 2 then igmpAnswer n k.body s
    else if k.proto = 17 ∧ (portAt s n).metaEn ∧ be k.body 2 2 = (portAt s n).metaPort then metaDatagram (k.body.drop 8) false s
    else if isPtp k then peerDelay n (k.body.drop 8) s
    else s

/-- A frame goes to its steward ring with FCS and trailer. -/
def toSteward (n : Nat) (f : RxFrame) (e : Eth) (i : Option Ip) (s : State) : State :=
  let ptp := i.any isPtp
  let w := getReg s aSrcPrio
  let t := stewardFrame ((if ptp then 2068 else 2064) + n) (if ptp then Word.bits w 6 4 else Word.bits w 2 0) 2 (0x50 + n) n
    (f.bytes ++ leBytes 4 (crc32e f.bytes)) (trailer s n f) s
  if s.stw.items.length < t.stw.items.length ∧ afinalUp s then afinalFrame n f e i t else t

/-- Steps 5 to 9 for a frame that is no MAC control frame. -/
def classify (n : Nat) (f : RxFrame) (e : Eth) (s : State) : State :=
  if !takesMac s n e.dst then rxErr n 40 s
  else if e.ty = 0x86DD then rxErr n 32 s
  else if e.ty ≠ 0x0800 then toSteward n f e none s
  else
    let i := ipOf e.body
    if !i.good then rxErr n 32 s
    else if i.proto ≠ 17 then toSteward n f e (some i) s
    else if !udpGood i then rxErr n 36 s
    else match rxMatch s n i with
      | some (x, pathB) => rxPacket n x pathB f (i.body.drop 8) s
      | none => toSteward n f e (some i) s

/-- FEC codewords corrected in a frame of a port with FEC (R301). -/
def portCorrected (n c : Nat) (s : State) : State :=
  if (portAt s n).fec then setPort n { portAt s n with cnt := bumpAt (portAt s n).cnt 16 c } s else s

/-- MP_FRAME_RECEIVE (R274); the lengths count the FCS. -/
def frameTake (n : Nat) (f : RxFrame) (s : State) : State :=
  let e := ethOf f.bytes
  let x := portAt s n
  let s1 := portCorrected n f.corrected (portCount n 4 s)
  if f.pcsErr then rxErr n 12 s1
  else if f.fcsErr then rxErr n 8 s1
  else if f.bytes.length + 4 < 64 then rxErr n 20 s1
  else if 9600 < f.bytes.length + 4 then rxErr n 24 s1
  else if x.vlanEn && decide (e.vid ≠ some x.vid) then rxErr n 28 s1
  else if e.ty = 0x8808 then macControl n e.body s1
  else classify n f e s1
def execMpFrameReceive (n : Nat) (f : RxFrame) (s : State) : Host.Outcome State Fault Refusal :=
  .next (if n < 4 ∧ (portAt s n).up then frameTake n f s else s)

/-- PATH_DOWN (R280). -/
def execPathDown (x : Nat) (pathB : Bool) (s : State) : Host.Outcome State Fault Refusal :=
  let r := rxAt s x
  .next (if r.enabled ∧ (pathB = false ∨ r.pathBEn) ∧ (if pathB then r.b else r.a).down = false then
      let s1 := setRx x (if pathB then { r with b := { r.b with down := true } } else { r with a := { r.a with down := true } }) s
      ledger 0x0603 2 x (if pathB then 1 else 0) (cntAt r.cnt (if pathB then 16 else 12)) (evRaise (aMpEvt (if pathB then r.portB else r.portA)) 2 s1)
    else s)

end Sys2Proof.Machine
end

