-- ==== Sys2Proof/Machine/MediaTx.lean ====
section
/-! DEFINITION. Transmit streams and queues of the media ports, and the ports' descriptors and status (R281 to R286, R299 to R301,
R35). -/

namespace Sys2Proof.Machine

/-! ## Queues (R284, R292) -/

/-- A transmit stream's addressing. -/
def txAt (s : State) (x : Nat) : TxStream := smGet {} s.mp.tx x

/-- Changes a transmit stream. -/
def setTx (x : Nat) (t : TxStream) (s : State) : State := setMp s (fun m => { m with tx := smSet {} m.tx x t })

/-- A counter of a transmit stream (R301). -/
def txCount (x off n : Nat) (s : State) : State := setTx x { txAt s x with cnt := bumpAt (txAt s x).cnt off n } s

/-- The frame that departs next: the first of the lowest class. -/
def nextTx (q : List TxFrame) : Option Nat :=
  match q.findIdx? (fun f => decide (f.cls = 0)) with
  | some i => some i
  | none => match q.findIdx? (fun f => decide (f.cls = 1)) with
    | some i => some i
    | none => if q.isEmpty then none else some 0

/-- The egress constant of a port's mode in tenths of a ns (R290). -/
def egressTenths (x : MpPort) : Nat := if x.fast then (if x.fec then 912 else 640) else (if x.fec then 832 else 768)

/-- A queue of the time unit overflows: 0 to 3 a port's reports, 4 captures (R292, R303, R305). -/
def queueOverflow (q : Nat) (s : State) : State :=
  let s1 := evRaise aPtpEvt (4 + q) { s with ptp := { s.ptp with qovf := bump 32 s.ptp.qovf 1 } }
  ledgerLim 0x0505 2 q 1 (fun _ => (q, s1.ptp.qovf, 0)) s1

/-- A report of a departed event message. -/
def pushReport (n : Nat) (r : PtpRpt) (s : State) : State :=
  let q := smGet [] s.ptp.rpt n
  if 64 ≤ q.length then queueOverflow n s else { s with ptp := { s.ptp with rpt := smSet [] s.ptp.rpt n (q ++ [r]) } }

/-- A PTP time stamp: seconds and nanoseconds, big-endian. -/
def ptpStamp (t : Nat) : List Byte := beBytes 6 (t / 1000000000) ++ beBytes 4 (t % 1000000000)

/-- Samples of a media frame that the queue from D_CORE lost or missed read as zero: 3 bytes each after the RTP header (R26). -/
def slipFrame (ps : List Nat) (b : List Byte) : List Byte :=
  let at_ := b.length - (ethOf b).body.length + 40
  b.zipIdx.map (fun e => if ps.any (fun p => decide (at_ + 3 * p ≤ e.2) && decide (e.2 < at_ + 3 * p + 3)) then 0 else e.1)

/-- A media frame departs, as its port's queue delivers it. -/
def departMedia (n : Nat) (f : TxFrame) (slip : Option QSlip) (s : State) : State :=
  match slip with
  | some q => emit (.media n (slipFrame q.at_ f.bytes)) (portSlip n 1 s)
  | none => emit (.media n f.bytes) s

/-- A frame departs: PTP event messages carry their egress stamp, kept as t3 and reported where flagged (R292, R293). -/
def departFrame (n : Nat) (f : TxFrame) (slip : Option QSlip) (s : State) : State :=
  let t := (s.ptp.dt * 10 + egressTenths (portAt s n)) / 10
  let s1 := portCount n 56 s
  match f.cls with
  | 0 =>
    let s2 := emit (.media n (f.bytes.take (f.bytes.length - 10) ++ ptpStamp t)) { s1 with ptp := { s1.ptp with sent := some (f.seqId, t) } }
    if f.report then pushReport n { msgType := 1, domain := f.domain, seqId := f.seqId, time := t } s2 else s2
  | 1 => departMedia n f slip (txCount f.stream 4 1 s1)
  | _ => emit (.media n f.bytes) s1

/-- MP_FRAME_DEPART; `slip`: the queue from D_CORE slipped in a media packet. -/
def execMpFrameDepart (n : Nat) (slip : Option QSlip) (s : State) : Host.Outcome State Fault Refusal :=
  let x := portAt s n
  .next (if n < 4 ∧ x.up ∧ x.paused = false ∧ s.aon.trip = false then
      (match nextTx x.queue with
        | some i => departFrame n (x.queue.getD i { cls := 2, stream := 0, bytes := [], seqId := 0, report := false }) slip
            (setPort n { x with queue := x.queue.eraseIdx i } s)
        | none => s)
    else s)

/-- TX_LATE_DROP: the oldest media packet that waits has waited for 100 us. -/
def execTxLateDrop (n : Nat) (s : State) : Host.Outcome State Fault Refusal :=
  let x := portAt s n
  .next (match (if n < 4 then x.queue.findIdx? (fun f => decide (f.cls = 1)) else none) with
    | some i =>
      let f := x.queue.getD i { cls := 1, stream := 0, bytes := [], seqId := 0, report := false }
      evRaise (aMpEvt n) 3 (txCount f.stream 8 1 (portCount n 60 (setPort n { x with queue := x.queue.eraseIdx i } s)))
    | none => s)

/-! ## FORM (R281 to R286) -/

/-- The image whose FORM entry runs: as `xptImg`; the packet carries output time indices `u` to `u + p - 1` (R195). -/
def formServes (s : State) (entry u p : Nat) : Bool :=
  let first : Int := (u / 16 : Nat) - 4
  let last : Int := ((u + p - 1) / 16 : Nat) - 4
  issuing s && decide ((s.sch.startN : Int) ≤ last) && (match s.sch.stopN with
    | some e => decide (first ≤ e)
    | none => true) && decide ((entry < 65536) = ((s.sch.oldN : Int) ≤ last))

/-- The staging tranches that a channel's samples are read from. -/
def formTranches (s : State) (u p : Nat) : List Nat := ((List.range p).map (fun j => heldIndex s (u + j) / 16)).dedup

/-- A staging tranche is complete and fails its check. -/
def stagingBad (s : State) (ch m : Nat) : Bool := (stagedAt s ch m).any (fun g => decide (g.chk ≠ trancheCheck g.xs 0))

/-- A sample of a packet: zero where its tranche is missing or fails its check. -/
def formSample (s : State) (ch u : Nat) : Int :=
  if stagingBad s ch (heldIndex s u / 16) then 0 else (outSample s ch u).getD 0

/-- TX_CHK_ERR and STG_MISSING of the staging tranches that a packet reads (R281, R285). -/
def formChecks (n x : Nat) : List (Nat × Nat) → State → State
  | [], s => s
  | (ch, m) :: rest, s =>
    formChecks n x rest (if (stagedAt s ch m).isNone then txCount x 20 1 s
      else if stagingBad s ch m then
        ledgerLim 0x0604 3 x 1 (fun c => (x, ch, c)) (evRaise (aMpEvt n) 4 (portCount n 76 (txCount x 16 1 s)))
      else s)

/-- An IPv4 and UDP frame (R283). -/
def udpFrame (s : State) (n mac dst pcp dscp sport dport : Nat) (payload : List Byte) : List Byte :=
  ethFrame s n mac pcp 0x0800 (ipPacket s n (dscp * 4) 0x4000 (portAt s n).ttl 17 dst []
    (beBytes 2 sport ++ beBytes 2 dport ++ beBytes 2 (8 + payload.length) ++ beBytes 2 0 ++ payload))

/-- The RTP packet of a stream from output time index `u` on. -/
def rtpBytes (s : State) (t : TxStream) (e : TxEnt) (u p : Nat) : List Byte :=
  beBytes 1 0x80 ++ beBytes 1 t.pt ++ beBytes 2 (u / p) ++ beBytes 4 (u + t.rtpOfs) ++ beBytes 4 t.ssrc ++
    (List.range p).flatMap (fun j => e.stg.flatMap (fun ch => beBytes 3 (unsigned 24 (formSample s ch (u + j)))))

/-- One copy of a packet goes to a port, or is discarded and counted (R271, R286). -/
def sendCopy (n x mac dst : Nat) (t : TxStream) (rtp : List Byte) (s : State) : State :=
  if !driving s then txCount x 12 1 (portCount n 72 s)
  else if !(portAt s n).up then evRaise (aMpEvt n) 3 (portCount n 68 s)
  else queueTx n { cls := 1, stream := x, bytes := udpFrame s n mac dst (portAt s n).pcp t.dscp t.udpSrc t.udpDst rtp, seqId := 0, report := false } s

/-- A packet is frozen. -/
def formPacket (e : TxEnt) (u p : Nat) (s : State) : State :=
  let x := e.stream
  let t := txAt s x
  let rtp := rtpBytes s t e u p
  let s1 := formChecks e.portA x (e.stg.flatMap (fun ch => (formTranches s u p).map (fun m => (ch, m)))) s
  let s2 := setTx x { txAt s1 x with lastTs := (u + t.rtpOfs) % 2 ^ 32 } s1
  let s3 := sendCopy e.portA x t.macA t.dstA t rtp s2
  if e.portB = 255 then s3 else sendCopy e.portB x t.macB t.dstB t rtp s3

/-- FORM: entry of the list of port A. -/
def execForm (n entry : Nat) (s : State) : Host.Outcome State Fault Refusal :=
  let r := xptImg s entry
  .next (match r.1 with
    | none => s
    | some i => match (i.forms.getD n [])[r.2]? with
      | none => s
      | some f => match formStream i f with
        | none => s
        | some e =>
          let p := packetP i.rate e.pcode
          let u : Int := 16 * (s.clk.tidx : Int) + f.dofs
          if s.clk.tidx % i.f = f.phase ∧ 0 ≤ u ∧ formServes s entry u.toNat p ∧ (txAt s e.stream).enabled then formPacket e u.toNat p s else s)

/-! ## MP_PORT_CFG (R299, R300) -/

/-- Some enabled stream uses the port. -/
def portCarries (s : State) (n : Nat) : Bool :=
  (rxEnabled s).any (fun e => decide (e.2.portA = n) || (e.2.pathBEn && decide (e.2.portB = n))) ||
    (match s.sch.activeImg with
      | some i => i.txs.any (fun t => (txAt s t.stream).enabled && (decide (t.portA = n) || decide (t.portB = n)))
      | none => false)

/-- MP_PORT_CFG; a port that is disabled goes DOWN. -/
def execMpPortCfg (d : Desc) (s : State) : Host.Outcome State Fault Refusal :=
  let n := pl d 0 1
  let x := portAt s n
  .next (checked d [(0, 21)] [(0, decide (n ≤ 3)), (1, decide (pl d 1 1 ≤ 63)), (2, decide (pl d 2 2 ≤ 4095)), (4, decide (pl d 4 1 ≤ 7)),
      (5, decide (pl d 5 1 ≤ 7)), (7, decide (pl d 7 1 ≤ 63)), (20, decide (pl d 20 1 ≤ 32))] s
    (if (decide (x.fast ≠ plBit d 1 1) || decide (x.fec ≠ plBit d 1 2)) && portCarries s n then finish d stNotPermitted s
     else
      let s1 := if x.up && !plBit d 1 0 then portDown n s else s
      finish d stOk (setPort n { portAt s1 n with
        enabled := plBit d 1 0, fast := plBit d 1 1, fec := plBit d 1 2, pauseEn := plBit d 1 3, metaEn := plBit d 1 4, vlanEn := plBit d 1 5,
        vid := pl d 2 2, pcp := pl d 4 1, ptpPcp := pl d 5 1, ttl := pl d 6 1, ptpDscp := pl d 7 1, mac := field (d.payload.drop 8) 0 6,
        metaPort := pl d 14 2, ip := pl d 16 4, prefixLen := pl d 20 1 } s1)))

/-! ## Receive streams, sets and mappings (R35, R275 to R278, R525) -/

/-- The receive delay of a stream in tranche `n`, by the mapping in force or the last one keyed up to there. -/
def rxdAt (s : State) (x n : Nat) : Nat :=
  (((rxPending s x).filter (fun e => decide (e.1 ≤ n))).getLast?.map (fun e => e.2.rxd)).getD (rxMapping s x).rxd

/-- Bytes of the receive store that all streams are allocated in tranche `n`. -/
def storeTotal (s : State) (n : Nat) : Nat := (s.mp.rx.map (fun e => storeBytes s e.2 (rxdAt s e.1 n))).foldl (· + ·) 0

/-- The allocations fit the store now and at every mapping to come (R278). -/
def storeFits (s : State) : Bool := (0 :: s.keyed.map (fun k => k.n)).all (fun n => decide (storeTotal s n ≤ 4194304))

/-- The state with a mapping to come, for the test of its allocation. -/
def withRxMap (n : Nat) (isSet : Bool) (idx ofs rxd : Nat) (s : State) : State :=
  { s with keyed := s.keyed ++ [{ n := n, seq := s.keyed.foldl (fun m k => max m (k.seq + 1)) 0, tok := none, act := .mpRxMap isSet idx ofs rxd }] }

/-- The paths of a stream that an MP_RX_STREAM enables are reported to their ports' groups (R275). -/
def joinPaths (r : RxStream) (s : State) : State :=
  if r.enabled then
    let s1 := igmpReport r.portA 5 4 [(r.groupA, r.srcA)] s
    if r.pathBEn then igmpReport r.portB 5 4 [(r.groupB, r.srcB)] s1 else s1
  else s

/-- The highest channel that objects take from a stream, now or by a change to come, plus 1. -/
def mappedChannels (s : State) (x : Nat) : Nat :=
  let now := (s.obj.filter (fun e => decide (e.2.src.ty = 1) && decide (e.2.src.idx = x))).map (fun e => e.2.src.ch + 1)
  let next := s.keyed.filterMap (fun k => match k.act with
    | .objMap _ count ty idx ch => if ty = 1 ∧ idx = x then some (ch + count) else none
    | _ => none)
  (now ++ next).foldl max 0

/-- The stream that an MP_RX_STREAM gives: its receive state restarts, its counters stay (R525). -/
def rxConfig (d : Desc) (r : RxStream) : RxStream :=
  { conf := true, enabled := plBit d 1 0, pathBEn := plBit d 1 1, portA := pl d 2 1, portB := pl d 3 1, channels := pl d 4 1, pcode := pl d 5 1,
    pt := pl d 6 1, groupA := pl d 8 4, udpA := pl d 12 2, groupB := pl d 16 4, udpB := pl d 20 2, srcA := pl d 24 4, srcB := pl d 28 4,
    cnt := r.cnt, handed := r.handed }

/-- MP_RX_STREAM. -/
def execMpRxStream (d : Desc) (s : State) : Host.Outcome State Fault Refusal :=
  let x := pl d 0 1
  let ch := pl d 4 1
  let p := packetP s.clk.rate (pl d 5 1)
  let s1 := setRx x (rxConfig d (rxAt s x)) s
  .next (checked d [(0, 7), (8, 6), (16, 6), (24, 8)] [(0, decide (x ≤ 127)), (1, decide (pl d 1 1 ≤ 3)), (2, decide (pl d 2 1 ≤ 3)),
      (3, decide (pl d 3 1 ≤ 3)), (4, decide (1 ≤ ch) && decide (ch ≤ 64) && decide (ch * p * 3 ≤ 9216)), (5, decide (pl d 5 1 ≤ 3)),
      (6, decide (96 ≤ pl d 6 1) && decide (pl d 6 1 ≤ 127))] s
    (if ch < mappedChannels s x ∨ (rxMapping s x).rxd < p then finish d stNotPermitted s
     else if !storeFits s1 then finish d stNoResource s
     else finish d stOk (joinPaths (rxConfig d (rxAt s x)) s1)))

/-- A mapping takes effect. -/
def applyRxMap (isSet : Bool) (idx ofs rxd : Nat) (s : State) : State :=
  let m : RxMapping := { rtpOfs := ofs, rxd := rxd }
  setMp s (fun p => if isSet then { p with setMap := smSet {} p.setMap idx m } else { p with strMap := smSet {} p.strMap idx m })

/-- The packet samples of the streams that a mapping serves. -/
def servedSamples (s : State) (isSet : Bool) (idx : Nat) : Nat :=
  ((if isSet then smGet [] s.alignSet idx else [idx]).map (fun x => if (rxAt s x).conf then rxSamples s (rxAt s x) else 0)).foldl max 0

/-- MP_RX_MAP: its deadline is H_(N-1). -/
def execMpRxMap (d : Desc) (s : State) : Host.Outcome State Fault Refusal :=
  let isSet := decide (pl d 9 1 = 1)
  let idx := pl d 10 1
  let rxd := pl d 16 2
  .next (checked d [(0, 11), (12, 6)] [(8, decide (pl d 8 1 ≤ 1)), (9, decide (pl d 9 1 ≤ 1)), (10, decide (idx ≤ 127)),
      (16, decide (16 ≤ rxd) && decide (rxd ≤ 8192) && decide (servedSamples s isSet idx ≤ rxd))] s
    (let n := keyN d (leastBefore s 1)
     if !beforeH s ((n : Int) - 1) then finish d stLate s
     else if !isSet && (setOf s idx).isSome then finish d stNotPermitted s
     else if !storeFits (withRxMap n isSet idx (pl d 12 4) rxd s) then finish d stNoResource s
     else armKeyed n (some d.tok) (.mpRxMap isSet idx (pl d 12 4) rxd) s))

/-- The sets with a set's members replaced; a stream belongs to one set at most. -/
def setMembers (k : Nat) (ms : List Nat) (t : SMap (List Nat)) : SMap (List Nat) :=
  smSet [] (((t.map (fun e => (e.1, e.2.filter (fun x => !decide (x ∈ ms))))).filter (fun e => !e.2.isEmpty))) k ms

/-- OBJ_ALIGN_SET (R35, R52). DESIGN CHOICE: a stream named twice in the list is a bad field (log entry 89). -/
def execObjAlignSet (d : Desc) (s : State) : Host.Outcome State Fault Refusal :=
  let k := pl d 0 1
  let n := pl d 1 1
  let ms := (List.range (min n 32)).map (fun i => pl d (8 + i) 1)
  let limits := (List.range (min n 32)).map (fun i => (8, decide (pl d (8 + i) 1 ≤ 127) && !decide (pl d (8 + i) 1 ∈ ms.take i)))
  let s1 := { s with alignSet := setMembers k ms s.alignSet }
  let old := smGet [] s.alignSet k
  .next (checked d [(0, 2), (8, min n 32)] ([(0, decide (k ≤ 127)), (1, decide (n ≤ 32))] ++ limits) s
    (if ms.any (fun x => !decide (x ∈ old) && (rxAt s x).conf && decide ((smGet {} s.mp.setMap k).rxd < rxSamples s (rxAt s x))) then
       finish d stNotPermitted s
     else if !storeFits s1 then finish d stNoResource s
     else finish d stOk s1))

/-! ## MP_TX_STREAM and MP_STATUS (R299 to R301) -/

/-- MP_TX_STREAM. -/
def execMpTxStream (d : Desc) (s : State) : Host.Outcome State Fault Refusal :=
  let x := pl d 0 1
  .next (checked d [(0, 36)] [(0, decide (x ≤ 127)), (1, decide (pl d 1 1 ≤ 1)), (2, decide (96 ≤ pl d 2 1) && decide (pl d 2 1 ≤ 127)),
      (3, decide (pl d 3 1 ≤ 63))] s
    (if (s.sch.activeImg.any (fun i => i.txs.any (fun t => decide (t.stream = x)))) then
       finish d stOk (setTx x { txAt s x with
         enabled := plBit d 1 0, pt := pl d 2 1, dscp := pl d 3 1, dstA := pl d 4 4, dstB := pl d 8 4, macA := pl d 12 6, macB := pl d 18 6,
         udpDst := pl d 24 2, udpSrc := pl d 26 2, ssrc := pl d 28 4, rtpOfs := pl d 32 4 } s)
     else finish d stNotPermitted s))

/-- A port's record. -/
def portRecord (s : State) (n : Nat) : List Byte :=
  let x := portAt s n
  leBytes 1 n ++ leBytes 1 (if x.up then 1 else 0) ++ leBytes 1 (if x.fast then 1 else 0) ++
    leBytes 1 ((if x.fec then 1 else 0) + (if x.paused then 2 else 0)) ++ words32 ((List.range 20).map (fun i => cntAt x.cnt (4 + 4 * i))) ++ zeros 12

/-- A receive stream's record; a margin of no packet is a free value. -/
def rxRecord (s : State) (x : Nat) : List Byte :=
  let r := rxAt s x
  leBytes 1 x ++ leBytes 1 ((if r.enabled then 1 else 0) + (if r.enabled && !r.a.down then 2 else 0) + (if r.enabled && r.pathBEn && !r.b.down then 4 else 0)) ++
    leBytes 1 ((setOf s x).getD 255) ++ zeros 1 ++ words32 ((List.range 10).map (fun i => cntAt r.cnt (4 + 4 * i))) ++
    leInt 4 (satS 32 (r.minMargin.getD (Config.freeInt s.freeCtr))) ++ leInt 4 (satS 32 (r.maxMargin.getD (Config.freeInt (s.freeCtr + 1)))) ++
    leBytes 4 r.lastTs ++ zeros 8

/-- A transmit stream's record. -/
def txRecord (s : State) (x : Nat) : List Byte :=
  let t := txAt s x
  leBytes 1 x ++ leBytes 1 (if t.enabled then 1 else 0) ++ zeros 2 ++ words32 ([4, 8, 12, 16, 20].map (cntAt t.cnt)) ++ leBytes 4 t.lastTs ++ zeros 4

/-- The records of a mode are read: margins are reset, and with CLEAR the counters. -/
def mpClear (mode : Nat) (clear : Bool) : List Nat → State → State
  | [], s => s
  | k :: ks, s => mpClear mode clear ks (match mode with
    | 0 => if clear then setPort k { portAt s k with cnt := [] } s else s
    | 1 => setRx k { rxAt s k with minMargin := none, maxMargin := none, cnt := if clear then [] else (rxAt s k).cnt } s
    | _ => if clear then setTx k { txAt s k with cnt := [] } s else s)

/-- MP_STATUS. -/
def execMpStatus (d : Desc) (s : State) : Host.Outcome State Fault Refusal :=
  let mode := pl d 8 1
  let first := pl d 10 2
  let count := pl d 12 2
  let size := if mode = 0 then 4 else 128
  let one := match mode with
    | 0 => portRecord s
    | 1 => rxRecord s
    | _ => txRecord s
  .next (checked d [(0, 9), (10, 5)] [(8, decide (mode ≤ 2)), (10, decide (first < size)), (12, inRange first count size),
      (14, decide (pl d 14 1 ≤ 1))] s
    (finish d stOk (mpClear mode (plBit d 14 0) (span first count) (hostWrite (pl d 0 8) ((span first count).flatMap one) (draw s)))))

end Sys2Proof.Machine
end

