-- ==== Sys2Proof/Machine/Time.lean ====
section
/-! DEFINITION. The time unit: PTP states, servo and grandmasters, triggers, pulses and captures (R288 to R305). -/

namespace Sys2Proof.Machine

/-- Changes the time unit. -/
def setPtp (s : State) (f : Ptp → Ptp) : State := { s with ptp := f s.ptp }

/-- The port that the selected path uses. -/
def ptpPort (s : State) : Nat := if s.ptp.viaB then s.ptp.portB else s.ptp.portA

/-! ## States (R295) -/

/-- A change of state, with its event, its records and the report to the selector; causes 1 offset, 2 step, 3 Sync timeout, 4
announce timeout. -/
def ptpGo (new cause : Nat) (s : State) : State :=
  let old := s.ptp.st
  if new = old then s
  else
    let ofs := s32 (satS 32 s.ptp.lastOfs)
    let s1 := evRaise aPtpEvt 0 (setPtp s (fun p => { p with st := new, inWin := 0, valid := p.valid || decide (new = 3), awaitGm := false }))
    let s2 := if old = 3 then ledger 0x0501 3 new cause ofs s1 else s1
    ptpSource (if new = 3 then ledger 0x0502 1 old ofs 0 s2 else s2)

/-- The record of a change of grandmaster, complete once the new one's first offset is known (R296, R305). -/
def gmRecord (ofs : Nat) (s : State) : State :=
  match s.ptp.gmRec with
  | some g => ledger 0x0504 2 (g % 2 ^ 32) (g / 2 ^ 32) ofs (setPtp s (fun p => { p with gmRec := none }))
  | none => s

/-- The same where no offset came: its third parameter is a free value. -/
def gmRecordOpen (s : State) : State :=
  if s.ptp.gmRec.isSome then gmRecord (Config.freeWord s.freeCtr).toNat (draw s) else s

/-- Free-running: out of LOCKED the rate is frozen at the mean of the last 8 updates. -/
def freeRun (cause : Nat) (s0 : State) : State :=
  let s := gmRecordOpen s0
  if s.ptp.st = 3 then ptpGo 4 cause (setPtp s (fun p => { p with rho := meanI p.rhoHist }))
  else if s.ptp.st = 2 then ptpGo 4 cause s else s

/-! ## Grandmasters (R289, R296) -/

/-- The order in which masters are compared. -/
def rankOf (m : AnnounceMsg) : List Nat :=
  [m.priority1, m.clockClass, m.accuracy, m.variance, m.priority2, m.identity, m.stepsRemoved, if m.portB then 1 else 0]

/-- Lexicographic order. -/
def rankLe : List Nat → List Nat → Bool
  | a :: as, b :: bs => if a < b then true else if b < a then false else rankLe as bs
  | _, _ => true

/-- The best of the masters heard. -/
def bestMaster : List AnnounceMsg → Option AnnounceMsg
  | [] => none
  | m :: ms => match bestMaster ms with
    | some b => if rankLe (rankOf m) (rankOf b) then some m else some b
    | none => some m

/-- The best master clock algorithm has run. DEDUCED: the record of a change, which gives the new grandmaster's first offset, is appended
with that offset (R296, R305; log entry 94). -/
def selectMaster (s : State) : State :=
  match bestMaster s.ptp.masters with
  | none => s
  | some b =>
    let s1 := setPtp s (fun p => { p with gm := b.identity, gmKnown := true, viaB := b.portB })
    if s.ptp.gmKnown ∧ b.identity ≠ s.ptp.gm then
      evRaise aPtpEvt 2 (setPtp (gmRecordOpen s1) (fun p => { p with
        gmChange := true, awaitGm := decide (p.st = 3), gmRec := some b.identity, nGm := bump 32 p.nGm 1 }))
    else s1

/-- PTP_ANNOUNCE. -/
def execPtpAnnounce (m : AnnounceMsg) (s : State) : Host.Outcome State Fault Refusal :=
  .next (if s.ptp.st ≠ 0 ∧ (m.portB = false ∨ s.ptp.portB ≠ 255) then
      selectMaster (setPtp s (fun p => { p with
        masters := p.masters.filter (fun x => decide (x.identity ≠ m.identity) || x.portB != m.portB) ++ [m] }))
    else s)

/-- ANNOUNCE_TIMEOUT: the selected master is no longer heard. -/
def execAnnounceTimeout (s : State) : Host.Outcome State Fault Refusal :=
  .next (if s.ptp.st ≠ 0 then
      selectMaster (freeRun 4 (setPtp s (fun p => { p with
        masters := p.masters.filter (fun x => decide (x.identity ≠ p.gm) || x.portB != p.viaB) })))
    else s)

/-- SYNC_TIMEOUT. -/
def execSyncTimeout (s : State) : Host.Outcome State Fault Refusal :=
  .next (if s.ptp.st ≠ 0 then freeRun 3 (setPtp s (fun p => { p with nSyncTmo := bump 32 p.nSyncTmo 1 })) else s)

/-! ## The servo (R293, R294) -/

/-- Device time is stepped to the master's: the step is less the offset. -/
def stepTime (ofs : Int) (s : State) : State :=
  let st := unsigned 64 (-ofs)
  let s1 := evRaise aPtpEvt 1 (setPtp s (fun p => { p with
    dt := ((p.dt : Int) - ofs).toNat, valid := true, stepArmed := false, nStep := bump 32 p.nStep 1 }))
  ptpGo 2 2 (ledger 0x0503 2 (st % 2 ^ 32) (st / 2 ^ 32) (ptpPort s) s1)

/-- An offset accepted in ACQUIRING: the eighth in a row within LOCK_WIN locks. -/
def acquire (near : Bool) (s : State) : State :=
  if !near then setPtp s (fun q => { q with inWin := 0 })
  else if s.ptp.inWin = 7 then ptpGo 3 0 s
  else setPtp s (fun q => { q with inWin := q.inWin + 1 })

/-- An offset is accepted: what it does to the state. -/
def offsetState (ofs : Int) (s : State) : State :=
  let p := s.ptp
  let near := decide (ofs.natAbs ≤ p.lockWin)
  if p.stepArmed then (if p.st = 2 then acquire near (stepTime ofs s) else stepTime ofs s)
  else match p.st with
    | 1 => ptpGo 2 1 s
    | 2 => acquire near s
    | 3 =>
      if p.awaitGm then (if near then setPtp s (fun q => { q with awaitGm := false }) else ptpGo 2 1 s)
      else if (p.lockWin : Int) * p.last8.length < sumI p.last8 then ptpGo 2 1 s else s
    | 4 => if near then ptpGo 3 0 s else ptpGo 2 1 s
    | _ => s

/-- A value within plus and minus a limit. -/
def within (lim v : Int) : Int := max (-lim) (min lim v)

/-- An offset is accepted. The gains of the loop at each bandwidth are given nowhere: its terms are free values of the bandwidth code, the
phase term within SLEW_LIM and their sum within 500 ppm, and so is its prediction (R288, R293). A step applies no rate change (R294). -/
def acceptOffset (ofs : Int) (s0 : State) : State :=
  let s := gmRecord (s32 (satS 32 ofs)) s0
  let p := s.ptp
  let freq := if p.stepArmed then p.freq else Config.freeEntry p.bw s.freeCtr
  let phase := if p.stepArmed then p.phase else within (p.slewLim * 100) (Config.freeEntry (4 + p.bw) s.freeCtr)
  let rho := if p.stepArmed then p.rho else within 50000000 (freq + phase)
  offsetState ofs (setPtp (draw s) (fun p => { p with
    nSync := bump 32 p.nSync 1, lastOfs := ofs, outliersRow := 0, needFirst := false, predict := Config.freeInt (s.freeCtr + 1),
    freq := freq, phase := phase, rho := rho, rhoHist := (rho :: p.rhoHist).take 8, last8 := ((ofs.natAbs : Int) :: p.last8).take 8 }))

/-- PTP_SYNC: the asymmetry of the port applies to the offset (R290). -/
def syncOp (m : SyncMsg) (s : State) : State :=
  let p := s.ptp
  let ofs := m.t2 - m.t1 - p.meanDelay - (if m.portB then p.asymB else p.asymA)
  let s1 := setPtp s (fun p => { p with lastSync := some (m.t1, m.t2) })
  if p.delays.isEmpty then s1
  else if !p.needFirst && decide (p.outliersRow < 8) && decide ((p.outlier : Int) < (ofs - p.predict).natAbs) then
    setPtp s1 (fun q => { q with nOutlier := bump 32 q.nOutlier 1, outliersRow := q.outliersRow + 1 })
  else acceptOffset ofs (draw s1)
def execPtpSync (m : SyncMsg) (s : State) : Host.Outcome State Fault Refusal :=
  .next (if s.ptp.st ≠ 0 ∧ s.ptp.masters.isEmpty = false ∧ m.master = s.ptp.gm ∧ m.portB = s.ptp.viaB then syncOp m s else s)

/-- PTP_DELAY_RESP to the Delay_Req `seqId`, whose inserted stamp is t3: the mean path delay of the exchange, and its mean over the last 16
(R293). -/
def execPtpDelayResp (seqId : Nat) (t4 correction : Int) (s : State) : Host.Outcome State Fault Refusal :=
  .next (match s.ptp.lastSync, s.ptp.sent with
    | some (t1, t2), some (q, t3) => if s.ptp.st = 0 ∨ q ≠ seqId then s
        else setPtp s (fun p =>
          let ds := (((t2 - t1) + (t4 - t3) - correction) / 2 :: p.delays).take 16
          { p with delays := ds, meanDelay := meanI ds, sent := none })
    | _, _ => s)

/-- A Delay_Req message; identity and the master's unicast addresses are not given by the spec and stay free. -/
def delayReq (s : State) (seqId : Nat) : List Byte :=
  let f := fun (k n : Nat) => (List.range n).map (fun i => Config.freeByte (s.freeCtr + k) i)
  beBytes 1 1 ++ beBytes 1 2 ++ beBytes 2 44 ++ beBytes 1 s.ptp.domain ++ zeros 1 ++ f 0 2 ++ zeros 8 ++ zeros 4 ++ f 1 10 ++ beBytes 2 seqId ++
    beBytes 1 1 ++ beBytes 1 127 ++ zeros 10

/-- PTP_DELAY_REQ_SEND. -/
def execPtpDelayReqSend (seqId : Nat) (flag : Bool) (s : State) : Host.Outcome State Fault Refusal :=
  let n := ptpPort s
  let w := Config.freeWord (s.freeCtr + 2)
  let v := Config.freeWord (s.freeCtr + 3)
  let dst := if s.ptp.hybrid then w.toNat else 0xE0000181
  let mac := if s.ptp.hybrid then v.toNat + Word.bits (Config.freeWord (s.freeCtr + 4)) 15 0 * 2 ^ 32 else 0x01005E000181
  .next (if s.ptp.st ≠ 0 ∧ s.ptp.masters.isEmpty = false ∧ n < 4 then
      queueTx n { cls := 0, stream := 0, seqId := seqId % 65536, report := flag, domain := s.ptp.domain,
                  bytes := udpFrame s n mac dst (portAt s n).ptpPcp (portAt s n).ptpDscp 319 319 (delayReq s seqId) }
        { s with freeCtr := s.freeCtr + 5 }
    else s)

/-! ## PTP_CFG, PTP_CTL, PTP_STATUS (R289, R299, R301) -/

/-- PTP is enabled. -/
def ptpEnable (s : State) : State :=
  if s.ptp.st = 0 then
    ptpGo 1 0 (setPtp s (fun p => { p with stepArmed := true, needFirst := true, delays := [], meanDelay := 0, lastSync := none, masters := [],
                                           last8 := [], rhoHist := [], outliersRow := 0, gm := 0, gmKnown := false, sent := none }))
  else s

/-- PTP is disabled: device time is not valid, and PPS_OUT is low (R295, R297); the cause in the record of leaving LOCKED is a free value. -/
def ptpDisable (s0 : State) : State :=
  let s := gmRecordOpen s0
  setPtp (ptpGo 0 (Config.freeWord s.freeCtr).toNat (draw s)) (fun p => { p with
    valid := false, masters := [], gm := 0, gmKnown := false, pinHigh := p.pinHigh.filter (fun q => decide (q ≠ 4)) })

/-- PTP_CFG. -/
def execPtpCfg (d : Desc) (s : State) : Host.Outcome State Fault Refusal :=
  let f := pl d 4 1
  let iv := plS d 5 1
  .next (checked d [(0, 9), (12, 20)] [(0, decide (pl d 0 1 ≤ 1)), (1, decide (pl d 1 1 ≤ 3)),
      (2, decide (pl d 2 1 = 255) || (decide (pl d 2 1 ≤ 3) && decide (pl d 2 1 ≠ pl d 1 1))), (4, decide (f ≤ 7)),
      (5, decide (-7 ≤ iv) && decide (iv ≤ 1)), (6, decide (2 ≤ pl d 6 1) && decide (pl d 6 1 ≤ 10)),
      (7, decide (2 ≤ pl d 7 1) && decide (pl d 7 1 ≤ 16)), (8, decide (pl d 8 1 ≤ 3)),
      (12, decide (100 ≤ pl d 12 4) && decide (pl d 12 4 ≤ 1000000)), (16, decide (1 ≤ pl d 16 4) && decide (pl d 16 4 ≤ 100000)),
      (20, decide (100 ≤ pl d 20 4) && decide (pl d 20 4 ≤ 1000000))] s
    (let s1 := setPtp s (fun p => { p with
       enabled := plBit d 4 0, profile := pl d 0 1, portA := pl d 1 1, portB := pl d 2 1, domain := pl d 3 1, ppsEn := plBit d 4 1,
       hybrid := plBit d 4 2, delayIv := iv, annTmo := pl d 6 1, syncTmo := pl d 7 1, bw := pl d 8 1, lockWin := pl d 12 4,
       slewLim := pl d 16 4, outlier := pl d 20 4, asymA := plS d 24 4, asymB := plS d 28 4 })
     finish d stOk (if plBit d 4 0 then ptpEnable s1 else if s.ptp.st = 0 then s1 else ptpDisable s1)))

/-- PTP_CTL: its two bits. -/
def ptpCtl (d : Desc) (s : State) : State :=
  checked d [(0, 1)] [(0, decide (pl d 0 1 ≤ 3))] s
    (finish d stOk (setPtp s (fun p => { p with stepArmed := p.stepArmed || plBit d 0 0, gmChange := p.gmChange && !plBit d 0 1 })))
def execPtpStepArm (d : Desc) (s : State) : Host.Outcome State Fault Refusal := .next (ptpCtl d s)
def execPtpClearGmChange (d : Desc) (s : State) : Host.Outcome State Fault Refusal := .next (ptpCtl d s)

/-- The 64 bytes. -/
def ptpRecord (s : State) : List Byte :=
  let p := s.ptp
  let b := fun (x : Bool) (k : Nat) => if x then 2 ^ k else 0
  leBytes 1 p.st ++ leBytes 1 (b p.valid 0 + b p.gmChange 1 + b p.stepArmed 2 + b p.viaB 3) ++ zeros 2 ++ leBytes 8 p.gm ++
    leInt 4 (satS 32 p.lastOfs) ++ leInt 4 (satS 32 p.meanDelay) ++ leInt 4 p.rho ++
    words32 [p.nSync, p.nOutlier, p.nSyncTmo, p.nStep, p.nGm, p.qovf] ++ zeros 16

/-- PTP_STATUS. -/
def execPtpStatus (d : Desc) (s : State) : Host.Outcome State Fault Refusal :=
  .next (checked d [(0, 9)] [(8, decide (pl d 8 1 ≤ 1))] s
    (let t := hostWrite (pl d 0 8) (ptpRecord s) s
     finish d stOk (if plBit d 8 0 then setPtp t (fun p => { p with nSync := 0, nOutlier := 0, nSyncTmo := 0, nStep := 0, nGm := 0, qovf := 0 }) else t)))

/-! ## Triggers (R297) -/

/-- A pin's level: its idle level is low unless its action falls first. Pins 0 to 3 are TTRIG, 4 is PPS_OUT. -/
def setPin (p : Nat) (high : Bool) (s : State) : State :=
  setPtp s (fun x => { x with pinHigh := if high then (if p ∈ x.pinHigh then x.pinHigh else x.pinHigh ++ [p]) else x.pinHigh.filter (fun q => decide (q ≠ p)) })

/-- A pin's armed action goes; one that is still keyed to come completes FLUSHED. -/
def dropTrig (p : Nat) (s : State) : State :=
  match smFind s.ptp.trig p with
  | some t =>
    let s1 := setPtp s (fun x => { x with trig := smDrop x.trig p })
    if t.mode = 0 ∧ beforeH s ((t.n : Int) - 2) then report t.tok stFlushed 0 0 s1 else s1
  | none => s

/-- A pin's action is armed. A device-time action completes at once; one keyed to a tranche at its deadline. -/
def armTrig (d : Desc) (n : Nat) (s : State) : State :=
  let p := pl d 0 1
  let mode := pl d 1 1
  let t : Trig := { tok := d.tok, mode := mode, pol := plBit d 2 1, n := n, time := pl d 8 6 * 1000000000 + pl d 16 4, period := pl d 20 4,
                    width := pl d 24 4 }
  let s1 := dropTrig p s
  let s2 := setPin p t.pol (setPtp s1 (fun x => { x with trig := smPut x.trig p t }))
  if mode = 0 then s2 else finish d stOk s2

/-- TIME_TRIG disarms its target. -/
def disarmTrig (target : Nat) (s : State) : State :=
  match target with
  | 16 =>
    match s.lau.stim.armed with
    | some (_, _, tok) => reportAll stFlushed [tok] (setLau s (fun l => { l with stim := { l.stim with armed := none } }))
    | none => s
  | 17 =>
    match s.lau.cap.armed with
    | some (_, tok) => reportAll stFlushed [tok] (setLau s (fun l => { l with cap := { l.cap with armed := none } }))
    | none => s
  | p => dropTrig p s

/-- The limits of a TIME_TRIG that arms. -/
def trigLimits (d : Desc) : List (Nat × Bool) :=
  let pin := decide (pl d 0 1 ≤ 3)
  let mode := pl d 1 1
  let w := pl d 24 4
  let per := pl d 20 4
  [(0, pin || decide (pl d 0 1 = 16) || decide (pl d 0 1 = 17)), (1, decide (mode ≤ 2) && (pin || decide (mode = 0))),
   (2, decide (pl d 2 1 ≤ 3)), (14, decide (mode = 0) || decide (pl d 14 2 = 0)),
   (16, if mode = 0 then decide (pl d 16 4 = 0) else decide (pl d 16 4 < 1000000000)),
   (20, if mode = 2 then decide (1000 ≤ per) && decide (per ≤ 4000000000) else decide (per = 0)),
   (24, if pin then decide (10 ≤ w) && (decide (mode ≠ 2) || decide (2 * w ≤ per)) else decide (w = 0))]

/-- TIME_TRIG. -/
def execTimeTrig (d : Desc) (s : State) : Host.Outcome State Fault Refusal :=
  let target := pl d 0 1
  let mode := pl d 1 1
  let n := if plBit d 2 0 then leastBefore s 2 else pl d 8 8
  .next (if plBit d 2 2 then
      checked d [(0, 28)] [(0, decide (target ≤ 3) || decide (target = 16) || decide (target = 17)), (2, decide (pl d 2 1 ≤ 7))] s
        (finish d stOk (disarmTrig target s))
    else checked d [(0, 3), (8, 20)] (trigLimits d) s
      (if target = 16 then stimulusArm d n false s
       else if target = 17 then captureArm d n s
       else if mode = 0 then (if beforeH s ((n : Int) - 2) then armTrig d n s else finish d stLate s)
       else if s.ptp.valid && decide (pl d 8 6 * 1000000000 + pl d 16 4 < s.ptp.dt + 10000) then finish d stLate s
       else armTrig d 0 s))

/-- Pin actions keyed to a tranche are committed at H_(N-2) (R297, R323). -/
def trigBoundary (k : Nat) : SMap Trig → State → State
  | [], s => s
  | (_, t) :: ts, s => trigBoundary k ts (if t.mode = 0 ∧ t.n = k + 2 then report t.tok stOk 0 0 s else s)

/-- TRIG_FIRE: the first edge; periodic actions stay armed. -/
def execTrigFire (p : Nat) (s : State) : Host.Outcome State Fault Refusal :=
  .next (match smFind s.ptp.trig p with
    | none => s
    | some t =>
      if t.mode = 0 then (if t.n ≤ s.clk.tidx + 1 ∧ s.clk.tidxValid then setPin p (!t.pol) (setPtp s (fun x => { x with trig := smDrop x.trig p })) else s)
      else if s.ptp.valid then
        let s1 := setPtp s (fun x => { x with trig := if t.mode = 2 then smPut x.trig p { t with time := t.time + t.period } else smDrop x.trig p })
        setPin p (!t.pol) s1
      else s)

/-- TRIG_PULSE_END: the pin returns to the other level. -/
def execTrigPulseEnd (p : Nat) (s : State) : Host.Outcome State Fault Refusal :=
  .next (if p = 4 then setPin 4 false s else if p < 4 then setPin p (!decide (p ∈ s.ptp.pinHigh)) s else s)

/-- PPS_OUT_PULSE. -/
def execPpsOutPulse (s : State) : Host.Outcome State Fault Refusal := .next (if s.ptp.ppsEn && s.ptp.valid then setPin 4 true s else s)

/-! ## Captures (R298) -/

/-- TIME_CAP_CFG. -/
def execTimeCapCfg (d : Desc) (s : State) : Host.Outcome State Fault Refusal :=
  .next (checked d [(0, 2)] [(0, decide (pl d 0 1 ≤ 15))] s
    (finish d stOk (setPtp s (fun p => { p with tcapMask := pl d 0 1, tcapEdges := pl d 1 1 }))))

/-- TCAP_EDGE: `cycle` is the core cycle within the period. -/
def execTcapEdge (pin : Nat) (rising : Bool) (cycle : Nat) (s : State) : Host.Outcome State Fault Refusal :=
  let want := s.ptp.tcapEdges / 4 ^ pin % 4
  let e := if rising then 1 else 2
  .next (if pin < 4 ∧ s.ptp.tcapMask / 2 ^ pin % 2 = 1 ∧ want / e % 2 = 1 then
      (if 64 ≤ s.ptp.tcapQ.length then queueOverflow 4 s
       else evRaise aPtpEvt 3 (setPtp s (fun p => { p with
         tcapQ := p.tcapQ ++ [{ pin := pin, edge := e, time := p.dt, tidx := tidxLow s, cycle := cycle }] })))
    else s)

/-- A capture as 24 bytes; `top`: bit 31 of the first word. -/
def capRecord (top : Bool) (c : TCap) : List Byte :=
  leBytes 1 c.pin ++ leBytes 1 c.edge ++ leBytes 2 (if top then 32768 else 0) ++ leBytes 6 (c.time / 1000000000) ++ zeros 2 ++
    leBytes 4 (c.time % 1000000000) ++ leBytes 4 c.tidx ++ leBytes 4 c.cycle

/-- TIME_CAP_READ. -/
def execTimeCapRead (d : Desc) (s : State) : Host.Outcome State Fault Refusal :=
  let n := pl d 8 1
  .next (checked d [(0, 9)] [(8, decide (1 ≤ n) && decide (n ≤ 64))] s
    (let es := s.ptp.tcapQ.take n
     finish d stOk (hostWrite (pl d 0 8) (leBytes 4 es.length ++ zeros 4 ++ es.flatMap (capRecord false))
       (setPtp s (fun p => { p with tcapQ := p.tcapQ.drop n })))))

/-! ## Reads that pop or latch (R304, R518) -/

/-- Later words of a popped record, kept until the next pop. -/
def latchWords (a : Nat) : List Nat → State → State
  | [], s => s
  | w :: ws, s => latchWords (a + 4) ws (latch s a (BitVec.ofNat 32 w))

/-- PTP_RPT_POP. -/
def rptPopOp (n : Nat) (s : State) : State :=
  let a := 0x00500100 + 0x10 * n
  match smGet [] s.ptp.rpt n with
  | r :: rs =>
    let s1 := setPtp s (fun p => { p with rpt := smSet [] p.rpt n rs })
    { latchWords (a + 4) [r.seqId, r.time % 1000000000, r.time / 1000000000] s1 with
      rdata := [BitVec.ofNat 32 (2 ^ 31 + r.msgType % 256 * 256 + r.domain % 256)] }
  | [] => { s with rdata := [0] }
def execPtpRptPop (n : Nat) (be : BitVec 4) (s : State) : Host.Outcome State Fault Refusal := .next (narrow be (rptPopOp n s))

/-- PTP_TCAP_POP. -/
def tcapPopOp (s : State) : State :=
  match s.ptp.tcapQ with
  | c :: cs =>
    let ws := (chunks 4 6 (capRecord true c)).map leNat
    { latchWords 0x00500144 (ws.drop 1) (setPtp s (fun p => { p with tcapQ := cs })) with rdata := [BitVec.ofNat 32 (ws.getD 0 0)] }
  | [] => { s with rdata := [0] }
def execPtpTcapPop (be : BitVec 4) (s : State) : Host.Outcome State Fault Refusal := .next (narrow be (tcapPopOp s))

/-- PTP_TIME_READ. -/
def timeReadOp (s : State) : State :=
  let sec := s.ptp.dt / 1000000000
  { latchWords 0x00500020 [sec, sec / 2 ^ 32 % 65536] s with rdata := [BitVec.ofNat 32 (s.ptp.dt % 1000000000)] }
def execPtpTimeRead (be : BitVec 4) (s : State) : Host.Outcome State Fault Refusal := .next (narrow be (timeReadOp s))

/-- `PTP_STAT` (R303). -/
def ptpStat (s : State) : Nat :=
  let p := s.ptp
  let b := fun (x : Bool) (k : Nat) => if x then 2 ^ k else 0
  b p.stepArmed 6 + b p.gmChange 5 + b p.valid 4 + p.st

end Sys2Proof.Machine
end

