-- ==== Sys2Proof/Machine/Owner.lean ====
section
/-! DEFINITION. What becomes of an operation's effect when its owner withdraws it or the abort engine ends it, and the owners' reports
(R323 to R325, R360), and the halt of user
cores (R364). -/

namespace Sys2Proof.Machine

/-! ## Withdrawing an effect (R324) -/

/-- An armed start, stop or restart of an operation, and its armed swap, are withdrawn while their deadlines have not come. -/
def withdrawArmed (tok : Nat) (s : State) : State :=
  match s.sch.armed with
  | some a =>
    if a.tok = tok ∧ armedPending s a then
      match a.kind with
      | 1 => setRender 0 (setSch s (fun h => { h with armed := none }))
      | 3 => setRender a.origin (setSch s (fun h => { h with armed := none, stopN := none }))
      | _ => setSch s (fun h => { h with armed := none })
    else s
  | none => s
def withdrawSwap (tok : Nat) (s : State) : State :=
  match s.sch.swap with
  | some w => if w.tok = tok ∧ swapPending s w then setSch s (fun h => { h with swap := none }) else s
  | none => s

/-- Starts of captures and stimuli, and pin actions keyed to a tranche. -/
def withdrawStarts (tok : Nat) (s : State) : State :=
  let s1 := if s.lau.cap.armed.any (fun a => decide (a.2 = some tok)) then setLau s (fun l => { l with cap := { l.cap with armed := none } }) else s
  let s2 := if s1.lau.stim.armed.any (fun a => decide (a.2.2 = some tok)) then
    setLau s1 (fun l => { l with stim := { l.stim with armed := none } }) else s1
  setPtp s2 (fun p => { p with trig := p.trig.filter (fun e => !(decide (e.2.mode = 0) && decide (e.2.tok = tok))) })

/-- A sinc table that an aborted operation loaded for a switch becomes undefined (R124, R324). -/
def voidLoaded (tok : Nat) (s : State) : State :=
  if s.keyed.any (fun k => decide (k.tok = some tok) && decide (k.act = .ktblSwitch true)) then voidInactive s else s

/-- The keyed actions that an operation has armed are disarmed; a sinc table loaded for a switch that is withdrawn becomes undefined
(R124, R324). -/
def withdrawKeyed (tok : Nat) (s : State) : State :=
  let s0 := voidLoaded tok s
  let s1 := { s0 with keyed := s0.keyed.filter (fun k => decide (k.tok ≠ some tok)) }
  let s2 := setCor s1 (fun c => { c with xfs := c.xfs.filter (fun x => decide (x.tok ≠ some tok)) })
  let s3 := setFab s2 (fun b => { b with armed := b.armed.filter (fun a => decide (a.2 ≠ tok)) })
  let s4 := setDpx s3 (fun d => { d with armedN := d.armedN.filter (fun a => decide (a.2 ≠ tok)) })
  withdrawStarts tok (withdrawSwap tok (withdrawArmed tok s4))

/-- A load of the shadow store is given up: what lies there is undefined, a free value, and it is not valid. -/
def withdrawLoad (tok : Nat) (s : State) : State :=
  if s.sch.loading = some tok then
    setSch (draw s) (fun h => { h with
      loading := none, shadow := trimZeros ((List.range h.shadow.length).map (Config.freeByte s.freeCtr)) })
  else s

/-- What else an operation has under way stops: loads, a rate change, a waiting CLK_SELECT, a request into the fabric. -/
def withdrawRest (tok : Nat) (s : State) : State :=
  let s1 := (s.cor.loading.filter (fun x => decide (x.tok = tok))).foldl (fun t x => dropStage x t) (withdrawLoad tok s)
  let s2 := setClk s1 (fun c => { c with
    rateReq := c.rateReq.filter (fun r => decide (r.tok ≠ tok)), pendSel := c.pendSel.filter (fun x => decide (x.1 ≠ tok)) })
  setFab s2 (fun b => { b with disc := b.disc.filter (fun r => decide (r.tok ≠ tok)), remote := b.remote.filter (fun r => decide (r.tok ≠ tok)) })

/-- An owner withdraws an operation's effect. -/
def withdrawTok (tok : Nat) (s : State) : State := withdrawRest tok (withdrawKeyed tok s)

/-! ## The rows (R324, R360) -/

/-- CPL_COMMIT. -/
def execCplCommit (c : Nat) (cmd : Word) (s : State) : Host.Outcome State Fault Refusal := .next (cplReport withdrawTok c cmd s)

/-- CPL_COMPLETE. -/
def execCplComplete (c : Nat) (cmd : Word) (s : State) : Host.Outcome State Fault Refusal := .next (cplReport withdrawTok c cmd s)

/-- CPL_WITHDRAW. -/
def execCplWithdraw (c : Nat) (cmd : Word) (s : State) : Host.Outcome State Fault Refusal := .next (cplReport withdrawTok c cmd s)

/-- An operation has ended UNCERTAIN: whether its armed keyed actions stay armed is a free choice. -/
def leaveKeyed (tok : Nat) (s : State) : State :=
  if Config.freeBool s.freeCtr then voidLoaded tok (draw s) else withdrawKeyed tok (draw s)

/-- The abort engine ends an operation that has a notice and no answer; but for its armed keyed actions, nothing of it applies any more. -/
def ownerSilent (tok : Nat) (s0 : State) : State :=
  let s := commitOutcomes s0
  match findOp s tok with
  | some o => if o.notice ∧ o.st = .started then leaveKeyed tok (withdrawRest tok (abortGiveUp tok s)) else s
  | none => s

/-- ABORT_OWNER_TIMEOUT. -/
def execAbortOwnerTimeout (tok : Nat) (s : State) : Host.Outcome State Fault Refusal := .next (ownerSilent tok s)

/-! ## The halt of user cores (R345, R364) -/

/-- A held item is freed at a halt; a host operation that it carries ends as an UNCERTAIN abort, with what it had under way (R324, R364). -/
def loseItem (slot : Nat) (i : Item) (s0 : State) : State :=
  let s := commitOutcomes s0
  let s1 := freeSlotOf slot { s with stw := { s.stw with itemLost := bump 32 s.stw.itemLost 1 } }
  match (if i.kind = 1 then findOp s1 (i.param % 1024) else none) with
  | some o => if o.st = .committed then endUncertain o s1 else leaveKeyed o.tok (withdrawRest o.tok (endUncertain o s1))
  | none => s1

/-- Frees every held item of a list. -/
def loseItems : List (Nat × Item) → State → State
  | [], s => s
  | e :: es, s => loseItems es (loseItem e.1 e.2 s)

/-- The cores halt (R364). -/
def haltCores (cores : List Nat) (s : State) : State :=
  let lost := cores.flatMap (heldItems s)
  let s1 := loseItems lost s
  let s2 := cores.foldl (fun t c => setCore t c { core t c with run := .halted, waiting := none }) s1
  let s3 := resetMasters [2] { s2 with mtx := { s2.mtx with
    held := s2.mtx.held.filter (fun h => !(decide (h.txn.master = 2) && decide (h.txn.id ∈ cores))) } }
  if lost.isEmpty then s3
  else ledger 0x0E06 3 (cores.foldl (fun m n => m + 2 ^ n) 0) lost.length 0 (evRaise aDspEvt 5 s3)

/-- FW_STOP_HALT (R345, R364): the oldest stop halts its cores and completes, after starting the image where it was asked. -/
def execFwStopHalt (s : State) : Host.Outcome State Fault Refusal :=
  .next (match s.stw.stops with
    | j :: js =>
      let s1 := haltCores j.cores { s with stw := { s.stw with stops := js } }
      let s2 := if j.start then startUser j.cores s1 else s1
      report j.tok stOk 0 0 (if userUp s2 then s2 else { s2 with stw := { s2.stw with userVer := 0 } })
    | [] => s)

/-! ## The heartbeat (R235, R362) -/

/-- A core's heartbeat. The core was in its loop: completions of remote operations that are due go back (R235). -/
def heartbeatTurn (c : Nat) (s : State) : State :=
  let s1 := heartbeatOp c s
  remoteReturns s1.fab.remoteRun s1

/-- HEARTBEAT. -/
def execHeartbeat (c : Nat) (s : State) : Host.Outcome State Fault Refusal := .next (heartbeatTurn c s)

end Sys2Proof.Machine
end

