-- ==== Sys2Proof/Machine/Irq.lean ====
section
/-! DEFINITION. The interrupt controller: selection, delivery, claims and completions (R369 to R378). -/

namespace Sys2Proof.Machine

/-- A source's priority and target (R371, `IRQ_SRC_s`), a target's threshold, a source's mask bit. -/
def irqPrio (s : State) (src : Nat) : Nat := Word.bits (getReg s (aIrqSrc src)) 3 0
def irqTarget (s : State) (src : Nat) : Nat := Word.bits (getReg s (aIrqSrc src)) 22 16
def irqThr (s : State) (t : Nat) : Nat := Word.bits (getReg s (aIrqTgt t)) 3 0
def irqMasked (s : State) (src : Nat) : Bool := Word.bit (getReg s (aIrqMask (src / 32))) (src % 32)

/-- RUN: the highest priority among the sources in service at a target (R371). -/
def irqRun (s : State) (t : Nat) : Nat :=
  (s.irq.inSvc.filter (fun e => decide (e.2 = t))).foldl (fun m e => max m (irqPrio s e.1)) 0

/-- The source is in service somewhere, or held in a claim doorbell (R372). -/
def irqHeld (s : State) (src : Nat) : Bool :=
  s.irq.inSvc.any (fun e => decide (e.1 = src)) || s.irq.bell.any (fun e => decide (e.2 = src))

/-- The sources that some target could be given now, but for its threshold and running level (R372). -/
def irqCandidates (s : State) : List Nat :=
  (List.range 256).filter (fun n => irqLevel s n && !irqMasked s n && !irqHeld s n && decide (irqPrio s n ≠ 0))

/-- The source is deliverable at its target `t` (R372). -/
def deliverable (s : State) (t src : Nat) : Bool :=
  decide (irqTarget s src = t) && decide (irqThr s t < irqPrio s src) && decide (irqRun s t < irqPrio s src)

/-- The target can take a delivery: a core with an empty doorbell, the host with a free event-ring entry (R372). -/
def canTake (s : State) (t : Nat) : Bool :=
  if t < 16 then (smFind s.irq.bell t).isNone
  else s.hif.evr.enabled && !s.hif.evr.err && !ringFull s.hif.evr.tail s.hif.evr.head (evrSize s)

/-- The deliverable source of highest priority, the lowest number among equals (R372). -/
def bestSource (s : State) (t : Nat) : List Nat → Option Nat
  | [] => none
  | n :: ns => match bestSource s t ns with
    | some b => if deliverable s t n && decide (irqPrio s b ≤ irqPrio s n) then some n else some b
    | none => if deliverable s t n then some n else none

/-- The first target of a list, in rotation, that takes a delivery (R372). -/
def pickTarget (s : State) (cs : List Nat) : List Nat → Option (Nat × Nat)
  | [] => none
  | t :: ts => match if canTake s t then bestSource s t cs else none with
    | some n => some (t, n)
    | none => pickTarget s cs ts

/-- The targets in rotation, starting after the one last served (R372). -/
def rotation (s : State) : List Nat := (List.range 80).map (fun i => (s.irq.rot + 1 + i) % 80)

/-- The 16-byte event record of a source (R330). -/
def eventRecord (s : State) (src : Nat) : List Byte :=
  leBytes 1 src ++ leBytes 1 ((if s.ptp.valid then 1 else 0) + (if s.hif.evr.phase then 128 else 0)) ++
  leBytes 6 s.clk.tidx ++ leBytes 4 (s.ptp.dt % 1000000000) ++ leBytes 4 (s.ptp.dt / 1000000000)

/-- Delivery to a core writes its claim doorbell, which ends a stalled get-work (R351, R373). -/
def deliverCore (t src : Nat) (s : State) : State :=
  let s1 := { s with irq := { s.irq with bell := smPut s.irq.bell t src } }
  if (core s1 t).waiting.isSome then nullHandle t 2 s1 else s1

/-- Delivery to a host target writes the event record and sends the vector; the source is in service until EVR_HEAD has
passed the record (R330, R374). -/
def deliverHost (t src : Nat) (s : State) : State :=
  let r := s.hif.evr
  let s1 := hostWrite (base64 s aEvrBaseLo + 16 * r.tail) (eventRecord s src) s
  let wrap := decide (r.tail + 1 = evrSize s)
  let r1 := { r with tail := if wrap then 0 else r.tail + 1, phase := if wrap then !r.phase else r.phase,
                     recs := r.recs ++ [(src, t)], holding := false }
  let s2 := { s1 with hif := { s1.hif with evr := r1 }, irq := { s1.irq with inSvc := s1.irq.inSvc ++ [(src, t)] } }
  sendVector (t - 16) (if canHost s then s2 else pmeDue s2)

/-- A full event ring holds back a source: the first of an episode raises EVR_FULL and is counted (R330, R338). -/
def noteEvrFull (cs : List Nat) (s : State) : State :=
  let r := s.hif.evr
  if r.enabled && ringFull r.tail r.head (evrSize s) && !r.holding && cs.any (fun n => decide (16 ≤ irqTarget s n) && deliverable s (irqTarget s n) n) then
    evRaise aHifEvt 3 { s with hif := { s.hif with evr := { r with holding := true, fullCnt := bump 7 r.fullCnt 1 },
                                                    nEvrHold := bump 32 s.hif.nEvrHold 1 } }
  else s

/-- IRQ_DELIVER: one selection (R372 to R375). -/
def execIrqDeliver (s : State) : Host.Outcome State Fault Refusal :=
  let cs := irqCandidates s
  let s0 := noteEvrFull cs s
  .next (match pickTarget s cs (rotation s) with
    | some (t, n) =>
      let s1 := { s0 with irq := { s0.irq with rot := t } }
      if t < 16 then deliverCore t n s1 else deliverHost t n s1
    | none => s0)

/-- IRQ_CLAIM: core n reads `IRQ_CLAIM_n` (R373, R377). -/
def execIrqClaim (n : Nat) (be : BitVec 4) (s : State) : Host.Outcome State Fault Refusal :=
  .next (narrow be (match smFind s.irq.bell n with
    | some src => { s with irq := { s.irq with bell := smDrop s.irq.bell n, inSvc := s.irq.inSvc ++ [(src, n)] },
                           rdata := [BitVec.ofNat 32 (2 ^ 31 + src)] }
    | none => { s with rdata := [0] }))

/-- IRQ_EOI: core n writes `IRQ_EOI_n` (R373, R376, R378). -/
def eoiOp (n : Nat) (v : Word) (s : State) : State :=
  let src := Word.bits v 7 0
  if !writeLegal [fld 7 0 .wo 0] v then s
  else if (src, n) ∈ s.irq.inSvc then { s with irq := { s.irq with inSvc := s.irq.inSvc.erase (src, n) } }
  else ledgerLim 0x0201 2 0 1 (fun c => (n, src, c)) { s with irq := { s.irq with badEoi := bump 16 s.irq.badEoi 1 } }
def execIrqEoi (n : Nat) (v : Word) (s : State) : Host.Outcome State Fault Refusal := .next (eoiOp n v s)

/-- A source's mask bit (R375, R377). -/
def setMask (src : Nat) (on : Bool) (s : State) : State := setField s (aIrqMask (src / 32)) (src % 32) (src % 32) (if on then 1 else 0)

/-- IRQ_MSET and IRQ_MCLR (R375). -/
def msetOp (v : Word) (on : Bool) (s : State) : State :=
  if writeLegal [fld 7 0 .wo 0] v then setMask (Word.bits v 7 0) on s else s
def execIrqMset (v : Word) (s : State) : Host.Outcome State Fault Refusal := .next (msetOp v true s)
def execIrqMclr (v : Word) (s : State) : Host.Outcome State Fault Refusal := .next (msetOp v false s)

/-- IRQ_SWI_SET and IRQ_SWI_CLEAR: levels of the software sources (R377). -/
def swiSetOp (v : Word) (s : State) : State :=
  if writeLegal [fld 15 0 .w1s 0] v then setReg s aIrqSwi (getReg s aIrqSwi ||| v) else s
def swiClearOp (v : Word) (s : State) : State :=
  if writeLegal [fld 15 0 .w1c 0] v then setReg s aIrqSwi (Word.clear (getReg s aIrqSwi) v) else s
def execIrqSwiSet (v : Word) (s : State) : Host.Outcome State Fault Refusal := .next (swiSetOp v s)
def execIrqSwiClear (v : Word) (s : State) : Host.Outcome State Fault Refusal := .next (swiClearOp v s)

/-- IRQ_STAT_READ: returns and clears BAD_EOI (R377). -/
def irqStatReadOp (s : State) : State := { s with rdata := [BitVec.ofNat 32 s.irq.badEoi], irq := { s.irq with badEoi := 0 } }
def execIrqStatRead (be : BitVec 4) (s : State) : Host.Outcome State Fault Refusal := .next (narrow be (irqStatReadOp s))

end Sys2Proof.Machine
end

