-- ==== Sys2Proof/Machine/Ledger.lean ====
section
/-! DEFINITION. The ledger engine: records in flash, journal and reclaim, reading, annotation and clearing (R457 to R468,
R475 to R479). -/

namespace Sys2Proof.Machine

/-! ## Records and slots -/

/-- The 32 bytes of a record (R457). -/
def ledgerRecBytes (r : LRec) : List Byte :=
  let b := leBytes 2 r.code ++ leBytes 1 (r.sev + (if r.host then 8 else 0)) ++ leBytes 1 (r.code / 256) ++ leBytes 6 r.pt ++
    leBytes 4 r.poc ++ leBytes 2 r.seq ++ words32 [r.p1, r.p2, r.p3]
  b ++ leBytes 4 (crc32c b)

/-- A slot as stored; an erased slot is 32 bytes of 0xFF (R460). -/
def slotBytes (g : Lgr) (k : Nat) : List Byte := (smFind g.region k).getD (List.replicate 32 0xFF)

/-- A record whose CRC fails is torn (R460). -/
def isTorn (b : List Byte) : Bool := decide (field b 28 4 ≠ crc32c (b.take 28))

/-- The severity of a stored record; torn records have severity 0 (R462). -/
def storedSev (b : List Byte) : Nat := if isTorn b then 0 else field b 2 1 % 8

/-- The time order of records (R458); torn records are the oldest (R462). -/
def storedAge (b : List Byte) : Nat × Nat × Nat :=
  if isTorn b then (0, 0, 0) else (field b 10 4 + 1, field b 4 6, field b 14 2)

/-- The first record is older. -/
def older (a b : List Byte) : Bool :=
  let x := storedAge a
  let y := storedAge b
  decide (x.1 < y.1) || (decide (x.1 = y.1) && (decide (x.2.1 < y.2.1) || (decide (x.2.1 = y.2.1) && decide (x.2.2 < y.2.2))))

/-- The oldest record of severity at most the lesser of `sev` and 6 (R462). -/
def victimOf (sev : Nat) : SMap (List Byte) → Option (Nat × List Byte)
  | [] => none
  | e :: m => match victimOf sev m with
    | some v => if decide (storedSev e.2 ≤ min sev 6) && !older v.2 e.2 then some e else some v
    | none => if storedSev e.2 ≤ min sev 6 then some e else none

/-- The sectors of 128 slots that were retired are passed over (R464). -/
def skipRetired (retired : List Nat) : Nat → Nat → Nat
  | 0, k => k
  | n + 1, k => if k / 128 ∈ retired then skipRetired retired n ((k / 128 + 1) * 128) else k

/-- The region's capacity in slots (R460). -/
def regionSlots : Nat := 131072

/-- Programs records into consecutive slots (R461). -/
def storeAt : Nat → List LRec → Lgr → Lgr
  | _, [], g => g
  | k, r :: rs, g => storeAt (k + 1) rs { g with region := smPut g.region k (ledgerRecBytes r), newest := some k, next := k + 1 }

/-- After a program the next empty slot passes retired sectors; none left is FULL (R461, R464). -/
def settleNext (g : Lgr) : Lgr :=
  let k := skipRetired g.retired 1024 g.next
  { g with next := k, full := decide (regionSlots ≤ k) }

/-- A free journal slot, from the last one used on, in sectors that are not retired (R460, R462, R464). -/
def freeJournal (g : Lgr) : Option Nat :=
  ((List.range 256).map (fun i => (g.jnext + i) % 256)).find? (fun k =>
    !g.journal.any (fun e => decide (e.slot = k)) && !decide (1024 + k / 128 ∈ g.retired))

/-- Journal records that wait for placement: PENDING (R462). -/
def unplaced (g : Lgr) : List JEnt := g.journal.filter (fun e => !e.placed)

/-- Marks a journal slot's record placed. -/
def markPlaced (g : Lgr) (slot : Nat) : Lgr :=
  { g with journal := g.journal.map (fun e => if e.slot = slot then { e with placed := true } else e) }

/-- A journal sector is erased once all of its records have been placed (R462). -/
def eraseJournal (g : Lgr) : Lgr :=
  let busy := (unplaced g).map (fun e => e.slot / 128)
  { g with journal := g.journal.filter (fun e => decide (e.slot / 128 ∈ busy)) }

/-- The engine programs the records at the head of its queue (R461): those of one 256-byte page together into the region,
or one into the journal when the region is full or a clear is in progress (R468). -/
def programQueue (g : Lgr) : Lgr :=
  if g.full || g.clearing then
    match g.queue with
    | [] => g
    | r :: rs =>
      match freeJournal g with
      | some k => { g with queue := rs, jnext := (k + 1) % 256, journal := g.journal ++ [{ slot := k, record := r, placed := false }] }
      | none => dropRecord { g with queue := rs }
  else
    let n := 8 - g.next % 8
    settleNext (storeAt g.next (g.queue.take n) { g with queue := g.queue.drop n })

/-- The flash sector the engine is programming. -/
def currentSector (g : Lgr) : Nat := if g.full || g.clearing then 1024 + (freeJournal g).getD 0 / 128 else g.next / 128

/-- A failed program is retried once; a sector that fails twice is retired (R464). -/
def retireSector (g : Lgr) : Lgr :=
  if g.retry then
    settleNext { g with retry := false, retired := g.retired ++ [currentSector g] }
  else { g with retry := true }

/-- An erase of a sector ends (R464): one that fails verification is retried once, and the second failure retires the sector. -/
def eraseDone (e : Nat) (ok : Bool) (s : State) : State :=
  let g := s.lgr
  if ok then { s with lgr := { g with eraseRetry := none } }
  else
    let g1 := if g.eraseRetry = some e then
        settleNext { g with eraseRetry := none, retired := if e ∈ g.retired then g.retired else g.retired ++ [e] }
      else { g with eraseRetry := some e }
    ledger 0x1203 4 e 2 g1.retired.length (evIf (g1.full && !g.full) aLgrEvt 2 (evRaise aLgrEvt 0 { s with lgr := g1 }))

/-- The program under way ends (R461, R464), verified or not. -/
def programDone (ok : Bool) (s : State) : State :=
  let g := s.lgr
  if g.queue.isEmpty then s
  else if ok then
    let g1 := programQueue { g with retry := false }
    evIf (g1.full && !g.full) aLgrEvt 2 (evIf (decide (g1.dropped ≠ g.dropped)) aLgrEvt 1 { s with lgr := g1 })
  else
    let g1 := retireSector g
    let s1 := evIf (g1.full && !g.full) aLgrEvt 2 (evRaise aLgrEvt 0 { s with lgr := g1 })
    ledger 0x1203 4 (currentSector g) 1 g1.retired.length s1

/-- FLASH_OP_DONE (R461, R464): the erase of a sector, or the program under way, ends. -/
def execFlashOpDone (erase : Option Nat) (ok : Bool) (s : State) : Host.Outcome State Fault Refusal :=
  .next (if !s.lgr.ready then s
    else match erase with
      | some e => eraseDone e ok s
      | none => programDone ok s)

/-- Places a journal record over its victim, in a sector that is not retired (R464), where the victim lies in sector `sector` (`none`: any); a record for which no
record qualifies is dropped (R462). The result tells the sector. -/
def placeJournal (g : Lgr) (e : JEnt) (sector : Option Nat) : Lgr × Option Nat :=
  match victimOf e.record.sev (g.region.filter (fun v => !decide (v.1 / 128 ∈ g.retired))) with
  | some v =>
    if sector = none ∨ sector = some (v.1 / 128) then
      (markPlaced { g with region := smPut g.region v.1 (ledgerRecBytes e.record), newest := some v.1 } e.slot, some (v.1 / 128))
    else (g, sector)
  | none => (dropRecord (markPlaced g e.slot), sector)

/-- Places the waiting records of a list whose victims lie in the sector of the first one. -/
def placeList : List JEnt → Option Nat → Lgr → Lgr
  | [], _, g => g
  | e :: es, sec, g => placeList es (placeJournal g e sec).2 (placeJournal g e sec).1

/-- One reclaim of a sector (R462); nothing is placed while a clear is in progress (R468). -/
def reclaim (g : Lgr) : Lgr := if g.clearing then g else eraseJournal (placeList (unplaced g) none g)

/-- JOURNAL_PLACE (R462). -/
def execJournalPlace (s : State) : Host.Outcome State Fault Refusal :=
  let g := reclaim s.lgr
  .next (evIf (decide (g.dropped ≠ s.lgr.dropped)) aLgrEvt 1 { s with lgr := g })

/-- CHECKPOINT_SAVE (R459). -/
def execCheckpointSave (s : State) : Host.Outcome State Fault Refusal := .next { s with lgr := saveCkpt s.lgr }

/-- The slot after the newest record of the region, as the scan finds it (R461, R463). -/
def scanNext (g : Lgr) : Lgr :=
  let k := match g.region.getLast? with
    | some e => e.1 + 1
    | none => 0
  settleNext { g with next := k }

/-- Places every waiting journal record, a sector at a time. -/
def reclaimAll : Nat → Lgr → Lgr
  | 0, g => g
  | n + 1, g => if (unplaced g).isEmpty then g else reclaimAll n (reclaim g)

/-- LEDGER_SCAN_DONE (R459, R463, R479): READY is set, the new power-on count saved, and record 0x0001 appended, with the bound on the powered
time lost. -/
def execLedgerScanDone (s : State) : Host.Outcome State Fault Refusal :=
  .next (if s.lgr.ready then s
    else
      let g := saveCkpt (reclaimAll 256 (scanNext s.lgr))
      ledger 0x0001 1 g.poc s.aon.bootSrc g.lossBound { s with lgr := { g with ready := true } })

/-! ## Descriptors (R475, R476) -/

/-- Ledger descriptors are refused before READY and during a clear (R476). -/
def ledgerReady (s : State) : Bool := s.lgr.ready && !s.lgr.clearing

/-- LGR_READ (R475). -/
def execLgrRead (d : Desc) (s : State) : Host.Outcome State Fault Refusal :=
  let first := pl d 8 4
  let count := pl d 12 4
  .next (checked d [(0, 16)] [(8, decide (first < regionSlots)), (12, decide (1 ≤ count) && decide (count ≤ regionSlots))] s
    (if ledgerReady s then
      report d.tok stOk count 0
        (hostWrite (pl d 0 8) ((List.range count).flatMap (fun i => slotBytes s.lgr ((first + i) % regionSlots))) s)
     else finish d stNotPermitted s))

/-- The 64-byte record of LGR_INFO (R475). -/
def lgrInfoRecord (g : Lgr) : List Byte :=
  fit 64 (words32 [g.newest.getD 0xFFFFFFFF, g.region.length, (unplaced g).length, g.dropped, g.clears, g.nonce, g.poc] ++
    leBytes 2 g.seq ++ zeros 2 ++ leBytes 6 g.ptime ++ zeros 2 ++ leBytes 4 g.retired.length)

/-- LGR_INFO (R475). -/
def execLgrInfo (d : Desc) (s : State) : Host.Outcome State Fault Refusal :=
  .next (checked d [(0, 8)] [] s
    (if ledgerReady s then finish d stOk (hostWrite (pl d 0 8) (lgrInfoRecord s.lgr) s) else finish d stNotPermitted s))

/-- LGR_ANNOTATE (R466, R475): the record enters the queue with HOST set; RESULT is its sequence. -/
def execLgrAnnotate (d : Desc) (s : State) : Host.Outcome State Fault Refusal :=
  .next (checked d [(0, 16)] [(0, decide (0x80 ≤ pl d 0 1)), (1, decide (pl d 1 1 ≤ 6))] s
    (if !ledgerReady s then finish d stNotPermitted s
     else if 64 ≤ s.lgr.queue.length then finish d stNoResource s
     else report d.tok stOk s.lgr.seq 0 (ledgerBy (0x1200 + pl d 0 1) (pl d 1 1) true (pl d 4 4) (pl d 8 4) (pl d 12 4) s)))

/-- LGR_NONCE (R467, R475). -/
def execLgrNonce (d : Desc) (s : State) : Host.Outcome State Fault Refusal :=
  .next (checked d [] [] s (if ledgerReady s then report d.tok stOk s.lgr.nonce 0 s else finish d stNotPermitted s))

/-- The clear token for a nonce: the first 8 bytes of HMAC-SHA-256 under the customer ledger key (R467). -/
def clearToken (nonce : Nat) : List Byte :=
  (hmacSha256 (leBytes 32 Config.ledgerKey.toNat) (leBytes 8 Config.deviceId.toNat ++ leBytes 4 nonce)).take 8

/-- A verified clear (R468): everything is discarded, record 0x1201 is in slot 0, and the erasure goes on. -/
def clearLedger (tok : Nat) (g : Lgr) : Lgr :=
  let r := mkRec g 0x1201 7 false g.region.length g.dropped (g.clears + 1)
  saveCkpt { g with queue := [], journal := [], region := [(0, ledgerRecBytes r)], newest := some 0, next := 1, full := false,
                    seq := (g.seq + 1) % 65536, dropped := 0, clears := bump 32 g.clears 1, clearing := true, clearTok := some tok }

/-- LGR_CLEAR (R467, R468, R476). -/
def execLgrClear (d : Desc) (s : State) : Host.Outcome State Fault Refusal :=
  .next (checked d [(0, 8)] [] s
    (if !ledgerReady s || !Config.ledgerKeyPresent then finish d stNotPermitted s
     else
      let used := s.lgr.nonce
      let g := saveCkpt { s.lgr with nonce := (used + 1) % 2 ^ 32 }
      if d.payload.take 8 = clearToken used then { s with lgr := clearLedger d.tok g }
      else finish d stIntegrity (ledger 0x1202 4 used 0 0 (evRaise aLgrEvt 4 { s with lgr := g }))))

/-- LGR_CLEAR_DONE (R468): the records raised meanwhile are placed from slot 1. -/
def execLgrClearDone (s : State) : Host.Outcome State Fault Refusal :=
  .next (if s.lgr.clearing then
    let g := s.lgr
    let g1 := settleNext (storeAt g.next ((unplaced g).map JEnt.record) { g with journal := [], clearing := false, clearTok := none })
    let s1 := evRaise aLgrEvt 3 { s with lgr := g1 }
    match g.clearTok with
    | some tok => report tok stOk 0 0 s1
    | none => s1
    else s)

/-! ## Register reads (R337, R474, R478) -/

/-- Word `k` of the record that a read pointer selects (R337). -/
def recWord (s : State) (rptr k : Nat) : Word :=
  BitVec.ofNat 32 (field (slotBytes s.lgr (Word.bits (getReg s rptr) 16 0)) (4 * k) 4)

/-- A read of word 7 advances the pointer where AUTOINC is set, wrapping from 131,071 to 0 (R337). -/
def recAdvance (rptr : Nat) (s : State) : State :=
  let v := getReg s rptr
  let s1 := { s with rdata := [recWord s rptr 7] }
  if Word.bit v 31 then setField s1 rptr 16 0 ((Word.bits v 16 0 + 1) % regionSlots) else s1

/-- LGR_REC_READ (R337). -/
def execLgrRecRead (be : BitVec 4) (s : State) : Host.Outcome State Fault Refusal := .next (narrow be (recAdvance aLgrRptr s))

/-- SVC_LGR_REC_READ (R474). -/
def execSvcLgrRecRead (be : BitVec 4) (s : State) : Host.Outcome State Fault Refusal := .next (narrow be (recAdvance aSvcRptr s))

/-- LGR_PTIME_READ (R478, R518): the low word is returned and the high word latched. -/
def ptimeReadOp (s : State) : State :=
  { latch s 0x01200028 (BitVec.ofNat 32 (s.lgr.ptime / 2 ^ 32)) with rdata := [BitVec.ofNat 32 s.lgr.ptime] }
def execLgrPtimeRead (be : BitVec 4) (s : State) : Host.Outcome State Fault Refusal := .next (narrow be (ptimeReadOp s))

end Sys2Proof.Machine
end

