-- ==== Sys2Proof/Machine/Views.lean ====
section
/-! DEFINITION. What the registers read (R9 to R12, R334 to R338, R510 to R518): the fields that show other state, and the reads that
have effects. -/

namespace Sys2Proof.Machine

/-! ## Parts of words -/

/-- Bit `k` of a word where the condition holds. -/
def bitIf (c : Bool) (k : Nat) : Nat := if c then 2 ^ k else 0

/-- The word whose bit `i` is `p i`. -/
def bitMap (n : Nat) (p : Nat → Bool) : Nat := ((List.range n).filter p).foldl (fun a i => a + 2 ^ i) 0

/-- The word of a natural number, and of a signed value that saturates. -/
def wNat (v : Nat) : Word := BitVec.ofNat 32 v
def wInt (v : Int) : Word := BitVec.ofNat 32 (s32 (satS 32 v))

/-- Bits 63 to 32 of a number. -/
def wHigh (v : Nat) : Word := wNat (v / 2 ^ 32)

/-! ## Always-on page (R334, R488, R489, R515 to R517) -/

/-- Some ring reads ERR (R334). -/
def ringError (s : State) : Bool :=
  (List.range 16).any (fun n => (sqr s n).err || (cqr s n).err) || s.hif.evr.err

/-- `TOP_GSTAT` (R334). -/
def gstat (s : State) : Nat :=
  bitIf s.aon.alert 9 + bitIf (refAlarm s) 8 + bitIf (ringError s) 7 + bitIf s.stw.alive 6 + bitIf s.drc.noDram 5 +
    bitIf s.aon.silLow 4 + bitIf (driving s) 3 + s.sch.st

/-- `TOP_RST_STAT` (R489). -/
def rstStat (s : State) : Nat :=
  bitIf (decide (s.aon.bootState = 2) && s.stw.firstHb) 11 + bitIf ((s.drc.ready || s.drc.noDram) && !s.drc.training) 10 +
    bitIf s.lgr.ready 9 + bitIf (decide (s.clk.st ≠ 0)) 8 + s.aon.bootSrc * 16 + s.aon.lastRst

/-- `TOP_FEAT` (R517). -/
def featWord (s : State) : Nat :=
  s.drc.size % 4 * 64 + bitIf s.aon.primary 5 + bitIf Config.ledgerKeyPresent 4 + bitIf Config.enforce 3 + bitIf Config.pubKeyPresent 2

/-- What the always-on page shows of other state. -/
def topView (s : State) (a : Nat) : Option Word :=
  if a = 0 then some (wNat (0x10240000 + bitIf Config.variantFx 12 + 1))
  else if a = 4 then some (wNat (gstat s))
  else if a = aAbortStat then some (getReg s a ||| wNat (bitIf (abortBusy s) 31))
  else if a = aBootStat then some (wNat (bitIf s.aon.bootBusy 31 + s.aon.bootCheck * 65536 + s.aon.bootState))
  else if a = aRstStat then some (wNat (rstStat s))
  else if a = 0x94 then some Config.topRev
  else if a = 0x98 then some (wNat (featWord s))
  else (arrIdx 0x44 4 8 a).map (recWord s aLgrRptr)

/-! ## HIF, IRQ, STW and DSP (R338, R350, R360, R377) -/

/-- `HIF_SQ_STAT_n`. -/
def sqStat (s : State) (n : Nat) : Word :=
  let r := sqr s n
  wNat (bitIf r.err 31 + bitIf r.enabled 30 + min (ringOps s n).length 1023 * 65536 + r.head % 4096)

/-- `HIF_CQ_STAT_n` and `HIF_EVR_STAT`. -/
def cqStat (s : State) (n : Nat) : Word :=
  let r := cqr s n
  wNat (bitIf r.err 31 + bitIf r.enabled 30 + bitIf r.phase 29 + min r.fullCnt 127 * 2 ^ 22 + min r.held.length 1023 * 4096 + r.tail % 4096)
def evrStat (s : State) : Word :=
  let r := s.hif.evr
  wNat (bitIf r.err 31 + bitIf r.enabled 30 + bitIf r.phase 29 + min r.fullCnt 127 * 2 ^ 22 + r.tail % 4096)

/-- What HIF shows of other state. -/
def hifView (s : State) (a : Nat) : Option Word :=
  if a = 0x00100004 then some (wNat (0x10240000 + Config.vendorId.toNat))
  else if a = 0x0010003C then some (evrStat s)
  else match arrIdx (aSq 0 0xC) 0x20 16 a with
    | some n => some (sqStat s n)
    | none => (arrIdx (aCq 0 0x10) 0x20 16 a).map (cqStat s)

/-- What IRQ shows of other state; a claim doorbell read by another than its core claims nothing (R377). -/
def irqView (s : State) (a : Nat) : Option Word :=
  if a = aIrqSwiSet then some (getReg s aIrqSwi)
  else if a = aIrqStat then some (wNat s.irq.badEoi)
  else match arrIdx 0x00200100 4 8 a, arrIdx 0x00200160 4 8 a with
    | some w, _ => some (wNat (bitMap 32 (fun b => irqLevel s (32 * w + b))))
    | none, some w => some (wNat (bitMap 32 (fun b => s.irq.inSvc.any (fun e => decide (e.1 = 32 * w + b)))))
    | none, none => match arrIdx (aIrqTgt 0) 4 80 a with
      | some t => some (Word.put (getReg s a) 19 16 (irqRun s t))
      | none => (arrIdx (aIrqClaim 0) 0x10 16 a).map (fun n => match smFind s.irq.bell n with
        | some src => wNat (2 ^ 31 + src)
        | none => 0)

/-- What STW and DSP show of other state; get-work through the block returns zero (R350). -/
def stwView (s : State) (a : Nat) : Option Word :=
  if (arrIdx (aDsp 0 0) 0x100 16 a).isSome then some 0
  else (arrIdx (aCpl 0 0x10) 0x20 16 a).map (fun n => match abortNotice s n with
    | some tok => wNat (2 ^ 31 + tok % 1024)
    | none => 0)

/-! ## CLK, PTP and FAB (R240, R267, R268, R303, R304) -/

/-- What CLK shows of other state. -/
def clkView (s : State) (a : Nat) : Option Word :=
  if a = 0x00400014 then some (wNat (clkStat s))
  else if a = 0x00400018 then some (wNat (clkRefq s))
  else if a = 0x0040001C then some (wNat (if s.clk.tidxValid then s.clk.tidx else 0))
  else if a = 0x00400024 then some (wInt s.clk.buildout)
  else if a = 0x00400028 then some (wInt (fofs s))
  else if a = 0x0040002C then some (wInt s.clk.hold)
  else if a = 0x00400030 then some (wInt s.clk.mapRate)
  else if a = 0x0040003C then some (wNat (unsigned 64 s.clk.mapOfs))
  else if a = 0x00400020 ∨ a = 0x00400040 then some (getLatch s a) else none

/-- What PTP shows of other state: word 0 of a queue is read by the pop alone. -/
def ptpView (s : State) (a : Nat) : Option Word :=
  if a = 0x00500014 then some (wNat (ptpStat s))
  else if a = aPtpQovf then some (wNat (min s.ptp.qovf 0xFFFFFFFF))
  else if a = 0x0050001C then some (wNat (s.ptp.dt % 1000000000))
  else if a = 0x00500028 then some (wInt s.ptp.rho)
  else if a = 0x0050002C then some (wInt s.ptp.lastOfs)
  else if (arrIdx 0x00500020 4 2 a).isSome ∨ (arrIdx 0x00500100 4 16 a).isSome ∨ (arrIdx 0x00500140 4 6 a).isSome then some (getLatch s a)
  else none

/-- What FAB shows of other state. -/
def fabView (s : State) (a : Nat) : Option Word :=
  if a = 0x00700018 then some (wNat (bitIf s.fab.quiet 2 + bitIf s.fab.armed.isSome 1 + s.fab.cur))
  else if a = 0x0070001C then some (wNat (((List.range 16).map (fun l => (linkSt s l).st % 4 * 4 ^ l)).foldl (· + ·) 0))
  else if a = aFabCtl then some (Word.put (getReg s a) 1 1 (if s.dpx.en then 1 else 0))
  else if a = 0x00700024 then some (wNat Config.deviceId.toNat)
  else if a = 0x00700028 then some (wHigh Config.deviceId.toNat) else none

/-! ## The render blocks (R57, R93, R128, R129, R163, R205) -/

/-- `GEO_BANK` (R93). -/
def geoBank (s : State) : Nat := bitMap 4 (switchPending s) * 256 + s.geo.activeB % 16

/-- `PAIR_KBANK` (R128). -/
def kBank (s : State) : Nat :=
  bitIf (s.keyed.any (fun k => isKtblSwitch k.act)) 1 + bitIf s.pair.sincCur 0

/-- `COR_SIL` (R163). -/
def corSil (s : State) : Nat := bitIf s.cor.silGuard 2 + bitIf s.cor.silPin 1 + bitIf (decide (s.cor.zs < 0x1000000)) 0

/-- What GEO, PAIR, CIS and COR show of other state. -/
def renderView (s : State) (a : Nat) : Option Word :=
  if a = 0x00900020 then some (trancheS s)
  else if a = aGeoC then some s.geo.passC
  else if a = aGeoKfs then some s.geo.passK
  else if a = 0x00900030 then some (wNat (geoBank s))
  else if a = 0x00A0001C then some (wNat (kBank s))
  else if a = aCisStat then some (cisStatWord s)
  else if a = aCorStat then some (corStatWord s)
  else if a = 0x00C00018 then some (wNat (bitMap 32 (slotBusy s)))
  else if a = 0x00C0001C then some (wNat (bitMap 32 (fun i => slotBusy s (32 + i))))
  else if a = 0x00C00020 then some (wNat (corSil s)) else none

/-- What SCH shows of other state. -/
def schView (s : State) (a : Nat) : Option Word :=
  let n := armedN true s
  if a = 0x00D00014 then
    some (wNat (bitIf s.sch.activeSigned 7 + bitIf s.sch.shadowSigned 6 + bitIf s.sch.shadowValid 5 + bitIf (swapArmed s) 4 + s.sch.st))
  else if a = 0x00D00018 then some (wNat (activeId s))
  else if a = 0x00D0001C then some (wHigh (activeId s))
  else if a = 0x00D00020 then some (wNat (shadowId s))
  else if a = 0x00D00024 then some (wHigh (shadowId s))
  else if a = 0x00D00028 then some (wNat n)
  else if a = 0x00D0002C then some (wHigh n)
  else if a = aLoadStat then some (getReg s a ||| wNat (bitIf s.sch.loading.isSome 31))
  else if a = 0x00D00048 then some (wNat ((s.sch.activeImg.map (fun i => min i.pMax 65535 * 65536 + i.pTyp % 65536)).getD 0))
  else if a = 0x00D0004C then some (wNat (bitIf Config.pubKeyPresent 1 + bitIf Config.enforce 0)) else none

/-! ## DRC, LAU, DPX, LGR and SVC (R410, R437, R455, R474, R478) -/

/-- `DPX_STAT` (R455): the standing of the interlock. -/
def dpxStat (s : State) : Nat :=
  bitIf s.dpx.peerLow 31 + bitIf (decide (s.dpx.st ≠ 0)) 30 + bitIf (driving s) 29 + bitIf s.aon.primary 28 + bitIf (xlinkUp s) 27 +
    bitIf s.dpx.syncOk 26 + bitIf s.dpx.diverged 25 + bitIf s.dpx.roleConflict 24 + s.dpx.st * 65536 + s.dpx.cause * 256 +
    (s.dpx.peer.map (fun f => f.state % 256)).getD 0

/-- `LGR_STAT` (R478). -/
def lgrStat (s : State) : Nat :=
  let g := s.lgr
  bitIf g.ready 31 + bitIf g.full 30 + bitIf g.clearing 29 + bitIf Config.ledgerKeyPresent 28 + min (unplaced g).length 256 * 2 ^ 17 +
    g.newest.getD 0 % 2 ^ 17

/-- What the other blocks show of other state. -/
def miscView (s : State) (a : Nat) : Option Word :=
  if a = aDrcStat then some (drcStatWord s)
  else if a = 0x01000014 then some (wNat (lauStat s))
  else if a = 0x01100014 then some (wNat (dpxStat s))
  else if a = aDpxDivLo then some (wNat s.dpx.divFirst)
  else if a = aDpxDivHi then some (wHigh s.dpx.divFirst)
  else if a = aDpxSkew then some (wInt s.dpx.skew)
  else if a = 0x01200014 then some (wNat (lgrStat s))
  else if a = 0x01200018 then some (wNat s.lgr.dropped)
  else if a = 0x0120001C then some (wNat s.lgr.nonce)
  else if a = 0x01200020 then some (wNat s.lgr.poc)
  else if a = 0x01200024 then some (wNat s.lgr.ptime)
  else if a = 0x01200028 then some (getLatch s a)
  else match arrIdx (aDrcRef 0) 4 8 a, arrIdx 0x01300024 4 8 a with
    | some c, _ => some (drcRefWord s c)
    | none, some k => some (recWord s aSvcRptr k)
    | none, none => none

/-! ## Reads (R9, R512, R518) -/

/-- The fields of a published register that show other state. -/
def regView (s : State) (a : Nat) : Option Word :=
  match blockIdx a with
  | 0 => topView s a
  | 1 => hifView s a
  | 2 => irqView s a
  | 4 => clkView s a
  | 5 => ptpView s a
  | 7 => fabView s a
  | 9 => renderView s a
  | 10 => renderView s a
  | 11 => renderView s a
  | 12 => renderView s a
  | 13 => schView s a
  | 14 => stwView s a
  | _ => miscView s a

/-- What a published register reads, without the effects of the read. -/
def regValue (s : State) (a : Nat) : Word := (regView s a).getD (getReg s a)

/-- TOP_THERM_READ: MAX_TJ returns to 0x80 (R477). -/
def thermReadOp (s : State) : State := setField { s with rdata := [getReg s aTopTherm] } aTopTherm 7 0 0x80
def execTopThermRead (be : BitVec 4) (s : State) : Host.Outcome State Fault Refusal := .next (narrow be (thermReadOp s))

/-- A read of the word at an address of the register blocks (R9, R511, R512): its value is left in `rdata`, with the effects the
register's own rule gives a read. A runtime register reads a free value. -/
def readReg (a : Nat) (s : State) : State :=
  if (regFields a).isNone then
    if hasRuntime a then { draw s with rdata := [Config.freeWord s.freeCtr] } else { s with rdata := [0] }
  else if a = aTopTherm then thermReadOp s
  else if a = aIrqStat then irqStatReadOp s
  else if a = aCisStat then cisStatReadOp s
  else if a = aCorStat then corStatReadOp s
  else if a = 0x0050001C then timeReadOp s
  else if a = 0x00500140 then tcapPopOp s
  else if a = 0x0040001C ∨ a = 0x0040003C then splitRead (if a = 0x0040001C then 0x00400020 else 0x00400040)
    (if a = 0x0040001C then (if s.clk.tidxValid then s.clk.tidx else 0) else unsigned 64 s.clk.mapOfs) s
  else if a = 0x01200024 then ptimeReadOp s
  else if a = 0x60 then recAdvance aLgrRptr s
  else if a = 0x01300040 then recAdvance aSvcRptr s
  else match arrIdx 0x00500100 0x10 4 a, arrIdx (aDrcRef 0) 4 8 a with
    | some n, _ => rptPopOp n s
    | none, some c => drcRefReadOp c s
    | none, none => { s with rdata := [regValue s a] }

/-- The word of a read, and the state it leaves; `rdata` stands as it was. -/
def readWord (a : Nat) (s : State) : Word × State :=
  let t := readReg a s
  (t.rdata.headD 0, { t with rdata := s.rdata })

end Sys2Proof.Machine
end

