-- ==== Sys2Proof/Machine/Reset.lean ====
section
/-! DEFINITION. Power, cold and warm reset, the thermal sensor, and the JTAG port (R342, R459, R470, R481 to R489, R509). -/

namespace Sys2Proof.Machine

/-- Changes the always-on block. -/
def setAon (s : State) (f : Aon → Aon) : State := { s with aon := f s.aon }

/-! ## Warm reset (R333, R336, R486) -/

/-- An even boot source waits for GO; with an odd one the boot ROM starts loading by itself (R342, R484, R488). -/
def bootsItself (src : Nat) : Bool := decide (src % 2 = 1)

/-- The operations in flight end, and nobody is left to report them: what they had not committed is withdrawn, and a register abort
that waited for them answers (R332, R486). -/
def dropOps (s : State) : State :=
  let s1 := (s.hif.ops.filter (fun o => decide (o.st ≠ .committed))).foldl (fun t o => withdrawTok o.tok t) s
  let s2 := settleAborts { s1 with hif := { s1.hif with aborts := s1.hif.aborts.map (fun a => { a with waiting := [] }) } }
  { s2 with hif := { s2.hif with ops := [], ended := [], aborts := [] }, outcomes := s.outcomes }

/-- The registers that a warm reset does not keep take their reset values, and latches of their blocks read zero (R12, R518). -/
def warmRegs (s : State) : State :=
  { s with regs := s.regs.filter (fun e => warmKeeps e.1), latches := s.latches.filter (fun e => isAon e.1) }

/-- A Bruon link DISABLED, as `FAB_LINK_STATE` reads after reset (R12, R208, R240); its counters and peer record stay. -/
def linkReset (l : LinkSt) : LinkSt := { l with st := 0, gotHello := false, ack := false, queue := [], fwdBytes := 0 }

/-- Local audio: `LAU_STAT` reads no capture, no stimulus, no lost port and no compliance fault after reset (R12, R437). -/
def lauReset (l : Lau) : Lau :=
  { l with
    sap := smModAll {} l.sap (l.sap.map Prod.fst) (fun _ p => { p with lost := false }),
    mon := smModAll {} l.mon (l.mon.map Prod.fst) (fun _ m => { m with comply := [] }),
    cap := { l.cap with armed := none, running := none, queue := [] },
    stim := { l.stim with armed := none, running := none } }

/-- The render domain and the ports' staging (R486): tables and descriptors' settings stay; the read-only fields that show other state
take their reset values, and the state behind them follows (R12). -/
def warmRender (s : State) : State :=
  let h := s.sch
  { s with
    keyed := [],
    obj := smModAll {} s.obj (s.obj.map Prod.fst) (fun _ ob => { ob with coarse := (ob.trans.map Trans.c).getLastD ob.coarse, trans := [] }),
    geo := { s.geo with activeB := 0 },
    sch := { shadow := h.shadow, lastAct := h.lastAct },
    mp := { s.mp with stg := [] },
    pair := { s.pair with fetch := [], held := [], psum := [], sincCur := false, sincUse := false, sincSw := [] },
    cor := { s.cor with tailReq := [], lateChain := [], stopN := none, silGuard := false, silPin := false, zs := 0x1000000, zTo := 0x1000000, xfs := [] },
    lau := lauReset s.lau,
    fab := { s.fab with
      armed := none, switchN := none, switchTok := none, disc := [], remote := [], remoteRun := [], cur := 0, quiet := true,
      link := smModAll {} s.fab.link (s.fab.link.map Prod.fst) (fun _ l => linkReset l) },
    drc := { s.drc with
      panicCis := false, panicTail := false, selfRef := s.drc.selfRef || s.drc.ready, ready := false,
      training := false, retraining := false, rate := [], maxDebt := [], forced := [] } }

/-- Stewards, dispatcher, interrupt controller and matrix are held in reset; the memories keep their bytes (R342, R486). -/
def warmControl (s : State) : State :=
  { s with stw := { core := [], itcm := s.stw.itcm, dtcm := s.stw.dtcm, sram := s.stw.sram }, irq := {}, mtx := {} }

/-- The interlock: RELEASED, with ARM cleared (R440, R486). -/
def warmInterlock (s : State) : State := clearArm 2 (setDpx s (fun d => { d with armedN := none, takebackN := none }))

/-- The time unit: disabled, device time not valid, its registers at their reset values and its queues empty (R12, R304); a PTP
reference that was active is lost (R263, R486). -/
def warmTime (s : State) : State :=
  setPtp (ptpSource (if s.ptp.st = 0 then s else ptpDisable s)) (fun p => { p with
    enabled := false, valid := false, dt := 0, dtFrac := 0, rho := 0, lastOfs := 0, qovf := 0, rpt := [], tcapQ := [],
    stepArmed := false, gmChange := false, awaitGm := false, trig := p.trig.filter (fun e => decide (e.2.mode ≠ 0)),
    pinHigh := p.pinHigh.filter (fun x => decide (x ≠ 4)) })

/-- The internal reset asserts (R486): causes 1 `TOP_WRST_REQ`, 2 WRST_N, 3 service port. -/
def warmAssert (cause : Nat) (s : State) : State :=
  let g := gstat s
  let s1 := ledger 0x0002 3 cause g 0 (evRaise aTopEvt 4 s)
  let s2 := hostReset 5 false (warmRegs s1)
  let s3 := warmInterlock (warmTime (warmControl (warmRender (dropOps s2))))
  let s4 := setField s3 aBootLen 31 31 0
  monSettleAll (setAon { s4 with lgr := { s4.lgr with clearTok := none }, clk := { s4.clk with swTok := none } } (fun a => { a with
    warm := true, warmCause := cause, lastRst := cause + 1, deferred := none, trip := false, hot := false, bootBusy := false, bootState := 0,
    bootCheck := 0, bootImg := none }))

/-- `TOP_THERM.ALERT_C` and the last reading (R477). -/
def alertC (s : State) : Int := Word.bits (getReg s aTopTherm) 15 8
def lastTj (s : State) : Int := signed 8 (Word.bits (getReg s aTopTherm) 23 16)

/-- A trip still holds: the reading has not come below ALERT_C - 10 (R470). -/
def tripHolds (s : State) : Bool := s.aon.trip && decide (alertC s - 10 ≤ lastTj s)

/-- A warm reset is requested: without effect while one is in progress or PORST_N is low, deferred while a trip holds (R470, R486). -/
def warmRequest (cause : Nat) (s : State) : State :=
  if s.aon.warm || s.aon.porstLow || !s.aon.powered then s
  else if tripHolds s then setAon s (fun a => { a with deferred := some (a.deferred.getD cause) })
  else warmAssert cause s

/-- A write of `TOP_WRST_REQ` (R10, R336). -/
def wrstWrite (v : Word) (svc : Bool) (s : State) : State :=
  if writeLegal [fld 31 16 .wo 0, fld 0 0 .wo 0] v && decide (Word.bits v 31 16 = 0x5752) && Word.bit v 0 then
    warmRequest (if svc then 3 else 1) s
  else s
def execWarmResetRequest (v : Word) (svc : Bool) (s : State) : Host.Outcome State Fault Refusal := .next (wrstWrite v svc s)

/-- WRST_N_ASSERT. -/
def execWrstNAssert (s : State) : Host.Outcome State Fault Refusal := .next (warmRequest 2 (setAon s (fun a => { a with wrstPin := true })))

/-- WARM_RESET_RELEASE: steward 0 runs the boot ROM again (R342, R486). -/
def execWarmResetRelease (s : State) : Host.Outcome State Fault Refusal :=
  .next (if s.aon.warm then
      let auto := bootsItself s.aon.bootSrc
      setAon { s with stw := { s.stw with core := [(0, { run := .boot })] } } (fun a => { a with
        warm := false, wrstPin := false, bootState := if auto then 1 else 0, bootBusy := auto })
    else setAon s (fun a => { a with wrstPin := false }))

/-! ## Power and cold reset (R459, R483 to R485, R487) -/

/-- What the flash holds (R459, R460). -/
def flashOf (g : Lgr) : Lgr :=
  { region := g.region, newest := g.newest, journal := g.journal, jnext := g.jnext, retired := g.retired, ckpt := g.ckpt }

/-- Power-on counts and powered times of the records in flash. -/
def flashTimes (g : Lgr) : List (Nat × Nat) :=
  (g.region.filter (fun e => !isTorn e.2)).map (fun e => (field e.2 10 4, field e.2 4 6)) ++
    (g.journal.map (fun e => (e.record.poc, e.record.pt)))

/-- The counters at power-up: powered time goes on one unit after the later of the last save and the newest record (R459, R479). -/
def powerUp (g : Lgr) : Lgr :=
  let c : Ckpt := g.ckpt.getD { pt := 0, poc := 0, dropped := 0, clears := 0, nonce := 0 }
  let ts := flashTimes g
  let last := ts.foldl (fun m t => max m t.2) c.pt
  let pt := if g.ckpt.isNone && ts.isEmpty then 0 else last + 1
  { flashOf g with
    ptime := pt, poc := ts.foldl (fun m t => max m t.1) c.poc + 1, dropped := c.dropped, clears := c.clears, nonce := c.nonce,
    lossBound := if g.ckpt.isNone then 0 else c.pt + 65536 - pt }

/-- The part with every block in its reset state; what lies outside it stays: the waiting commands, host memory, what it has sent and
answered, the levels of its input pins, and the flash. -/
def darkState (s : State) : State :=
  { pending := s.pending, rdata := s.rdata, outcomes := s.outcomes, outs := s.outs, hostMem := s.hostMem, freeCtr := s.freeCtr,
    lgr := flashOf s.lgr,
    aon := { silLow := s.aon.silLow, monClrLow := s.aon.monClrLow, tapInstr := s.aon.tapInstr, extestOwn := s.aon.extestOwn },
    dpx := { peerLow := s.dpx.peerLow } }

/-- POWER_FAIL: everything but the flash is lost, and DPX_OWN_N is released through its pull-up (R442, R459). -/
def execPowerFail (s : State) : Host.Outcome State Fault Refusal := .next (setAon (darkState s) (fun a => { a with powered := false }))

/-- PORST_N_ASSERT: the pins take the states of R483, whatever was in progress. -/
def execPorstNAssert (s : State) : Host.Outcome State Fault Refusal :=
  .next (setAon (darkState s) (fun a => { a with porstLow := true, powered := s.aon.powered }))

/-- COLD_RESET: straps latched, every register at its reset value, powered time resumed (R459, R484, R485). -/
def execColdReset (bootSrc : Nat) (primary : Bool) (s : State) : Host.Outcome State Fault Refusal :=
  let auto := bootsItself (bootSrc % 4)
  .next (setAon { darkState s with lgr := powerUp s.lgr } (fun a => { a with
    bootSrc := bootSrc % 4, primary := primary, bootState := if auto then 1 else 0, bootBusy := auto }))

/-! ## Thermal sensor (R470, R477) -/

/-- The reading and the highest one. -/
def storeTj (tj : Int) (s : State) : State :=
  let v := satS 8 tj
  let s1 := setField s aTopTherm 23 16 (unsigned 8 v)
  if signed 8 (Word.bits (getReg s1 aTopTherm) 7 0) < v then setField s1 aTopTherm 7 0 (unsigned 8 v) else s1

/-- The alert, with its release 5 degrees lower. -/
def alertJudge (tj : Int) (s : State) : State :=
  if s.aon.alert then (if tj < alertC s - 5 then setAon s (fun a => { a with alert := false }) else s)
  else if alertC s ≤ tj then
    ledger 0x0003 3 (s32 tj) (s32 (alertC s)) 0 (evRaise aTopEvt 0 (setAon s (fun a => { a with alert := true })))
  else s

/-- The trip: the DRAM goes into self-refresh, the clocks stop, the outputs fall silent, a device fault is declared. -/
def tripActions (tj : Int) (s : State) : State :=
  let s1 := setAon { s with drc := { s.drc with selfRef := s.drc.selfRef || s.drc.ready, ready := false } } (fun a => { a with trip := true })
  let s2 := ledger 0x0004 6 (s32 tj) s.sch.st (if driving s then 1 else 0) (evRaise aTopEvt 1 s1)
  monSettleAll (deviceFault 4 s2)

/-- Two readings in a row of at least 125 degrees. -/
def tripJudge (tj : Int) (s : State) : State :=
  let hot := decide (125 ≤ tj)
  let s1 := setAon s (fun a => { a with hot := hot })
  if hot && s.aon.hot && !s.aon.trip then tripActions tj s1 else s1

/-- A deferred warm reset takes place once the trip no longer holds. -/
def runDeferred (s : State) : State :=
  match s.aon.deferred with
  | some c => if tripHolds s then s else warmAssert c s
  | none => s

/-- THERM_SAMPLE. -/
def execThermSample (tj : Int) (s : State) : Host.Outcome State Fault Refusal := .next (runDeferred (tripJudge tj (alertJudge tj (storeTj tj s))))

/-! ## JTAG (R509) -/

/-- JTAG_TAP_OPERATION: EXTEST takes the covered pins, DPX_OWN_N among them; no other instruction has an effect on the device. -/
def execJtagTapOperation (op : TapOp) (s : State) : Host.Outcome State Fault Refusal :=
  .next (setAon s (fun a => match op with
    | .reset => { a with tapInstr := 1, extestOwn := none }
    | .bypass => { a with tapInstr := 0, extestOwn := none }
    | .idcode => { a with tapInstr := 1, extestOwn := none }
    | .sample => { a with tapInstr := 2, extestOwn := none }
    | .extest low => { a with tapInstr := 3, extestOwn := some low }))

end Sys2Proof.Machine
end

