-- ==== Sys2Proof/Machine/Access.lean ====
section
/-! DEFINITION. Writes to registers, the register windows, and the service port (R9 to R11, R335, R341, R350, R360, R379 to R388, R473, R474,
R511, R512). -/

namespace Sys2Proof.Machine

/-! ## Writes to registers (R9 to R12, R350, R367, R377, R512) -/

/-- The number of a master in the row order of R380, and the ID of its transactions (R381). -/
def masterNo : Master → Nat
  | .host => 0
  | .core _ => 2
  | .service => 7
def masterId : Master → Nat
  | .core n => n % 16
  | _ => 0

/-- The write's transaction. -/
def writeTxn (m : Master) (a : Nat) : Txn := { master := masterNo m, target := targetOf a, write := true, id := masterId m, addr := a }

/-- A core's access fault: the cause, a store's, and the address (R340, R341, R385). -/
def coreFault (m : Master) (a : Nat) (s : State) : State :=
  match m with
  | .core n => if n < 16 then setCore s n { core s n with fault := some (7, a) } else s
  | _ => s

/-- A write that ends with a response other than OK (R385, R512). -/
def writeError (code : Nat) (m : Master) (a : Nat) (s : State) : State := coreFault m a (mtxError code (writeTxn m a) s)

/-- The write is core `n`'s. -/
def byCore (m : Master) (n : Nat) : Bool :=
  match m with
  | .core k => decide (k = n)
  | _ => false

/-- A legal write to the fields of a register; any other is discarded as a whole (R10, R11). -/
def plainWrite (a : Nat) (fs : List Fld) (v : Word) (s : State) : State :=
  if writeLegal fs v then setReg s a (writeWord fs (getReg s a) v) else s

/-- Registers of TOP, DPX and DRC whose writes act (R311, R334 to R336, R407, R440, R488). -/
def actWrite (m : Master) (a : Nat) (v : Word) (s : State) : Option State :=
  if a = aAbortCtl then some (abortWrite v s)
  else if a = aWrstReq then some (wrstWrite v (decide (m = .service)) s)
  else if a = aDbKick then some (kickOp s)
  else if a = aBootLen then some (bootWrite v none s)
  else if a = aEvrCfg then some (evrCfgWrite v s)
  else if a = aDrcCtl then some (if Word.bit v 0 && decide (m ≠ .host) then s else drcCtlWrite v s)
  else if a = aDpxCtl then some (armWriteOp v s)
  else if a = aFabAddr then some (if v.toNat < 2 ^ 17 then setAddress v.toNat (Word.bit v 16) 0 s else s)
  else match arrIdx (aSq 0 8) 0x20 16 a, arrIdx (aCq 0 8) 0x20 16 a, arrIdx (aGeoSeg 0 0x30) 0x40 16 a with
    | some n, _, _ => some (sqCfgWrite n v s)
    | none, some n, _ => some (cqCfgWrite n v s)
    | none, none, some n => some (segPushOp n v s)
    | none, none, none => none

/-- Registers of IRQ whose writes act (R375 to R377). -/
def irqWrite (m : Master) (a : Nat) (v : Word) (s : State) : Option State :=
  if a = aIrqMset then some (msetOp v true s)
  else if a = aIrqMclr then some (msetOp v false s)
  else if a = aIrqSwi then some (swiClearOp v s)
  else if a = aIrqSwiSet then some (swiSetOp v s)
  else (arrIdx (aIrqEoi 0) 0x10 16 a).map (fun n => if byCore m n then eoiOp n v s else s)

/-- Registers of STW and DSP whose writes act, or that only some masters may write (R349, R350, R357, R360, R362, R367). The copies of a core's
ports take no work and no report. -/
def stwWrite (m : Master) (a : Nat) (v : Word) (s : State) : Option State :=
  if a = aStwHb then some (match m with
    | .core n => if n < 16 then heartbeatTurn n s else s
    | _ => s)
  else if a = aHbMask then some (settleAlive (plainWrite a [fld 15 0 .rw 0xFF] v s))
  else if (a = aSvcLim ∨ a = aSrcPrio ∨ (arrIdx (aDsp 0 0x48) 0x100 16 a).isSome) ∧ !afinalCore m then some s
  else if (arrIdx (aDsp 0 4) 0x100 16 a).isSome ∨ (arrIdx (aDsp 0 8) 0x100 16 a).isSome ∨ (arrIdx (aDsp 0 0x20) 0x100 16 a).isSome ∨
      (arrIdx (aCpl 0 8) 0x20 16 a).isSome then some s
  else none

/-- A write to the register blocks; `win` is what a write to a window's control register does. -/
def blockWrite (win : Bool → Word → State → State) (m : Master) (a : Nat) (v : Word) (be : BitVec 4) (s : State) : State :=
  if be ≠ 15#4 then s
  else match regFields a with
    | none => s
    | some fs =>
      if a = aRwinCtl then win false v s
      else if a = aSvcRwinCtl then win true v s
      else match actWrite m a v s, irqWrite m a v s, stwWrite m a v s with
        | some t, _, _ => t
        | none, some t, _ => t
        | none, none, some t => t
        | none, none, none => plainWrite a fs v s

/-! ## Targets (R379, R380, R393) -/

/-- The DRAM address of an internal one, through the master's aperture (R379, R387). -/
def aperture (m : Master) (a : Nat) (s : State) : Nat :=
  Word.bits (getReg s (match m with
    | .host => aRwinDwin
    | .service => aSvcDwin
    | .core n => aStwDwin n)) 7 0 * 2 ^ 28 + (a - 0x10000000)

/-- Four bytes of a list at an offset, zero past its end. -/
def wordOf (b : List Byte) (off : Nat) : Word := wNat (field b off 4)

/-- The bytes that the enables name come from the new word. -/
def overlay (be : BitVec 4) (old new : Word) : Word := (old &&& ~~~(laneMask be)) ||| (new &&& laneMask be)

/-- The access is answered DECODE: no path, no target, a runtime register that is not the master's to write, or by the DRAM's port (R380, R392,
R395, R406, R407, R512). -/
def denied (m : Master) (write : Bool) (a : Nat) (s : State) : Bool :=
  !pathExists (masterNo m) (targetOf a) write ||
    (decide (targetOf a = 0) && write && (regFields a).isNone && hasRuntime a && !afinalCore m) ||
    (decide (targetOf a = 5) && bestDenied s write (aperture m a s) 4)

/-- A word of an SRAM line that is read with symbols in error (R8, R471): the response code, the line, and the state. -/
def sramLine (array line : Nat) (b : List Byte) (symbols : List (Nat × Byte)) (s : State) : Nat × List Byte × State :=
  match rsDecode (flipSymbols symbols (b ++ rsChecks b)) with
  | some (c, 0) => (0, c.take 64, s)
  | some (c, n) => (0, c.take 64, sramCe { array := array, line := line, symbols := n } s)
  | none => (2, b, sramUe array line s)

/-- A read of a target: the response code, the word, and the state. The layout of the table stores is not published (R379): a free value. -/
def targetRead (m : Master) (a : Nat) (symbols : List (Nat × Byte)) (s : State) : Nat × Word × State :=
  let off := a % 2 ^ 24
  match targetOf a with
  | 0 => (0, readWord a s)
  | 1 =>
    let r := sramLine 9 (off / 64) (fit 64 (s.sch.shadow.drop (off / 64 * 64))) symbols s
    (r.1, wordOf r.2.1 (off % 64), r.2.2)
  | 2 => (0, Config.freeWord s.freeCtr, draw s)
  | 3 => (0, wordOf (slotBytes s.lgr ((a - 0x03C00000) / 32)) ((a - 0x03C00000) % 32), s)
  | 4 =>
    let r := sramLine 12 (off / 64) (smReadBytes s.stw.sram (off / 64 * 64) 64) symbols s
    (r.1, wordOf r.2.1 (off % 64), r.2.2)
  | _ =>
    let d := aperture m a s
    let r := bestRead d 4 [{ line := d / 64, symbols := symbols }] s
    (r.1, wNat (leNat r.2.1), r.2.2)

/-- A write of a target other than the register blocks: the response code and the state. What a write to the table stores does to the tables
is not published (R379): no effect of it is modelled. -/
def targetWrite (m : Master) (a : Nat) (v : Word) (be : BitVec 4) (symbols : List (Nat × Byte)) (s : State) : Nat × State :=
  let off := a % 2 ^ 24
  match targetOf a with
  | 1 => (0, if be = 0 then s else shadowPut a (leBytes 4 (overlay be (wordOf s.sch.shadow off) v).toNat) s)
  | 4 => (0, sramPut a (leBytes 4 (overlay be (wNat (leNat (smReadBytes s.stw.sram off 4))) v).toNat) s)
  | 5 =>
    let d := aperture m a s
    bestWrite d (leBytes 4 (overlay be (wNat (leNat (dramGet s d 4))) v).toNat) [{ line := d / 64, symbols := symbols }] s
  | _ => (0, s)

/-- The uncorrectable line of a target is reported where its array is one that the rules name (R408, R471). -/
def targetUe (m : Master) (a : Nat) (s : State) : State :=
  match targetOf a with
  | 1 => sramUe 9 (a % 2 ^ 24 / 64) s
  | 4 => sramUe 12 (a % 2 ^ 24 / 64) s
  | 5 => lineRead 3 (aperture m a s / 64 * 64) .uncorrectable s
  | _ => s

/-- The clock of the target's domain is stopped (R470, R510, R511): D_CORE without a core clock, D_CTRL and D_MEM in a thermal trip. D_AON and
D_HOST go on. -/
def clockStopped (a : Nat) (s : State) : Bool :=
  match targetOf a with
  | 0 => !isAon a && (if blockIdx a ∈ [8, 9, 10, 11, 12, 13, 16] then !coreRuns s else s.aon.trip && decide (blockIdx a ≠ 1))
  | 1 => !coreRuns s
  | 2 => !coreRuns s
  | 3 => false
  | _ => s.aon.trip

/-- A write that has passed the matrix; one to a block whose clock is stopped is discarded and answered TIMEOUT. -/
def writeNow (win : Bool → Word → State → State) (m : Master) (a : Nat) (v : Word) (be : BitVec 4) (s : State) : State :=
  if denied m true a s then writeError 3 m a s
  else if clockStopped a s then writeError 1 m a s
  else if targetOf a = 0 then blockWrite win m a v be s
  else
    let r := targetWrite m a v be [] s
    if r.1 = 0 then r.2 else writeError r.1 m a r.2

/-! ## A core's own addresses (R341, R350, R360) -/

/-- The address is core-local. -/
def coreLocal (a : Nat) : Bool := decide (0xF0000000 ≤ a) && decide (a < 0xF0040000)

/-- A write to a core's dispatcher port, at an offset. -/
def portWrite (c off : Nat) (v : Word) (s : State) : State :=
  if off = 4 then dspDone c v s
  else if off = 8 then dspFwd c v s
  else if off = 0x20 then dspAdd c v s
  else if off = 0x48 ∧ 8 ≤ c then s
  else match stwFields (aDsp c off) with
    | some fs => plainWrite (aDsp c off) fs v s
    | none => s

/-- A write to a core's completion port. -/
def cplWrite (c off : Nat) (v : Word) (s : State) : State :=
  if off = 8 then cplReport withdrawTok c v s
  else match stwFields (aCpl c off) with
    | some fs => plainWrite (aCpl c off) fs v s
    | none => s

/-- A write to a core's TCM, of 64 KiB, at an offset. -/
def tcmPut (c off : Nat) (v : Word) (be : BitVec 4) (m : SMap Byte) : SMap Byte :=
  let k := c * 65536 + off
  smWriteBytes m k (leBytes 4 (overlay be (wNat (leNat (smReadBytes m k 4))) v).toNat)

/-- A core's write on its private path: ITCM, DTCM, its dispatcher port and its completion port. The boot ROM takes no write, and what is not
listed is an access fault; neither crosses the matrix. -/
def localWrite (c a : Nat) (v : Word) (be : BitVec 4) (s : State) : State :=
  if a < 0xF0010000 then { s with stw := { s.stw with itcm := tcmPut c (a - 0xF0000000) v be s.stw.itcm } }
  else if a < 0xF0020000 then { s with stw := { s.stw with dtcm := tcmPut c (a - 0xF0010000) v be s.stw.dtcm } }
  else if a < 0xF0020100 then (if be = 15#4 then portWrite c (a - 0xF0020000) v s else s)
  else if a < 0xF0020120 then (if be = 15#4 then cplWrite c (a - 0xF0020100) v s else s)
  else coreFault (.core c) a s

/-- The access does not cross the matrix: the host's and the service port's to D_AON (R308, R335, R381). -/
def pastMatrix (m : Master) (a : Nat) : Bool :=
  isAon a && (match m with
    | .core _ => false
    | _ => true)

/-- A write by a master: on its core's private path, held back by its port, or performed. -/
def regWriteWith (win : Bool → Word → State → State) (m : Master) (a : Nat) (v : Word) (be : BitVec 4) (s : State) : State :=
  match (if coreLocal a then m else .host) with
  | .core n => if n < 16 then localWrite n a v be s else s
  | _ =>
    if !pastMatrix m a && holdsBack (writeTxn m a) s.mtx.held s then holdReq { txn := writeTxn m a, data := v, be := be, by_ := m, win := none } s
    else writeNow win m a v be s

/-! ## The window's access (R335, R379, R380, R384, R474) -/

/-- The master behind a window. -/
def winBy (svc : Bool) : Master := if svc then .service else .host

/-- The window's access to its target, with what the target answers; a write to the register blocks is `w`'s. -/
def winTarget (w : Master → Nat → Word → State → State) (svc : Bool) (t : Txn) (data : Word) (symbols : List (Nat × Byte)) (s : State) : State :=
  let m := winBy svc
  if t.write then
    if t.target = 0 then winEnd svc true 0 0 (w m t.addr data s)
    else
      let r := targetWrite m t.addr data 15 symbols s
      winEnd svc true r.1 0 (if r.1 = 0 then r.2 else mtxError r.1 t r.2)
  else
    let r := targetRead m t.addr symbols s
    winEnd svc false r.1 (if r.1 = 0 then r.2.1 else 0) (if r.1 = 0 then r.2.2 else mtxError r.1 t r.2.2)

/-- The window's access has been accepted by the matrix. `ans` is how the target answers; a D_AON register is reached past the matrix. -/
def winAccess (w : Master → Nat → Word → State → State) (svc : Bool) (t : Txn) (data : Word) (ans : Answer) (s : State) : State :=
  if denied (winBy svc) t.write t.addr s then winEnd svc t.write 3 0 (mtxError 3 t s)
  else match (if isAon t.addr then .ok else if clockStopped t.addr s then .silent else ans) with
    | .ok => winTarget w svc t data [] s
    | .damaged symbols => winTarget w svc t data symbols s
    | .ue => winEnd svc t.write 2 0 (mtxError 2 t (targetUe (winBy svc) t.addr s))
    | .silent => setMtx s (fun m => { m with pending := m.pending ++ [t] })

/-- A write of a window's control register: GO starts the access, and is discarded while one runs. BUSY and GO read 1 until it ends. -/
def winGoWith (w : Master → Nat → Word → State → State) (svc : Bool) (ctl : Word) (ans : Answer) (s : State) : State :=
  let a := (getReg s (winAddr svc)).toNat
  let data := getReg s (winData svc)
  let t : Txn := { master := winMaster svc, target := targetOf a, write := Word.bit ctl 1, id := 0, addr := a }
  if !writeLegal [fld 31 31 .ro 0, fld 30 29 .ro 0, fld 1 1 .wo 0, fld 0 0 .w1s 0] ctl || !Word.bit ctl 0 || winBusy svc s then s
  else
    let busy := setReg s (winCtl svc) (wNat (2 ^ 31 + 1))
    if !isAon a && holdsBack t s.mtx.held s then holdReq { txn := t, data := data, be := 15, by_ := winBy svc, win := some svc } busy
    else winAccess w svc t data ans busy

/-- A window that is reached through the other one cannot reach a window again, since both are busy. -/
def blockWriteNone (m : Master) (a : Nat) (v : Word) (s : State) : State := blockWrite (fun _ _ t => t) m a v 15 s
def blockWriteInner (m : Master) (a : Nat) (v : Word) (s : State) : State :=
  blockWrite (fun svc ctl t => winGoWith blockWriteNone svc ctl .ok t) m a v 15 s
def winGo (svc : Bool) (ctl : Word) (ans : Answer) (s : State) : State := winGoWith blockWriteInner svc ctl ans s

/-- A write by a master. -/
def regWrite (m : Master) (a : Nat) (v : Word) (be : BitVec 4) (s : State) : State :=
  regWriteWith (fun svc ctl t => winGo svc ctl .ok t) m a v be s

/-! ## Requests that are let go (R384 to R386, R388) -/

/-- A request that was held back is performed. -/
def performHeld (h : HeldReq) (s : State) : State :=
  match h.win with
  | some svc => if winBusy svc s then winAccess blockWriteInner svc h.txn h.data .ok s else s
  | none => writeNow (fun svc ctl t => winGo svc ctl .ok t) h.by_ h.txn.addr h.data h.be s

/-- The held requests of a list, oldest first; those still held back stay, before any that the others bring. -/
def releaseList : List HeldReq → List HeldReq → State → State
  | [], kept, s => setMtx s (fun m => { m with held := kept ++ m.held })
  | h :: hs, kept, s => if holdsBack h.txn kept s then releaseList hs (kept ++ [h]) s else releaseList hs kept (performHeld h s)

/-- Whatever is held back no longer goes on. -/
def releaseHeld (s : State) : State := releaseList s.mtx.held [] (setMtx s (fun m => { m with held := [] }))

/-- MATRIX_TIMEOUT (R385): the matrix answers TIMEOUT, and the credit is held until the late response. -/
def execMatrixTimeout (t : Txn) (s : State) : Host.Outcome State Fault Refusal :=
  let s1 := mtxError 1 t (winTimeout true t (winTimeout false t s))
  .next (releaseHeld (setMtx s1 (fun m => { m with pending := m.pending.erase t, late := m.late ++ [t] })))

/-- MATRIX_LATE_RESPONSE (R385): discarded, and the credit is free again. -/
def execMatrixLateResponse (t : Txn) (s : State) : Host.Outcome State Fault Refusal :=
  .next (releaseHeld (setMtx s (fun m => { m with late := m.late.erase t })))

/-- MASTER_RESET_DRAIN (R386, R388): the last response of a reset master has returned; its holdback and credits are free. -/
def execMasterResetDrain (m addr beats : Nat) (s : State) : Host.Outcome State Fault Refusal :=
  let free := fun (l : List Txn) => l.filter (fun t => decide (t.master ≠ m))
  .next (releaseHeld (ledger 0x0303 1 m addr beats (evRaise aMtxEvt 3 (setMtx s (fun x =>
    { x with pending := free x.pending, late := free x.late, draining := x.draining.erase m })))))

/-- INBOUND_TIMEOUT (R308): a read completes with all bits set; a write that the matrix holds back is discarded. -/
def execInboundTimeout (write : Bool) (s : State) : Host.Outcome State Fault Refusal :=
  let s1 := setMtx s (fun m => { m with held := if write then m.held.eraseP (fun h => decide (h.by_ = .host) && h.win.isNone) else m.held })
  .next (evRaise aHifEvt 4 { s1 with hif := { s1.hif with nInbound := bump 32 s1.hif.nInbound 1 },
                                     rdata := if write then [] else [0xFFFFFFFF] })

/-- REGISTER_WRITE. -/
def execRegisterWrite (m : Master) (a : Nat) (v : Word) (be : BitVec 4) (s : State) : Host.Outcome State Fault Refusal :=
  .next (regWrite m a v be s)

/-- RWIN_READ. -/
def execRwinRead (ctl : Word) (ans : Answer) (s : State) : Host.Outcome State Fault Refusal := .next (winGo false ctl ans s)

/-- RWIN_WRITE. -/
def execRwinWrite (ctl : Word) (ans : Answer) (s : State) : Host.Outcome State Fault Refusal := .next (winGo false ctl ans s)

/-- SVC_RWIN_READ. -/
def execSvcRwinRead (ctl : Word) (ans : Answer) (s : State) : Host.Outcome State Fault Refusal := .next (winGo true ctl ans s)

/-- SVC_RWIN_WRITE. -/
def execSvcRwinWrite (ctl : Word) (ans : Answer) (s : State) : Host.Outcome State Fault Refusal := .next (winGo true ctl ans s)

/-- The access that a window waits for is a write. -/
def winWrites (svc : Bool) (s : State) : Bool :=
  (s.mtx.pending.find? (fun t => decide (t.master = winMaster svc))).any Txn.write ||
    s.mtx.held.any (fun h => decide (h.win = some svc) && h.txn.write)

/-- RWIN_TIMEOUT: the access stops with ERR 1, and a read returns 0; a request still held back goes no further. -/
def execRwinTimeout (svc : Bool) (s : State) : Host.Outcome State Fault Refusal :=
  .next (if winBusy svc s then
      winEnd svc (winWrites svc s) 1 0 (setMtx s (fun m => { m with held := m.held.filter (fun h => decide (h.win ≠ some svc)) }))
    else s)

/-! ## Service port (R473, R386) -/

/-- The AON register set. -/
def aonSet (a : Nat) : Bool := decide (a < 0x1000) || decide (blockIdx a ∈ [17, 18, 19])

/-- SVC_STATUS: the four words of a STATUS frame. -/
def execSvcStatus (s : State) : Host.Outcome State Fault Refusal :=
  .next { s with rdata := [wNat (gstat s), getReg s aTopEvt, wNat (dpxStat s), wNat (lgrStat s)] }

/-- Words from an address on. -/
def svcWords : Nat → Nat → State → List Word × State
  | 0, _, s => ([], s)
  | n + 1, a, s =>
    let r := if aonSet a then readWord a s else (0, s)
    let t := svcWords n (a + 4) r.2
    (r.1 :: t.1, t.2)

/-- SVC_READ: a READ frame of `count` whole words. -/
def execSvcRead (a count : Nat) (s : State) : Host.Outcome State Fault Refusal :=
  let r := svcWords count (a / 4 * 4) s
  .next { r.2 with rdata := r.1 }

/-- Whole words are written from an address on; an unfinished one is discarded. -/
def svcStore : List (List Byte) → Nat → State → State
  | [], _, s => s
  | b :: bs, a, s => svcStore bs (a + 4) (if b.length = 4 ∧ aonSet a then regWrite .service a (wNat (leNat b)) 15 s else s)

/-- SVC_WRITE: a WRITE frame. -/
def execSvcWrite (a : Nat) (bytes : List Byte) (s : State) : Host.Outcome State Fault Refusal :=
  .next (svcStore (chunks 4 (bytes.length / 4) bytes) (a / 4 * 4) s)

/-- SVC_FRAME_END: a reset of the service port as a master. -/
def execSvcFrameEnd (s : State) : Host.Outcome State Fault Refusal := .next (resetMasters [7] s)

end Sys2Proof.Machine
end

