-- ==== Sys2Proof/Machine/Boundary.lean ====
section
/-! DEFINITION. The segment cut-off and the tranche boundary: what every block does at H_k (R16, R17, R20 to R23, R45, R87, R199,
R224, R246, R277, R433, R448, R450, R521). -/

namespace Sys2Proof.Machine

/-! ## Keyed changes take effect (R20, R21) -/

/-- Changes of the headgate's and geometry's tables, and switches of their banks and of the sinc bank (R72). -/
def applyTable (k : Keyed) (s : State) : State :=
  match k.act with
  | .objMap first count _ _ _ => applyMap k.n k.act first count s
  | .objCond o pre trim bq => applyCond o pre trim bq s
  | .objCtl first count en cen lim _ => applyCtl first count en cen lim s
  | .objPrefilter bq => { s with prefilter := bq }
  | .objCoarse first count c glide => applyCoarse k.n first count c glide s
  | .geoBankSwitch m => applyBankSwitch m k.n s
  | .ktblSwitch _ => switchSinc k.n s
  | .geoGlobal t p e => { s with geo := { s.geo with temp := t, pc := p, eps := e } }
  | .geoObjLaw first ls => applyLaws first ls s
  | _ => s

/-- Changes of kernels, correction, sluices, meters and receive mappings. -/
def applyStage (k : Keyed) (s : State) : State :=
  match k.act with
  | .objKernel first count code => applyKernel first count code s
  | .sluiceSet first count gain mute => applySluice k.n first count gain mute s
  | .meterCfg w groups => applyMeter k.n w groups s
  | .corrClear first count => (span first count).foldl (fun t o => clearOut k.n o t) s
  | .mpRxMap isSet idx ofs rxd => applyRxMap isSet idx ofs rxd s
  | _ => s

/-- The changes of a list in order. -/
def applyAll : List Keyed → State → State
  | [], s => s
  | k :: ks, s => applyAll ks (applyStage k (applyTable k s))

/-- The changes of a stage that are due at `n` take effect and leave the list. -/
def takeStage (n stage : Nat) (s : State) : State := dropKeyed n stage (applyAll (dueKeyed s n stage) s)

/-! ## The cut-off (R20, R45, R59, R87, R521) -/

/-- CLEAR_SEGS of the OBJ_CTLs of a list. -/
def clearAll : List Keyed → State → State
  | [], s => s
  | k :: ks, s => clearAll ks (match k.act with
    | .objCtl first count _ _ _ (some uid) => (span first count).foldl (fun t o => clearSegs uid o t) s
    | _ => s)

/-- The cut-off of tranche `n`: table changes, then segments, then clears, then the snapshot that geometry works from. -/
def cutoff (n : Nat) (s : State) : State :=
  let due := dueKeyed s n 0
  let s1 := commitKeyed n 1 (commitKeyed n 0 (issueEnd s))
  let s2 := clearAll due (cutoffSegs n (takeStage n 0 s1))
  takeSnap (setClk s2 (fun c => { c with cutoffDone := true }))

/-- The cut-off of the period in progress, where it has not come. -/
def cutoffOnce (s : State) : State := if s.clk.tidxValid && !s.clk.cutoffDone then cutoff (s.clk.tidx + 1) s else s

/-- SEGMENT_CUTOFF; the core clock is stopped in a thermal trip (R470). -/
def execSegmentCutoff (s : State) : Host.Outcome State Fault Refusal := .next (if s.aon.trip then s else cutoffOnce s)

/-! ## The boundary (R17) -/

/-- The TICK of each link that is not DISABLED (R210): the delay to its block boundary depends on the link's own phase, a free value. -/
def sendTicks (k : Nat) : List Nat → State → State
  | [], s => s
  | l :: ls, s => sendTicks k ls (if (linkSt s l).st = 0 then s
      else emit (.tick l 0xB7 (k % 16777216) (Word.bits (Config.freeWord s.freeCtr) 15 0)) (draw s))

/-- The period that ends at H_k: a length other than L is a violation of class 7 (R15, R199). -/
def periodViol (cycles : Nat) (viol : List GuardViol) (s : State) : List GuardViol :=
  viol ++ (if cycles = trancheCycles s then [] else [{ cls := 7, unit := 0, cycle := cycles }])

/-- A meter window that ends with the data tranche whose correction the last period held (R156). -/
def meterTurn (k : Nat) (s : State) : State :=
  if 3 ≤ k ∧ (stageImg s (k - 3)).isSome then meterBoundary (k - 3) s else s

/-- Crossfades have lanes that their images have (R151, R179). -/
def lanesBoundary (s : State) : State := assignLanes s.cor.xfs s

/-- Deadlines and effects that fall on H_k: swap, epoch and correction switches first, then the other changes (R20, R22, R148, R154,
R277). -/
def keyedTurn (k : Nat) (s : State) : State :=
  let s1 := lanesBoundary (switchBoundary k (epochBoundary k (armedBoundary k (swapBoundary k s))))
  let s2 := if 1 ≤ k then takeStage (k - 1) 1 (commitKeyed (k - 1) 2 s1) else s1
  let s3 := if 2 ≤ k then takeStage (k - 2) 2 s2 else s2
  takeStage (k + 1) 3 (commitKeyed (k + 1) 3 s3)

/-- Tranche k is closed and admitted (R16, R36, R227, R520). -/
def closeTurn (k : Nat) (s : State) : State := if issuing s && decide (s.sch.startN ≤ k) then fabricClose k (closeTranche k s) else s

/-- The geometry pass of tranche k - 1 ends and that of tranche k begins (R59, R65, R90). -/
def passTurn (k : Nat) (s : State) : State := startPass k (if k = 0 then s else endPass (k - 1) s)

/-- The stores and engines of the render domain at H_k (R59, R99, R104, R144, R151, R155). -/
def renderTurn (k : Nat) (s : State) : State :=
  let s1 := newReservations k (silenceBoundary k (passTurn k s))
  let s2 := pairBoundary k (setPair s1 (fun p => { p with mergeDone := false, merged := false }))
  tailBoundary k (cisternBoundary k s2)

/-- The blocks beside the render domain: fabric, media receive, triggers, monitoring, duplex (R210, R225, R235, R278, R297, R426, R446,
R448, R450). -/
def outerTurn (k : Nat) (s : State) : State :=
  let s1 := quietBoundary (sendTicks k (List.range 16) s)
  let s2 := handAll (s1.mp.rx.map Prod.fst) (remoteReturns s1.fab.remoteRun s1)
  let s3 := audioBoundary k (trigBoundary k s2.ptp.trig (mapCapture k s2))
  let s4 := setDpx s3 (fun d => { d with gap := d.gap.filter (fun g => decide (k < g.1)) })
  digestBoundary sendDpx (strobeBoundary (dpxBoundary s4))

/-- TIDX_SET: the boundary H_k0 at which the index takes effect (R245). The device is STOPPED: only the blocks beside the render domain take
their turn, with a TICK on every link and, where k0 is a multiple of 1,024, a capture of device time (R210, R246). -/
def execTidxSet (tick24 : Nat) (s : State) : Host.Outcome State Fault Refusal :=
  .next (match s.clk.rateReq.getLast? with
    | none => s
    | some q =>
      let k := firstIndex q tick24 s
      outerTurn k (takeIndex q k s))

/-- The operations whose armed actions are past their deadlines: a start, stop, restart or swap, an epoch switch, a handover (R22, R323). -/
def deadlineToks (s : State) : List Nat :=
  ((s.sch.armed.filter (fun a => !armedPending s a)).map Armed.tok).toList ++ ((s.sch.swap.filter (fun w => !swapPending s w)).map SwapSt.tok).toList ++
  ((s.fab.armed.filter (fun a => !epochPending s a.1)).map Prod.snd).toList ++ s.fab.switchTok.toList ++
  ((s.dpx.armedN.filter (fun a => !beforeH s ((a.1 : Int) - 1))).map Prod.snd).toList

/-- Their owners report the commit points at the deadlines, and the serialiser takes the reports (R323). DESIGN CHOICE: at once (log entry 110). -/
def commitDeadlines (s : State) : State := commitToks (deadlineToks s) s

/-- H_k: the period before it is judged, the index advances, and every block takes its turn. -/
def boundary (cycles : Nat) (viol : List GuardViol) (s : State) : State :=
  let k := s.clk.tidx + 1
  let s1 := cutoffOnce (settleMerge s)
  let s2 := meterTurn k (guardFaults (periodViol cycles viol s1) s1)
  let s3 := commitDeadlines (keyedTurn k (setClk s2 (fun c => { c with tidx := k, cutoffDone := false })))
  outerTurn k (renderTurn k (closeTurn k s3))

/-- The queues into D_MON that slipped: QSLIP and its event (R26, R427). -/
def monSlips : List Nat → State → State
  | [], s => s
  | k :: ks, s => monSlips ks (evRaise aLauEvt 12 (busCount k 12 1 s))

/-- Lines of the stewards' memories that were found uncorrectable: the core's access fault (causes 1, an instruction access, for its ITCM, and 5, a
load, for its DTCM), the report of the SRAM array, and the record (R340, R368, R471). -/
def tcmErrs : List TcmErr → State → State
  | [], s => s
  | x :: xs, s =>
    let s1 := sramUe 13 (x.addr / 64) (if x.core < 16 then setCore s x.core { core s x.core with fault := some (if x.dtcm then 5 else 1,
      (if x.dtcm then 0xF0010000 else 0xF0000000) + x.addr) } else s)
    tcmErrs xs (ledger 0x0E03 4 x.core (if x.dtcm then 1 else 0) x.addr s1)

/-- Other on-die lines that were found uncorrectable (R471). One of the active schedule store, array 8, that is not the guard's finding is a device
fault (R441). -/
def lostLines : List (Nat × Nat) → State → State
  | [], s => s
  | (a, l) :: xs, s => lostLines xs (if a = 8 then deviceFault 6 (sramUe a l s) else sramUe a l s)

/-- What the part reported over the period. -/
def observe (x : PeriodObs) (s : State) : State :=
  lostLines x.lost (tcmErrs x.tcm (refillErrs x.refill (monSlips (x.monSlips.filter (· < 8)) (sramCes x.corrected s))))

/-- TRANCHE_BOUNDARY: there is no boundary before the tranche index is set (R244), nor with the core clock stopped in a thermal trip (R470). -/
def execTrancheBoundary (cycles : Nat) (viol : List GuardViol) (obs : PeriodObs) (s : State) : Host.Outcome State Fault Refusal :=
  let s1 := observe obs s
  .next (if s1.clk.tidxValid && !s1.aon.trip then boundary cycles viol s1 else s1)

end Sys2Proof.Machine
end

