-- ==== Sys2Proof/Machine/Dispatch.lean ====
section
/-! DEFINITION. The meaning of every command: one arm per constructor, each one call of the meaning of its row. -/

namespace Sys2Proof.Machine

/-- The effect of a command on everything but the queue. -/
def exec (i : Instr) (s : State) : Host.Outcome State Fault Refusal :=
  match i with
  | .hifNop d => Sys2Proof.Machine.execHifNop d s
  | .hifAbort d => Sys2Proof.Machine.execHifAbort d s
  | .hifSqDisable d => Sys2Proof.Machine.execHifSqDisable d s
  | .hifStatus d => Sys2Proof.Machine.execHifStatus d s
  | .hifIdentify d => Sys2Proof.Machine.execHifIdentify d s
  | .schLoad d => Sys2Proof.Machine.execSchLoad d s
  | .schLoadDone => Sys2Proof.Machine.execSchLoadDone s
  | .schStart d => Sys2Proof.Machine.execSchStart d s
  | .schSwap d => Sys2Proof.Machine.execSchSwap d s
  | .schCancel d => Sys2Proof.Machine.execSchCancel d s
  | .schStop d => Sys2Proof.Machine.execSchStop d s
  | .schRestart d => Sys2Proof.Machine.execSchRestart d s
  | .schStatus d => Sys2Proof.Machine.execSchStatus d s
  | .schInfo d => Sys2Proof.Machine.execSchInfo d s
  | .objMap d => Sys2Proof.Machine.execObjMap d s
  | .objCond d => Sys2Proof.Machine.execObjCond d s
  | .objSegment d => Sys2Proof.Machine.execObjSegment d s
  | .objSegBatch d => Sys2Proof.Machine.execObjSegBatch d s
  | .objCtl d => Sys2Proof.Machine.execObjCtl d s
  | .objAlignSet d => Sys2Proof.Machine.execObjAlignSet d s
  | .objStatus d => Sys2Proof.Machine.execObjStatus d s
  | .objPrefilter d => Sys2Proof.Machine.execObjPrefilter d s
  | .objCoarse d => Sys2Proof.Machine.execObjCoarse d s
  | .objKernel d => Sys2Proof.Machine.execObjKernel d s
  | .pairKtbl d => Sys2Proof.Machine.execPairKtbl d s
  | .pairStatus d => Sys2Proof.Machine.execPairStatus d s
  | .geoSpkLoad d => Sys2Proof.Machine.execGeoSpkLoad d s
  | .geoZoneLoad d => Sys2Proof.Machine.execGeoZoneLoad d s
  | .geoTriLoad d => Sys2Proof.Machine.execGeoTriLoad d s
  | .geoCubeLoad d => Sys2Proof.Machine.execGeoCubeLoad d s
  | .geoAirLoad d => Sys2Proof.Machine.execGeoAirLoad d s
  | .geoBankSwitch d => Sys2Proof.Machine.execGeoBankSwitch d s
  | .geoBankSync d => Sys2Proof.Machine.execGeoBankSync d s
  | .geoObjLaw d => Sys2Proof.Machine.execGeoObjLaw d s
  | .geoGlobal d => Sys2Proof.Machine.execGeoGlobal d s
  | .geoStatus d => Sys2Proof.Machine.execGeoStatus d s
  | .geoPairRead d => Sys2Proof.Machine.execGeoPairRead d s
  | .corrStage d => Sys2Proof.Machine.execCorrStage d s
  | .corrStageDone slot => Sys2Proof.Machine.execCorrStageDone slot s
  | .corrSwitch d => Sys2Proof.Machine.execCorrSwitch d s
  | .corrSetRead d errs => Sys2Proof.Machine.execCorrSetRead d errs s
  | .sluiceSet d => Sys2Proof.Machine.execSluiceSet d s
  | .meterCfg d => Sys2Proof.Machine.execMeterCfg d s
  | .meterRead d => Sys2Proof.Machine.execMeterRead d s
  | .corrStatus d => Sys2Proof.Machine.execCorrStatus d s
  | .corrClearState d => Sys2Proof.Machine.execCorrClearState d s
  | .fabLinkCtl d => Sys2Proof.Machine.execFabLinkCtl d s
  | .fabIdent d => Sys2Proof.Machine.execFabIdent d s
  | .fabWbLoad d => Sys2Proof.Machine.execFabWbLoad d s
  | .fabGrpLoad d => Sys2Proof.Machine.execFabGrpLoad d s
  | .fabEpochSwitch d => Sys2Proof.Machine.execFabEpochSwitch d s
  | .fabBankSync d => Sys2Proof.Machine.execFabBankSync d s
  | .fabDisc d => Sys2Proof.Machine.execFabDisc d s
  | .fabMgmtSend d => Sys2Proof.Machine.execFabMgmtSend d s
  | .fabStatus d => Sys2Proof.Machine.execFabStatus d s
  | .fabRemote d => Sys2Proof.Machine.execFabRemote d s
  | .clkRate d => Sys2Proof.Machine.execClkRate d s
  | .clkRefCfg d => Sys2Proof.Machine.execClkRefCfg d s
  | .clkSelCfg d => Sys2Proof.Machine.execClkSelCfg d s
  | .clkSelect d => Sys2Proof.Machine.execClkSelect d s
  | .clkStatus d => Sys2Proof.Machine.execClkStatus d s
  | .ptpCfg d => Sys2Proof.Machine.execPtpCfg d s
  | .ptpStepArm d => Sys2Proof.Machine.execPtpStepArm d s
  | .ptpClearGmChange d => Sys2Proof.Machine.execPtpClearGmChange d s
  | .ptpStatus d => Sys2Proof.Machine.execPtpStatus d s
  | .timeTrig d => Sys2Proof.Machine.execTimeTrig d s
  | .timeCapCfg d => Sys2Proof.Machine.execTimeCapCfg d s
  | .timeCapRead d => Sys2Proof.Machine.execTimeCapRead d s
  | .mpPortCfg d => Sys2Proof.Machine.execMpPortCfg d s
  | .mpRxStream d => Sys2Proof.Machine.execMpRxStream d s
  | .mpRxMap d => Sys2Proof.Machine.execMpRxMap d s
  | .mpTxStream d => Sys2Proof.Machine.execMpTxStream d s
  | .mpStatus d => Sys2Proof.Machine.execMpStatus d s
  | .sapCfg d => Sys2Proof.Machine.execSapCfg d s
  | .mixBus d => Sys2Proof.Machine.execMixBus d s
  | .mixInput d => Sys2Proof.Machine.execMixInput d s
  | .monTaps d => Sys2Proof.Machine.execMonTaps d s
  | .sidetone d => Sys2Proof.Machine.execSidetone d s
  | .capCfg d => Sys2Proof.Machine.execCapCfg d s
  | .capCoef d => Sys2Proof.Machine.execCapCoef d s
  | .capDest d => Sys2Proof.Machine.execCapDest d s
  | .capStart d => Sys2Proof.Machine.execCapStart d s
  | .capStop d => Sys2Proof.Machine.execCapStop d s
  | .stimLoad d => Sys2Proof.Machine.execStimLoad d s
  | .stimStart d => Sys2Proof.Machine.execStimStart d s
  | .stimStop d => Sys2Proof.Machine.execStimStop d s
  | .lauStatus d => Sys2Proof.Machine.execLauStatus d s
  | .dpxCfg d => Sys2Proof.Machine.execDpxCfg d s
  | .dpxSwitch d => Sys2Proof.Machine.execDpxSwitch d s
  | .dpxArm d => Sys2Proof.Machine.execDpxArm d s
  | .dpxStatus d => Sys2Proof.Machine.execDpxStatus d s
  | .lgrRead d => Sys2Proof.Machine.execLgrRead d s
  | .lgrInfo d => Sys2Proof.Machine.execLgrInfo d s
  | .lgrAnnotate d => Sys2Proof.Machine.execLgrAnnotate d s
  | .lgrNonce d => Sys2Proof.Machine.execLgrNonce d s
  | .lgrClear d => Sys2Proof.Machine.execLgrClear d s
  | .lgrClearDone => Sys2Proof.Machine.execLgrClearDone s
  | .stwFwLoad d => Sys2Proof.Machine.execStwFwLoad d s
  | .stwFwStart d => Sys2Proof.Machine.execStwFwStart d s
  | .stwFwStop d => Sys2Proof.Machine.execStwFwStop d s
  | .fwStopHalt => Sys2Proof.Machine.execFwStopHalt s
  | .dspFlowCfg d => Sys2Proof.Machine.execDspFlowCfg d s
  | .stwStatus d => Sys2Proof.Machine.execStwStatus d s
  | .dspLimits d => Sys2Proof.Machine.execDspLimits d s
  | .userOpcode opcode d => Sys2Proof.Machine.execUserOpcode opcode d s
  | .abortRequest value => Sys2Proof.Machine.execAbortRequest value s
  | .abortOwnerTimeout tok => Sys2Proof.Machine.execAbortOwnerTimeout tok s
  | .opTimeout tok => Sys2Proof.Machine.execOpTimeout tok s
  | .rwinRead ctl ans => Sys2Proof.Machine.execRwinRead ctl ans s
  | .rwinWrite ctl ans => Sys2Proof.Machine.execRwinWrite ctl ans s
  | .rwinTimeout svc => Sys2Proof.Machine.execRwinTimeout svc s
  | .svcRwinRead ctl ans => Sys2Proof.Machine.execSvcRwinRead ctl ans s
  | .svcRwinWrite ctl ans => Sys2Proof.Machine.execSvcRwinWrite ctl ans s
  | .warmResetRequest value svc => Sys2Proof.Machine.execWarmResetRequest value svc s
  | .wrstNAssert => Sys2Proof.Machine.execWrstNAssert s
  | .warmResetRelease => Sys2Proof.Machine.execWarmResetRelease s
  | .coldReset bootSrc primary => Sys2Proof.Machine.execColdReset bootSrc primary s
  | .powerFail => Sys2Proof.Machine.execPowerFail s
  | .dbKick value => Sys2Proof.Machine.execDbKick value s
  | .lgrRecRead be => Sys2Proof.Machine.execLgrRecRead be s
  | .svcLgrRecRead be => Sys2Proof.Machine.execSvcLgrRecRead be s
  | .bootGo value image => Sys2Proof.Machine.execBootGo value image s
  | .coresReleased flash => Sys2Proof.Machine.execCoresReleased flash s
  | .segmentPush port value => Sys2Proof.Machine.execSegmentPush port value s
  | .getWork core be => Sys2Proof.Machine.execGetWork core be s
  | .dspGrant => Sys2Proof.Machine.execDspGrant s
  | .getWorkTimeout core => Sys2Proof.Machine.execGetWorkTimeout core s
  | .affinityExpiry item => Sys2Proof.Machine.execAffinityExpiry item s
  | .dspDone core value => Sys2Proof.Machine.execDspDone core value s
  | .dspFwd core value => Sys2Proof.Machine.execDspFwd core value s
  | .dspAdd core value => Sys2Proof.Machine.execDspAdd core value s
  | .cplCommit core cmd => Sys2Proof.Machine.execCplCommit core cmd s
  | .cplComplete core cmd => Sys2Proof.Machine.execCplComplete core cmd s
  | .cplWithdraw core cmd => Sys2Proof.Machine.execCplWithdraw core cmd s
  | .heartbeat core => Sys2Proof.Machine.execHeartbeat core s
  | .hbLost silent => Sys2Proof.Machine.execHbLost silent s
  | .svcLimit item => Sys2Proof.Machine.execSvcLimit item s
  | .irqDeliver => Sys2Proof.Machine.execIrqDeliver s
  | .irqClaim core be => Sys2Proof.Machine.execIrqClaim core be s
  | .irqEoi core value => Sys2Proof.Machine.execIrqEoi core value s
  | .irqMset value => Sys2Proof.Machine.execIrqMset value s
  | .irqMclr value => Sys2Proof.Machine.execIrqMclr value s
  | .irqSwiSet value => Sys2Proof.Machine.execIrqSwiSet value s
  | .irqSwiClear value => Sys2Proof.Machine.execIrqSwiClear value s
  | .irqStatRead be => Sys2Proof.Machine.execIrqStatRead be s
  | .cisStatRead be => Sys2Proof.Machine.execCisStatRead be s
  | .corStatRead be => Sys2Proof.Machine.execCorStatRead be s
  | .drcRefRead channel be => Sys2Proof.Machine.execDrcRefRead channel be s
  | .topThermRead be => Sys2Proof.Machine.execTopThermRead be s
  | .ptpRptPop port be => Sys2Proof.Machine.execPtpRptPop port be s
  | .ptpTcapPop be => Sys2Proof.Machine.execPtpTcapPop be s
  | .ptpTimeRead be => Sys2Proof.Machine.execPtpTimeRead be s
  | .clkTidxRead be => Sys2Proof.Machine.execClkTidxRead be s
  | .clkMapRead be => Sys2Proof.Machine.execClkMapRead be s
  | .lgrPtimeRead be => Sys2Proof.Machine.execLgrPtimeRead be s
  | .dramRetrain value => Sys2Proof.Machine.execDramRetrain value s
  | .sqEnable ring value => Sys2Proof.Machine.execSqEnable ring value s
  | .sqDisableWrite ring value => Sys2Proof.Machine.execSqDisableWrite ring value s
  | .sqDrainEnd ring => Sys2Proof.Machine.execSqDrainEnd ring s
  | .cqEnable ring value => Sys2Proof.Machine.execCqEnable ring value s
  | .cqDisable ring value => Sys2Proof.Machine.execCqDisable ring value s
  | .evrEnable value => Sys2Proof.Machine.execEvrEnable value s
  | .evrDisable value => Sys2Proof.Machine.execEvrDisable value s
  | .armWrite value => Sys2Proof.Machine.execArmWrite value s
  | .registerWrite m addr value be => Sys2Proof.Machine.execRegisterWrite m addr value be s
  | .svcStatus => Sys2Proof.Machine.execSvcStatus s
  | .svcRead addr count => Sys2Proof.Machine.execSvcRead addr count s
  | .svcWrite addr bytes => Sys2Proof.Machine.execSvcWrite addr bytes s
  | .svcFrameEnd => Sys2Proof.Machine.execSvcFrameEnd s
  | .hostIfReset cause => Sys2Proof.Machine.execHostIfReset cause s
  | .d3hotEntry pmeEn => Sys2Proof.Machine.execD3hotEntry pmeEn s
  | .d0Return => Sys2Proof.Machine.execD0Return s
  | .busMasterChange on cfg => Sys2Proof.Machine.execBusMasterChange on cfg s
  | .msixUnmask vector addr data => Sys2Proof.Machine.execMsixUnmask vector addr data s
  | .inboundTimeout write => Sys2Proof.Machine.execInboundTimeout write s
  | .doorbellPoll page entries => Sys2Proof.Machine.execDoorbellPoll page entries s
  | .cqModTimer ring => Sys2Proof.Machine.execCqModTimer ring s
  | .matrixTimeout t => Sys2Proof.Machine.execMatrixTimeout t s
  | .masterResetDrain master addr beats => Sys2Proof.Machine.execMasterResetDrain master addr beats s
  | .trancheBoundary cycles viol obs => Sys2Proof.Machine.execTrancheBoundary cycles viol obs s
  | .segmentCutoff => Sys2Proof.Machine.execSegmentCutoff s
  | .furrowPhaseStart ue => Sys2Proof.Machine.execFurrowPhaseStart ue s
  | .handoverPhaseStart badResidue => Sys2Proof.Machine.execHandoverPhaseStart badResidue s
  | .cond object => Sys2Proof.Machine.execCond object s
  | .geomItem item => Sys2Proof.Machine.execGeomItem item s
  | .furrowSlot furrow entry ue audit viol => Sys2Proof.Machine.execFurrowSlot furrow entry ue audit viol s
  | .bq u => Sys2Proof.Machine.execBq u s
  | .head u ue => Sys2Proof.Machine.execHead u ue s
  | .slu u => Sys2Proof.Machine.execSlu u s
  | .tailChain u slack obs => Sys2Proof.Machine.execTailChain u slack obs s
  | .launch link entry => Sys2Proof.Machine.execLaunch link entry s
  | .form port entry => Sys2Proof.Machine.execForm port entry s
  | .cisternFetchDone object group age errs => Sys2Proof.Machine.execCisternFetchDone object group age errs s
  | .cisternPanic object group => Sys2Proof.Machine.execCisternPanic object group s
  | .dpxStrobeReceive skew wide => Sys2Proof.Machine.execDpxStrobeReceive skew wide s
  | .linkLock link => Sys2Proof.Machine.execLinkLock link s
  | .linkLockTimeout link => Sys2Proof.Machine.execLinkLockTimeout link s
  | .linkLockLoss link => Sys2Proof.Machine.execLinkLockLoss link s
  | .fecWindow link corrected uncorrectable => Sys2Proof.Machine.execFecWindow link corrected uncorrectable s
  | .helloSend link => Sys2Proof.Machine.execHelloSend link s
  | .helloReceive link bytes => Sys2Proof.Machine.execHelloReceive link bytes s
  | .helloTimeout link => Sys2Proof.Machine.execHelloTimeout link s
  | .helloLost link => Sys2Proof.Machine.execHelloLost link s
  | .tickReceive link marker low24 delay arrival => Sys2Proof.Machine.execTickReceive link marker low24 delay arrival s
  | .caravanReceive link cycle bytes whole slip => Sys2Proof.Machine.execCaravanReceive link cycle bytes whole slip s
  | .egressFrameStart link defer slip => Sys2Proof.Machine.execEgressFrameStart link defer slip s
  | .fabDiscTimeout tag => Sys2Proof.Machine.execFabDiscTimeout tag s
  | .remoteRetransmit seq => Sys2Proof.Machine.execRemoteRetransmit seq s
  | .refEdge ref time => Sys2Proof.Machine.execRefEdge ref time s
  | .refMissing ref => Sys2Proof.Machine.execRefMissing ref s
  | .freqWindow ref offset => Sys2Proof.Machine.execFreqWindow ref offset s
  | .driftEval offsets => Sys2Proof.Machine.execDriftEval offsets s
  | .qualTimer ref => Sys2Proof.Machine.execQualTimer ref s
  | .wtrExpiry ref => Sys2Proof.Machine.execWtrExpiry ref s
  | .refSwitchDone phase => Sys2Proof.Machine.execRefSwitchDone phase s
  | .bleedTick => Sys2Proof.Machine.execBleedTick s
  | .pllUnlock cycle => Sys2Proof.Machine.execPllUnlock cycle s
  | .pllLock => Sys2Proof.Machine.execPllLock s
  | .tidxSet tick24 => Sys2Proof.Machine.execTidxSet tick24 s
  | .mpLockLoss port => Sys2Proof.Machine.execMpLockLoss port s
  | .mpUpTimer port => Sys2Proof.Machine.execMpUpTimer port s
  | .mpFrameReceive port f => Sys2Proof.Machine.execMpFrameReceive port f s
  | .pauseExpiry port => Sys2Proof.Machine.execPauseExpiry port s
  | .pathDown stream pathB => Sys2Proof.Machine.execPathDown stream pathB s
  | .txLateDrop port => Sys2Proof.Machine.execTxLateDrop port s
  | .mpFrameDepart port slip => Sys2Proof.Machine.execMpFrameDepart port slip s
  | .ptpSync m => Sys2Proof.Machine.execPtpSync m s
  | .ptpDelayResp seqId t4 correction => Sys2Proof.Machine.execPtpDelayResp seqId t4 correction s
  | .ptpAnnounce m => Sys2Proof.Machine.execPtpAnnounce m s
  | .ptpDelayReqSend seqId report => Sys2Proof.Machine.execPtpDelayReqSend seqId report s
  | .syncTimeout => Sys2Proof.Machine.execSyncTimeout s
  | .announceTimeout => Sys2Proof.Machine.execAnnounceTimeout s
  | .trigFire pin => Sys2Proof.Machine.execTrigFire pin s
  | .ppsOutPulse => Sys2Proof.Machine.execPpsOutPulse s
  | .tcapEdge pin rising cycle => Sys2Proof.Machine.execTcapEdge pin rising cycle s
  | .sapFrame port w0 w1 => Sys2Proof.Machine.execSapFrame port w0 w1 s
  | .sapWsEdge port index aligned => Sys2Proof.Machine.execSapWsEdge port index aligned s
  | .sapLost port => Sys2Proof.Machine.execSapLost port s
  | .silNChange high => Sys2Proof.Machine.execSilNChange high s
  | .monClrAssert => Sys2Proof.Machine.execMonClrAssert s
  | .monClrRelease => Sys2Proof.Machine.execMonClrRelease s
  | .monComplyTimer output pin outside => Sys2Proof.Machine.execMonComplyTimer output pin outside s
  | .peerAssert => Sys2Proof.Machine.execPeerAssert s
  | .peerReleased => Sys2Proof.Machine.execPeerReleased s
  | .claimTimeout => Sys2Proof.Machine.execClaimTimeout s
  | .commandedRelease => Sys2Proof.Machine.execCommandedRelease s
  | .takebackHold => Sys2Proof.Machine.execTakebackHold s
  | .flashOpDone erase ok => Sys2Proof.Machine.execFlashOpDone erase ok s
  | .journalPlace => Sys2Proof.Machine.execJournalPlace s
  | .checkpointSave => Sys2Proof.Machine.execCheckpointSave s
  | .ledgerScanDone => Sys2Proof.Machine.execLedgerScanDone s
  | .dramTrainDone r => Sys2Proof.Machine.execDramTrainDone r s
  | .mr4Poll channel value => Sys2Proof.Machine.execMr4Poll channel value s
  | .refreshAccrual channel bank idle idled => Sys2Proof.Machine.execRefreshAccrual channel bank idle idled s
  | .scrubRead line symbols => Sys2Proof.Machine.execScrubRead line symbols s
  | .thermSample tj => Sys2Proof.Machine.execThermSample tj s
  | .porstNAssert => Sys2Proof.Machine.execPorstNAssert s
  | .mpLockGain port => Sys2Proof.Machine.execMpLockGain port s
  | .lowPowerIdleReceive port => Sys2Proof.Machine.execLowPowerIdleReceive port s
  | .clkRateTimeout => Sys2Proof.Machine.execClkRateTimeout s
  | .tailReadDone r => Sys2Proof.Machine.execTailReadDone r s
  | .matrixLateResponse t => Sys2Proof.Machine.execMatrixLateResponse t s
  | .shadowStoreWrite addr bytes => Sys2Proof.Machine.execShadowStoreWrite addr bytes s
  | .trigPulseEnd pin => Sys2Proof.Machine.execTrigPulseEnd pin s
  | .peerLowHeld => Sys2Proof.Machine.execPeerLowHeld s
  | .l1Exit => Sys2Proof.Machine.execL1Exit s
  | .dramSelfRefreshExit => Sys2Proof.Machine.execDramSelfRefreshExit s
  | .jtagTapOperation op => Sys2Proof.Machine.execJtagTapOperation op s

end Sys2Proof.Machine
end

