-- ==== Sys2Proof/Machine/Tick.lean ====
section
/-! DEFINITION. What passes with no command: one unit of powered time, 1/1,024 s of the XO (R288, R459, R487). -/

namespace Sys2Proof.Machine

/-- Device time in 2^-32 ns after one unit at rate `rho` (R288): 976,562.5 ns × (1 + ρ). -/
def deviceTimeAfter (t : Nat) (rho : Int) : Nat :=
  t + (1953125 * 2 ^ 31 * (100000000000 + rho) / 100000000000).toNat

/-- The time unit after one unit of powered time: seconds are a u48 (R288). -/
def ptpTick (p : Ptp) : Ptp :=
  let t := deviceTimeAfter (p.dt * 2 ^ 32 + p.dtFrac) p.rho
  { p with dt := t / 2 ^ 32 % (2 ^ 48 * 1000000000), dtFrac := t % 2 ^ 32 }

/-- DRAM training starts 1 ms after a cold reset (R405, R487). -/
def drcTick (d : Drc) : Drc := { d with training := d.training || (!d.ready && !d.noDram && !d.selfRef) }

/-- One unit of powered time passes while the part is powered and out of power-on reset. -/
def idle (s : State) : State :=
  if s.aon.powered && !s.aon.porstLow then
    { s with
      lgr := { s.lgr with ptime := (s.lgr.ptime + 1) % 2 ^ 48 }
      ptp := ptpTick s.ptp
      drc := drcTick s.drc }
  else s

end Sys2Proof.Machine
end

