-- ==== Sys2Proof/Safety.lean ====
section
/-! DEFINITION. The terms that claims about the part use: a command completes, a payload leaves its unused bytes zero, an operation
is reported, the modes are legal ones, the byte memories are in canonical form. -/

namespace Sys2Proof.Machine

/-- A step that the model gives a next state. -/
def Advances (s : State) : Prop := ∃ t, step s = .next t

/-- The command completes with a next state that satisfies `P`. -/
def Completes (c : Instr) (s : State) (P : State → Prop) : Prop := ∃ t, exec c s = .next t ∧ P t

/-- Every payload byte outside the ranges (offset, length) that the opcode uses is zero (R52). -/
def Unused (d : Desc) (used : List (Nat × Nat)) : Prop :=
  ∀ i < d.payload.length, d.payload.getD i 0 = 0 ∨ ∃ u ∈ used, u.1 ≤ i ∧ i < u.1 + u.2

/-- From `s` to `t` the operation's outcome was reported to the completion serialiser. -/
def Reports (d : Desc) (status result detail : Nat) (s t : State) : Prop :=
  t.outcomes = s.outcomes ++ [{ tok := d.tok, status := status, result := result, detail := detail }]

/-- From `s` to `t` bytes were written to host memory, or wait because host traffic cannot flow (R331). -/
def WritesHost (a : Nat) (bs : List Byte) (s t : State) : Prop :=
  (canHost s = true → t.hostMem = putHost s.hostMem a bs ∧ t.dueWrites = s.dueWrites) ∧
  (canHost s = false → t.hostMem = s.hostMem ∧ t.dueWrites = s.dueWrites ++ [(a, bs)])

/-- A change keyed to `n` was armed for an operation (R20). -/
def Arms (n : Nat) (d : Desc) (a : KeyedAct) (s t : State) : Prop :=
  t.keyed = s.keyed ++ [{ n := n, tok := some d.tok, seq := s.keySeq, act := a }]

/-- The mode fields hold one of the states that the spec gives them: the render state machine of R190 (and the state that a cancelled stop
returns to), the interlock of R440, the boot straps of R484, the boot mailbox of R488. -/
def ModesLegal (s : State) : Prop :=
  s.sch.st ≤ 4 ∧ (∀ a ∈ s.sch.armed, a.origin ≤ 4) ∧ s.dpx.st ≤ 2 ∧ s.aon.bootSrc ≤ 3 ∧ s.aon.bootState ≤ 3

/-- The byte memories are in canonical form: DRAM, the stewards' tightly coupled memories and the control SRAM. -/
def MemoriesWf (s : State) : Prop :=
  smWf 0 s.drc.mem = true ∧ smWf 0 s.stw.itcm = true ∧ smWf 0 s.stw.dtcm = true ∧ smWf 0 s.stw.sram = true

/-- The parts of the state, one for each field of `State`. -/
inductive Part where
  | pending | regs | latches | rdata | outcomes | outs | hostMem | dueWrites | freeCtr | hif | stw | irq
  | mtx | lgr | aon | clk | ptp | mp | dpx | obj | prefilter | segUid | alignSet | geo
  | pair | cor | sch | fab | drc | keyed | keySeq | lau
  deriving DecidableEq, Repr

/-- A part is the same in two states. -/
def Part.same (s t : State) : Part → Prop
  | .pending => t.pending = s.pending
  | .regs => t.regs = s.regs
  | .latches => t.latches = s.latches
  | .rdata => t.rdata = s.rdata
  | .outcomes => t.outcomes = s.outcomes
  | .outs => t.outs = s.outs
  | .hostMem => t.hostMem = s.hostMem
  | .dueWrites => t.dueWrites = s.dueWrites
  | .freeCtr => t.freeCtr = s.freeCtr
  | .hif => t.hif = s.hif
  | .stw => t.stw = s.stw
  | .irq => t.irq = s.irq
  | .mtx => t.mtx = s.mtx
  | .lgr => t.lgr = s.lgr
  | .aon => t.aon = s.aon
  | .clk => t.clk = s.clk
  | .ptp => t.ptp = s.ptp
  | .mp => t.mp = s.mp
  | .dpx => t.dpx = s.dpx
  | .obj => t.obj = s.obj
  | .prefilter => t.prefilter = s.prefilter
  | .segUid => t.segUid = s.segUid
  | .alignSet => t.alignSet = s.alignSet
  | .geo => t.geo = s.geo
  | .pair => t.pair = s.pair
  | .cor => t.cor = s.cor
  | .sch => t.sch = s.sch
  | .fab => t.fab = s.fab
  | .drc => t.drc = s.drc
  | .keyed => t.keyed = s.keyed
  | .keySeq => t.keySeq = s.keySeq
  | .lau => t.lau = s.lau

/-- From `s` to `t` only the listed parts may have changed. -/
structure OnlyChanges (ps : List Part) (s t : State) : Prop where
  same : ∀ p, p ∉ ps → p.same s t

/-- A window's access has been asked for: BUSY and GO read 1 (R335). -/
def windowGo (svc : Bool) (s : State) : State := setReg s (winCtl svc) 0x80000001

/-- The address that a window holds. -/
def windowAt (svc : Bool) (s : State) : Nat := (getReg s (winAddr svc)).toNat

/-- An access through an idle window is accepted and reaches its target: nothing holds it back, its path and its target exist, and the target's
clock runs (R335, R380, R384, R386, R470). -/
def WindowOpen (svc write : Bool) (s : State) : Prop :=
  winBusy svc s = false ∧ denied (winBy svc) write (windowAt svc s) (windowGo svc s) = false ∧ (isAon (windowAt svc s) = true ∨
    (holdsBack { master := winMaster svc, target := targetOf (windowAt svc s), write := write, id := 0, addr := windowAt svc s }
      s.mtx.held s = false ∧ clockStopped (windowAt svc s) (windowGo svc s) = false))

/-- The target answers, with these symbols of the line in error (none where it answers at once). -/
def Answers (svc : Bool) (ans : Answer) (y : List (Nat × Byte)) (s : State) : Prop :=
  (ans = .ok ∧ y = []) ∨ (ans = .damaged y ∧ isAon (windowAt svc s) = false)

/-- The descriptors whose payload layout is the same for every payload, with the ranges (offset, length) that they use (R52); `errs` are the
lines of DRAM that a CORR_SET_READ meets with errors. -/
def descriptorLayouts (errs : List LineErr) : List ((Desc → Instr) × List (Nat × Nat)) :=
  [(.hifNop, []), (.hifAbort, [(0, 4)]), (.hifSqDisable, [(0, 1)]), (.hifStatus, [(0, 8)]), (.hifIdentify, [(0, 8)]),
   (.schLoad, [(0, 13)]), (.schStart, [(0, 9)]), (.schSwap, [(0, 9)]), (.schCancel, [(0, 1)]), (.schStop, [(0, 9)]),
   (.schRestart, [(0, 9)]), (.schStatus, [(0, 9)]), (.schInfo, [(0, 9)]), (.objMap, [(0, 17)]), (.objCond, [(0, 9), (10, 14)]),
   (.objSegBatch, [(0, 12)]), (.objCtl, [(0, 9), (10, 8)]), (.objStatus, [(0, 13)]), (.objPrefilter, [(0, 9), (16, 8)]),
   (.objCoarse, [(0, 9), (10, 4), (16, 4)]), (.objKernel, [(0, 9), (10, 5)]), (.pairKtbl, [(0, 9), (16, 8)]),
   (.pairStatus, [(0, 9), (10, 5)]), (.geoSpkLoad, [(0, 12)]), (.geoZoneLoad, [(0, 10)]), (.geoTriLoad, [(0, 12)]),
   (.geoCubeLoad, [(0, 18)]), (.geoAirLoad, [(0, 8)]), (.geoBankSwitch, [(0, 10)]), (.geoBankSync, [(9, 1)]),
   (.geoObjLaw, [(0, 9), (10, 4), (16, 8)]), (.geoGlobal, [(0, 9), (16, 20)]), (.geoStatus, [(0, 13)]), (.geoPairRead, [(0, 10)]),
   (.corrStage, [(0, 6), (8, 24)]), (.corrSwitch, [(0, 9), (10, 4)]), ((.corrSetRead · errs), [(0, 9), (10, 2)]),
   (.sluiceSet, [(0, 9), (10, 4), (16, 8)]), (.meterCfg, [(0, 9), (10, 2), (16, 8)]), (.meterRead, [(0, 9), (10, 4)]),
   (.corrStatus, [(0, 8), (10, 5)]), (.corrClearState, [(0, 9), (10, 4)]), (.fabLinkCtl, [(0, 4)]), (.fabIdent, [(0, 3)]),
   (.fabWbLoad, [(0, 12)]), (.fabGrpLoad, [(0, 13), (14, 2)]), (.fabEpochSwitch, [(0, 9)]), (.fabBankSync, []),
   (.fabDisc, [(0, 18)]), (.fabMgmtSend, [(0, 14)]), (.fabStatus, [(0, 9), (10, 5)]), (.fabRemote, [(0, 18)]),
   (.clkRate, [(0, 3), (8, 8)]), (.clkRefCfg, [(0, 20)]), (.clkSelCfg, [(0, 16)]), (.clkSelect, [(0, 1)]), (.clkStatus, [(0, 9)]),
   (.ptpCfg, [(0, 9), (12, 20)]), (.ptpStatus, [(0, 9)]), (.timeCapCfg, [(0, 2)]), (.timeCapRead, [(0, 9)]),
   (.mpPortCfg, [(0, 21)]), (.mpRxStream, [(0, 7), (8, 6), (16, 6), (24, 8)]), (.mpRxMap, [(0, 11), (12, 6)]),
   (.mpTxStream, [(0, 36)]), (.mpStatus, [(0, 9), (10, 5)]), (.sapCfg, [(0, 12)]), (.mixInput, [(0, 3), (4, 4)]),
   (.monTaps, [(0, 8)]), (.sidetone, [(0, 8)]), (.capCfg, [(0, 5), (8, 16)]), (.capCoef, [(0, 11)]),
   (.capDest, [(0, 10), (12, 12)]), (.capStart, [(0, 9)]), (.capStop, []), (.stimLoad, [(0, 12)]), (.lauStatus, [(0, 9)]),
   (.dpxCfg, [(0, 1), (2, 7)]), (.dpxSwitch, [(0, 9)]), (.dpxArm, [(0, 1)]), (.dpxStatus, [(0, 9)]), (.lgrRead, [(0, 16)]),
   (.lgrInfo, [(0, 8)]), (.lgrAnnotate, [(0, 16)]), (.lgrNonce, []), (.lgrClear, [(0, 8)]), (.stwFwLoad, [(0, 12)]),
   (.stwFwStart, [(0, 2)]), (.stwFwStop, [(0, 2)]), (.dspFlowCfg, [(0, 5), (6, 2)]), (.stwStatus, [(0, 9)]),
   (.dspLimits, [(0, 6)])]

/-- The parts of the state that a command can change; every other part is as it was. The parts follow the spec's units: a command of
one unit touches that unit, its registers, the outcome it reports, and what its events reach (the ledger, the interrupt lines). -/
def touched : Instr → List Part
  | .hifNop .. | .lgrNonce .. => [.outcomes]
  | .hifAbort .. | .abortRequest .. => [.regs, .outcomes, .outs, .hostMem, .dueWrites, .hif, .stw, .mtx]
  | .hifSqDisable .. | .opTimeout .. | .sqEnable .. | .sqDisableWrite .. => [.regs, .outcomes, .outs, .hostMem, .dueWrites, .hif, .stw]
  | .hifStatus .. | .hifIdentify .. | .schInfo .. | .geoPairRead .. | .meterRead .. | .lgrRead .. | .lgrInfo .. => [.outcomes, .hostMem, .dueWrites]
  | .schLoad .. | .schLoadDone .. => [.regs, .outcomes, .lgr, .sch]
  | .schStart .. => [.regs, .outcomes, .obj, .sch]
  | .schSwap .. | .schRestart .. => [.outcomes, .sch]
  | .schCancel .. | .schStop .. => [.regs, .outcomes, .sch]
  | .schStatus .. => [.regs, .outcomes, .hostMem, .dueWrites, .sch]
  | .objMap .. => [.outcomes, .obj, .keyed, .keySeq]
  | .objCond .. | .objPrefilter .. | .geoObjLaw .. | .meterCfg .. => [.regs, .outcomes, .keyed, .keySeq]
  | .objSegment .. | .objSegBatch .. => [.regs, .outcomes, .obj, .segUid]
  | .objCtl .. | .objCoarse .. | .objKernel .. | .geoBankSwitch .. | .geoGlobal .. | .sluiceSet .. | .corrClearState ..
    | .mpRxMap .. => [.outcomes, .keyed, .keySeq]
  | .objAlignSet .. => [.outcomes, .alignSet]
  | .objStatus .. => [.outcomes, .hostMem, .dueWrites, .obj]
  | .pairKtbl .. => [.regs, .outcomes, .pair, .keyed, .keySeq]
  | .pairStatus .. => [.outcomes, .hostMem, .dueWrites, .pair]
  | .geoSpkLoad .. | .geoZoneLoad .. | .geoTriLoad .. | .geoCubeLoad .. | .geoAirLoad .. => [.regs, .outcomes, .geo]
  | .geoBankSync .. => [.outcomes, .geo]
  | .geoStatus .. => [.outcomes, .hostMem, .dueWrites, .geo]
  | .corrStage .. => [.regs, .outcomes, .cor, .drc]
  | .corrStageDone .. | .corrSwitch .. => [.outcomes, .cor]
  | .corrSetRead .. => [.regs, .outcomes, .hostMem, .dueWrites, .lgr, .drc]
  | .corrStatus .. => [.outcomes, .hostMem, .dueWrites, .cor]
  | .fabLinkCtl .. => [.regs, .outcomes, .freeCtr, .lgr, .clk, .fab]
  | .fabIdent .. | .lgrAnnotate .. | .lgrClear .. | .lgrClearDone .. => [.regs, .outcomes, .lgr]
  | .fabWbLoad .. | .fabGrpLoad .. => [.regs, .outcomes, .fab]
  | .fabEpochSwitch .. | .fabBankSync .. | .fabDiscTimeout .. => [.outcomes, .fab]
  | .fabDisc .. => [.regs, .outcomes, .hostMem, .dueWrites, .freeCtr, .lgr, .fab]
  | .fabMgmtSend .. | .fabRemote .. => [.regs, .outcomes, .freeCtr, .fab]
  | .fabStatus .. => [.outcomes, .hostMem, .dueWrites, .fab]
  | .clkRate .. => [.regs, .outcomes, .mtx, .clk, .lau]
  | .clkRefCfg .. | .clkSelect .. | .refSwitchDone .. => [.regs, .outcomes, .freeCtr, .lgr, .clk]
  | .clkSelCfg .. | .clkRateTimeout .. => [.outcomes, .clk]
  | .clkStatus .. => [.outcomes, .hostMem, .dueWrites, .freeCtr, .clk]
  | .ptpCfg .. => [.regs, .outcomes, .freeCtr, .lgr, .clk, .ptp]
  | .ptpStepArm .. | .ptpClearGmChange .. | .timeCapCfg .. => [.outcomes, .ptp]
  | .ptpStatus .. | .timeCapRead .. => [.outcomes, .hostMem, .dueWrites, .ptp]
  | .timeTrig .. => [.outcomes, .ptp, .lau]
  | .mpPortCfg .. => [.regs, .outcomes, .lgr, .mp]
  | .mpRxStream .. => [.regs, .outcomes, .freeCtr, .mp]
  | .mpTxStream .. => [.outcomes, .mp]
  | .mpStatus .. => [.outcomes, .hostMem, .dueWrites, .freeCtr, .mp]
  | .sapCfg .. | .mixInput .. | .sidetone .. | .capCfg .. | .capDest .. | .capStart .. => [.outcomes, .lau]
  | .mixBus .. | .monTaps .. | .capCoef .. | .stimLoad .. | .stimStart .. | .stimStop .. => [.regs, .outcomes, .lau]
  | .capStop .. => [.regs, .outcomes, .mtx, .lau]
  | .lauStatus .. => [.outcomes, .hostMem, .dueWrites, .lau]
  | .dpxCfg .. => [.regs, .outcomes, .lgr, .dpx]
  | .dpxSwitch .. => [.outcomes, .dpx]
  | .dpxArm .. => [.regs, .outcomes, .freeCtr, .lgr, .dpx, .lau]
  | .dpxStatus .. => [.outcomes, .hostMem, .dueWrites, .dpx]
  | .stwFwLoad .. | .stwFwStart .. | .stwFwStop .. | .userOpcode .. => [.regs, .outcomes, .stw]
  | .fwStopHalt .. => [.regs, .outcomes, .outs, .hostMem, .dueWrites, .freeCtr, .hif, .stw, .mtx, .lgr, .clk, .ptp, .dpx, .pair, .cor, .sch, .fab, .drc, .keyed, .lau]
  | .dspFlowCfg .. => [.outcomes, .stw]
  | .stwStatus .. => [.outcomes, .hostMem, .dueWrites, .stw]
  | .dspLimits .. => [.regs, .outcomes, .stw, .lgr, .dpx, .lau]
  | .abortOwnerTimeout .. => [.regs, .outcomes, .outs, .hostMem, .dueWrites, .freeCtr, .hif, .stw, .lgr, .clk, .ptp, .dpx, .pair, .cor, .sch, .fab, .drc, .keyed, .lau]
  | .rwinRead .. | .rwinWrite .. | .svcRwinRead .. | .svcRwinWrite .. | .registerWrite .. | .svcWrite .. | .matrixTimeout ..
    | .masterResetDrain .. | .matrixLateResponse .. => [.regs, .latches, .rdata, .outcomes, .outs, .hostMem, .dueWrites, .freeCtr, .hif, .stw, .irq, .mtx, .lgr, .aon, .clk, .ptp, .mp, .dpx, .obj, .segUid, .geo, .pair, .cor, .sch, .fab, .drc, .keyed, .lau]
  | .rwinTimeout .. => [.regs, .mtx]
  | .warmResetRequest .. | .wrstNAssert .. | .thermSample .. => [.regs, .latches, .outcomes, .dueWrites, .freeCtr, .hif, .stw, .irq, .mtx, .lgr, .aon, .clk, .ptp, .mp, .dpx, .obj, .geo, .pair, .cor, .sch, .fab, .drc, .keyed, .lau]
  | .warmResetRelease .. => [.stw, .aon]
  | .coldReset .. | .powerFail .. | .porstNAssert .. => [.regs, .latches, .dueWrites, .hif, .stw, .irq, .mtx, .lgr, .aon, .clk, .ptp, .mp, .dpx, .obj, .prefilter, .segUid, .alignSet, .geo, .pair, .cor, .sch, .fab, .drc, .keyed, .keySeq, .lau]
  | .dbKick .. => [.hif]
  | .lgrRecRead .. | .svcLgrRecRead .. | .cisStatRead .. | .corStatRead .. | .topThermRead .. => [.regs, .rdata]
  | .bootGo .. | .silNChange .. => [.regs, .aon]
  | .coresReleased .. => [.regs, .stw, .lgr, .aon]
  | .segmentPush .. => [.regs, .obj, .segUid]
  | .getWork .. | .getWorkTimeout .. => [.regs, .rdata, .stw]
  | .dspGrant .. => [.regs, .rdata, .hif, .stw]
  | .affinityExpiry .. => [.stw]
  | .dspDone .. => [.regs, .hif, .stw]
  | .dspFwd .. | .dspAdd .. => [.regs, .stw]
  | .cplCommit .. | .cplComplete .. | .cplWithdraw .. => [.regs, .outcomes, .outs, .hostMem, .dueWrites, .freeCtr, .hif, .stw, .clk, .ptp, .dpx, .pair, .cor, .sch, .fab, .drc, .keyed, .lau]
  | .heartbeat .. => [.regs, .outcomes, .freeCtr, .stw, .lgr, .dpx, .fab, .lau]
  | .hbLost .. => [.regs, .stw, .lgr, .dpx, .lau]
  | .svcLimit .. => [.regs, .stw, .lgr]
  | .irqDeliver .. => [.regs, .rdata, .outs, .hostMem, .dueWrites, .hif, .stw, .irq]
  | .irqClaim .. | .irqStatRead .. => [.rdata, .irq]
  | .irqEoi .. => [.regs, .irq, .lgr]
  | .irqMset .. | .irqMclr .. | .irqSwiSet .. | .irqSwiClear .. => [.regs]
  | .drcRefRead .. => [.rdata, .drc]
  | .ptpRptPop .. | .ptpTcapPop .. => [.latches, .rdata, .ptp]
  | .ptpTimeRead .. | .clkTidxRead .. | .clkMapRead .. | .lgrPtimeRead .. => [.latches, .rdata]
  | .dramRetrain .. => [.regs, .drc]
  | .sqDrainEnd .. => [.outcomes, .hif]
  | .cqEnable .. | .cqDisable .. | .d0Return .. | .busMasterChange .. | .l1Exit .. => [.regs, .outs, .hostMem, .dueWrites, .hif, .stw]
  | .evrEnable .. | .evrDisable .. => [.regs, .hif, .irq]
  | .armWrite .. | .peerAssert .. | .peerReleased .. => [.regs, .freeCtr, .lgr, .dpx, .lau]
  | .svcStatus .. => [.rdata]
  | .svcRead .. => [.regs, .latches, .rdata, .freeCtr, .irq, .ptp, .drc]
  | .svcFrameEnd .. => [.mtx]
  | .hostIfReset .. => [.regs, .dueWrites, .hif, .stw, .irq, .mtx, .lgr]
  | .d3hotEntry .. => [.regs, .hif]
  | .msixUnmask .. | .cqModTimer .. => [.outs, .hif]
  | .inboundTimeout .. => [.regs, .rdata, .hif, .mtx]
  | .doorbellPoll .. => [.regs, .outcomes, .outs, .hostMem, .dueWrites, .hif, .stw, .irq, .lgr]
  | .trancheBoundary .. => [.regs, .outcomes, .outs, .hostMem, .dueWrites, .freeCtr, .hif, .stw, .lgr, .aon, .clk, .ptp, .mp, .dpx, .obj, .prefilter, .geo, .pair, .cor, .sch, .fab, .drc, .keyed, .lau]
  | .segmentCutoff .. => [.regs, .outcomes, .lgr, .clk, .mp, .obj, .prefilter, .geo, .pair, .cor, .drc, .keyed]
  | .furrowPhaseStart .. => [.regs, .lgr, .pair]
  | .handoverPhaseStart .. => [.regs, .lgr, .dpx, .pair, .lau]
  | .cond .. => [.regs, .obj, .pair]
  | .geomItem .. => [.regs, .lgr, .obj, .geo]
  | .furrowSlot .. => [.regs, .outcomes, .lgr, .ptp, .dpx, .obj, .pair, .cor, .sch, .fab, .keyed, .lau]
  | .bq .. | .head .. => [.regs, .lgr, .cor]
  | .slu .. => [.regs, .lgr, .mp, .cor]
  | .tailChain .. | .tailReadDone .. => [.regs, .lgr, .cor, .drc]
  | .launch .. => [.regs, .lgr, .dpx, .pair, .fab]
  | .form .. | .mpLockLoss .. | .mpUpTimer .. | .pathDown .. => [.regs, .lgr, .mp]
  | .cisternFetchDone .. => [.regs, .lgr, .pair, .drc]
  | .cisternPanic .. => [.regs, .pair, .drc]
  | .dpxStrobeReceive .. => [.regs, .lgr, .dpx]
  | .linkLock .. | .linkLockTimeout .. | .helloSend .. | .helloTimeout .. => [.fab]
  | .linkLockLoss .. | .fecWindow .. | .helloReceive .. | .helloLost .. | .tickReceive .. => [.regs, .freeCtr, .lgr, .clk, .fab]
  | .caravanReceive .. => [.regs, .outcomes, .hostMem, .dueWrites, .freeCtr, .stw, .lgr, .mp, .dpx, .obj, .segUid, .pair, .fab]
  | .egressFrameStart .. => [.outs, .fab]
  | .remoteRetransmit .. => [.outcomes, .freeCtr, .fab]
  | .refEdge .. | .refMissing .. | .freqWindow .. | .driftEval .. => [.regs, .freeCtr, .lgr, .clk]
  | .qualTimer .. => [.regs, .lgr, .clk]
  | .wtrExpiry .. | .bleedTick .. => [.clk]
  | .pllUnlock .. => [.regs, .outcomes, .lgr, .clk, .ptp, .dpx, .obj, .cor, .sch, .fab, .keyed, .lau]
  | .pllLock .. => [.regs, .outcomes, .freeCtr, .lgr, .clk, .lau]
  | .tidxSet .. => [.regs, .outcomes, .outs, .hostMem, .dueWrites, .freeCtr, .stw, .lgr, .clk, .mp, .dpx, .obj, .fab, .drc, .lau]
  | .mpFrameReceive .. => [.regs, .freeCtr, .stw, .lgr, .ptp, .mp, .obj, .segUid, .fab]
  | .pauseExpiry .. | .mpLockGain .. | .lowPowerIdleReceive .. => [.mp]
  | .txLateDrop .. => [.regs, .mp]
  | .mpFrameDepart .. => [.regs, .outs, .lgr, .ptp, .mp]
  | .ptpSync .. | .syncTimeout .. | .announceTimeout .. => [.regs, .freeCtr, .lgr, .clk, .ptp]
  | .ptpDelayResp .. | .trigFire .. | .ppsOutPulse .. | .trigPulseEnd .. => [.ptp]
  | .ptpAnnounce .. => [.regs, .freeCtr, .lgr, .ptp]
  | .ptpDelayReqSend .. => [.regs, .freeCtr, .mp]
  | .tcapEdge .. => [.regs, .lgr, .ptp]
  | .sapFrame .. => [.regs, .outs, .freeCtr, .lgr, .dpx, .obj, .lau]
  | .sapWsEdge .. | .sapLost .. | .monComplyTimer .. => [.regs, .lgr, .lau]
  | .monClrAssert .. | .monClrRelease .. => [.regs, .lgr, .aon, .lau]
  | .claimTimeout .. => [.regs, .lgr, .dpx, .lau]
  | .commandedRelease .. => [.regs, .outcomes, .lgr, .dpx, .lau]
  | .takebackHold .. | .peerLowHeld .. => [.dpx]
  | .flashOpDone .. | .journalPlace .. | .ledgerScanDone .. => [.regs, .lgr]
  | .checkpointSave .. => [.lgr]
  | .dramTrainDone .. | .mr4Poll .. | .refreshAccrual .. | .scrubRead .. => [.regs, .lgr, .drc]
  | .shadowStoreWrite .. => [.sch]
  | .dramSelfRefreshExit .. => [.drc]
  | .jtagTapOperation .. => [.aon]

end Sys2Proof.Machine
end

