-- ==== Sys2Proof/Certificates/Slice0/Obligations.lean ====
section
/-! DEFINITION. The statements for the provers. -/

open Sys2Proof Sys2Proof.Machine

/-! ## Host-interface and schedule commands complete -/

/-- HIF_NOP, HIF_STATUS, HIF_IDENTIFY, HIF_ABORT and HIF_SQ_DISABLE complete: with their unused bytes zero and their fields in
range, each has the effect of R321, R324 and R327. Derived: the records' contents are the model's named functions. -/
def Obligations.HostInterfaceDescriptorsComplete : Prop :=
  (∀ d s, Unused d [] → Completes (.hifNop d) s (fun t => Reports d stOk (tidxLow s % 2 ^ 32) 0 s t)) ∧
  (∀ d s, Unused d [(0, 8)] → Completes (.hifStatus d) s (fun t => Reports d stOk 0 0 s t ∧ WritesHost (pl d 0 8) (hifRecord s) s t)) ∧
  (∀ d s, Unused d [(0, 8)] → Completes (.hifIdentify d) s (fun t => Reports d stOk 0 0 s t ∧ WritesHost (pl d 0 8) (identRecord s) s t)) ∧
  (∀ d s, Unused d [(0, 4)] → pl d 0 1 ≤ 2 → (pl d 0 1 = 2 ∨ pl d 1 1 ≤ 15) →
    exec (.hifAbort d) s = .next (startAbort (pl d 0 1) (pl d 1 1) (pl d 2 2) (some d.tok) s)) ∧
  (∀ d s, Unused d [(0, 1)] → pl d 0 1 ≤ 15 → (∀ o, findOp s d.tok = some o → o.sq ≠ pl d 0 1) →
    exec (.hifSqDisable d) s = .next (sqDisableStart (pl d 0 1) (some d.tok) s))

/-- SCH_LOAD, its end, SCH_START, SCH_SWAP, SCH_STOP and SCH_RESTART are accepted and arm what R187 and R191 to R201 say. -/
def Obligations.ScheduleCommandsArm : Prop :=
  (∀ d s, Unused d [(0, 13)] → pl d 12 1 = 1 → swapArmed s = false → armedKind s 1 = none →
    Completes (.schLoad d) s (fun t => t.sch.loading = some d.tok ∧ t.sch.shadowValid = false)) ∧
  (∀ d s b, Unused d [(0, 13)] → pl d 12 1 = 0 → 1 ≤ pl d 8 4 → pl d 8 4 ≤ 16777216 → hostBlock d 0 (pl d 8 4) = some b →
    swapArmed s = false → armedKind s 1 = none →
    Completes (.schLoad d) s (fun t => t.sch.loading = some d.tok ∧ t.sch.shadowValid = false ∧
      t.sch.shadow = storeWrite (loadDone s).sch.shadow 0 b)) ∧
  (∀ s tok, s.sch.loading = some tok → imgVerdict (getReg s aPwrLimit).toNat s.sch.shadow = none →
    Completes .schLoadDone s (fun t => t.sch.shadowValid = true ∧ t.sch.shadowImg = some (parseImg s.sch.shadow) ∧
      t.sch.loading = none ∧ t.outcomes = s.outcomes ++ [{ tok := tok, status := stOk, result := 0, detail := 0 }])) ∧
  (∀ d s i n, Unused d [(0, 9)] → pl d 8 1 ≤ 1 → n = keyN d (leastBefore s 1) → beforeH s ((n : Int) - 1) = true →
    validShadow s = some i → stopped s = true → s.clk.rateSet = true → i.rate = s.clk.rate → suitsStart s i n = true →
    Completes (.schStart d) s (fun t => t.sch.st = 1 ∧
      t.sch.armed = some { kind := 1, n := n, tok := d.tok, shadow := false, origin := 0 })) ∧
  (∀ d s i a n, Unused d [(0, 9)] → pl d 8 1 ≤ 1 → validShadow s = some i → s.sch.activeImg = some a →
    n = keyN d (upTo (leastBefore s (tailQ s - 1)) (Nat.lcm i.f a.f)) → n % i.f = 0 → n % a.f = 0 →
    beforeH s ((n : Int) - tailQ s + 1) = true → s.sch.st = 2 → s.sch.swap = none → s.sch.armed = none → compatible s i n = true →
    Completes (.schSwap d) s (fun t => t.sch.swap = some { n := n, tok := d.tok, switched := false, byRestart := false } ∧
      t.sch.st = 2)) ∧
  (∀ d s n, Unused d [(0, 9)] → pl d 8 1 ≤ 1 → n = keyN d (leastBefore s 1) → beforeH s ((n : Int) - 1) = true →
    (s.sch.st = 2 ∨ s.sch.st = 4) → s.sch.armed = none → swapArmed s = false →
    Completes (.schStop d) s (fun t => t.sch.st = 3 ∧ t.sch.stopN = some n ∧
      t.sch.armed = some { kind := 3, n := n, tok := d.tok, shadow := false, origin := s.sch.st })) ∧
  (∀ d s n, Unused d [(0, 9)] → pl d 8 1 ≤ 1 → n = keyN d (leastBefore s 1) → beforeH s ((n : Int) - 1) = true → s.sch.st = 4 →
    s.sch.armed = none → digestGood 48 (imgBody s.sch.active) = true →
    Completes (.schRestart d) s (fun t => t.sch.armed = some { kind := 4, n := n, tok := d.tok, shadow := false, origin := 4 }))

/-- SCH_CANCEL withdraws a start, a swap, a stop or a restart whose deadline has not come, and both operations complete: the
cancel OK, the withdrawn action FLUSHED (R193). SCH_STATUS and SCH_INFO write their records (R204). -/
def Obligations.ScheduleCancelAndStatusComplete : Prop :=
  (∀ d s a, Unused d [(0, 1)] → pl d 0 1 = 1 → armedKind s 1 = some a → armedPending s a = true →
    exec (.schCancel d) s = .next (finish d stOk (dropStart s))) ∧
  (∀ d s w, Unused d [(0, 1)] → pl d 0 1 = 2 → s.sch.swap = some w → w.byRestart = false → swapPending s w = true →
    Completes (.schCancel d) s (fun t => t.sch.swap = none ∧ t.outcomes = s.outcomes ++
      [{ tok := w.tok, status := stFlushed, result := 0, detail := 0 }, { tok := d.tok, status := stOk, result := 0, detail := 0 }])) ∧
  (∀ d s a, Unused d [(0, 1)] → pl d 0 1 = 3 → armedKind s 3 = some a → armedPending s a = true →
    Completes (.schCancel d) s (fun t => t.sch.armed = none ∧ t.sch.stopN = none ∧ t.sch.st = a.origin ∧ t.outcomes = s.outcomes ++
      [{ tok := a.tok, status := stFlushed, result := 0, detail := 0 }, { tok := d.tok, status := stOk, result := 0, detail := 0 }])) ∧
  (∀ d s a, Unused d [(0, 1)] → pl d 0 1 = 4 → armedKind s 4 = some a → armedPending s a = true →
    Completes (.schCancel d) s (fun t => t.sch.armed = none ∧ t.sch.st = s.sch.st ∧ t.outcomes = s.outcomes ++
      [{ tok := a.tok, status := stFlushed, result := 0, detail := 0 }, { tok := d.tok, status := stOk, result := 0, detail := 0 }])) ∧
  (∀ d s, Unused d [(0, 9)] → pl d 8 1 ≤ 1 →
    Completes (.schStatus d) s (fun t => Reports d stOk 0 0 s t ∧ WritesHost (pl d 0 8) (schRecord s) s t ∧
      t.sch.liveDrop = (if pl d 8 1 = 1 then 0 else s.sch.liveDrop) ∧ t.sch.masked = (if pl d 8 1 = 1 then 0 else s.sch.masked))) ∧
  (∀ d s, Unused d [(0, 9)] → pl d 8 1 ≤ 1 →
    Completes (.schInfo d) s (fun t => Reports d stOk 0 0 s t ∧
      WritesHost (pl d 0 8) (fit 384 (if pl d 8 1 = 1 then s.sch.shadow else s.sch.active)) s t))


/-! ## Media ports, PTP and the time unit -/

/-- Events of the media ports and of their frames (R271 to R274, R280, R282, R284). -/
def Obligations.MediaCommandsComplete : Prop :=
  (∀ n s, n < 4 → (portAt s n).up = true → exec (.mpLockLoss n) s = .next (portDown n (setPort n { portAt s n with locked := false } s))) ∧
  (∀ n s, n < 4 → exec (.mpLockGain n) s = .next (setPort n { portAt s n with locked := true } s)) ∧
  (∀ n s, n < 4 → (portAt s n).enabled = true → (portAt s n).locked = true → (portAt s n).up = false →
    exec (.mpUpTimer n) s = .next (portUp n s)) ∧
  (∀ n f s, n < 4 → (portAt s n).up = true → exec (.mpFrameReceive n f) s = .next (frameTake n f s)) ∧
  (∀ n s, n < 4 → exec (.pauseExpiry n) s = .next (setPort n { portAt s n with paused := false, quanta := 0 } s)) ∧
  (∀ x s, (rxAt s x).enabled = true → (rxAt s x).a.down = false → exec (.pathDown x false) s =
    .next (ledger 0x0603 2 x 0 (cntAt (rxAt s x).cnt 12) (evRaise (aMpEvt (rxAt s x).portA) 2
      (setRx x { rxAt s x with a := { (rxAt s x).a with down := true } } s)))) ∧
  (∀ x s, (rxAt s x).enabled = true → (rxAt s x).pathBEn = true → (rxAt s x).b.down = false → exec (.pathDown x true) s =
    .next (ledger 0x0603 2 x 1 (cntAt (rxAt s x).cnt 16) (evRaise (aMpEvt (rxAt s x).portB) 2
      (setRx x { rxAt s x with b := { (rxAt s x).b with down := true } } s)))) ∧
  (∀ n s i f, n < 4 → (portAt s n).queue.findIdx? (fun g => decide (g.cls = 1)) = some i → (portAt s n).queue[i]? = some f →
    exec (.txLateDrop n) s = .next (evRaise (aMpEvt n) 3 (txCount f.stream 8 1 (portCount n 60 (setPort n { portAt s n with
      queue := (portAt s n).queue.eraseIdx i } s))))) ∧
  (∀ n slip s i f, n < 4 → (portAt s n).up = true → (portAt s n).paused = false → s.aon.trip = false →
    nextTx (portAt s n).queue = some i → (portAt s n).queue[i]? = some f →
    exec (.mpFrameDepart n slip) s = .next (departFrame n f slip (setPort n { portAt s n with queue := (portAt s n).queue.eraseIdx i } s))) ∧
  (∀ n s, n < 4 → exec (.lowPowerIdleReceive n) s = .next (portCount n 52 s)) ∧
  (∀ n e s i f x, e < 65536 → s.sch.activeImg = some i → (i.forms.getD n [])[e]? = some f → formStream i f = some x →
    s.clk.tidx % i.f = f.phase → 0 ≤ 16 * (s.clk.tidx : Int) + f.dofs →
    formServes s e (16 * (s.clk.tidx : Int) + f.dofs).toNat (packetP i.rate x.pcode) = true → (txAt s x.stream).enabled = true →
    exec (.form n e) s = .next (formPacket x (16 * (s.clk.tidx : Int) + f.dofs).toNat (packetP i.rate x.pcode) s))

/-- PTP messages and time-outs, the pins' edges and pulses (R289, R293, R295, R297, R298). -/
def Obligations.PtpCommandsComplete : Prop :=
  (∀ m s, s.ptp.st ≠ 0 → s.ptp.masters ≠ [] → m.master = s.ptp.gm → m.portB = s.ptp.viaB → exec (.ptpSync m) s = .next (syncOp m s)) ∧
  (∀ q (t3 : Nat) (t4 c : Int) s a b, s.ptp.lastSync = some (a, b) → s.ptp.sent = some (q, t3) → s.ptp.st ≠ 0 →
    Completes (.ptpDelayResp q t4 c) s (fun t => t.ptp.delays = (((b - a) + (t4 - (t3 : Int)) - c) / 2 :: s.ptp.delays).take 16 ∧
      t.ptp.meanDelay = meanI t.ptp.delays ∧ t.ptp.sent = none)) ∧
  (∀ m s, s.ptp.st ≠ 0 → (m.portB = false ∨ s.ptp.portB ≠ 255) → exec (.ptpAnnounce m) s =
    .next (selectMaster (setPtp s (fun p => { p with
      masters := p.masters.filter (fun x => decide (x.identity ≠ m.identity) || x.portB != m.portB) ++ [m] })))) ∧
  (∀ q fl s, s.ptp.st ≠ 0 → s.ptp.masters ≠ [] → ptpPort s < 4 → s.ptp.hybrid = false → exec (.ptpDelayReqSend q fl) s =
    .next (queueTx (ptpPort s) { cls := 0, stream := 0, seqId := q % 65536, report := fl, domain := s.ptp.domain,
                                 bytes := udpFrame s (ptpPort s) 0x01005E000181 0xE0000181 (portAt s (ptpPort s)).ptpPcp
                                   (portAt s (ptpPort s)).ptpDscp 319 319 (delayReq s q) }
      { s with freeCtr := s.freeCtr + 5 })) ∧
  (∀ s, s.ptp.st ≠ 0 → exec .syncTimeout s = .next (freeRun 3 (setPtp s (fun p => { p with nSyncTmo := bump 32 p.nSyncTmo 1 })))) ∧
  (∀ s, s.ptp.st ≠ 0 → exec .announceTimeout s = .next (selectMaster (freeRun 4 (setPtp s (fun p => { p with
    masters := p.masters.filter (fun x => decide (x.identity ≠ p.gm) || x.portB != p.viaB) }))))) ∧
  (∀ p s t, smFind s.ptp.trig p = some t → t.mode = 0 → t.n ≤ s.clk.tidx + 1 → s.clk.tidxValid = true →
    exec (.trigFire p) s = .next (setPin p (!t.pol) (setPtp s (fun x => { x with trig := smDrop x.trig p })))) ∧
  (∀ p s t, smFind s.ptp.trig p = some t → t.mode ≠ 0 → t.mode ≠ 2 → s.ptp.valid = true → exec (.trigFire p) s =
    .next (setPin p (!t.pol) (setPtp s (fun x => { x with trig := smDrop x.trig p })))) ∧
  (∀ p s t, smFind s.ptp.trig p = some t → t.mode = 2 → s.ptp.valid = true → exec (.trigFire p) s =
    .next (setPin p (!t.pol) (setPtp s (fun x => { x with trig := smPut x.trig p { t with time := t.time + t.period } })))) ∧
  (∀ s, s.ptp.ppsEn = true → s.ptp.valid = true → Completes .ppsOutPulse s (fun t => 4 ∈ t.ptp.pinHigh)) ∧
  (∀ s, Completes (.trigPulseEnd 4) s (fun t => t.ptp.pinHigh = s.ptp.pinHigh.filter (fun q => decide (q ≠ 4)))) ∧
  (∀ p s, p < 4 → exec (.trigPulseEnd p) s = .next (setPin p (!decide (p ∈ s.ptp.pinHigh)) s)) ∧
  (∀ p e r c s, p < 4 → e = (if r then 1 else 2) → s.ptp.tcapMask / 2 ^ p % 2 = 1 → s.ptp.tcapEdges / 4 ^ p % 4 / e % 2 = 1 →
    s.ptp.tcapQ.length < 64 → Completes (.tcapEdge p r c) s (fun t => t.ptp.tcapQ = s.ptp.tcapQ ++
      [{ pin := p, edge := e, time := s.ptp.dt, tidx := tidxLow s, cycle := c }]))

/-! ## Audio ports, the monitor, the interlock, flash, DRAM, thermal and JTAG events -/

/-- Frames and edges of the serial audio ports, the silence pin and the monitor's inputs (R155, R415, R416, R429, R430). -/
def Obligations.AudioCommandsComplete : Prop :=
  (∀ p a b s, s.aon.trip = false → p < 16 → (sapAt s p).enabled = true → (sapAt s p).lost = false → ((sapAt s p).master = true ∨ (sapAt s p).last ≠ none) →
    exec (.sapFrame p a b) s = .next (sapFrame p a b s)) ∧
  (∀ p f b s, p < 16 → (sapAt s p).enabled = true → (sapAt s p).master = false → exec (.sapWsEdge p f b) s = .next (wsEdge p f b s)) ∧
  (∀ p s, p < 16 → (sapAt s p).enabled = true → (sapAt s p).master = false → (sapAt s p).lost = false → exec (.sapLost p) s =
    .next (groupUnderrun p (ledger 0x1001 3 p 1 (cntAt (sapAt s p).cnt 4) (evRaise aLauEvt 2 (setSap p { sapAt s p with lost := true } s))))) ∧
  (∀ b s, exec (.silNChange b) s =
    .next (evIf (decide (s.aon.silLow = b)) aTopEvt 5 { s with aon := { s.aon with silLow := !b } })) ∧
  (∀ s, s.aon.monClrLow = false → exec .monClrAssert s = .next (monSettleAll (ledger 0x1004 2 0
    (Word.bits (getReg s aMonClear) 23 0) 0 (evRaise aLauEvt 6 { s with aon := { s.aon with monClrLow := true } })))) ∧
  (∀ s, s.aon.monClrLow = true → exec .monClrRelease s = .next (monSettleAll (ledger 0x1004 2 1
    (Word.bits (getReg s aMonClear) 23 0) 0 (evRaise aLauEvt 6 { s with aon := { s.aon with monClrLow := false } })))) ∧
  (∀ k p s, p ∉ (monAt s k).comply → exec (.monComplyTimer k p true) s = .next (ledger 0x1003 3 k p 0 (evRaise aLauEvt 5
    (setMon s k { monAt s k with comply := (monAt s k).comply ++ [p] })))) ∧
  (∀ k p s, exec (.monComplyTimer k p false) s =
    .next (setMon s k { monAt s k with comply := (monAt s k).comply.filter (fun q => decide (q ≠ p)) }))

/-- The interlock's pins and timers (R440, R443, R445, R447, R448). -/
def Obligations.InterlockCommandsComplete : Prop :=
  (∀ s, s.dpx.st = 0 → Completes .peerAssert s (fun t => t.dpx = { s.dpx with
    peerLow := true, peerRel := false, drove := true, holdOff := false } ∧ t.regs = s.regs ∧ t.lgr = s.lgr)) ∧
  (∀ s, s.dpx.st = 1 → exec .peerReleased s = .next (startDriving (if s.dpx.drove then 1 else 4)
    (setDpx s (fun d => { d with peerLow := false, peerRel := true })))) ∧
  (∀ s, s.dpx.st ≠ 1 → exec .peerReleased s = .next (tryClaim (setDpx s (fun d => { d with peerLow := false, peerRel := true })))) ∧
  (∀ s, s.dpx.st = 1 → s.aon.primary = true → s.dpx.peerLow = true →
    exec .claimTimeout s = .next (strapConflict 1 (clearArm 2 s))) ∧
  (∀ s tok, s.dpx.st = 2 → s.dpx.armedN = some (s.clk.tidx + 1, tok) → peerReady s = true →
    exec .commandedRelease s = .next (stopDriving 3 s)) ∧
  (∀ s tok, s.dpx.st = 2 → s.dpx.armedN = some (s.clk.tidx + 1, tok) → peerReady s = false →
    Completes .commandedRelease s (fun t => t.dpx = { s.dpx with armedN := none } ∧
      t.outcomes = s.outcomes ++ [{ tok := tok, status := stNotPermitted, result := 0, detail := 0 }])) ∧
  (∀ s f, xlinkUp s = true → s.dpx.takeback = true → s.aon.primary = true → dpxArm s = true → s.sch.st = 2 →
    s.dpx.faultSinceArm = false → s.dpx.st = 0 → s.dpx.peer = some f → f.state % 4 = 2 →
    Completes .takebackHold s (fun t => t = setDpx s (fun d => { d with takebackN := some (s.clk.tidx + 8) }))) ∧
  (∀ s, s.dpx.peerLow = true → s.aon.primary = false → Completes .peerLowHeld s (fun t => t = setDpx s (fun d => { d with yields := 0 }))) ∧
  (∀ v s, v.toNat ≤ 1 → exec (.armWrite v) s = .next (armOp (decide (v.toNat = 1)) s)) ∧
  (∀ k w s, standbyOn s = true → k.natAbs ≤ 10 * s.dpx.skewLim →
    w = decide ((if k < 0 then s.clk.tidx + 1 else s.clk.tidx) % 1024 = 0) →
    exec (.dpxStrobeReceive k w) s = .next (setReg (setDpx s (fun d => { d with skew := k, missing := 0 })) aDpxSkew (BitVec.ofNat 32 (s32 k))))

/-- The ledger's flash operations, DRAM, the thermal sensor, the links' low-power exits and the TAP (R331, R402, R403, R405, R407, R409, R461 to R463, R470, R486, R509). -/
def Obligations.FlashDramAndBoardCommandsComplete : Prop :=
  (∀ s g, s.lgr.ready = true → s.lgr.queue ≠ [] → g = programQueue { s.lgr with retry := false } → exec (.flashOpDone none true) s =
    .next (evIf (g.full && !s.lgr.full) aLgrEvt 2 (evIf (decide (g.dropped ≠ s.lgr.dropped)) aLgrEvt 1 { s with lgr := g }))) ∧
  (∀ s, s.lgr.ready = true → s.lgr.queue ≠ [] → exec (.flashOpDone none false) s = .next (programDone false s)) ∧
  (∀ e s, s.lgr.ready = true → Completes (.flashOpDone (some e) true) s (fun t => t = { s with lgr := { s.lgr with eraseRetry := none } })) ∧
  (∀ e s, s.lgr.ready = true → exec (.flashOpDone (some e) false) s = .next (eraseDone e false s)) ∧
  (∀ s, exec .journalPlace s =
    .next (evIf (decide ((reclaim s.lgr).dropped ≠ s.lgr.dropped)) aLgrEvt 1 { s with lgr := reclaim s.lgr })) ∧
  (∀ s, Completes .checkpointSave s (fun t => t = { s with lgr := saveCkpt s.lgr })) ∧
  (∀ s g, s.lgr.ready = false → g = saveCkpt (reclaimAll 256 (scanNext s.lgr)) →
    exec .ledgerScanDone s = .next (ledger 0x0001 1 g.poc s.aon.bootSrc g.lossBound { s with lgr := { g with ready := true } })) ∧
  (∀ r s n, trainFault r = none → fitSize r.fit = some n → Completes (.dramTrainDone r) s (fun t => t.drc.ready = true ∧
    t.drc.noDram = false ∧ t.drc.size = n ∧ t.drc.training = false ∧ t.drc.retraining = false ∧
    t.drc.mem = (if s.drc.retraining = true ∧ s.drc.noDram = false then s.drc.mem else []))) ∧
  (∀ r s f, trainFault r = some f → s.drc.noDram = false → Completes (.dramTrainDone r) s (fun t => t.drc.ready = false ∧
    t.drc.noDram = true ∧ t.drc.size = 0)) ∧
  (∀ c v s r t u, r = Config.mr4Rate v % 4 → t = setDrc s (fun d => { d with rate := smSet 0 d.rate c r }) →
    u = (if min (smGet 0 s.drc.rate c) 2 = min r 2 then t
      else ledger 0x0F05 2 c r ((excess t c (limitOf t c)).foldl max 0) (evRaise aDrcEvt 6 (payExcess c (limitOf t c) t))) →
    exec (.mr4Poll c v) s = .next (if r = 3 then ledger 0x0F07 5 c v 0 (evRaise aDrcEvt 7 u) else u)) ∧
  (∀ c b ds s t, s.drc.noDram = false → t = payIdle c (ds.filter (fun k => decide (k < 16))) s → exec (.refreshAccrual c b true ds) s =
    .next (setDrc t (fun d => { d with
      debt := smSet 0 d.debt (c * 16 + b) 0, maxDebt := smMod 0 d.maxDebt c (fun x => max x (smGet 0 t.drc.debt (c * 16 + b) + 1)) }))) ∧
  (∀ c b s, s.drc.noDram = false → smGet 0 s.drc.debt (c * 16 + b) < limitOf s c → Completes (.refreshAccrual c b false []) s (fun t =>
    smGet 0 t.drc.debt (c * 16 + b) = smGet 0 s.drc.debt (c * 16 + b) + 1)) ∧
  (∀ l r s b n, Word.bit (getReg s aDrcCtl) 1 = true → s.drc.ready = true → l * 64 < dataEnd s.drc.size →
    decodeLine s { line := l, symbols := r } = some (b, n) → exec (.scrubRead l r) s =
    .next (if n = 0 then s else dramPut (l * 64) b (lineRead 4 (l * 64) (.corrected n) s))) ∧
  (∀ l r s, Word.bit (getReg s aDrcCtl) 1 = true → s.drc.ready = true → l * 64 < dataEnd s.drc.size →
    decodeLine s { line := l, symbols := r } = none → exec (.scrubRead l r) s = .next (lineRead 4 (l * 64) .uncorrectable s)) ∧
  (∀ j s, exec (.thermSample j) s = .next (runDeferred (tripJudge j (alertJudge j (storeTj j s))))) ∧
  (∀ s, exec .l1Exit s = .next (resumeHost false { s with hif := { s.hif with inL1 := false, l1Exit := false } })) ∧
  (∀ s, s.drc.selfRef = true → Completes .dramSelfRefreshExit s (fun t => t.drc = { s.drc with selfRef := false, ready := true })) ∧
  (∀ b s, Completes (.jtagTapOperation (.extest b)) s (fun t => t.aon = { s.aon with tapInstr := 3, extestOwn := some b })) ∧
  (∀ v s, v.toNat &&& 0xFFFFFFFC = 0 → Word.bit v 0 = true → stopped s = true → s.drc.ready = true → s.drc.retraining = false →
    Completes (.dramRetrain v) s (fun t => t.drc.retraining = true ∧ t.drc.mem = s.drc.mem))

/-! ## The step, the queue and what holds of every command -/

/-- A step with a command at the front of the queue is `exec` of it on the state with the queue's rest. -/
def Obligations.StepRunsTheFrontCommand : Prop :=
  ∀ c cs s, s.pending = c :: cs → step s = exec c { s with pending := cs }

/-- The model's choice (log entry 3): with nothing waiting, a step is one unit of powered time (1/1,024 s, R459), which runs only while the
part is powered and out of power-on reset, and changes powered time, device time and the start of DRAM training only. -/
def Obligations.StepWithNothingWaitingIsPoweredTime : Prop :=
  (∀ s, s.pending = [] → s.aon.powered = true → s.aon.porstLow = false → ∃ t, step s = .next t ∧
    t.lgr = { s.lgr with ptime := (s.lgr.ptime + 1) % 2 ^ 48 } ∧ OnlyChanges [.lgr, .ptp, .drc] s t ∧
    t.drc = { s.drc with training := t.drc.training } ∧ t.ptp = { s.ptp with dt := t.ptp.dt, dtFrac := t.ptp.dtFrac }) ∧
  (∀ s, s.pending = [] → (s.aon.powered = false ∨ s.aon.porstLow = true) → step s = .next s)

/-- Every command of the table completes in every state: none faults, none is refused. -/
def Obligations.EveryCommandCompletes : Prop := ∀ c s, ∃ t, exec c s = .next t

/-- The frame of every command: it answers a next state that differs in no part of the state but those that `touched` lists for it. -/
def Obligations.CommandsChangeOnlyTheirParts : Prop := ∀ c s, ∃ t, exec c s = .next t ∧ OnlyChanges (touched c) s t

/-- The queue is first in, first out: a step takes the front command and no command takes or adds another (log entry 2). -/
def Obligations.StepTakesExactlyTheFrontCommand : Prop := ∀ c cs s, s.pending = c :: cs → ∃ t, step s = .next t ∧ t.pending = cs

/-- At reset the modes are legal, the byte memories canonical, and no command waits. -/
def Obligations.ResetMeetsTheInvariants : Prop := ModesLegal State.reset ∧ MemoriesWf State.reset ∧ State.reset.pending = []

/-- Every step keeps the mode fields legal (R190, R440, R484, R488). -/
def Obligations.EveryStepKeepsModesLegal : Prop := ∀ s t, ModesLegal s → step s = .next t → ModesLegal t

/-- Every step keeps the byte memories canonical. -/
def Obligations.EveryStepKeepsMemoriesCanonical : Prop := ∀ s t, MemoriesWf s → step s = .next t → MemoriesWf t

/-- The straps BOOT_SRC and DPX_ROLE are sampled by a cold reset alone: while power and PORST_N hold, every other command keeps them (R484). -/
def Obligations.StrapsChangeOnlyAtColdReset : Prop :=
  ∀ c s t, (∀ b p, c ≠ .coldReset b p) → c ≠ .powerFail → c ≠ .porstNAssert → exec c s = .next t →
    t.aon.bootSrc = s.aon.bootSrc ∧ t.aon.primary = s.aon.primary

/-! ## Rules of the shared operations -/

/-- R11: what a legal write leaves in a field of each access type, and in the bits outside the field. -/
def Obligations.FieldWritesFollowTheirAccessType : Prop :=
  ∀ (v old : Word) (f : Fld), f.lsb ≤ f.msb → f.msb ≤ 31 → ∀ i < 32,
    ((i < f.lsb ∨ f.msb < i) → Word.bit (writeField v old f) i = Word.bit old i) ∧
    (f.lsb ≤ i → i ≤ f.msb → Word.bit (writeField v old f) i = (match f.acc with
      | .rw | .rws => Word.bit v i
      | .ro | .wo => Word.bit old i
      | .w1c => Word.bit old i && !Word.bit v i
      | .w1s => Word.bit old i || Word.bit v i
      | .rwl => if Word.bits old f.msb f.lsb = 0 then Word.bit v i else Word.bit old i))

/-- R10: a write with a bit in a reserved field, or a reserved encoding in a field, is discarded as a whole. -/
def Obligations.IllegalWritesAreDiscarded : Prop :=
  (∀ a fs v s i, i < 32 → Word.bit v i = true → (∀ f ∈ fs, i < f.lsb ∨ f.msb < i) → (∀ f ∈ fs, f.lsb ≤ f.msb ∧ f.msb ≤ 31) →
    plainWrite a fs v s = s) ∧
  (∀ a fs v s f, f ∈ fs → f.checked = true → (Word.bits v f.msb f.lsb < f.lo ∨ f.hi < Word.bits v f.msb f.lsb) → plainWrite a fs v s = s)

/-- R118: a block move takes the smallest exponent at which every rounded value fits s24; where none does it is 15, and each value that
does not fit is saturated and counted. -/
def Obligations.BlockMoveTakesTheSmallestExponent : Prop :=
  ∀ xs r, r = moveBlk xs → r.1.e ≤ 15 ∧ r.1.m = xs.map (fun x => satS 24 (rnd r.1.e x)) ∧
    r.2 = (xs.filter (fun x => !fits24 (rnd r.1.e x))).length ∧ (∀ e < r.1.e, ∃ x ∈ xs, fits24 (rnd e x) = false) ∧
    (0 < r.2 → r.1.e = 15)

/-- R461: the engine's queue holds at most 64 records; a full queue gives way only to severity 5 or more, the newest record of lower
severity leaving, and every dropped record counts. -/
def Obligations.LedgerQueueHoldsSixtyFour : Prop :=
  (∀ g r, g.queue.length < 64 → enqueue g r = { g with queue := g.queue ++ [r] }) ∧
  (∀ g r, g.queue.length = 64 → (enqueue g r).queue.length = 64 ∧ (enqueue g r).dropped = bump 32 g.dropped 1) ∧
  (∀ g r, g.queue.length = 64 → r.sev < 5 → (enqueue g r).queue = g.queue) ∧
  (∀ g r a x b, g.queue.length = 64 → 5 ≤ r.sev → g.queue = a ++ x :: b → x.sev < r.sev → (∀ y ∈ b, r.sev ≤ y.sev) →
    (enqueue g r).queue = a ++ b ++ [r]) ∧
  (∀ g r, g.queue.length = 64 → 5 ≤ r.sev → (∀ y ∈ g.queue, r.sev ≤ y.sev) → (enqueue g r).queue = g.queue)

/-- R519: of the events of one subject in a window of 1,024 s the first appends a record; later ones are counted and reported with the
first record of a later window. -/
def Obligations.RateLimitedRecordsComeOncePerWindow : Prop :=
  (∀ code sev subj ps s, (smGet {} s.lgr.lim (code * 2 ^ 20 + subj)).win = some (ledgerWindow s) →
    (ledgerLim code sev subj 1 ps s).lgr.queue = s.lgr.queue ∧ (ledgerLim code sev subj 1 ps s).lgr.seq = s.lgr.seq ∧
    (smGet {} (ledgerLim code sev subj 1 ps s).lgr.lim (code * 2 ^ 20 + subj)).cnt =
      (smGet {} s.lgr.lim (code * 2 ^ 20 + subj)).cnt + 1) ∧
  (∀ code sev subj ps s, (smGet {} s.lgr.lim (code * 2 ^ 20 + subj)).win ≠ some (ledgerWindow s) → s.lgr.queue.length < 64 →
    (ledgerLim code sev subj 1 ps s).lgr.queue = s.lgr.queue ++ [mkRec s.lgr code sev false
      (ps ((smGet {} s.lgr.lim (code * 2 ^ 20 + subj)).cnt + 1)).1 (ps ((smGet {} s.lgr.lim (code * 2 ^ 20 + subj)).cnt + 1)).2.1
      (ps ((smGet {} s.lgr.lim (code * 2 ^ 20 + subj)).cnt + 1)).2.2] ∧
    smGet {} (ledgerLim code sev subj 1 ps s).lgr.lim (code * 2 ^ 20 + subj) = { win := some (ledgerWindow s), cnt := 0 })

/-- R22, R320: a keyed change armed at its cut-off or later completes LATE and arms nothing. -/
def Obligations.LateKeyedDescriptorsArmNothing : Prop :=
  (∀ d s, Unused d [(0, 9), (10, 8)] → pl d 8 1 = 0 → 1 ≤ pl d 12 2 → pl d 10 2 + pl d 12 2 ≤ 1024 → pl d 14 1 ≤ 1 → pl d 15 1 ≤ 1 →
    1 ≤ pl d 16 1 → pl d 16 1 ≤ 64 → pl d 17 1 ≤ 1 → pl d 0 8 < mTranche s → exec (.objCtl d) s = .next (finish d stLate s)) ∧
  (∀ d s, Unused d [(0, 9), (10, 5)] → pl d 8 1 = 0 → 1 ≤ pl d 12 2 → pl d 10 2 + pl d 12 2 ≤ 1024 → pl d 14 1 ≤ 3 →
    pl d 0 8 < mTranche s → exec (.objKernel d) s = .next (finish d stLate s)) ∧
  (∀ d s t, finish d stLate s = t → Reports d stLate 0 0 s t ∧ OnlyChanges [.outcomes] s t)

/-! ## Rules that the descriptors share -/

/-- R52, R316, R320: a non-zero byte outside the ranges that an opcode uses completes BAD_DESCRIPTOR, with DETAIL the offset of the first bad
field, and changes nothing else. -/
def Obligations.UnusedPayloadBytesMustBeZero : Prop :=
  ∀ errs, ∀ l ∈ descriptorLayouts errs, ∀ d s i, i < d.payload.length → d.payload.getD i 0 ≠ 0 → (∀ u ∈ l.2, i < u.1 ∨ u.1 + u.2 ≤ i) →
    ∃ off ≤ i, exec (l.1 d) s = .next (badField d off s)

/-- R54: an OBJ_MAP or OBJ_COND whose range would pass object 1,023, or whose host block cannot be read, completes BAD_DESCRIPTOR and changes
nothing (but the event of the failed read, R338). -/
def Obligations.BadObjectRangesChangeNothing : Prop :=
  (∀ d s, 1024 < pl d 10 2 + pl d 12 2 → ∃ off, exec (.objMap d) s = .next (badField d off s)) ∧
  (∀ d s, 1023 < pl d 10 2 → ∃ off, exec (.objCond d) s = .next (badField d off s)) ∧
  (∀ d s, plBit d 8 2 = true → hostBlock d 0 80 = none → ∃ off t, exec (.objCond d) s = .next t ∧ Reports d stBad 0 off s t ∧
    OnlyChanges [.outcomes, .regs] s t ∧ (t.regs = s.regs ∨ t.regs = (evRaise aHifEvt 1 s).regs)) ∧
  (∀ d off s, Reports d stBad 0 off s (badField d off s) ∧ OnlyChanges [.outcomes] s (badField d off s))

/-- R363: an item held in service past the limit raises LONG and appends record 0x0E05 once, and stays with its core; a limit of 0 turns
this off; the limit is 8,000,000 cycles at reset. -/
def Obligations.LongItemsAreReportedOnce : Prop :=
  (∀ slot i c s, smFind s.stw.items slot = some i → i.st = .inService c → i.long = false → getReg s aSvcLim ≠ 0 →
    exec (.svcLimit slot) s = .next (ledger 0x0E05 3 c i.flow i.kind (evRaise aDspEvt 4 (putItem s slot { i with long := true }))) ∧
    Completes (.svcLimit slot) s (fun t => smFind t.stw.items slot = some { i with long := true })) ∧
  (∀ slot i s, smFind s.stw.items slot = some i → (i.long = true ∨ getReg s aSvcLim = 0) → exec (.svcLimit slot) s = .next s) ∧
  getReg State.reset aSvcLim = 8000000
/-! ## Object, pair-engine and geometry descriptors complete -/

/-- OBJ_MAP, OBJ_COND, OBJ_CTL, OBJ_PREFILTER, OBJ_KERNEL and OBJ_COARSE: a legal descriptor whose N's cut-off has not passed arms
its change at N (R20, R22, R52). The N is the payload's, or with NOW the least one still open. -/
def Obligations.ObjectDescriptorsArm : Prop :=
  (∀ d s n, Unused d [(0, 17)] → pl d 8 1 ≤ 1 → pl d 9 1 ≤ 3 → pl d 10 2 ≤ 1023 → 1 ≤ pl d 12 2 → pl d 10 2 + pl d 12 2 ≤ 1024 →
    (∀ l ∈ sourceOk s (pl d 9 1) (pl d 14 2) (pl d 16 1) (pl d 12 2), l.2 = true) →
    n = keyN d (mTranche s) → mTranche s ≤ n →
    exec (.objMap d) s = .next (eachObj (voidMoved s) (span (pl d 10 2) (pl d 12 2))
      (armKeyed n (some d.tok) (.objMap (pl d 10 2) (pl d 12 2) (pl d 9 1) (pl d 14 2) (pl d 16 1)) s))) ∧
  (∀ d s n, Unused d [(0, 9), (10, 14)] → pl d 8 1 ≤ 15 → plBit d 8 2 = false → pl d 10 2 ≤ 1023 →
    n = keyN d (mTranche s) → mTranche s ≤ n →
    Completes (.objCond d) s (Arms n d (.objCond (pl d 10 2) (plBit d 8 1) (if plBit d 8 3 then some (plS d 12 4) else none) none) s)) ∧
  (∀ d s n b, Unused d [(0, 9), (10, 14)] → pl d 8 1 ≤ 15 → plBit d 8 2 = true → hostBlock d 0 80 = some b → pl d 10 2 ≤ 1023 →
    n = keyN d (mTranche s) → mTranche s ≤ n →
    Completes (.objCond d) s (Arms n d (.objCond (pl d 10 2) (plBit d 8 1) (if plBit d 8 3 then some (plS d 12 4) else none)
      (some [bqcAt b 0, bqcAt b 20, bqcAt b 40, bqcAt b 60])) s)) ∧
  (∀ d s n, Unused d [(0, 9), (10, 8)] → pl d 8 1 ≤ 1 → pl d 10 2 ≤ 1023 → 1 ≤ pl d 12 2 → pl d 10 2 + pl d 12 2 ≤ 1024 →
    pl d 14 1 ≤ 1 → pl d 15 1 ≤ 1 → 1 ≤ pl d 16 1 → pl d 16 1 ≤ 64 → pl d 17 1 ≤ 1 → n = keyN d (mTranche s) → mTranche s ≤ n →
    (pl d 14 1 = 1 → enableBreaksSwap s n (span (pl d 10 2) (pl d 12 2)) = false) →
    Completes (.objCtl d) s (Arms n d (.objCtl (pl d 10 2) (pl d 12 2) (decide (pl d 14 1 = 1)) (decide (pl d 15 1 = 1)) (pl d 16 1)
      (if pl d 17 1 = 1 then some s.segUid else none)) s)) ∧
  (∀ d s n b, Unused d [(0, 9), (16, 8)] → pl d 8 1 ≤ 1 → hostBlock d 0 40 = some b → n = keyN d (mTranche s) → mTranche s ≤ n →
    Completes (.objPrefilter d) s (Arms n d (.objPrefilter [bqcAt b 0, bqcAt b 20]) s)) ∧
  (∀ d s n, Unused d [(0, 9), (10, 5)] → pl d 8 1 ≤ 1 → pl d 10 2 ≤ 1023 → 1 ≤ pl d 12 2 → pl d 10 2 + pl d 12 2 ≤ 1024 →
    pl d 14 1 ≤ 3 → n = keyN d (mTranche s) → mTranche s ≤ n →
    Completes (.objKernel d) s (Arms n d (.objKernel (pl d 10 2) (pl d 12 2) (pl d 14 1)) s)) ∧
  (∀ d s n, Unused d [(0, 9), (10, 4), (16, 4)] → pl d 8 1 ≤ 1 → pl d 10 2 ≤ 1023 → 1 ≤ pl d 12 2 → pl d 10 2 + pl d 12 2 ≤ 1024 →
    (pl d 16 4 = 0 ∨ (1024 ≤ pl d 16 4 ∧ pl d 16 4 ≤ 524287)) → (pl d 16 4 = 0 ∨ s.drc.noDram = false) → govImg s n = none →
    n = keyN d (mTranche s) → mTranche s ≤ n → (∃ o ∈ span (pl d 10 2) (pl d 12 2), coarseGov s o n ≠ pl d 16 4) →
    Completes (.objCoarse d) s (Arms n d (.objCoarse (pl d 10 2) (pl d 12 2) (pl d 16 4) false) s))

/-- OBJ_SEGMENT, OBJ_SEG_BATCH and SEGMENT_PUSH take legal segments into the object table (R44, R51, R53); OBJ_ALIGN_SET, OBJ_STATUS,
PAIR_KTBL and PAIR_STATUS complete OK (R35, R55, R124, R126). -/
def Obligations.SegmentAndObjectServicesComplete : Prop :=
  (∀ d s, segBad d.payload = none → (acceptSeg (field d.payload 10 2) (segOf d.payload s.segUid) s).1 ≤ 1 →
    exec (.objSegment d) s =
      .next (report d.tok stOk 0 0 (acceptSeg (field d.payload 10 2) (segOf d.payload s.segUid) s).2)) ∧
  (∀ d s b, Unused d [(0, 12)] → 1 ≤ pl d 8 4 → pl d 8 4 ≤ 4096 → hostBlock d 0 (48 * pl d 8 4) = some b →
    (takeSegs (chunks 48 (pl d 8 4) b) stOk s).1 = stOk →
    exec (.objSegBatch d) s = .next (report d.tok stOk 0 0 (takeSegs (chunks 48 (pl d 8 4) b) stOk s).2)) ∧
  (∀ n s rec, rec = (List.range 12).flatMap (fun i => leBytes 4 (getReg s (aGeoSeg n (4 * i))).toNat) → segBad rec = none →
    exec (.segmentPush n 1) s = .next (setReg (acceptSeg (field rec 10 2) (segOf rec s.segUid) s).2 (aGeoSeg n 0x34)
      (BitVec.ofNat 32 (acceptSeg (field rec 10 2) (segOf rec s.segUid) s).1))) ∧
  (∀ d s ms, ms = (List.range (pl d 1 1)).map (fun i => pl d (8 + i) 1) → Unused d [(0, 2), (8, pl d 1 1)] → pl d 0 1 ≤ 127 →
    pl d 1 1 ≤ 32 → (∀ x ∈ ms, x ≤ 127) → ms.Nodup →
    (∀ x ∈ ms, x ∈ smGet [] s.alignSet (pl d 0 1) ∨ (rxAt s x).conf = false ∨
      rxSamples s (rxAt s x) ≤ (smGet {} s.mp.setMap (pl d 0 1)).rxd) →
    storeFits { s with alignSet := setMembers (pl d 0 1) ms s.alignSet } = true →
    Completes (.objAlignSet d) s (fun t => Reports d stOk 0 0 s t ∧ t.alignSet = setMembers (pl d 0 1) ms s.alignSet)) ∧
  (∀ d s, Unused d [(0, 13)] → pl d 8 2 ≤ 1023 → 1 ≤ pl d 10 2 → pl d 8 2 + pl d 10 2 ≤ 1024 → pl d 12 1 ≤ 1 →
    exec (.objStatus d) s = .next (finish d stOk (if pl d 12 1 = 1
      then eachObj (fun o t => setObj t o { objAt t o with cnt := [] }) (span (pl d 8 2) (pl d 10 2))
        (hostWrite (pl d 0 8) ((span (pl d 8 2) (pl d 10 2)).flatMap (objRecord s)) s)
      else hostWrite (pl d 0 8) ((span (pl d 8 2) (pl d 10 2)).flatMap (objRecord s)) s))) ∧
  (∀ d s n, Unused d [(0, 9), (16, 8)] → (pl d 8 1 = 4 ∨ pl d 8 1 = 5) → n = keyN d (mTranche s) → mTranche s ≤ n →
    Completes (.pairKtbl d) s (Arms n d (.ktblSwitch false) s)) ∧
  (∀ d s b, Unused d [(0, 9), (16, 8)] → pl d 8 1 = 2 → hostBlock d 0 32800 = some b → (∀ x ∈ sincEntries b, satS 20 x = x) →
    ktblPending s = false → Completes (.pairKtbl d) s (fun t => Reports d stOk 0 0 s t ∧ t.pair = (putInactive
      { rom := false, tab := (sincEntries b).zipIdx.foldl (fun m e => smSet 0 m e.2 e.1) [] } s).pair)) ∧
  (∀ d s, Unused d [(0, 9), (16, 8)] → pl d 8 1 = 8 → ktblPending s = false →
    Completes (.pairKtbl d) s (fun t => Reports d stOk 0 0 s t ∧ t.pair = (putInactive (sincActive s) s).pair)) ∧
  (∀ d s, Unused d [(0, 9), (10, 5)] → pl d 8 1 ≤ 1 → pl d 10 2 ≤ 1023 → 1 ≤ pl d 12 2 → pl d 10 2 + pl d 12 2 ≤ 1024 → pl d 14 1 ≤ 1 →
    Completes (.pairStatus d) s (fun t => Reports d stOk 0 0 s t ∧
      t.pair = (if pl d 14 1 = 1 then clearPairCounts (pl d 8 1) (pl d 10 2) (pl d 12 2) s else s).pair ∧ WritesHost (pl d 0 8)
      ((span (pl d 10 2) (pl d 12 2)).flatMap (if pl d 8 1 = 0 then pairRecord s else accRecord s)) s t))

/-- The venue tables: a load whose records pass their checks, with no switch pending, fills the inactive bank and completes OK
(R66 to R72, R90). -/
def Obligations.VenueLoadsComplete : Prop :=
  (∀ d s b, Unused d [(0, 12)] → pl d 8 2 ≤ 1023 → 1 ≤ pl d 10 2 → pl d 8 2 + pl d 10 2 ≤ 1024 →
    hostBlock d 0 (64 * pl d 10 2) = some b → (∀ r ∈ chunks 64 (pl d 10 2) b, spkOk r = true) → switchPending s 0 = false →
    Completes (.geoSpkLoad d) s (fun t => Reports d stOk 0 0 s t ∧ t.geo.spk = ((chunks 64 (pl d 10 2) b).zipIdx).foldl
      (fun m e => smSet {} m (loadBank s 0 * 1024 + pl d 8 2 + e.2) (spkOf e.1)) s.geo.spk)) ∧
  (∀ d s b, Unused d [(0, 10)] → pl d 8 1 ≤ 15 → 1 ≤ pl d 9 1 → pl d 8 1 + pl d 9 1 ≤ 16 →
    hostBlock d 0 (272 * pl d 9 1) = some b → (∀ r ∈ chunks 272 (pl d 9 1) b, zoneOk r = true) → switchPending s 1 = false →
    Completes (.geoZoneLoad d) s (fun t => Reports d stOk 0 0 s t ∧ t.geo.zone = ((chunks 272 (pl d 9 1) b).zipIdx).foldl
      (fun m e => smSet {} m (loadBank s 1 * 16 + pl d 8 1 + e.2) (zoneOf e.1)) s.geo.zone)) ∧
  (∀ d s b, Unused d [(0, 12)] → pl d 8 2 ≤ 4095 → 1 ≤ pl d 10 2 → pl d 8 2 + pl d 10 2 ≤ 4096 →
    hostBlock d 0 (48 * pl d 10 2) = some b → (∀ r ∈ chunks 48 (pl d 10 2) b, triOk r = true) → switchPending s 2 = false →
    Completes (.geoTriLoad d) s (fun t => Reports d stOk 0 0 s t ∧ t.geo.tri = ((chunks 48 (pl d 10 2) b).zipIdx).foldl
      (fun m e => putTri m (loadBank s 2 * 4096 + pl d 8 2 + e.2) e.1) s.geo.tri)) ∧
  (∀ d s cs ls, Unused d [(0, 18)] → 1 ≤ pl d 16 2 → pl d 16 2 ≤ 16384 → hostBlock d 0 (6144 * 4) = some cs →
    hostBlock d 1 (2 * pl d 16 2) = some ls → (∀ c ∈ cubeCells cs, cellOk c = true) →
    (∀ t ∈ cubeList (pl d 16 2) ls, t ≤ 4095) → switchPending s 2 = false →
    (∀ w, armedShadow s = some w → ∀ c ∈ cubeCells cs, cellCount c ≤ w.2.cmax) →
    exec (.geoCubeLoad d) s = .next (finish d stOk (putCube (cubeCells cs) (cubeList (pl d 16 2) ls) (pl d 16 2) s))) ∧
  (∀ d s b, Unused d [(0, 8)] → hostBlock d 0 (4 * 1024) = some b →
    (∀ r ∈ chunks 4 1024 b, (fLe 0 (wordAt r 0) && fLt (wordAt r 0) 0x3F800000) = true) → switchPending s 3 = false →
    Completes (.geoAirLoad d) s (fun t => Reports d stOk 0 0 s t ∧ t.geo.air = ((chunks 4 1024 b).zipIdx).foldl
      (fun m e => smSet 0 m (loadBank s 3 * 1024 + e.2) (wordAt e.1 0)) s.geo.air)) ∧
  (∀ d s n, Unused d [(0, 10)] → pl d 8 1 ≤ 1 → 1 ≤ pl d 9 1 → pl d 9 1 ≤ 15 → n = keyN d (mTranche s) → mTranche s ≤ n →
    (maskBit (pl d 9 1) 2 = true → panVerdict s n = 0) → Completes (.geoBankSwitch d) s (Arms n d (.geoBankSwitch (pl d 9 1)) s)) ∧
  (∀ d s, Unused d [(9, 1)] → 1 ≤ pl d 9 1 → pl d 9 1 ≤ 15 →
    (∀ k < 4, maskBit (pl d 9 1) k = true → switchPending s k = false) →
    exec (.geoBankSync d) s = .next (finish d stOk (((List.range 4).filter (maskBit (pl d 9 1))).foldl syncTable s)))

/-- GEO_OBJ_LAW and GEO_GLOBAL arm their changes at N; GEO_STATUS and GEO_PAIR_READ write their records (R64, R73, R90, R91). -/
def Obligations.GeometryDescriptorsComplete : Prop :=
  (∀ d s n b, Unused d [(0, 9), (10, 4), (16, 8)] → pl d 8 1 ≤ 1 → pl d 10 2 ≤ 1023 → 1 ≤ pl d 12 2 →
    pl d 10 2 + pl d 12 2 ≤ 1024 → hostBlock d 0 (128 * pl d 12 2) = some b → (∀ r ∈ chunks 128 (pl d 12 2) b, lawOk r = true) →
    n = keyN d (mTranche s) → mTranche s ≤ n → lawsAllowed s n (pl d 10 2) ((chunks 128 (pl d 12 2) b).map lawOf) = true →
    Completes (.geoObjLaw d) s (Arms n d (.geoObjLaw (pl d 10 2) ((chunks 128 (pl d 12 2) b).map lawOf)) s)) ∧
  (∀ d s n, Unused d [(0, 9), (16, 20)] → pl d 8 1 ≤ 1 → fWithin 0xC1A00000 0x42480000 (BitVec.ofNat 32 (pl d 16 4)) = true →
    (∀ k ∈ [20, 24, 28], coordOk 0x461C4000 (BitVec.ofNat 32 (pl d k 4)) = true) →
    fWithin 0 0x3B800000 (BitVec.ofNat 32 (pl d 32 4)) = true → n = keyN d (mTranche s) → mTranche s ≤ n →
    Completes (.geoGlobal d) s (Arms n d (.geoGlobal (BitVec.ofNat 32 (pl d 16 4))
      { x := BitVec.ofNat 32 (pl d 20 4), y := BitVec.ofNat 32 (pl d 24 4), z := BitVec.ofNat 32 (pl d 28 4) }
      (BitVec.ofNat 32 (pl d 32 4))) s)) ∧
  (∀ d s, Unused d [(0, 13)] → pl d 8 2 ≤ 1023 → 1 ≤ pl d 10 2 → pl d 8 2 + pl d 10 2 ≤ 1024 → pl d 12 1 ≤ 1 →
    Completes (.geoStatus d) s (fun t => Reports d stOk 0 0 s t ∧
      WritesHost (pl d 0 8) ((span (pl d 8 2) (pl d 10 2)).flatMap (geoRecord s)) s t ∧
      t.geo.cnt = if pl d 12 1 = 1 then smClearRange s.geo.cnt (pl d 8 2 * 64) (pl d 10 2 * 64) else s.geo.cnt)) ∧
  (∀ d s, Unused d [(0, 10)] → pl d 8 2 ≤ 1023 →
    Completes (.geoPairRead d) s (fun t => Reports d stOk 0 0 s t ∧ WritesHost (pl d 0 8) (pairReadBytes s (pl d 8 2)) s t ∧ t.geo = s.geo))


/-! ## Correction, sluice, meter and fabric descriptors complete -/

/-- CORR_STAGE, its end, CORR_SWITCH, CORR_SET_READ, CORR_CLEAR_STATE and CORR_STATUS run as R147, R148, R159, R161 and R163 say. -/
def Obligations.CorrectionCommandsComplete : Prop :=
  (∀ d s bq hd tl, Unused d [(0, 6), (8, 24)] → pl d 0 1 ≤ 63 → pl d 1 1 ≤ 7 → pl d 2 2 % 16 = 0 → pl d 2 2 ≤ 2 * tailB s →
    pl d 4 1 ≤ 30 → pl d 5 1 ≤ 3 → stageBlocks d s = (some bq, some hd, some tl) → taps24 (tapsOf (hd.length / 4) hd) = true →
    taps24 (tapsOf (tl.length / 4) tl) = true → (pl d 4 1 = 0 ∨ s.drc.noDram = false) → slotBusy s (pl d 0 1) = false →
    exec (.corrStage d) s = .next (stageOp d bq hd tl s)) ∧
  (∀ k s x, s.cor.loading.find? (fun y => decide (y.slot = k)) = some x →
    Completes (.corrStageDone k) s (fun t => t.cor.loading = s.cor.loading.filter (fun y => decide (y.slot ≠ k)) ∧
      t.outcomes = s.outcomes ++ [{ tok := x.tok, status := stOk, result := 0, detail := 0 }])) ∧
  (∀ d s n l, Unused d [(0, 9), (10, 4)] → pl d 8 1 ≤ 1 → pl d 10 2 ≤ 1023 → pl d 12 1 ≤ 63 → 1 ≤ pl d 13 1 → pl d 13 1 ≤ 16 →
    n = keyN d (switchNow s (pl d 10 2) (pl d 12 1)) → beforeH s (switchDeadline s (pl d 10 2) (pl d 12 1) n) = true →
    slotBusy s (pl d 12 1) = false → outBusy s (pl d 10 2) n = false → (∀ i < pl d 13 1, ∀ g, govImg s (n + i) = some g → crossfadesAt s (n + i) < g.xfPar) →
    (∀ g, govImg s n = some g → fitsImg (slotSet s (pl d 12 1)) g (pl d 10 2) = true) →
    switchBreaksSwap s (pl d 10 2) n (pl d 13 1) (slotSet s (pl d 12 1)) = false →
    l = freeLane s n (pl d 13 1) (pl d 10 2) (pl d 12 1) (xfPar s n (pl d 13 1)) →
    Completes (.corrSwitch d) s (fun t => t.cor.slots = s.cor.slots ∧ t.cor.xfs = s.cor.xfs ++ [{
      n := n, f := pl d 13 1, out := pl d 10 2, slot := pl d 12 1, lane := l, tok := some d.tok, bz := List.replicate 16 {}, done := false }])) ∧
  (∀ d errs s c a r, Unused d [(0, 9), (10, 2)] → pl d 8 1 ≤ 1 → pl d 10 2 ≤ (if pl d 8 1 = 0 then 1023 else 63) →
    c = (if pl d 8 1 = 0 then (outAt s (pl d 10 2)).set else slotSet s (pl d 10 2)) →
    a = (fun p => if pl d 8 1 = 0 then setSpecAddr (pl d 10 2) p else slotSpecAddr (pl d 10 2) p) →
    r = readRuns 2 ((List.range c.parts).map (fun p => (a p, specSize s))) errs s → (c.parts = 0 ∨ s.drc.noDram = false) →
    (∀ p < c.parts, dramLost r.2 (a p) (specSize s) = false) → exec (.corrSetRead d errs) s = .next (finish d stOk
      (hostWrite (pl d 0 8) (setBytes c ++ (List.range c.parts).flatMap (fun p => dramGet r.2 (a p) (specSize s))) r.1))) ∧
  (∀ d s, Unused d [(0, 8), (10, 5)] → pl d 10 2 ≤ 1023 → 1 ≤ pl d 12 2 → pl d 10 2 + pl d 12 2 ≤ 1024 → pl d 14 1 ≤ 1 →
    exec (.corrStatus d) s = .next (finish d stOk ((if pl d 14 1 = 1
      then eachObj (fun o t => setOut t o { outAt t o with cnt := [] }) (span (pl d 10 2) (pl d 12 2)) else id)
      (hostWrite (pl d 0 8) ((span (pl d 10 2) (pl d 12 2)).flatMap (corrRecord s)) s)))) ∧
  (∀ d s n, Unused d [(0, 9), (10, 4)] → pl d 8 1 ≤ 1 → pl d 10 2 ≤ 1023 → 1 ≤ pl d 12 2 → pl d 10 2 + pl d 12 2 ≤ 1024 →
    n = keyN d (if s.clk.tidxValid then s.clk.tidx else 0) → (∀ o ∈ span (pl d 10 2) (pl d 12 2), xfAt s o n = none) →
    beforeH s ((n : Int) + 1) = true → Completes (.corrClearState d) s (Arms n d (.corrClear (pl d 10 2) (pl d 12 2)) s))

/-- SLUICE_SET and METER_CFG arm their changes at N while their deadline H_(N+1) has not come (R154, R160); METER_READ writes its
records (R160). -/
def Obligations.SluiceAndMeterCommandsComplete : Prop :=
  (∀ d s n, Unused d [(0, 9), (10, 4), (16, 8)] → pl d 8 1 ≤ 7 → pl d 10 2 ≤ 1023 → 1 ≤ pl d 12 2 → pl d 10 2 + pl d 12 2 ≤ 1024 →
    pl d 16 4 ≤ 1073741824 → (plBit d 8 1 = true → 1 ≤ pl d 20 2 ∧ pl d 20 2 ≤ 64) → pl d 22 1 ≤ 1 →
    (plBit d 8 2 = true → 1 ≤ pl d 23 1 ∧ pl d 23 1 ≤ 16) → n = keyN d (if s.clk.tidxValid then s.clk.tidx else 0) →
    beforeH s ((n : Int) + 1) = true →
    Completes (.sluiceSet d) s (Arms n d (.sluiceSet (pl d 10 2) (pl d 12 2)
      (if plBit d 8 1 then some ((pl d 16 4 : Nat), pl d 20 2) else none)
      (if plBit d 8 2 then some (plBit d 22 0, pl d 23 1) else none)) s)) ∧
  (∀ d s n b, Unused d [(0, 9), (10, 2), (16, 8)] → pl d 8 1 ≤ 1 → 1 ≤ pl d 10 2 → pl d 10 2 ≤ 4096 → hostBlock d 0 2048 = some b →
    n = keyN d (if s.clk.tidxValid then s.clk.tidx else 0) → beforeH s ((n : Int) + 1) = true →
    Completes (.meterCfg d) s (Arms n d (.meterCfg (pl d 10 2) (chunks 128 16 b)) s)) ∧
  (∀ d s, Unused d [(0, 9), (10, 4)] → pl d 8 1 = 0 → 1 ≤ pl d 12 2 → pl d 10 2 + pl d 12 2 ≤ 1024 →
    Completes (.meterRead d) s (fun t => Reports d stOk 0 0 s t ∧
      WritesHost (pl d 0 8) ((span (pl d 10 2) (pl d 12 2)).flatMap (meterRecord s)) s t)) ∧
  (∀ d s, Unused d [(0, 9), (10, 4)] → pl d 8 1 = 1 → 1 ≤ pl d 12 2 → pl d 10 2 + pl d 12 2 ≤ 16 →
    Completes (.meterRead d) s (fun t => Reports d stOk 0 0 s t ∧
      WritesHost (pl d 0 8) ((span (pl d 10 2) (pl d 12 2)).flatMap (groupRecord s)) s t))

/-- The fabric descriptors complete: link control, address, route and group tables, epoch switch, discovery, management and remote
messages, status (R208, R218, R224, R225, R234, R235, R239). A table is written in the bank that is not current. -/
def Obligations.FabricDescriptorsComplete : Prop :=
  (∀ d s, Unused d [(0, 4)] → pl d 2 1 ≤ 1 → 1 ≤ pl d 3 1 →
    exec (.fabLinkCtl d) s = .next (finish d stOk (ctlLinks (plBit d 2 0) (pl d 3 1) (maskLinks s (pl d 0 2)) s))) ∧
  (∀ d s, Unused d [(0, 3)] → pl d 2 1 ≤ 1 →
    exec (.fabIdent d) s = .next (finish d stOk (setAddress (pl d 0 2) (plBit d 2 0) 0 s))) ∧
  (∀ d s b, Unused d [(0, 12)] → pl d 8 2 + pl d 10 2 < 65536 → hostBlock d 0 (pl d 10 2 + 1) = some b →
    (∀ e ∈ b, e.toNat < 32 ∧ (s.dpx.en = true → e.toNat ≠ 31)) → s.fab.armed = none → s.fab.quiet = true →
    Completes (.fabWbLoad d) s (fun t => Reports d stOk 0 0 s t ∧
      t.fab.wb = putRow s.fab.wb ((1 - s.fab.cur) * 65536 + pl d 8 2) (b.map BitVec.toNat))) ∧
  (∀ d s b, Unused d [(0, 13), (14, 2)] → pl d 8 2 < 4096 → pl d 8 2 + pl d 10 2 ≤ 4096 → pl d 12 1 ≤ 1 →
    (if pl d 10 2 = 0 then some [] else hostBlock d 0 (4 * pl d 10 2)) = some b → (∀ e ∈ chunks 4 (pl d 10 2) b, leNat e < 65536) → s.fab.armed = none → s.fab.quiet = true →
    Completes (.fabGrpLoad d) s (fun t => Reports d stOk 0 0 s t ∧
      t.fab.grp = putRow s.fab.grp ((1 - s.fab.cur) * 4096 + pl d 8 2) ((chunks 4 (pl d 10 2) b).map leNat) ∧
      t.fab.bcast = if pl d 12 1 = 1 then smSet 0 s.fab.bcast (1 - s.fab.cur) (pl d 14 2) else s.fab.bcast)) ∧
  (∀ d s n, Unused d [(0, 9)] → pl d 8 1 ≤ 1 → n = keyN d (leastBefore s 1) → beforeH s ((n : Int) - 1) = true → s.fab.armed = none →
    Completes (.fabEpochSwitch d) s (fun t => t.fab.armed = some (n, d.tok) ∧ t.outcomes = s.outcomes)) ∧
  (∀ d s, Unused d [] → s.fab.armed = none → s.fab.quiet = true →
    Completes (.fabBankSync d) s (fun t => Reports d stOk 0 0 s t ∧ t.fab.wb = copyRoutes s.fab.wb s.fab.cur 65536 ∧
      t.fab.grp = copyRoutes s.fab.grp s.fab.cur 4096 ∧ t.fab.bcast = copyRoutes s.fab.bcast s.fab.cur 1)) ∧
  (∀ d s p, Unused d [(0, 18)] → 40 ≤ pl d 16 2 → pl d 16 2 ≤ 1024 → pl d 16 2 % 8 = 0 → hostBlock d 0 (pl d 16 2) = some p →
    field p 0 1 ≤ 32 → exec (.fabDisc d) s = .next (discStart d p s)) ∧
  (∀ d s p, Unused d [(0, 14)] → 8 ≤ pl d 8 2 → pl d 8 2 ≤ 1024 → pl d 8 2 % 8 = 0 → pl d 12 1 ≤ 2 → 1 ≤ pl d 13 1 → pl d 13 1 ≤ 32 →
    hostBlock d 0 (pl d 8 2) = some p → (plBit d 12 0 = true → pl d 10 2 ≤ 4095) → (fabAddr s).isSome = true → exec (.fabMgmtSend d) s =
      .next (finish d stOk (sendMgmt (pl d 10 2) (plBit d 12 0) (plBit d 12 1) (some (pl d 13 1)) p s))) ∧
  (∀ d s, Unused d [(0, 9), (10, 5)] → pl d 8 1 ≤ 2 → 1 ≤ pl d 12 2 → pl d 10 2 + pl d 12 2 ≤ fabTableSize s (pl d 8 1) →
    pl d 14 1 ≤ 1 → exec (.fabStatus d) s = .next (finish d stOk (fabClear (pl d 8 1) (plBit d 14 0) (span (pl d 10 2) (pl d 12 2))
      (hostWrite (pl d 0 8) ((span (pl d 10 2) (pl d 12 2)).flatMap
        (if pl d 8 1 = 0 then linkRecord s else if pl d 8 1 = 1 then importRecord s else streamRecord s)) s)))) ∧
  (∀ d s e, Unused d [(0, 18)] → hostBlock d 0 64 = some e → (fabAddr s).isSome = true → exec (.fabRemote d) s =
    .next (sendMgmt (pl d 16 2) false false none (mgmtBytes 1 (smGet 0 s.fab.seqOut 1) e) (setFab s (fun f => { f with
      seqOut := smSet 0 f.seqOut 1 ((smGet 0 s.fab.seqOut 1 + 1) % 2 ^ 32),
      remote := f.remote ++ [{
        seq := smGet 0 s.fab.seqOut 1, tok := d.tok, addr := pl d 8 8, dest := pl d 16 2, entry := e, tries := 0 }] }))))

/-! ## Clock, time and media-port descriptors complete -/

/-- CLK_RATE, CLK_REF_CFG, CLK_SEL_CFG, CLK_SELECT and CLK_STATUS complete, or wait as the spec says (R244, R255, R264, R266). -/
def Obligations.ClockDescriptorsComplete : Prop :=
  (∀ d s, Unused d [(0, 3), (8, 8)] → pl d 0 1 ≤ 3 → pl d 1 1 ≤ 2 → (if pl d 1 1 = 1 then pl d 2 1 ≤ 15 else pl d 2 1 = 0) →
    s.sch.st = 0 → originGone d s = false → exec (.clkRate d) s =
      .next (setClk (takeFamily (pl d 0 1) s) (fun c => { c with rateReq := c.rateReq ++
        [{ tok := d.tok, rate := pl d 0 1, src := pl d 1 1, link := pl d 2 1, n := pl d 8 8 }] }))) ∧
  (∀ d s, Unused d [(0, 20)] → 1 ≤ pl d 0 1 → pl d 0 1 ≤ 7 → pl d 1 1 ≤ 1 → modeOk (pl d 0 1) (pl d 2 1) = true →
    pl d 3 1 ≤ bwLimit (pl d 0 1) (pl d 2 1) → 1 ≤ pl d 4 2 → pl d 4 2 ≤ 500 → 1 ≤ pl d 6 2 → pl d 6 2 ≤ 600 → 1 ≤ pl d 8 2 →
    pl d 8 2 ≤ 1000 → pl d 10 2 ≤ 10000 → pl d 12 4 ≤ 500000 → pl d 16 4 ≤ 500000 → exec (.clkRefCfg d) s = .next (finish d stOk
      ((if pl d 1 1 = 1 ∧ (refAt s (pl d 0 1)).enabled = false then enableRef (pl d 0 1)
        else if pl d 1 1 = 0 ∧ (refAt s (pl d 0 1)).enabled = true then disableRef (pl d 0 1) else id)
      (setRef (pl d 0 1) (refFields d (refAt s (pl d 0 1))) s)))) ∧
  (∀ d s c, Unused d [(0, 16)] → 1 ≤ pl d 0 1 → pl d 0 1 ≤ 7 → pl d 1 1 ≤ 6 → pl d 8 1 ≤ 3 → 1 ≤ pl d 9 1 → pl d 9 1 ≤ 10 →
    pl d 10 2 ≤ 3600 → (∀ i < 6, selCodeOk d i = true) → c = setClk s (fun c => { c with
      selRef := pl d 0 1, order := selCodes d, revertive := plBit d 8 0, bleed := plBit d 8 1, bleedRate := pl d 9 1, wtr := pl d 10 2,
      mapLim := pl d 12 4 }) →
    exec (.clkSelCfg d) s = .next (finish d stOk (settleWtr (autoSwitch (if plBit d 8 0 = false then
        [1, 2, 3, 4, 5, 6, 7].foldl (fun t r => clearTimer r t) c
      else if following c = true then pruneTimers [1, 2, 3, 4, 5, 6, 7] c else c))))) ∧
  (∀ d s, Unused d [(0, 1)] → (pl d 0 1 ≤ 7 ∨ pl d 0 1 = 255) → s.clk.st ≠ 0 → s.clk.st ≠ 2 →
    exec (.clkSelect d) s = .next (settleWtr (selectNow d.tok (pl d 0 1) s))) ∧
  (∀ d s, Unused d [(0, 1)] → (pl d 0 1 ≤ 7 ∨ pl d 0 1 = 255) → (s.clk.st = 0 ∨ s.clk.st = 2) →
    Completes (.clkSelect d) s (fun t => t.clk.pendSel = s.clk.pendSel ++ [(d.tok, pl d 0 1)] ∧ t.clk.st = s.clk.st ∧
      t.outcomes = s.outcomes)) ∧
  (∀ d s, Unused d [(0, 9)] → pl d 8 1 ≤ 1 → Completes (.clkStatus d) s (fun t => Reports d stOk 0 0 s t ∧
    WritesHost (pl d 0 8) (clkRecord s) s t ∧ (pl d 8 1 = 0 → t.clk = s.clk) ∧ (pl d 8 1 = 1 → t.clk = { s.clk with
      refs := smModAll {} s.clk.refs (s.clk.refs.map Prod.fst) (fun _ x => { x with reject := 0 }) })))

/-- PTP_CFG, PTP_STEP_ARM, PTP_CLEAR_GM_CHANGE, PTP_STATUS, TIME_TRIG, TIME_CAP_CFG and TIME_CAP_READ complete
(R289, R294, R296, R298, R299, R301): the configuration that a descriptor gives is the one that the state then holds. -/
def Obligations.PtpDescriptorsComplete : Prop :=
  (∀ d s c, Unused d [(0, 9), (12, 20)] → pl d 0 1 ≤ 1 → pl d 1 1 ≤ 3 → (pl d 2 1 = 255 ∨ (pl d 2 1 ≤ 3 ∧ pl d 2 1 ≠ pl d 1 1)) →
    pl d 4 1 ≤ 7 → -7 ≤ plS d 5 1 → plS d 5 1 ≤ 1 → 2 ≤ pl d 6 1 → pl d 6 1 ≤ 10 → 2 ≤ pl d 7 1 → pl d 7 1 ≤ 16 → pl d 8 1 ≤ 3 →
    100 ≤ pl d 12 4 → pl d 12 4 ≤ 1000000 → 1 ≤ pl d 16 4 → pl d 16 4 ≤ 100000 → 100 ≤ pl d 20 4 → pl d 20 4 ≤ 1000000 →
    c = setPtp s (fun p => { p with
      enabled := plBit d 4 0, profile := pl d 0 1, portA := pl d 1 1, portB := pl d 2 1, domain := pl d 3 1, ppsEn := plBit d 4 1,
      hybrid := plBit d 4 2, delayIv := plS d 5 1, annTmo := pl d 6 1, syncTmo := pl d 7 1, bw := pl d 8 1, lockWin := pl d 12 4,
      slewLim := pl d 16 4, outlier := pl d 20 4, asymA := plS d 24 4, asymB := plS d 28 4 }) →
    exec (.ptpCfg d) s = .next (finish d stOk (if plBit d 4 0 = true then ptpEnable c else if s.ptp.st = 0 then c else ptpDisable c))) ∧
  (∀ d s, Unused d [(0, 1)] → pl d 0 1 ≤ 3 → Completes (.ptpStepArm d) s (fun t => Reports d stOk 0 0 s t ∧ t.ptp = { s.ptp with
    stepArmed := s.ptp.stepArmed || plBit d 0 0, gmChange := s.ptp.gmChange && !plBit d 0 1 })) ∧
  (∀ d s, Unused d [(0, 1)] → pl d 0 1 ≤ 3 → Completes (.ptpClearGmChange d) s (fun t => Reports d stOk 0 0 s t ∧ t.ptp = { s.ptp with
    stepArmed := s.ptp.stepArmed || plBit d 0 0, gmChange := s.ptp.gmChange && !plBit d 0 1 })) ∧
  (∀ d s, Unused d [(0, 9)] → pl d 8 1 ≤ 1 → Completes (.ptpStatus d) s (fun t => Reports d stOk 0 0 s t ∧
    WritesHost (pl d 0 8) (ptpRecord s) s t ∧ t.ptp.nSync = if pl d 8 1 = 1 then 0 else s.ptp.nSync)) ∧
  (∀ d s, Unused d [(0, 2)] → pl d 0 1 ≤ 15 → Completes (.timeCapCfg d) s (fun t => Reports d stOk 0 0 s t ∧
    t.ptp = { s.ptp with tcapMask := pl d 0 1, tcapEdges := pl d 1 1 })) ∧
  (∀ d s, Unused d [(0, 9)] → 1 ≤ pl d 8 1 → pl d 8 1 ≤ 64 → Completes (.timeCapRead d) s (fun t => Reports d stOk 0 0 s t ∧
    t.ptp.tcapQ = s.ptp.tcapQ.drop (pl d 8 1) ∧ WritesHost (pl d 0 8) (leBytes 4 (s.ptp.tcapQ.take (pl d 8 1)).length ++ zeros 4 ++
      (s.ptp.tcapQ.take (pl d 8 1)).flatMap (capRecord false)) s t))

/-- TIME_TRIG: a pin at a tranche, a pin at a time, the stimulus, the capture, and the disarming of a target (R297). -/
def Obligations.TimeTriggersArm : Prop :=
  (∀ d s n, Unused d [(0, 3), (8, 20)] → (trigLimits d).all (fun l => l.2) = true → plBit d 2 2 = false → pl d 0 1 ≤ 3 → pl d 1 1 = 0 →
    n = (if plBit d 2 0 then leastBefore s 2 else pl d 8 8) → beforeH s ((n : Int) - 2) = true →
    exec (.timeTrig d) s = .next (armTrig d n s)) ∧
  (∀ d s, Unused d [(0, 3), (8, 20)] → (trigLimits d).all (fun l => l.2) = true → plBit d 2 2 = false → pl d 0 1 ≤ 3 → pl d 1 1 ≠ 0 →
    s.ptp.valid = true → s.ptp.dt + 10000 ≤ pl d 8 6 * 1000000000 + pl d 16 4 → exec (.timeTrig d) s = .next (armTrig d 0 s)) ∧
  (∀ d s n, Unused d [(0, 3), (8, 20)] → (trigLimits d).all (fun l => l.2) = true → plBit d 2 2 = false → pl d 0 1 = 16 →
    n = (if plBit d 2 0 then leastBefore s 2 else pl d 8 8) → beforeH s ((n : Int) - 2) = true →
    exec (.timeTrig d) s = .next (armStimulus n d.tok false s)) ∧
  (∀ d s n, Unused d [(0, 3), (8, 20)] → (trigLimits d).all (fun l => l.2) = true → plBit d 2 2 = false → pl d 0 1 = 17 →
    n = (if plBit d 2 0 then leastBefore s 2 else pl d 8 8) → beforeH s ((n : Int) - 2) = true → s.lau.cap.running = none →
    exec (.timeTrig d) s = .next (armCapture n d.tok s)) ∧
  (∀ d s, Unused d [(0, 28)] → (pl d 0 1 ≤ 3 ∨ pl d 0 1 = 16 ∨ pl d 0 1 = 17) → pl d 2 1 ≤ 7 → plBit d 2 2 = true →
    exec (.timeTrig d) s = .next (finish d stOk (disarmTrig (pl d 0 1) s)))

/-- MP_PORT_CFG, MP_RX_STREAM, MP_RX_MAP, MP_TX_STREAM and MP_STATUS complete (R277, R282, R299, R301, R525). -/
def Obligations.MediaDescriptorsComplete : Prop :=
  (∀ d s u, Unused d [(0, 21)] → pl d 0 1 ≤ 3 → pl d 1 1 ≤ 63 → pl d 2 2 ≤ 4095 → pl d 4 1 ≤ 7 → pl d 5 1 ≤ 7 → pl d 7 1 ≤ 63 →
    pl d 20 1 ≤ 32 → (portCarries s (pl d 0 1) = false ∨
      ((portAt s (pl d 0 1)).fast = plBit d 1 1 ∧ (portAt s (pl d 0 1)).fec = plBit d 1 2)) →
    u = (if (portAt s (pl d 0 1)).up = true ∧ plBit d 1 0 = false then portDown (pl d 0 1) s else s) →
    exec (.mpPortCfg d) s = .next (finish d stOk (setPort (pl d 0 1) { portAt u (pl d 0 1) with
      enabled := plBit d 1 0, fast := plBit d 1 1, fec := plBit d 1 2, pauseEn := plBit d 1 3, metaEn := plBit d 1 4,
      vlanEn := plBit d 1 5, vid := pl d 2 2, pcp := pl d 4 1, ptpPcp := pl d 5 1, ttl := pl d 6 1, ptpDscp := pl d 7 1,
      mac := field (d.payload.drop 8) 0 6, metaPort := pl d 14 2, ip := pl d 16 4, prefixLen := pl d 20 1 } u))) ∧
  (∀ d s, Unused d [(0, 7), (8, 6), (16, 6), (24, 8)] → pl d 0 1 ≤ 127 → pl d 1 1 ≤ 3 → pl d 2 1 ≤ 3 → pl d 3 1 ≤ 3 → 1 ≤ pl d 4 1 →
    pl d 4 1 ≤ 64 → pl d 4 1 * packetP s.clk.rate (pl d 5 1) * 3 ≤ 9216 → pl d 5 1 ≤ 3 → 96 ≤ pl d 6 1 → pl d 6 1 ≤ 127 →
    mappedChannels s (pl d 0 1) ≤ pl d 4 1 → packetP s.clk.rate (pl d 5 1) ≤ (rxMapping s (pl d 0 1)).rxd →
    storeFits (setRx (pl d 0 1) (rxConfig d (rxAt s (pl d 0 1))) s) = true → exec (.mpRxStream d) s =
      .next (finish d stOk (joinPaths (rxConfig d (rxAt s (pl d 0 1))) (setRx (pl d 0 1) (rxConfig d (rxAt s (pl d 0 1))) s)))) ∧
  (∀ d s n, Unused d [(0, 11), (12, 6)] → pl d 8 1 ≤ 1 → pl d 9 1 = 0 → pl d 10 1 ≤ 127 → 16 ≤ pl d 16 2 → pl d 16 2 ≤ 8192 →
    servedSamples s false (pl d 10 1) ≤ pl d 16 2 → n = keyN d (leastBefore s 1) → beforeH s ((n : Int) - 1) = true →
    setOf s (pl d 10 1) = none → storeFits (withRxMap n false (pl d 10 1) (pl d 12 4) (pl d 16 2) s) = true →
    Completes (.mpRxMap d) s (Arms n d (.mpRxMap false (pl d 10 1) (pl d 12 4) (pl d 16 2)) s)) ∧
  (∀ d s n, Unused d [(0, 11), (12, 6)] → pl d 8 1 ≤ 1 → pl d 9 1 = 1 → pl d 10 1 ≤ 127 → 16 ≤ pl d 16 2 → pl d 16 2 ≤ 8192 →
    servedSamples s true (pl d 10 1) ≤ pl d 16 2 → n = keyN d (leastBefore s 1) → beforeH s ((n : Int) - 1) = true →
    storeFits (withRxMap n true (pl d 10 1) (pl d 12 4) (pl d 16 2) s) = true →
    Completes (.mpRxMap d) s (Arms n d (.mpRxMap true (pl d 10 1) (pl d 12 4) (pl d 16 2)) s)) ∧
  (∀ d s i, Unused d [(0, 36)] → pl d 0 1 ≤ 127 → pl d 1 1 ≤ 1 → 96 ≤ pl d 2 1 → pl d 2 1 ≤ 127 → pl d 3 1 ≤ 63 →
    s.sch.activeImg = some i → (∃ x ∈ i.txs, x.stream = pl d 0 1) →
    exec (.mpTxStream d) s = .next (finish d stOk (setTx (pl d 0 1) { txAt s (pl d 0 1) with
      enabled := plBit d 1 0, pt := pl d 2 1, dscp := pl d 3 1, dstA := pl d 4 4, dstB := pl d 8 4, macA := pl d 12 6,
      macB := pl d 18 6, udpDst := pl d 24 2, udpSrc := pl d 26 2, ssrc := pl d 28 4, rtpOfs := pl d 32 4 } s))) ∧
  (∀ d s, Unused d [(0, 9), (10, 5)] → pl d 8 1 ≤ 2 → 1 ≤ pl d 12 2 → pl d 10 2 + pl d 12 2 ≤ (if pl d 8 1 = 0 then 4 else 128) →
    pl d 14 1 ≤ 1 → exec (.mpStatus d) s = .next (finish d stOk (mpClear (pl d 8 1) (plBit d 14 0) (span (pl d 10 2) (pl d 12 2))
      (hostWrite (pl d 0 8) ((span (pl d 10 2) (pl d 12 2)).flatMap
        (if pl d 8 1 = 0 then portRecord s else if pl d 8 1 = 1 then rxRecord s else txRecord s)) (draw s)))))

/-! ## Audio, interlock, ledger and steward descriptors complete -/

/-- SAP_CFG, MIX_BUS, MIX_INPUT, MON_TAPS, SIDETONE and LAU_STATUS complete (R412, R422, R424, R426, R436). -/
def Obligations.AudioPortDescriptorsComplete : Prop :=
  (∀ d s, Unused d [(0, 12)] → pl d 0 1 ≤ 15 → pl d 1 1 ≤ 15 → pl d 2 1 ∈ [16, 24, 32] → pl d 3 1 ∈ [24, 32] → pl d 2 1 ≤ pl d 3 1 →
    pl d 4 1 ∈ [1, 2, 4] → (pl d 5 1 = 255 ∨ (pl d 5 1 ≤ 7 ∧ ∀ q < 16, q ≠ pl d 0 1 → (sapAt s q).group = pl d 5 1 →
      (sapAt s q).enabled = true → (sapAt s q).m = pl d 4 1)) →
    pl d 6 1 ≤ 3 → pl d 7 1 ≤ 3 → (pl d 4 1 = (if isDouble s.clk.rate then 2 else 1) ∨ (pl d 6 1 = 0 ∧ pl d 7 1 = 0)) →
    sourceIdx (pl d 6 1) (pl d 8 2) = true → sourceIdx (pl d 7 1) (pl d 10 2) = true →
    (((sapAt s (pl d 0 1)).m = pl d 4 1 ∧ (sapAt s (pl d 0 1)).enabled = plBit d 1 0) ∨
      (portMapped s (pl d 0 1) = false ∧ portUsed s (pl d 0 1) = false)) →
    exec (.sapCfg d) s = .next (finish d stOk (setSap (pl d 0 1) { sapAt s (pl d 0 1) with
      enabled := plBit d 1 0, master := plBit d 1 1, lj := plBit d 1 2, dpxHiz := plBit d 1 3, word := pl d 2 1, slot := pl d 3 1,
      m := pl d 4 1, group := pl d 5 1, src0 := pl d 6 1, src1 := pl d 7 1, idx0 := pl d 8 2, idx1 := pl d 10 2,
      lost := false, last := none, dropIn := false, unaligned := false, whole := true, ins := [] } s))) ∧
  (∀ d s i q, Unused d ([(0, 8), (24, 1)] ++ (if plBit d 1 2 then [(8, 8)] else []) ++ (if plBit d 1 1 then [(16, 8)] else [])) →
    pl d 0 1 ≤ 7 → pl d 1 1 ≤ 31 → 1 ≤ pl d 2 2 → pl d 2 2 ≤ 1000 → pl d 4 4 ≤ 1073741824 → pl d 24 1 ≤ 1 →
    (if plBit d 1 2 then hostBlock d 0 256 else some []) = some i →
    (if plBit d 1 1 then hostBlock d (if plBit d 1 2 then 1 else 0) 80 else some []) = some q →
    (plBit d 1 2 = true → ∀ r ∈ chunks 8 32 i, mixOk s r = true) → exec (.mixBus d) s =
      .next (finish d stOk (setBus (pl d 0 1) (mixApply d i q (rampLen s (pl d 2 2)) (busAt s (pl d 0 1))) s))) ∧
  (∀ d s x o, Unused d [(0, 3), (4, 4)] → pl d 0 1 ≤ 7 → pl d 1 1 ≤ 31 → pl d 2 1 ≤ 1 → pl d 4 4 ≤ 1073741824 → x = busAt s (pl d 0 1) →
    o = x.ins.getD (pl d 1 1) {} → exec (.mixInput d) s = .next (finish d stOk (setBus (pl d 0 1) (rescale (rampLen s x.rt) { x with
      ins := x.ins.set (pl d 1 1) (retarget (rampLen s x.rt) o { o with mute := decide (pl d 2 1 = 1), gain := pl d 4 4 }) }) s))) ∧
  (∀ d s b, Unused d [(0, 8)] → hostBlock d 0 128 = some b → (∀ r ∈ chunks 2 64 b, leNat r % 32768 < 1024) →
    exec (.monTaps d) s = .next (finish d stOk (setLau s (fun l => { l with taps := (chunks 2 64 b).map leNat })))) ∧
  (∀ d s, Unused d [(0, 8)] → pl d 0 1 ≤ 7 → pl d 1 1 ≤ 1 → pl d 2 1 ≤ 15 → pl d 3 1 ≤ 1 → pl d 4 4 ≤ 1073741824 →
    exec (.sidetone d) s = .next (finish d stOk (setMon s (pl d 0 1) { monAt s (pl d 0 1) with
      stOn := plBit d 1 0, stPort := pl d 2 1, stCh := pl d 3 1, gst := (monAt s (pl d 0 1)).gst.goTo (pl d 4 4) 48 }))) ∧
  (∀ d s, Unused d [(0, 9)] → pl d 8 1 ≤ 1 → exec (.lauStatus d) s = .next (finish d stOk
    ((if pl d 8 1 = 1 then lauClear else id) (hostWrite (pl d 0 8) (lauRecord s) s))))

/-- CAP_CFG, CAP_COEF, CAP_DEST, CAP_START, CAP_STOP and the stimulus descriptors complete, or arm their start at H_(N-2)
(R421, R432 to R434). -/
def Obligations.CaptureDescriptorsComplete : Prop :=
  (∀ d s, Unused d [(0, 5), (8, 16)] → pl d 0 1 ≤ 6 → pl d 1 1 ≤ 7 → pl d 2 1 ≤ 7 → pl d 3 1 ≤ 7 →
    (∀ c < 8, pl d (8 + 2 * c) 1 ≤ 15 ∧ pl d (9 + 2 * c) 1 ≤ 1 ∧
      (pl d 4 1 / 2 ^ c % 2 = 1 → (sapAt s (pl d (8 + 2 * c) 1)).m = 4)) →
    (capBusy s = false ∨ (s.lau.cap.resp = pl d 0 1 ∧ s.lau.cap.sh1 = pl d 1 1 ∧ s.lau.cap.sh2 = pl d 2 1 ∧ s.lau.cap.sh3 = pl d 3 1)) →
    exec (.capCfg d) s = .next (finish d stOk (setLau s (fun l => { l with cap := { l.cap with
      resp := pl d 0 1, sh1 := pl d 1 1, sh2 := pl d 2 1, sh3 := pl d 3 1, mask := pl d 4 1, srcs := capSources d } })))) ∧
  (∀ d s b n, Unused d [(0, 11)] → n = pl d 8 1 + pl d 9 1 + pl d 10 1 → 3 ≤ pl d 8 1 → pl d 8 1 ≤ 63 → pl d 8 1 % 4 = 3 → 3 ≤ pl d 9 1 →
    pl d 9 1 ≤ 127 → pl d 9 1 % 4 = 3 → 1 ≤ pl d 10 1 → pl d 10 1 ≤ 127 → hostBlock d 0 (4 * n) = some b →
    taps24 (tapsOf n b) = true → capBusy s = false → exec (.capCoef d) s = .next (finish d stOk (setLau s (fun l => { l with
      cap := { l.cap with l1 := pl d 8 1, l2 := pl d 9 1, l3 := pl d 10 1, taps := tapsOf n b } })))) ∧
  (∀ d s, Unused d [(0, 10), (12, 12)] → pl d 8 1 ≤ 2 → pl d 9 1 ≤ 1 → 1 ≤ pl d 12 4 → pl d 12 4 ≤ 16777216 →
    (pl d 8 1 ≠ 1 ∨ s.drc.noDram = false) → capBusy s = false → exec (.capDest d) s = .next (finish d stOk (setLau s (fun l => { l with
      cap := { l.cap with base := pl d 0 8, space := pl d 8 1, cont := plBit d 9 0, len := pl d 12 4, prog := pl d 16 8 } })))) ∧
  (∀ d s n, Unused d [(0, 9)] → pl d 8 1 ≤ 1 → n = keyN d (leastBefore s 2) → beforeH s ((n : Int) - 2) = true →
    s.lau.cap.running = none → exec (.capStart d) s = .next (armCapture n d.tok s)) ∧
  (∀ d s, Unused d [] → exec (.capStop d) s = .next (finish d stOk (captureStop s))) ∧
  (∀ d s b, Unused d [(0, 12)] → 1 ≤ pl d 8 4 → pl d 8 4 ≤ 65536 → hostBlock d 0 (4 * pl d 8 4) = some b →
    taps24 (tapsOf (pl d 8 4) b) = true → s.lau.stim.running = none → exec (.stimLoad d) s = .next (finish d stOk
      (setLau s (fun l => { l with stim := { l.stim with xs := tapsOf (pl d 8 4) b } })))) ∧
  (∀ d s n, Unused d [(0, 9)] → pl d 8 1 ≤ 3 → n = keyN d (leastBefore s 2) → beforeH s ((n : Int) - 2) = true →
    exec (.stimStart d) s = .next (armStimulus n d.tok (plBit d 8 1) s)) ∧
  (∀ d s, Unused d [(0, 9)] → 4 ≤ pl d 8 1 → pl d 8 1 ≤ 7 → exec (.stimStop d) s = .next (finish d stOk (stimulusStop s)))

/-- DPX_CFG, DPX_SWITCH, DPX_ARM and DPX_STATUS complete (R447, R449, R454). -/
def Obligations.InterlockDescriptorsComplete : Prop :=
  (∀ d s c, Unused d [(0, 1), (2, 7)] → pl d 0 1 ≤ 7 → 1 ≤ pl d 2 2 → pl d 2 2 ≤ 600 → 10 ≤ pl d 4 2 → pl d 4 2 ≤ 1000 → 1 ≤ pl d 8 1 →
    (plBit d 0 0 = s.dpx.en ∨ s.sch.st = 0) → c = setDpx s (fun p => { p with
      en := plBit d 0 0, takeback := plBit d 0 1, hbFault := plBit d 0 2, tbHold := pl d 2 2, skewLim := pl d 4 2, pairAddr := pl d 6 2,
      agreeN := pl d 8 1 }) →
    exec (.dpxCfg d) s = .next (finish d stOk (if xlinkUp s = xlinkUp c then c else xlinkChange (xlinkUp c) c))) ∧
  (∀ d s, Unused d [(0, 9)] → pl d 8 1 ≤ 1 → driving s = false → exec (.dpxSwitch d) s = .next (finish d stOk s)) ∧
  (∀ d s n, Unused d [(0, 9)] → pl d 8 1 ≤ 1 → driving s = true → xlinkUp s = true → peerReady s = true → s.dpx.armedN = none →
    n = (if plBit d 8 0 then nowN1 s else pl d 0 8) → beforeH s ((n : Int) - 1) = true →
    Completes (.dpxSwitch d) s (fun t => t.dpx.armedN = some (n, d.tok) ∧ t.dpx.st = s.dpx.st ∧ t.outcomes = s.outcomes)) ∧
  (∀ d s, Unused d [(0, 1)] → pl d 0 1 ≤ 1 → exec (.dpxArm d) s = .next (finish d stOk (armOp (decide (pl d 0 1 = 1)) s))) ∧
  (∀ d s, Unused d [(0, 9)] → pl d 8 1 ≤ 1 → Completes (.dpxStatus d) s (fun t => Reports d stOk 0 0 s t ∧
    WritesHost (pl d 0 8) (dpxRecord s) s t ∧ t.dpx = { s.dpx with cnt := if pl d 8 1 = 1 then [] else s.dpx.cnt }))

/-- LGR_READ, LGR_INFO, LGR_ANNOTATE, LGR_NONCE, LGR_CLEAR and the end of a clear, with the ledger ready (R466 to R468, R475). Whether
a key is present is a constant of the part (Config). -/
def Obligations.LedgerDescriptorsComplete : Prop :=
  (∀ d s, Unused d [(0, 16)] → pl d 8 4 < regionSlots → 1 ≤ pl d 12 4 → pl d 12 4 ≤ regionSlots → ledgerReady s = true →
    Completes (.lgrRead d) s (fun t => Reports d stOk (pl d 12 4) 0 s t ∧ t.lgr = s.lgr ∧ WritesHost (pl d 0 8)
      ((List.range (pl d 12 4)).flatMap (fun i => slotBytes s.lgr ((pl d 8 4 + i) % regionSlots))) s t)) ∧
  (∀ d s, Unused d [(0, 8)] → ledgerReady s = true → Completes (.lgrInfo d) s (fun t => Reports d stOk 0 0 s t ∧ t.lgr = s.lgr ∧
    WritesHost (pl d 0 8) (lgrInfoRecord s.lgr) s t)) ∧
  (∀ d s, Unused d [(0, 16)] → 128 ≤ pl d 0 1 → pl d 1 1 ≤ 6 → ledgerReady s = true → s.lgr.queue.length < 64 →
    exec (.lgrAnnotate d) s = .next (report d.tok stOk s.lgr.seq 0
      (ledgerBy (0x1200 + pl d 0 1) (pl d 1 1) true (pl d 4 4) (pl d 8 4) (pl d 12 4) s))) ∧
  (∀ d s, Unused d [] → ledgerReady s = true → exec (.lgrNonce d) s = .next (report d.tok stOk s.lgr.nonce 0 s)) ∧
  (∀ d s g, Unused d [(0, 8)] → ledgerReady s = true → g = saveCkpt { s.lgr with nonce := (s.lgr.nonce + 1) % 2 ^ 32 } →
    exec (.lgrClear d) s = .next (if Config.ledgerKeyPresent = false then finish d stNotPermitted s
      else if d.payload.take 8 = clearToken s.lgr.nonce then { s with lgr := clearLedger d.tok g }
      else finish d stIntegrity (ledger 0x1202 4 s.lgr.nonce 0 0 (evRaise aLgrEvt 4 { s with lgr := g })))) ∧
  (∀ s tok, s.lgr.clearing = true → s.lgr.clearTok = some tok → Completes .lgrClearDone s (fun t => t.outcomes =
    s.outcomes ++ [{ tok := tok, status := stOk, result := 0, detail := 0 }] ∧ t.lgr.clearing = false ∧ t.lgr.journal = []))

/-- The steward descriptors complete: firmware images, cores, flows, limits and user opcodes (R344, R345, R347, R364 to R366). -/
def Obligations.StewardDescriptorsComplete : Prop :=
  (∀ d s b, Unused d [(0, 12)] → 64 ≤ pl d 8 4 → pl d 8 4 ≤ 1048576 → hostBlock d 0 (pl d 8 4) = some b →
    Completes (.stwFwLoad d) s (fun t =>
      (fwCheck 1 b = 0 → t = finish d stOk { s with stw := { s.stw with staged := some (fwImage b) } }) ∧
      ((fwCheck 1 b = 1 ∨ fwCheck 1 b = 2) → t = badField d 0xFFFF s) ∧
      (3 ≤ fwCheck 1 b → t = report d.tok stIntegrity 0 (fwCheck 1 b) s))) ∧
  (∀ d s, Unused d [(0, 2)] → pl d 0 1 = 0 → s.stw.staged.isSome = true → (∀ c ∈ maskCores (pl d 0 2), runsUser s c = false) →
    exec (.stwFwStart d) s = .next (startStop (maskCores (pl d 0 2)) d.tok true s)) ∧
  (∀ d s, Unused d [(0, 2)] → pl d 0 1 = 0 → exec (.stwFwStop d) s = .next (startStop (maskCores (pl d 0 2)) d.tok false s)) ∧
  (∀ s j js u v, s.stw.stops = j :: js → u = haltCores j.cores { s with stw := { s.stw with stops := js } } →
    v = (if j.start = true then startUser j.cores u else u) →
    exec .fwStopHalt s = .next (report j.tok stOk 0 0 (if userUp v then v else { v with stw := { v.stw with userVer := 0 } }))) ∧
  (∀ d s, Unused d [(0, 5), (6, 2)] → 2088 ≤ pl d 0 2 → pl d 0 2 ≤ 4095 → 1 ≤ pl d 2 2 → pl d 0 2 + pl d 2 2 ≤ 4096 → pl d 4 1 ≤ 1 →
    pl d 6 2 ≤ 1023 → (∀ e ∈ s.stw.items, e.2.flow < pl d 0 2 ∨ pl d 0 2 + pl d 2 2 ≤ e.2.flow) →
    Completes (.dspFlowCfg d) s (fun t => Reports d stOk 0 0 s t ∧ t.stw = { s.stw with
      flows := smModAll {} s.stw.flows (span (pl d 0 2) (pl d 2 2)) (fun _ x => { x with parallel := plBit d 4 0, affWin := pl d 6 2 }) })) ∧
  (∀ d s, Unused d [(0, 9)] → pl d 8 1 ≤ 1 → exec (.stwStatus d) s = .next (finish d stOk
    ((if pl d 8 1 = 1 then clearStw else id) (hostWrite (pl d 0 8) (stwRecord s) s)))) ∧
  (∀ d s, Unused d [(0, 6)] → exec (.dspLimits d) s = .next (finish d stOk
    (settleAlive (setReg (setReg s aSvcLim (BitVec.ofNat 32 (pl d 0 4))) aHbMask (BitVec.ofNat 32 (pl d 4 2)))))) ∧
  (∀ op d s slot i c, userUp s = true → opSlot s d.tok = some (slot, i) → i.st = .inService c →
    exec (.userOpcode op d) s = .next (forwardItem c slot (3072 + (op - 0xB8)) i s))

/-! ## Dispatcher, steward, abort and window commands complete -/

/-- ABORT_REQUEST, OP_TIMEOUT and ABORT_OWNER_TIMEOUT (R324, R326): an abort starts when none runs, an operation is ended in its
state, a silent owner is given up. Whether a silent owner's armed changes stay armed is a free choice of the model. -/
def Obligations.AbortCommandsComplete : Prop :=
  (∀ v s, abortBusy s = false → v.toNat &&& 0x3FF00000 = 0 → Word.bits v 31 30 ≤ 2 →
    exec (.abortRequest v) s = .next (startAbort (Word.bits v 31 30) (Word.bits v 19 16) (Word.bits v 15 0) none s)) ∧
  (∀ tok s u o, u = commitOutcomes s → findOp u tok = some o → o.notice = true → o.st = .started →
    exec (.abortOwnerTimeout tok) s = .next (leaveKeyed tok (withdrawRest tok (abortGiveUp tok u)))) ∧
  (∀ tok s u o, u = commitOutcomes s → findOp u tok = some o → o.timeoutMs ≠ 0 → o.st ≠ .committed →
    exec (.opTimeout tok) s = .next (abortOne { o with tmo := true }
      { u with hif := { u.hif with ops := u.hif.ops.map (fun p => if p.tok = tok then { p with tmo := true } else p) } }).2.2)

/-- The register windows (R335, R336, R388): a write of GO to an idle window whose access the matrix accepts ends at once where the target
answers OK: a read (RWIN_READ, SVC_RWIN_READ) leaves the target's word in the data register, a write (RWIN_WRITE, SVC_RWIN_WRITE) has the
effect of a register write, or of a write of the other target; BUSY reads 0 and ERR 0 then. A read with no path or target ends with ERR 3; one
whose target does not answer leaves the window BUSY, and RWIN_TIMEOUT ends it with ERR 1. -/
def Obligations.WindowCommandsComplete : Prop :=
  (∀ ans y s r, WindowOpen false false s → Answers false ans y s → r = targetRead .host (windowAt false s) y (windowGo false s) → r.1 = 0 →
    exec (.rwinRead 1 ans) s = .next (winEnd false false 0 r.2.1 r.2.2)) ∧
  (∀ ans y s r, WindowOpen true false s → Answers true ans y s → r = targetRead .service (windowAt true s) y (windowGo true s) → r.1 = 0 →
    exec (.svcRwinRead 1 ans) s = .next (winEnd true false 0 r.2.1 r.2.2)) ∧
  (∀ ans y s, WindowOpen false true s → Answers false ans y s → targetOf (windowAt false s) = 0 → exec (.rwinWrite 3 ans) s =
    .next (winEnd false true 0 0 (blockWriteInner .host (windowAt false s) (getReg s aRwinData) (windowGo false s)))) ∧
  (∀ ans y s, WindowOpen true true s → Answers true ans y s → targetOf (windowAt true s) = 0 → exec (.svcRwinWrite 3 ans) s =
    .next (winEnd true true 0 0 (blockWriteInner .service (windowAt true s) (getReg s aSvcRwinData) (windowGo true s)))) ∧
  (∀ ans y s r, WindowOpen false true s → Answers false ans y s → targetOf (windowAt false s) ≠ 0 →
    r = targetWrite .host (windowAt false s) (getReg s aRwinData) 15 y (windowGo false s) → r.1 = 0 →
    exec (.rwinWrite 3 ans) s = .next (winEnd false true 0 0 r.2)) ∧
  (∀ ans y s r, WindowOpen true true s → Answers true ans y s → targetOf (windowAt true s) ≠ 0 →
    r = targetWrite .service (windowAt true s) (getReg s aSvcRwinData) 15 y (windowGo true s) → r.1 = 0 →
    exec (.svcRwinWrite 3 ans) s = .next (winEnd true true 0 0 r.2)) ∧
  (∀ svc err data s t, t = setReg s (winCtl svc) (BitVec.ofNat 32 (err * 2 ^ 29)) →
    winEnd svc true err data s = t ∧ winEnd svc false err data s = setReg t (winData svc) data) ∧
  (∀ svc s t, winBusy svc s = false → isAon (windowAt svc s) = false →
    t = { master := winMaster svc, target := targetOf (windowAt svc s), write := false, id := 0, addr := windowAt svc s } →
    holdsBack t s.mtx.held s = false → denied (winBy svc) false (windowAt svc s) (windowGo svc s) = true →
    exec (if svc then .svcRwinRead 1 .ok else .rwinRead 1 .ok) s = .next (winEnd svc false 3 0 (mtxError 3 t (windowGo svc s)))) ∧
  (∀ svc s t, winBusy svc s = false → isAon (windowAt svc s) = false →
    t = { master := winMaster svc, target := targetOf (windowAt svc s), write := false, id := 0, addr := windowAt svc s } →
    holdsBack t s.mtx.held s = false → denied (winBy svc) false (windowAt svc s) (windowGo svc s) = false →
    exec (if svc then .svcRwinRead 1 .silent else .rwinRead 1 .silent) s =
      .next { windowGo svc s with mtx := { s.mtx with pending := s.mtx.pending ++ [t] } }) ∧
  (∀ svc s, winBusy svc s = true → exec (.rwinTimeout svc) s = .next (winEnd svc (winWrites svc s) 1 0
    (setMtx s (fun m => { m with held := m.held.filter (fun h => decide (h.win ≠ some svc)) }))))

/-- The dispatcher's commands and those of the stewards' get-work interface (R351 to R357, R362, R363). -/
def Obligations.DispatcherCommandsComplete : Prop :=
  (∀ c be s, (core s c).waiting = none → (heldItems s c).length < 4 →
    (Word.bits (getReg s (aDsp c 0x40)) 23 0 ≠ 0 ∨ (pickItem s c s.stw.items).isSome = true) →
    exec (.getWork c be) s = .next (startWait c be s)) ∧
  (∀ s c slot i, nextGrant s = some (c, slot, i) → exec .dspGrant s = .next (grantTo c slot i s)) ∧
  (∀ c s, (core s c).waiting.isSome = true → Word.bits (getReg s (aDsp c 0x40)) 23 0 ≠ 0xFFFFFF →
    Completes (.getWorkTimeout c) s (fun t => t.rdata = [0] ∧ t = nullHandle c 1 s)) ∧
  (∀ slot s i, smFind s.stw.items slot = some i →
    Completes (.affinityExpiry slot) s (fun t => smFind t.stw.items slot = some { i with resv := none } ∧
      ∀ k, k ≠ slot → smFind t.stw.items k = smFind s.stw.items k)) ∧
  (∀ c v s i, heldAt s c (Word.bits v 25 13) = some i → v = handle (Word.bits v 25 13) i.flow →
    exec (.dspDone c v) s = .next (freeSlotOf (Word.bits v 25 13) (rememberCore i.flow c s))) ∧
  (∀ c v s i, heldAt s c (Word.bits v 12 0) = some i →
    exec (.dspFwd c v) s = .next (forwardItem c (Word.bits v 12 0) (Word.bits v 27 16) i s)) ∧
  (∀ c s slot, mayAdd s c (stagedItem s c).flow = true → 0x10 ≤ (stagedItem s c).kind → freeSlot s = some slot →
    exec (.dspAdd c 1) s = .next (addResult c 0 (addAt slot (stagedItem s c) s))) ∧
  (∀ c s t, t = settleAlive { setCore s c { core s c with hb := true } with
    stw := { (setCore s c { core s c with hb := true }).stw with firstHb := true } } →
    exec (.heartbeat c) s = .next (remoteReturns t.fab.remoteRun t)) ∧
  (∀ m s, exec (.hbLost m) s = .next (settleAlive (silence m (List.range 16) s))) ∧
  (∀ slot s i c, smFind s.stw.items slot = some i → i.st = .inService c → i.long = false → getReg s aSvcLim ≠ 0 →
    exec (.svcLimit slot) s = .next (ledger 0x0E05 3 c i.flow i.kind (evRaise aDspEvt 4 (putItem s slot { i with long := true }))))

/-- The reports of an operation's owner (R360): commit, complete and withdraw, by the core that owns the operation. -/
def Obligations.OwnerReportsComplete : Prop :=
  (∀ c cmd s u o, u = commitOutcomes s → cmdLegal cmd = true → Word.bits cmd 31 30 = 0 → ownedOp u c = some o →
    exec (.cplCommit c cmd) s = .next (cplAnswer c 0 (commitTok o.tok u))) ∧
  (∀ c cmd s u o, u = commitOutcomes s → cmdLegal cmd = true → Word.bits cmd 31 30 = 1 → ownedOp u c = some o →
    exec (.cplComplete c cmd) s = .next (cplAnswer c 0 (tellAborts o.tok 0 false
      (endOp o (Word.bits cmd 23 16) (getReg u (aCpl c 4)).toNat (Word.bits cmd 15 0) false u)))) ∧
  (∀ c cmd s u o, u = commitOutcomes s → cmdLegal cmd = true → Word.bits cmd 31 30 = 2 → ownedOp u c = some o → o.notice = true →
    exec (.cplWithdraw c cmd) s = .next (withdrawTok o.tok (cplAnswer c 0 (tellAborts o.tok 1 false
      (endOp o (abortStatus o) (getReg u (aCpl c 4)).toNat 0 false u))))) ∧
  (∀ tok s, (∃ o ∈ s.hif.ops, o.tok = tok ∧ o.st = .started) → ∀ o ∈ (commitTok tok s).hif.ops, o.tok = tok → o.st = .committed ∧ o.notice = false)

/-! ## Host-interface rings, host link, service port, interrupts, resets and reads complete -/

/-- A disabled ring is enabled by a legal write with EN set, and its state starts afresh; a submission ring also needs its completion
ring enabled (R309). An enabled ring is disabled by the same value with EN clear (R327, R328); the end of a drain disables it. -/
def Obligations.RingCommandsComplete : Prop :=
  (∀ n v s, n < 16 → v.toNat &&& 0xF000F08E = 0 → 1 ≤ Word.bits v 27 16 → Word.bit v 0 = true → (sqr s n).enabled = false →
    (cqr s (Word.bits v 11 8)).enabled = true → exec (.sqEnable n v) s =
      .next (setSq (setReg (if (cqr s (Word.bits v 11 8)).disabling then discardHeld (Word.bits v 11 8) s else s) (aSq n 8) v) n { enabled := true })) ∧
  (∀ n v s, n < 16 → v.toNat &&& 0xF000F08E = 0 → 1 ≤ Word.bits v 27 16 → Word.bit v 0 = false → (sqr s n).enabled = true →
    (sqr s n).disabling = false → Word.put v 0 0 0 = Word.put (getReg s (aSq n 8)) 0 0 0 →
    exec (.sqDisableWrite n v) s = .next (sqDisableStart n none (setReg s (aSq n 8) v))) ∧
  (∀ n s, (sqr s n).disabling = true → sqDrained s n = true → exec (.sqDrainEnd n) s = .next (disablesDone (sqr s n).disableToks
    (settleCqs (List.range 16) (setSq s n { sqr s n with enabled := false, disabling := false, err := false, disableToks := [] })))) ∧
  (∀ n v s, n < 16 → v.toNat &&& 0xF000C0FC = 0 → 1 ≤ Word.bits v 27 16 → Word.bit v 0 = true → (cqr s n).enabled = false →
    exec (.cqEnable n v) s = .next (drainAll [n] (setCq (setReg s (aCq n 8) v) n
      { enabled := true, phase := true, held := (cqr s n).held, fullCnt := (cqr s n).fullCnt }))) ∧
  (∀ n v s, n < 16 → v.toNat &&& 0xF000C0FC = 0 → 1 ≤ Word.bits v 27 16 → Word.bit v 0 = false → (cqr s n).enabled = true →
    Word.put v 0 0 0 = Word.put (getReg s (aCq n 8)) 0 0 0 →
    exec (.cqDisable n v) s = .next (settleCqs [n] (setCq (setReg s (aCq n 8) v) n { cqr s n with disabling := true }))) ∧
  (∀ v s, v.toNat &&& 0xF000FFFE = 0 → 1 ≤ Word.bits v 27 16 → Word.bit v 0 = true → s.hif.evr.enabled = false →
    Completes (.evrEnable v) s (fun t => getReg t aEvrCfg = getReg (setReg s aEvrCfg v) aEvrCfg ∧ t.hif = { s.hif with
      evr := { s.hif.evr with enabled := true, phase := true, tail := 0, head := 0, recs := [], holding := false } })) ∧
  (∀ v s, v.toNat &&& 0xF000FFFE = 0 → 1 ≤ Word.bits v 27 16 → Word.bit v 0 = false → s.hif.evr.enabled = true →
    Word.put v 0 0 0 = Word.put (getReg s aEvrCfg) 0 0 0 →
    Completes (.evrDisable v) s (fun t => t.hif = { s.hif with evr := { s.hif.evr with enabled := false, err := false } }))

/-- Doorbells, the power states of the host link, message vectors and host-interface resets (R308, R312, R329 to R332). -/
def Obligations.HostLinkCommandsComplete : Prop :=
  (∀ v s, Completes (.dbKick v) s (fun t => t = { s with hif := { s.hif with fastPoll := true } })) ∧
  (∀ es s u, u = (if s.hif.inL1 then leaveL1 s else s) → pollsRun u = true → Completes (.doorbellPoll none es) s (fun t =>
    t.hif.nPolls = bump 32 u.hif.nPolls 1 ∧ t.hif.nPollFail = bump 32 u.hif.nPollFail 1 ∧ t.hif.fastPoll = true ∧
    t.hif.doorbell = u.hif.doorbell ∧ t.hif.inL1 = false)) ∧
  (∀ w es s u v, u = (if s.hif.inL1 then leaveL1 s else s) → pollsRun u = true → w.take 33 = u.hif.doorbell →
    v = { u with hif := { u.hif with nPolls := bump 32 u.hif.nPolls 1, fastPoll := u.hif.fastPoll && decide (u.lgr.ptime < u.hif.lastChange + 11) } } →
    exec (.doorbellPoll (some w) es) s =
      .next (settleL1 (fetchAll es none (pollEvr (w.getD 32 0) (pollCqs w (List.range 16) (pollSqs w (List.range 16) v)))))) ∧
  (∀ w es s u v, u = (if s.hif.inL1 then leaveL1 s else s) → pollsRun u = true → w.take 33 ≠ u.hif.doorbell →
    v = { u with hif := { u.hif with nPolls := bump 32 u.hif.nPolls 1, doorbell := w.take 33, fastPoll := true, lastChange := u.lgr.ptime } } →
    exec (.doorbellPoll (some w) es) s =
      .next (settleL1 (fetchAll es none (pollEvr (w.getD 32 0) (pollCqs w (List.range 16) (pollSqs w (List.range 16) v)))))) ∧
  (∀ q s, (cqr s q).modTimer = true → (cqr s q).tail ≠ (cqr s q).head → exec (.cqModTimer q) s =
    .next (sendVector (Word.bits (getReg s (aCq q 8)) 13 8) (setCq s q { cqr s q with modCount := 0, modTimer := false }))) ∧
  (∀ v x y s, s.hif.msixPend = [] → Completes (.msixUnmask v x y) s (fun t => v ∈ t.hif.unmasked ∧
    t.hif.msixTab = smSet (0, 0) s.hif.msixTab v (x, y) ∧ t.outs = s.outs ∧ t.regs = s.regs)) ∧
  (∀ v x y s, s.hif.msixPend = [v] → s.hif.funcMask = false → s.hif.msixEn = true → canHost s = true →
    Completes (.msixUnmask v x y) s (fun t => t.hif.msixPend = [] ∧ t.hif.msixTab = smSet (0, 0) s.hif.msixTab v (x, y) ∧
      t.outs = s.outs ++ [.msix v (smGet (0, 0) t.hif.msixTab v).1 (smGet (0, 0) t.hif.msixTab v).2])) ∧
  (∀ p s, exec (.d3hotEntry p) s = .next (evRaise aHifEvt 7 { s with hif := { s.hif with d3 := true, pmeEn := p } })) ∧
  (∀ s, exec .d0Return s = .next (resumeHost true { s with hif := { s.hif with d3 := false } })) ∧
  (∀ b c s, exec (.busMasterChange b c) s = .next (sendPending (resumeHost false { s with hif := { s.hif with
    bme := b, msixEn := c.msixEn, funcMask := c.funcMask, mps := c.mps, mrrs := c.mrrs, l1En := c.l1En,
    unmasked := s.hif.unmasked.filter (fun v => !decide (v ∈ c.masked)) } }))) ∧
  (∀ c s, exec (.hostIfReset c) s = .next (hostReset c true s)) ∧
  (∀ w s, Completes (.inboundTimeout w) s (fun t => t.rdata = (if w then [] else [0xFFFFFFFF]) ∧
    t.hif.nInbound = bump 32 s.hif.nInbound 1 ∧
    t.mtx.held = (if w then s.mtx.held.eraseP (fun h => decide (h.by_ = .host) && h.win.isNone) else s.mtx.held)))

/-- The service port and register writes (R10, R11, R337, R473, R474): STATUS reads its four words, a READ frame gives words of the AON set
and zero elsewhere, a register write to a plain register follows its fields. -/
def Obligations.ServiceAndRegisterCommandsComplete : Prop :=
  (∀ s, Completes .svcStatus s (fun t => t = { s with
    rdata := [BitVec.ofNat 32 (gstat s), getReg s aTopEvt, BitVec.ofNat 32 (dpxStat s), BitVec.ofNat 32 (lgrStat s)] })) ∧
  (∀ a n s r, r = svcWords n (a / 4 * 4) s → exec (.svcRead a n) s = .next { r.2 with rdata := r.1 } ∧ r.1.length = n) ∧
  (∀ a n s, aonSet (a / 4 * 4) = false → (svcWords (n + 1) (a / 4 * 4) s).1 = 0 :: (svcWords n (a / 4 * 4 + 4) s).1) ∧
  (∀ a b s, exec (.svcWrite a b) s = .next (svcStore (chunks 4 (b.length / 4) b) (a / 4 * 4) s)) ∧
  (∀ s, exec .svcFrameEnd s = .next (resetMasters [7] s)) ∧
  (∀ m a v s fs, a < 0x01400000 → regFields a = some fs → (pastMatrix m a = true ∨ holdsBack (writeTxn m a) s.mtx.held s = false) →
    denied m true a s = false → clockStopped a s = false → a ≠ aRwinCtl → a ≠ aSvcRwinCtl → actWrite m a v s = none →
    irqWrite m a v s = none → stwWrite m a v s = none → exec (.registerWrite m a v 15) s = .next (plainWrite a fs v s)) ∧
  (∀ m a v be s, be ≠ 15 → a < 0x01400000 → (pastMatrix m a = true ∨ holdsBack (writeTxn m a) s.mtx.held s = false) →
    denied m true a s = false → clockStopped a s = false → exec (.registerWrite m a v be) s = .next s) ∧
  (∀ be s, Word.bit (getReg s aLgrRptr) 31 = false →
    exec (.lgrRecRead be) s = .next { s with rdata := [recWord s aLgrRptr 7 &&& laneMask be] }) ∧
  (∀ be s, Word.bit (getReg s aLgrRptr) 31 = true → exec (.lgrRecRead be) s = .next (setField
    { s with rdata := [recWord s aLgrRptr 7 &&& laneMask be] } aLgrRptr 16 0 ((Word.bits (getReg s aLgrRptr) 16 0 + 1) % 131072))) ∧
  (∀ be s, Word.bit (getReg s aSvcRptr) 31 = false →
    exec (.svcLgrRecRead be) s = .next { s with rdata := [recWord s aSvcRptr 7 &&& laneMask be] }) ∧
  (∀ be s, Word.bit (getReg s aSvcRptr) 31 = true → exec (.svcLgrRecRead be) s = .next (setField
    { s with rdata := [recWord s aSvcRptr 7 &&& laneMask be] } aSvcRptr 16 0 ((Word.bits (getReg s aSvcRptr) 16 0 + 1) % 131072)))

/-- Interrupt deliveries, claims, ends, masks and software sources (R372, R373, R375 to R377). -/
def Obligations.InterruptCommandsComplete : Prop :=
  (∀ s t n u, pickTarget s (irqCandidates s) (rotation s) = some (t, n) → t < 16 → u = noteEvrFull (irqCandidates s) s →
    exec .irqDeliver s = .next (deliverCore t n { u with irq := { u.irq with rot := t } })) ∧
  (∀ s t n u, pickTarget s (irqCandidates s) (rotation s) = some (t, n) → 16 ≤ t → u = noteEvrFull (irqCandidates s) s →
    exec .irqDeliver s = .next (deliverHost t n { u with irq := { u.irq with rot := t } })) ∧
  (∀ n be s src, smFind s.irq.bell n = some src → Completes (.irqClaim n be) s (fun t =>
    t.rdata = [BitVec.ofNat 32 (2 ^ 31 + src) &&& laneMask be] ∧
    t.irq.inSvc = s.irq.inSvc ++ [(src, n)] ∧ t.irq.bell = smDrop s.irq.bell n)) ∧
  (∀ n be s, smFind s.irq.bell n = none → Completes (.irqClaim n be) s (fun t => t = { s with rdata := [0] })) ∧
  (∀ n src s, src < 256 → (src, n) ∈ s.irq.inSvc → Completes (.irqEoi n (BitVec.ofNat 32 src)) s (fun t =>
    t.irq.inSvc = s.irq.inSvc.erase (src, n) ∧ t.irq.badEoi = s.irq.badEoi ∧ t.lgr = s.lgr)) ∧
  (∀ n src s, src < 256 → (src, n) ∉ s.irq.inSvc → Completes (.irqEoi n (BitVec.ofNat 32 src)) s (fun t =>
    t.irq.inSvc = s.irq.inSvc ∧ t.irq.badEoi = bump 16 s.irq.badEoi 1)) ∧
  (∀ src s, src < 256 → exec (.irqMset (BitVec.ofNat 32 src)) s = .next (setField s (aIrqMask (src / 32)) (src % 32) (src % 32) 1)) ∧
  (∀ src s, src < 256 → exec (.irqMclr (BitVec.ofNat 32 src)) s = .next (setField s (aIrqMask (src / 32)) (src % 32) (src % 32) 0)) ∧
  (∀ v s, v.toNat < 65536 → exec (.irqSwiSet v) s = .next (setReg s aIrqSwi (getReg s aIrqSwi ||| v))) ∧
  (∀ v s, v.toNat < 65536 → exec (.irqSwiClear v) s = .next (setReg s aIrqSwi (getReg s aIrqSwi &&& ~~~v))) ∧
  (∀ be s, Completes (.irqStatRead be) s (fun t => t.rdata = [BitVec.ofNat 32 s.irq.badEoi &&& laneMask be] ∧ t.irq = { s.irq with badEoi := 0 }))

/-- Requests, asserts and releases of the resets, power failure and boot (R336, R342, R459, R483, R485, R486, R488). -/
def Obligations.ResetCommandsComplete : Prop :=
  (∀ v svc s, v = 0x57520001 → s.aon.warm = false → s.aon.porstLow = false → s.aon.powered = true → tripHolds s = false →
    exec (.warmResetRequest v svc) s = .next (warmAssert (if svc then 3 else 1) s)) ∧
  (∀ s, s.aon.warm = false → s.aon.porstLow = false → s.aon.powered = true → tripHolds (setAon s (fun a => { a with wrstPin := true })) = false →
    exec .wrstNAssert s = .next (warmAssert 2 (setAon s (fun a => { a with wrstPin := true })))) ∧
  (∀ s, s.aon.warm = true → Completes .warmResetRelease s (fun t => t.aon.warm = false ∧ t.aon.wrstPin = false ∧
    t.stw.core = [(0, { run := .boot })] ∧ t.aon.bootState = if bootsItself s.aon.bootSrc then 1 else 0)) ∧
  (∀ b p s, Completes (.coldReset b p) s (fun t => t.aon.bootSrc = b % 4 ∧ t.aon.primary = p ∧ t.regs = [] ∧ t.sch.st = 0 ∧
    t.lgr = powerUp s.lgr ∧ t.hostMem = s.hostMem ∧ t.pending = s.pending)) ∧
  (∀ s, Completes .powerFail s (fun t => t.aon.powered = false ∧ t.lgr = flashOf s.lgr ∧ t.regs = [] ∧ t.pending = s.pending)) ∧
  (∀ s, Completes .porstNAssert s (fun t => t.aon.porstLow = true ∧ t.aon.powered = s.aon.powered ∧ t.regs = [] ∧ t.lgr = flashOf s.lgr)) ∧
  (∀ v img s, writeLegal [fld 31 31 .w1s 0, fldIn 20 0 .rw 0 64 1048576] v = true → Word.bit v 31 = true → s.aon.bootState = 0 →
    Completes (.bootGo v img) s (fun t => t.aon.bootState = 1 ∧ t.aon.bootBusy = true)) ∧
  (∀ s f, s.aon.bootState = 1 → Completes (.coresReleased f) s (fun t => t.aon.bootCheck = (bootVerdict s f).1 ∧ t.aon.bootBusy = false ∧
    t.aon.bootState = if (bootVerdict s f).1 = 0 then 2 else if s.aon.bootSrc % 2 = 1 then 3 else 0))

/-- Reads with effects (R9, R129, R163, R304, R337, R377, R410, R477, R518): each returns its word, in the bytes that are read, and only what
the register's rule says changes, however few bytes are read. -/
def Obligations.ReadCommandsComplete : Prop :=
  (∀ be s, exec (.cisStatRead be) s = .next (setField { s with rdata := [cisStatWord s &&& laneMask be] } aCisStat 15 0 0)) ∧
  (∀ be s, exec (.corStatRead be) s = .next (setField { s with rdata := [corStatWord s &&& laneMask be] } aCorStat 15 0 0xFFFF)) ∧
  (∀ c be s, Completes (.drcRefRead c be) s (fun t => t.rdata = [drcRefWord s c &&& laneMask be] ∧ t.drc = { s.drc with
    maxDebt := smSet 0 s.drc.maxDebt c 0, forced := smSet 0 s.drc.forced c 0 })) ∧
  (∀ be s, exec (.topThermRead be) s = .next (setField { s with rdata := [getReg s aTopTherm &&& laneMask be] } aTopTherm 7 0 0x80)) ∧
  (∀ n be s r rs, smGet [] s.ptp.rpt n = r :: rs → Completes (.ptpRptPop n be) s (fun t =>
    t.rdata = [BitVec.ofNat 32 (2 ^ 31 + r.msgType % 256 * 256 + r.domain % 256) &&& laneMask be] ∧
    t.ptp = { s.ptp with rpt := smSet [] s.ptp.rpt n rs })) ∧
  (∀ be s c cs, s.ptp.tcapQ = c :: cs → Completes (.ptpTcapPop be) s (fun t => t.ptp = { s.ptp with tcapQ := cs } ∧
    t.rdata = [BitVec.ofNat 32 (((chunks 4 6 (capRecord true c)).map leNat).getD 0 0) &&& laneMask be])) ∧
  (∀ be s, Completes (.ptpTimeRead be) s (fun t => t.rdata = [BitVec.ofNat 32 (s.ptp.dt % 1000000000) &&& laneMask be] ∧
    t.ptp = s.ptp ∧ t.regs = s.regs)) ∧
  (∀ be s, Completes (.clkTidxRead be) s (fun t => t.rdata = [BitVec.ofNat 32 (if s.clk.tidxValid then s.clk.tidx else 0) &&& laneMask be] ∧
    t.latches = smSet 0 s.latches 0x00400020 (BitVec.ofNat 32 ((if s.clk.tidxValid then s.clk.tidx else 0) / 2 ^ 32)))) ∧
  (∀ be s, Completes (.clkMapRead be) s (fun t => t.rdata = [BitVec.ofNat 32 (unsigned 64 s.clk.mapOfs) &&& laneMask be] ∧
    t.latches = smSet 0 s.latches 0x00400040 (BitVec.ofNat 32 (unsigned 64 s.clk.mapOfs / 2 ^ 32)))) ∧
  (∀ be s, Completes (.lgrPtimeRead be) s (fun t => t.rdata = [BitVec.ofNat 32 s.lgr.ptime &&& laneMask be] ∧
    t.latches = smSet 0 s.latches 0x01200028 (BitVec.ofNat 32 (s.lgr.ptime / 2 ^ 32))))

/-! ## The matrix, tranche boundaries and the engines' items complete -/

/-- The matrix's time-outs, late responses and drains (R385, R386). -/
def Obligations.MatrixCommandsComplete : Prop :=
  (∀ t s u, u = mtxError 1 t (winTimeout true t (winTimeout false t s)) → exec (.matrixTimeout t) s =
    .next (releaseHeld { u with mtx := { u.mtx with pending := u.mtx.pending.erase t, late := u.mtx.late ++ [t] } })) ∧
  (∀ t s, exec (.matrixLateResponse t) s = .next (releaseHeld { s with mtx := { s.mtx with late := s.mtx.late.erase t } })) ∧
  (∀ m a b s, exec (.masterResetDrain m a b) s = .next (releaseHeld (ledger 0x0303 1 m a b (evRaise aMtxEvt 3 { s with mtx := { s.mtx with
    pending := s.mtx.pending.filter (fun x => decide (x.master ≠ m)), late := s.mtx.late.filter (fun x => decide (x.master ≠ m)),
    draining := s.mtx.draining.erase m } })))) ∧
  (∀ s, s.mtx.held = [] → releaseHeld s = s) ∧
  (∀ a b s g, b ≠ [] → 0x02000000 ≤ a → a + b.length ≤ 0x03000000 → g = storeWrite s.sch.shadow (a - 0x02000000) b →
    exec (.shadowStoreWrite a b) s = .next (setSch s (fun h => { h with
      shadow := g, shadowValid := false, shadowSigned := false,
      shadowImg := if s.sch.shadowImg.isSome then some (parseImg g) else none })))

/-- A boundary with the tranche index set, and the cut-off of a period (R17, R45, R95, R174). -/
def Obligations.TrancheCommandsComplete : Prop :=
  (∀ c v x s u, u = observe x s → u.clk.tidxValid = true → u.aon.trip = false → exec (.trancheBoundary c v x) s = .next (boundary c v u)) ∧
  (∀ c v x s u, u = observe x s → (u.clk.tidxValid = false ∨ u.aon.trip = true) → exec (.trancheBoundary c v x) s = .next u) ∧
  (∀ s, s.aon.trip = false → s.clk.tidxValid = true → s.clk.cutoffDone = false → exec .segmentCutoff s = .next (cutoff (s.clk.tidx + 1) s)) ∧
  (∀ ue s, 0 < s.clk.tidx → (stageImg s (s.clk.tidx - 1)).isSome = true →
    exec (.furrowPhaseStart ue) s = .next (eachObj (verifyObj ((s.clk.tidx : Int) - 1023)) allObjects (markWins ue s))) ∧
  (∀ bad s i, 0 < s.clk.tidx → stageImg s (s.clk.tidx - 1) = some i → s.pair.mergeDone = false →
    exec (.handoverPhaseStart bad) s = .next (handoverOp (s.clk.tidx - 1) bad s))

/-- The headgate's and the geometry unit's items in the period of their pass and the slots of the furrows (R107, R168, R176), with a governing image. -/
def Obligations.HeadgateAndGeometryItemsComplete : Prop :=
  (∀ o s i, writeImg s s.clk.tidx = some i → exec (.cond o) s = .next (condOp s.clk.tidx o s)) ∧
  (∀ o s i, stageImg s s.clk.tidx = some i → exec (.geomItem (.pre o)) s = .next (runPre s.clk.tidx o (i.ent o) s)) ∧
  (∀ o k s i, stageImg s s.clk.tidx = some i → k < (i.ent o).dirs → exec (.geomItem (.dir o k)) s = .next (runDir o k s)) ∧
  (∀ o s i, stageImg s s.clk.tidx = some i → (i.ent o).merge = 1 → exec (.geomItem (.mrg o)) s = .next (runMrg o s)) ∧
  (∀ o j s i, stageImg s s.clk.tidx = some i → exec (.geomItem (.slt o j)) s = .next (runSlt s.clk.tidx o j i s)) ∧
  (∀ f e ue s i x, 0 < s.clk.tidx → stageImg s (s.clk.tidx - 1) = some i → (i.fur.getD f [])[e]? = some x →
    exec (.furrowSlot f e ue none none) s = .next (guardSlot none (slotOp (s.clk.tidx - 1) f x.obj x.slot (markWins ue s)))) ∧
  (∀ f e ue a v s i x, 0 < s.clk.tidx → stageImg s (s.clk.tidx - 1) = some i → (i.fur.getD f [])[e]? = some x →
    exec (.furrowSlot f e ue (some a) v) s =
      .next (guardSlot v (auditSlot (s.clk.tidx - 1) f e a (slotOp (s.clk.tidx - 1) f x.obj x.slot (markWins ue s)))))

/-- The correction engine's items (R131 to R136, R149, R153, R179) and the tail convolver's chains (R138 to R144, R406). -/
def Obligations.CorrectionItemsComplete : Prop :=
  (∀ o s n i, corImg s = some (n, i) → o < i.cor.length → exec (.bq (.out o)) s = .next (bqOut n o i.lanes.length s)) ∧
  (∀ x s n i y, corImg s = some (n, i) → laneXf s i x n = some y → exec (.bq (.lane x)) s = .next (laneBq y n s)) ∧
  (∀ o ue s n i e, corImg s = some (n, i) → i.cor[o]? = some e →
    exec (.head (.out o) ue) s = .next (headOp n o (outAt s o).set e false ue s)) ∧
  (∀ x ue s n i y e, corImg s = some (n, i) → laneXf s i x n = some y → i.cor[y.out]? = some e →
    exec (.head (.lane x) ue) s = .next (headOp n y.out (slotSet s y.slot) e true ue s)) ∧
  (∀ o s n i e r, corImg s = some (n, i) → i.cor[o]? = some e → (xfAt s o n).any (fun y => decide (y.lane < i.lanes.length)) = false →
    r = joinOp n o (tailSrc s o n) (outAt s o).set e (sumsOf (outAt s o).head n) s →
    exec (.slu (.out o)) s = .next (sluiceOp n o r.1 r.2)) ∧
  (∀ x s n i y e a b, corImg s = some (n, i) → laneXf s i x n = some y → i.cor[y.out]? = some e →
    a = joinOp n y.out (tailSrc s y.out n) (outAt s y.out).set e (sumsOf (outAt s y.out).head n) s →
    b = joinOp n y.out (laneSrc s y n) (slotSet s y.slot) e (sumsOf (outAt s y.out).headNew n) a.2 →
    exec (.slu (.lane x)) s = .next (sluiceOp n y.out (blend y n a.1 b.1) b.2)) ∧
  (∀ o k x s i q b m e, s.drc.noDram = false → q = tailQ s → q + 2 ≤ s.clk.tidx → b = (s.clk.tidx - 2) / q - 1 → m = q * (b + 2) →
    tailImg s m = some i → (tailPhase i (s.clk.tidx % i.f)).any (fun p => decide (p.1 = o)) = true → corEnt (some i) o = some e → 1 ≤ e.tailMax →
    exec (.tailChain (.out o) k x) s =
      .next (noteSlack k (chainPanic o x (chainOp o b e.tailMax (setAt s o m) (specAddrs s o m) (tailOutAddr o) true x s)))) ∧
  (∀ l k x s i q b m y, s.drc.noDram = false → q = tailQ s → q + 2 ≤ s.clk.tidx → b = (s.clk.tidx - 2) / q - 1 → m = q * (b + 2) →
    tailImg s m = some i → (tailPhase i (s.clk.tidx % i.f)).any (fun p => decide (p.1 = 0x8000 + l)) = true → laneBlockXf s l m = some y →
    hasTail (some i) y.out = true → l < i.lanes.length → exec (.tailChain (.lane l) k x) s =
      .next (noteSlack k (chainPanic (1024 + l) x
        (chainOp y.out b 30 (slotSet s y.slot) (slotSpecAddr y.slot) (laneOutAddr l) false x s))))

/-- Cistern fetches and tail reads arrive, with the lines that they read with errors; a late one asserts panic (R104, R106, R129, R144, R397,
R408). -/
def Obligations.FetchCommandsComplete : Prop :=
  (∀ o g age errs s r, (∃ f ∈ s.pair.fetch, f.obj = o ∧ f.grp = g ∧ f.data = none) → r = readRuns 0 [(cisAddr o g, 896)] errs s →
    dramLost r.1 (cisAddr o g) 896 = false →
    exec (.cisternFetchDone o g age errs) s = .next (settlePanic (setPair (noteAge age r.1) (fun p => { p with
      fetch := p.fetch.map (fun f => if f.obj = o ∧ f.grp = g ∧ f.data.isNone then
        { f with data := some (some (groupBlks (dramGet r.2 (cisAddr o g) 896))) } else f) })))) ∧
  (∀ o g age errs s r u, (∃ f ∈ s.pair.fetch, f.obj = o ∧ f.grp = g ∧ f.data = none) → r = readRuns 0 [(cisAddr o g, 896)] errs s →
    dramLost r.1 (cisAddr o g) 896 = true → u = settlePanic (setPair (noteAge age r.1) (fun p => { p with
      fetch := p.fetch.map (fun f => if f.obj = o ∧ f.grp = g ∧ f.data.isNone then { f with data := some none } else f) })) →
    exec (.cisternFetchDone o g age errs) s =
      .next (ledgerLim 0x0B02 4 o 1 (fun c => (o, g, c)) (evRaise aCisEvt 1 (pairCount o 24 1 u)))) ∧
  (∀ o g s, (∃ f ∈ s.pair.fetch, f.obj = o ∧ f.grp = g ∧ f.data = none) → exec (.cisternPanic o g) s =
    .next (settlePanic (evRaise aCisEvt 3 (setPair s (fun p => { p with
      fetch := p.fetch.map (fun f => if f.obj = o ∧ f.grp = g then { f with panic := true } else f) }))))) ∧
  (∀ n s, exec (.tailReadDone (.chain n)) s =
    .next (settleTail (setCor s (fun c => { c with lateChain := c.lateChain.filter (fun x => decide (x ≠ n)) })))) ∧
  (∀ o g errs s r, (∃ f ∈ s.cor.tailReq, f.out = o ∧ f.grp = g) → r = readRuns 1 [(outGroupAddr s o g, 1600)] errs s →
    exec (.tailReadDone (.output o g errs)) s = .next (settleTail (setCor r.1 (fun c => { c with
      tailReq := c.tailReq.filter (fun f => !(decide (f.out = o) && decide (f.grp = g))),
      buf := smSet none c.buf (o * 2 + g % 2) (some { grp := g, trs := groupTrs r.2 (outGroupAddr s o g) }) }))))

/-! ## Fabric links, caravans and the clock's references -/

/-- Link events (R208 to R210): the states of a link, its counters and its HELLO frames. -/
def Obligations.LinkCommandsComplete : Prop :=
  (∀ l s, (linkSt s l).st = 1 → exec (.linkLock l) s = .next (setLink s l { linkSt s l with st := 2, gotHello := false })) ∧
  (∀ l s, (linkSt s l).st = 1 →
    exec (.linkLockTimeout l) s = .next (setLink s l { linkSt s l with lockFail := bump 32 (linkSt s l).lockFail 1 })) ∧
  (∀ l s, linkUp s l = true → exec (.linkLockLoss l) s = .next (linkGoesDown 1 1 l s)) ∧
  (∀ l c u s, exec (.fecWindow l c u) s = .next (if linkUp s l = true ∧ (linkSt s l).fecLim < u
    then linkGoesDown 2 1 l (linkCount l 16 u (linkCount l 12 c s)) else linkCount l 16 u (linkCount l 12 c s))) ∧
  (∀ l s, (linkSt s l).st ≠ 0 → exec (.helloSend l) s = .next (setLink s l { linkSt s l with
    queue := (linkSt s l).queue ++ [{ cls := 2, bytes := 2 :: helloBytes s l, fail := false }] })) ∧
  (∀ l b s, b.length = 32 → crc32c (b.take 28) = field b 28 4 → 2 ≤ (linkSt s l).st → exec (.helloReceive l b) s = .next (helloTake l b s)) ∧
  (∀ l s, (linkSt s l).st = 2 → exec (.helloTimeout l) s = .next (setLink s l { linkSt s l with st := 1, gotHello := false })) ∧
  (∀ l s u, u = setLink s l { linkSt s l with ack := false } → linkUp s l = true → exec (.helloLost l) s = .next (linkGoesDown 3 1 l u)) ∧
  (∀ l s u, u = setLink s l { linkSt s l with ack := false } → linkUp s l = false →
    exec (.helloLost l) s = .next (setLink u l { linkSt u l with gotHello := false })) ∧
  (∀ l t d x s, (linkSt s l).st ≠ 0 → s.clk.tidxValid = true → exec (.tickReceive l 0xB7 t d x) s = .next (tickTake l t (x - d) s)) ∧
  (∀ l m t d x s, m ≠ 0xB7 → exec (.tickReceive l m t d x) s = .next s)

/-- Caravans: a launch queues its caravan on an UP link, an arriving one is taken, a frame leaves its queue (R182, R220, R222, R234, R235). -/
def Obligations.CaravanCommandsComplete : Prop :=
  (∀ l c b w p s, linkUp s l = true → hcrcGood b = true → exec (.caravanReceive l c b w p) s = .next (takeCaravan l c (hdrOf b) b w p s)) ∧
  (∀ l c b p s, linkUp s l = true → hcrcGood b = false → exec (.caravanReceive l c b true p) s = .next (dropCaravan 20 true l s)) ∧
  (∀ l s n i x m u r h v, n < 65536 → s.sch.activeImg = some i → (i.launches.getD l [])[n]? = some x → m = launchTranche s.clk.tidx x.ty →
    xptServes s n m = true → u = (if x.ty = 2 then settleMerge s else s) → linkUp u l = true → reserved15 u l = false → (fabAddr u).isSome = true →
    r = x.srcs.map (fun o => (o, launchRecord u x.ty m o)) →
    h = { dest := x.dest, src := srcField u, ty := x.ty, epoch := epochOf u m, grp := decide (x.b4 / 32 % 2 = 1),
          bcast := decide (x.b4 / 64 % 2 = 1), count := x.srcs.length, stream := x.stream, tidx := m % 65536, hadd := x.hadd, ttl := x.ttl,
          plen := 56 * x.srcs.length } →
    v = (if x.ty = 3 then launchChecks (r.map (fun c => (c.1, c.2.2))) u else u) → exec (.launch l n) s = .next (hearEpoch (epochOf u m)
      (queueFrame l (caravanFrame 1 (hdrBytes h ++ r.flatMap (fun c => recBytes c.2.1)) false) v))) ∧
  (∀ l df p s i f, s.aon.trip = false → nextFrame (linkSt s l).queue = some i → (linkSt s l).queue[i]? = some f → (f.cls ≠ 1 ∨ p = none) →
    Completes (.egressFrameStart l df p) s (fun t => t.outs = s.outs ++ (.link l f.bytes :: if f.fail then [.linkAbort l] else []) ∧
      t.regs = s.regs)) ∧
  (∀ l df q s i f, s.aon.trip = false → nextFrame (linkSt s l).queue = some i → (linkSt s l).queue[i]? = some f → f.cls = 1 →
    Completes (.egressFrameStart l df (some q)) s (fun t => t.regs = s.regs ∧ t.fab.slips = bumpAt s.fab.slips (l * 2 + 1) 1 ∧
      t.outs = s.outs ++ (.link l (slipCaravan 17 q.at_ f.bytes) :: if f.fail then [.linkAbort l] else []))) ∧
  (∀ tag s r, s.fab.disc.find? (fun x => decide (x.tag = tag)) = some r → Completes (.fabDiscTimeout tag) s (fun t =>
    t.fab.disc = s.fab.disc.erase r ∧ t.outcomes = s.outcomes ++ [{ tok := r.tok, status := stTimeout, result := 0, detail := 0 }])) ∧
  (∀ q s r, s.fab.remote.find? (fun x => decide (x.seq = q)) = some r → 3 ≤ r.tries → Completes (.remoteRetransmit q) s (fun t =>
    t.fab.remote = s.fab.remote.erase r ∧ t.outcomes = s.outcomes ++ [{ tok := r.tok, status := stTimeout, result := 0, detail := 0 }])) ∧
  (∀ q s r, s.fab.remote.find? (fun x => decide (x.seq = q)) = some r → r.tries < 3 → exec (.remoteRetransmit q) s =
    .next (sendMgmt r.dest false false none (mgmtBytes 1 q r.entry) (setFab s (fun b => { b with
      remote := b.remote.map (fun x => if x.seq = q then { x with tries := x.tries + 1 } else x) }))))

/-- The references' edges, windows and timers, the selector's switch, the PLL and the tranche index (R244 to R263). -/
def Obligations.ReferenceCommandsComplete : Prop :=
  (∀ r t s, 2 ≤ r → r ≤ 6 → (refAt s r).enabled = true → exec (.refEdge r t) s = .next (edgeOp r t s)) ∧
  (∀ r s, 2 ≤ r → r ≤ 6 → (refAt s r).enabled = true →
    exec (.refMissing r) s = .next (refFault r 1 (setRef r { refAt s r with lastEdge := none } s))) ∧
  (∀ r o s x, 2 ≤ r → r ≤ 6 → (refAt s r).enabled = true → x = { refAt s r with winOfs := o } →
    exec (.freqWindow r o) s = .next (if outOfPull x = true then refFault r 3 (setRef r x s) else refRecover r (setRef r x s))) ∧
  (∀ o s, exec (.driftEval o) s = .next (driftJudge [1, 2, 3, 4, 5, 6, 7] (xoJudge (relTake [1, 2, 3, 4, 5, 6, 7]
    (driftTake (o.filter (fun e => decide (e.1 ≠ 7)) ++ [(7, 0)]) s))))) ∧
  (∀ r s, (refAt s r).q = 1 → (refAt s r).driftNow = false → exec (.qualTimer r) s = .next (refQualify r s)) ∧
  (∀ r s u, (refAt s r).wtrFrom.isSome = true → u = switchExpired (setRef r { refAt s r with wtrDone := true } s) →
    exec (.wtrExpiry r) s = .next (settleWtr (if following u = true ∧ u.clk.active ≠ r then clearTimer r u else u))) ∧
  (∀ p s, s.clk.st = 2 → exec (.refSwitchDone p) s = .next (switchDone p s)) ∧
  (∀ s, s.clk.bleed = true → s.clk.active ≠ 0 → Completes .bleedTick s (fun t =>
    t.clk.buildout.natAbs ≤ s.clk.buildout.natAbs ∧ (t.clk.buildout - s.clk.buildout).natAbs ≤ s.clk.bleedRate)) ∧
  (∀ c s, s.clk.st ≠ 0 → exec (.pllUnlock c) s = .next (guardFault { cls := 7, unit := 0, cycle := c }
    (ledger 0x0408 5 s.clk.st s.clk.active (tidxLow s) (evRaise aClkEvt 6 (unlock s))))) ∧
  (∀ s, s.clk.st = 0 → s.clk.swTok = none → exec .pllLock s = .next (evaluate (pruneTimers [1, 2, 3, 4, 5, 6, 7] (monSettleAll
    (setClk s (fun c => { c with
      st := 1, active := 7, buildout := 0, since := s.lgr.ptime, swTok := none, pendSel := s.clk.pendSel })))))) ∧
  (∀ t s q k u, s.clk.rateReq.getLast? = some q → k = firstIndex q t s → u = takeIndex q k s → exec (.tidxSet t) s = .next (outerTurn k u) ∧
    u.clk.tidx = k ∧ u.clk.tidxValid = true ∧ u.clk.rateReq = [] ∧ u.clk.rateSet = true ∧ u.clk.rate = q.rate) ∧
  (∀ s, Completes .clkRateTimeout s (fun t => t.clk = { s.clk with rateReq := [] } ∧ t.outcomes = s.outcomes ++
    s.clk.rateReq.map (fun r => { tok := r.tok, status := stTimeout, result := 0, detail := 0 })))
end

