-- ==== Sys2Proof/Laws/State.lean ====
section
/-! SUPPORT. What the field updates of State leave: one lemma per field per update, and that of the field they change. -/

namespace Sys2Proof.Machine

/-! ### setReg -/

@[simp] theorem setReg_pending (s : State) (a : Nat) (v : Word) : (setReg s a v).pending = s.pending := rfl
@[simp] theorem setReg_latches (s : State) (a : Nat) (v : Word) : (setReg s a v).latches = s.latches := rfl
@[simp] theorem setReg_rdata (s : State) (a : Nat) (v : Word) : (setReg s a v).rdata = s.rdata := rfl
@[simp] theorem setReg_outcomes (s : State) (a : Nat) (v : Word) : (setReg s a v).outcomes = s.outcomes := rfl
@[simp] theorem setReg_outs (s : State) (a : Nat) (v : Word) : (setReg s a v).outs = s.outs := rfl
@[simp] theorem setReg_hostMem (s : State) (a : Nat) (v : Word) : (setReg s a v).hostMem = s.hostMem := rfl
@[simp] theorem setReg_dueWrites (s : State) (a : Nat) (v : Word) : (setReg s a v).dueWrites = s.dueWrites := rfl
@[simp] theorem setReg_freeCtr (s : State) (a : Nat) (v : Word) : (setReg s a v).freeCtr = s.freeCtr := rfl
@[simp] theorem setReg_hif (s : State) (a : Nat) (v : Word) : (setReg s a v).hif = s.hif := rfl
@[simp] theorem setReg_stw (s : State) (a : Nat) (v : Word) : (setReg s a v).stw = s.stw := rfl
@[simp] theorem setReg_irq (s : State) (a : Nat) (v : Word) : (setReg s a v).irq = s.irq := rfl
@[simp] theorem setReg_mtx (s : State) (a : Nat) (v : Word) : (setReg s a v).mtx = s.mtx := rfl
@[simp] theorem setReg_lgr (s : State) (a : Nat) (v : Word) : (setReg s a v).lgr = s.lgr := rfl
@[simp] theorem setReg_aon (s : State) (a : Nat) (v : Word) : (setReg s a v).aon = s.aon := rfl
@[simp] theorem setReg_clk (s : State) (a : Nat) (v : Word) : (setReg s a v).clk = s.clk := rfl
@[simp] theorem setReg_ptp (s : State) (a : Nat) (v : Word) : (setReg s a v).ptp = s.ptp := rfl
@[simp] theorem setReg_mp (s : State) (a : Nat) (v : Word) : (setReg s a v).mp = s.mp := rfl
@[simp] theorem setReg_dpx (s : State) (a : Nat) (v : Word) : (setReg s a v).dpx = s.dpx := rfl
@[simp] theorem setReg_obj (s : State) (a : Nat) (v : Word) : (setReg s a v).obj = s.obj := rfl
@[simp] theorem setReg_prefilter (s : State) (a : Nat) (v : Word) : (setReg s a v).prefilter = s.prefilter := rfl
@[simp] theorem setReg_segUid (s : State) (a : Nat) (v : Word) : (setReg s a v).segUid = s.segUid := rfl
@[simp] theorem setReg_alignSet (s : State) (a : Nat) (v : Word) : (setReg s a v).alignSet = s.alignSet := rfl
@[simp] theorem setReg_geo (s : State) (a : Nat) (v : Word) : (setReg s a v).geo = s.geo := rfl
@[simp] theorem setReg_pair (s : State) (a : Nat) (v : Word) : (setReg s a v).pair = s.pair := rfl
@[simp] theorem setReg_cor (s : State) (a : Nat) (v : Word) : (setReg s a v).cor = s.cor := rfl
@[simp] theorem setReg_sch (s : State) (a : Nat) (v : Word) : (setReg s a v).sch = s.sch := rfl
@[simp] theorem setReg_fab (s : State) (a : Nat) (v : Word) : (setReg s a v).fab = s.fab := rfl
@[simp] theorem setReg_drc (s : State) (a : Nat) (v : Word) : (setReg s a v).drc = s.drc := rfl
@[simp] theorem setReg_keyed (s : State) (a : Nat) (v : Word) : (setReg s a v).keyed = s.keyed := rfl
@[simp] theorem setReg_keySeq (s : State) (a : Nat) (v : Word) : (setReg s a v).keySeq = s.keySeq := rfl
@[simp] theorem setReg_lau (s : State) (a : Nat) (v : Word) : (setReg s a v).lau = s.lau := rfl
@[simp] theorem setReg_regs (s : State) (a : Nat) (v : Word) : (setReg s a v).regs = smSet (regReset a) s.regs a v := rfl

/-! ### setField -/

@[simp] theorem setField_pending (s : State) (a msb lsb v : Nat) : (setField s a msb lsb v).pending = s.pending := rfl
@[simp] theorem setField_latches (s : State) (a msb lsb v : Nat) : (setField s a msb lsb v).latches = s.latches := rfl
@[simp] theorem setField_rdata (s : State) (a msb lsb v : Nat) : (setField s a msb lsb v).rdata = s.rdata := rfl
@[simp] theorem setField_outcomes (s : State) (a msb lsb v : Nat) : (setField s a msb lsb v).outcomes = s.outcomes := rfl
@[simp] theorem setField_outs (s : State) (a msb lsb v : Nat) : (setField s a msb lsb v).outs = s.outs := rfl
@[simp] theorem setField_hostMem (s : State) (a msb lsb v : Nat) : (setField s a msb lsb v).hostMem = s.hostMem := rfl
@[simp] theorem setField_dueWrites (s : State) (a msb lsb v : Nat) : (setField s a msb lsb v).dueWrites = s.dueWrites := rfl
@[simp] theorem setField_freeCtr (s : State) (a msb lsb v : Nat) : (setField s a msb lsb v).freeCtr = s.freeCtr := rfl
@[simp] theorem setField_hif (s : State) (a msb lsb v : Nat) : (setField s a msb lsb v).hif = s.hif := rfl
@[simp] theorem setField_stw (s : State) (a msb lsb v : Nat) : (setField s a msb lsb v).stw = s.stw := rfl
@[simp] theorem setField_irq (s : State) (a msb lsb v : Nat) : (setField s a msb lsb v).irq = s.irq := rfl
@[simp] theorem setField_mtx (s : State) (a msb lsb v : Nat) : (setField s a msb lsb v).mtx = s.mtx := rfl
@[simp] theorem setField_lgr (s : State) (a msb lsb v : Nat) : (setField s a msb lsb v).lgr = s.lgr := rfl
@[simp] theorem setField_aon (s : State) (a msb lsb v : Nat) : (setField s a msb lsb v).aon = s.aon := rfl
@[simp] theorem setField_clk (s : State) (a msb lsb v : Nat) : (setField s a msb lsb v).clk = s.clk := rfl
@[simp] theorem setField_ptp (s : State) (a msb lsb v : Nat) : (setField s a msb lsb v).ptp = s.ptp := rfl
@[simp] theorem setField_mp (s : State) (a msb lsb v : Nat) : (setField s a msb lsb v).mp = s.mp := rfl
@[simp] theorem setField_dpx (s : State) (a msb lsb v : Nat) : (setField s a msb lsb v).dpx = s.dpx := rfl
@[simp] theorem setField_obj (s : State) (a msb lsb v : Nat) : (setField s a msb lsb v).obj = s.obj := rfl
@[simp] theorem setField_prefilter (s : State) (a msb lsb v : Nat) : (setField s a msb lsb v).prefilter = s.prefilter := rfl
@[simp] theorem setField_segUid (s : State) (a msb lsb v : Nat) : (setField s a msb lsb v).segUid = s.segUid := rfl
@[simp] theorem setField_alignSet (s : State) (a msb lsb v : Nat) : (setField s a msb lsb v).alignSet = s.alignSet := rfl
@[simp] theorem setField_geo (s : State) (a msb lsb v : Nat) : (setField s a msb lsb v).geo = s.geo := rfl
@[simp] theorem setField_pair (s : State) (a msb lsb v : Nat) : (setField s a msb lsb v).pair = s.pair := rfl
@[simp] theorem setField_cor (s : State) (a msb lsb v : Nat) : (setField s a msb lsb v).cor = s.cor := rfl
@[simp] theorem setField_sch (s : State) (a msb lsb v : Nat) : (setField s a msb lsb v).sch = s.sch := rfl
@[simp] theorem setField_fab (s : State) (a msb lsb v : Nat) : (setField s a msb lsb v).fab = s.fab := rfl
@[simp] theorem setField_drc (s : State) (a msb lsb v : Nat) : (setField s a msb lsb v).drc = s.drc := rfl
@[simp] theorem setField_keyed (s : State) (a msb lsb v : Nat) : (setField s a msb lsb v).keyed = s.keyed := rfl
@[simp] theorem setField_keySeq (s : State) (a msb lsb v : Nat) : (setField s a msb lsb v).keySeq = s.keySeq := rfl
@[simp] theorem setField_lau (s : State) (a msb lsb v : Nat) : (setField s a msb lsb v).lau = s.lau := rfl

/-! ### evRaise -/

@[simp] theorem evRaise_pending (a b : Nat) (s : State) : (evRaise a b s).pending = s.pending := rfl
@[simp] theorem evRaise_latches (a b : Nat) (s : State) : (evRaise a b s).latches = s.latches := rfl
@[simp] theorem evRaise_rdata (a b : Nat) (s : State) : (evRaise a b s).rdata = s.rdata := rfl
@[simp] theorem evRaise_outcomes (a b : Nat) (s : State) : (evRaise a b s).outcomes = s.outcomes := rfl
@[simp] theorem evRaise_outs (a b : Nat) (s : State) : (evRaise a b s).outs = s.outs := rfl
@[simp] theorem evRaise_hostMem (a b : Nat) (s : State) : (evRaise a b s).hostMem = s.hostMem := rfl
@[simp] theorem evRaise_dueWrites (a b : Nat) (s : State) : (evRaise a b s).dueWrites = s.dueWrites := rfl
@[simp] theorem evRaise_freeCtr (a b : Nat) (s : State) : (evRaise a b s).freeCtr = s.freeCtr := rfl
@[simp] theorem evRaise_hif (a b : Nat) (s : State) : (evRaise a b s).hif = s.hif := rfl
@[simp] theorem evRaise_stw (a b : Nat) (s : State) : (evRaise a b s).stw = s.stw := rfl
@[simp] theorem evRaise_irq (a b : Nat) (s : State) : (evRaise a b s).irq = s.irq := rfl
@[simp] theorem evRaise_mtx (a b : Nat) (s : State) : (evRaise a b s).mtx = s.mtx := rfl
@[simp] theorem evRaise_lgr (a b : Nat) (s : State) : (evRaise a b s).lgr = s.lgr := rfl
@[simp] theorem evRaise_aon (a b : Nat) (s : State) : (evRaise a b s).aon = s.aon := rfl
@[simp] theorem evRaise_clk (a b : Nat) (s : State) : (evRaise a b s).clk = s.clk := rfl
@[simp] theorem evRaise_ptp (a b : Nat) (s : State) : (evRaise a b s).ptp = s.ptp := rfl
@[simp] theorem evRaise_mp (a b : Nat) (s : State) : (evRaise a b s).mp = s.mp := rfl
@[simp] theorem evRaise_dpx (a b : Nat) (s : State) : (evRaise a b s).dpx = s.dpx := rfl
@[simp] theorem evRaise_obj (a b : Nat) (s : State) : (evRaise a b s).obj = s.obj := rfl
@[simp] theorem evRaise_prefilter (a b : Nat) (s : State) : (evRaise a b s).prefilter = s.prefilter := rfl
@[simp] theorem evRaise_segUid (a b : Nat) (s : State) : (evRaise a b s).segUid = s.segUid := rfl
@[simp] theorem evRaise_alignSet (a b : Nat) (s : State) : (evRaise a b s).alignSet = s.alignSet := rfl
@[simp] theorem evRaise_geo (a b : Nat) (s : State) : (evRaise a b s).geo = s.geo := rfl
@[simp] theorem evRaise_pair (a b : Nat) (s : State) : (evRaise a b s).pair = s.pair := rfl
@[simp] theorem evRaise_cor (a b : Nat) (s : State) : (evRaise a b s).cor = s.cor := rfl
@[simp] theorem evRaise_sch (a b : Nat) (s : State) : (evRaise a b s).sch = s.sch := rfl
@[simp] theorem evRaise_fab (a b : Nat) (s : State) : (evRaise a b s).fab = s.fab := rfl
@[simp] theorem evRaise_drc (a b : Nat) (s : State) : (evRaise a b s).drc = s.drc := rfl
@[simp] theorem evRaise_keyed (a b : Nat) (s : State) : (evRaise a b s).keyed = s.keyed := rfl
@[simp] theorem evRaise_keySeq (a b : Nat) (s : State) : (evRaise a b s).keySeq = s.keySeq := rfl
@[simp] theorem evRaise_lau (a b : Nat) (s : State) : (evRaise a b s).lau = s.lau := rfl

/-! ### draw -/

@[simp] theorem draw_pending (s : State) : (draw s).pending = s.pending := rfl
@[simp] theorem draw_regs (s : State) : (draw s).regs = s.regs := rfl
@[simp] theorem draw_latches (s : State) : (draw s).latches = s.latches := rfl
@[simp] theorem draw_rdata (s : State) : (draw s).rdata = s.rdata := rfl
@[simp] theorem draw_outcomes (s : State) : (draw s).outcomes = s.outcomes := rfl
@[simp] theorem draw_outs (s : State) : (draw s).outs = s.outs := rfl
@[simp] theorem draw_hostMem (s : State) : (draw s).hostMem = s.hostMem := rfl
@[simp] theorem draw_dueWrites (s : State) : (draw s).dueWrites = s.dueWrites := rfl
@[simp] theorem draw_hif (s : State) : (draw s).hif = s.hif := rfl
@[simp] theorem draw_stw (s : State) : (draw s).stw = s.stw := rfl
@[simp] theorem draw_irq (s : State) : (draw s).irq = s.irq := rfl
@[simp] theorem draw_mtx (s : State) : (draw s).mtx = s.mtx := rfl
@[simp] theorem draw_lgr (s : State) : (draw s).lgr = s.lgr := rfl
@[simp] theorem draw_aon (s : State) : (draw s).aon = s.aon := rfl
@[simp] theorem draw_clk (s : State) : (draw s).clk = s.clk := rfl
@[simp] theorem draw_ptp (s : State) : (draw s).ptp = s.ptp := rfl
@[simp] theorem draw_mp (s : State) : (draw s).mp = s.mp := rfl
@[simp] theorem draw_dpx (s : State) : (draw s).dpx = s.dpx := rfl
@[simp] theorem draw_obj (s : State) : (draw s).obj = s.obj := rfl
@[simp] theorem draw_prefilter (s : State) : (draw s).prefilter = s.prefilter := rfl
@[simp] theorem draw_segUid (s : State) : (draw s).segUid = s.segUid := rfl
@[simp] theorem draw_alignSet (s : State) : (draw s).alignSet = s.alignSet := rfl
@[simp] theorem draw_geo (s : State) : (draw s).geo = s.geo := rfl
@[simp] theorem draw_pair (s : State) : (draw s).pair = s.pair := rfl
@[simp] theorem draw_cor (s : State) : (draw s).cor = s.cor := rfl
@[simp] theorem draw_sch (s : State) : (draw s).sch = s.sch := rfl
@[simp] theorem draw_fab (s : State) : (draw s).fab = s.fab := rfl
@[simp] theorem draw_drc (s : State) : (draw s).drc = s.drc := rfl
@[simp] theorem draw_keyed (s : State) : (draw s).keyed = s.keyed := rfl
@[simp] theorem draw_keySeq (s : State) : (draw s).keySeq = s.keySeq := rfl
@[simp] theorem draw_lau (s : State) : (draw s).lau = s.lau := rfl
@[simp] theorem draw_freeCtr (s : State) : (draw s).freeCtr = s.freeCtr + 1 := rfl

/-! ### latch -/

@[simp] theorem latch_pending (s : State) (a : Nat) (v : Word) : (latch s a v).pending = s.pending := rfl
@[simp] theorem latch_regs (s : State) (a : Nat) (v : Word) : (latch s a v).regs = s.regs := rfl
@[simp] theorem latch_rdata (s : State) (a : Nat) (v : Word) : (latch s a v).rdata = s.rdata := rfl
@[simp] theorem latch_outcomes (s : State) (a : Nat) (v : Word) : (latch s a v).outcomes = s.outcomes := rfl
@[simp] theorem latch_outs (s : State) (a : Nat) (v : Word) : (latch s a v).outs = s.outs := rfl
@[simp] theorem latch_hostMem (s : State) (a : Nat) (v : Word) : (latch s a v).hostMem = s.hostMem := rfl
@[simp] theorem latch_dueWrites (s : State) (a : Nat) (v : Word) : (latch s a v).dueWrites = s.dueWrites := rfl
@[simp] theorem latch_freeCtr (s : State) (a : Nat) (v : Word) : (latch s a v).freeCtr = s.freeCtr := rfl
@[simp] theorem latch_hif (s : State) (a : Nat) (v : Word) : (latch s a v).hif = s.hif := rfl
@[simp] theorem latch_stw (s : State) (a : Nat) (v : Word) : (latch s a v).stw = s.stw := rfl
@[simp] theorem latch_irq (s : State) (a : Nat) (v : Word) : (latch s a v).irq = s.irq := rfl
@[simp] theorem latch_mtx (s : State) (a : Nat) (v : Word) : (latch s a v).mtx = s.mtx := rfl
@[simp] theorem latch_lgr (s : State) (a : Nat) (v : Word) : (latch s a v).lgr = s.lgr := rfl
@[simp] theorem latch_aon (s : State) (a : Nat) (v : Word) : (latch s a v).aon = s.aon := rfl
@[simp] theorem latch_clk (s : State) (a : Nat) (v : Word) : (latch s a v).clk = s.clk := rfl
@[simp] theorem latch_ptp (s : State) (a : Nat) (v : Word) : (latch s a v).ptp = s.ptp := rfl
@[simp] theorem latch_mp (s : State) (a : Nat) (v : Word) : (latch s a v).mp = s.mp := rfl
@[simp] theorem latch_dpx (s : State) (a : Nat) (v : Word) : (latch s a v).dpx = s.dpx := rfl
@[simp] theorem latch_obj (s : State) (a : Nat) (v : Word) : (latch s a v).obj = s.obj := rfl
@[simp] theorem latch_prefilter (s : State) (a : Nat) (v : Word) : (latch s a v).prefilter = s.prefilter := rfl
@[simp] theorem latch_segUid (s : State) (a : Nat) (v : Word) : (latch s a v).segUid = s.segUid := rfl
@[simp] theorem latch_alignSet (s : State) (a : Nat) (v : Word) : (latch s a v).alignSet = s.alignSet := rfl
@[simp] theorem latch_geo (s : State) (a : Nat) (v : Word) : (latch s a v).geo = s.geo := rfl
@[simp] theorem latch_pair (s : State) (a : Nat) (v : Word) : (latch s a v).pair = s.pair := rfl
@[simp] theorem latch_cor (s : State) (a : Nat) (v : Word) : (latch s a v).cor = s.cor := rfl
@[simp] theorem latch_sch (s : State) (a : Nat) (v : Word) : (latch s a v).sch = s.sch := rfl
@[simp] theorem latch_fab (s : State) (a : Nat) (v : Word) : (latch s a v).fab = s.fab := rfl
@[simp] theorem latch_drc (s : State) (a : Nat) (v : Word) : (latch s a v).drc = s.drc := rfl
@[simp] theorem latch_keyed (s : State) (a : Nat) (v : Word) : (latch s a v).keyed = s.keyed := rfl
@[simp] theorem latch_keySeq (s : State) (a : Nat) (v : Word) : (latch s a v).keySeq = s.keySeq := rfl
@[simp] theorem latch_lau (s : State) (a : Nat) (v : Word) : (latch s a v).lau = s.lau := rfl
@[simp] theorem latch_latches (s : State) (a : Nat) (v : Word) : (latch s a v).latches = smSet 0 s.latches a v := rfl

/-! ### report -/

@[simp] theorem report_pending (tok status result detail : Nat) (s : State) : (report tok status result detail s).pending = s.pending := rfl
@[simp] theorem report_regs (tok status result detail : Nat) (s : State) : (report tok status result detail s).regs = s.regs := rfl
@[simp] theorem report_latches (tok status result detail : Nat) (s : State) : (report tok status result detail s).latches = s.latches := rfl
@[simp] theorem report_rdata (tok status result detail : Nat) (s : State) : (report tok status result detail s).rdata = s.rdata := rfl
@[simp] theorem report_outs (tok status result detail : Nat) (s : State) : (report tok status result detail s).outs = s.outs := rfl
@[simp] theorem report_hostMem (tok status result detail : Nat) (s : State) : (report tok status result detail s).hostMem = s.hostMem := rfl
@[simp] theorem report_dueWrites (tok status result detail : Nat) (s : State) : (report tok status result detail s).dueWrites = s.dueWrites := rfl
@[simp] theorem report_freeCtr (tok status result detail : Nat) (s : State) : (report tok status result detail s).freeCtr = s.freeCtr := rfl
@[simp] theorem report_hif (tok status result detail : Nat) (s : State) : (report tok status result detail s).hif = s.hif := rfl
@[simp] theorem report_stw (tok status result detail : Nat) (s : State) : (report tok status result detail s).stw = s.stw := rfl
@[simp] theorem report_irq (tok status result detail : Nat) (s : State) : (report tok status result detail s).irq = s.irq := rfl
@[simp] theorem report_mtx (tok status result detail : Nat) (s : State) : (report tok status result detail s).mtx = s.mtx := rfl
@[simp] theorem report_lgr (tok status result detail : Nat) (s : State) : (report tok status result detail s).lgr = s.lgr := rfl
@[simp] theorem report_aon (tok status result detail : Nat) (s : State) : (report tok status result detail s).aon = s.aon := rfl
@[simp] theorem report_clk (tok status result detail : Nat) (s : State) : (report tok status result detail s).clk = s.clk := rfl
@[simp] theorem report_ptp (tok status result detail : Nat) (s : State) : (report tok status result detail s).ptp = s.ptp := rfl
@[simp] theorem report_mp (tok status result detail : Nat) (s : State) : (report tok status result detail s).mp = s.mp := rfl
@[simp] theorem report_dpx (tok status result detail : Nat) (s : State) : (report tok status result detail s).dpx = s.dpx := rfl
@[simp] theorem report_obj (tok status result detail : Nat) (s : State) : (report tok status result detail s).obj = s.obj := rfl
@[simp] theorem report_prefilter (tok status result detail : Nat) (s : State) : (report tok status result detail s).prefilter = s.prefilter := rfl
@[simp] theorem report_segUid (tok status result detail : Nat) (s : State) : (report tok status result detail s).segUid = s.segUid := rfl
@[simp] theorem report_alignSet (tok status result detail : Nat) (s : State) : (report tok status result detail s).alignSet = s.alignSet := rfl
@[simp] theorem report_geo (tok status result detail : Nat) (s : State) : (report tok status result detail s).geo = s.geo := rfl
@[simp] theorem report_pair (tok status result detail : Nat) (s : State) : (report tok status result detail s).pair = s.pair := rfl
@[simp] theorem report_cor (tok status result detail : Nat) (s : State) : (report tok status result detail s).cor = s.cor := rfl
@[simp] theorem report_sch (tok status result detail : Nat) (s : State) : (report tok status result detail s).sch = s.sch := rfl
@[simp] theorem report_fab (tok status result detail : Nat) (s : State) : (report tok status result detail s).fab = s.fab := rfl
@[simp] theorem report_drc (tok status result detail : Nat) (s : State) : (report tok status result detail s).drc = s.drc := rfl
@[simp] theorem report_keyed (tok status result detail : Nat) (s : State) : (report tok status result detail s).keyed = s.keyed := rfl
@[simp] theorem report_keySeq (tok status result detail : Nat) (s : State) : (report tok status result detail s).keySeq = s.keySeq := rfl
@[simp] theorem report_lau (tok status result detail : Nat) (s : State) : (report tok status result detail s).lau = s.lau := rfl
@[simp] theorem report_outcomes (tok status result detail : Nat) (s : State) : (report tok status result detail s).outcomes = s.outcomes ++ [{ tok := tok, status := status, result := result % 2 ^ 32, detail := detail }] := rfl

/-! ### emit -/

@[simp] theorem emit_pending (m : OutMsg) (s : State) : (emit m s).pending = s.pending := rfl
@[simp] theorem emit_regs (m : OutMsg) (s : State) : (emit m s).regs = s.regs := rfl
@[simp] theorem emit_latches (m : OutMsg) (s : State) : (emit m s).latches = s.latches := rfl
@[simp] theorem emit_rdata (m : OutMsg) (s : State) : (emit m s).rdata = s.rdata := rfl
@[simp] theorem emit_outcomes (m : OutMsg) (s : State) : (emit m s).outcomes = s.outcomes := rfl
@[simp] theorem emit_hostMem (m : OutMsg) (s : State) : (emit m s).hostMem = s.hostMem := rfl
@[simp] theorem emit_dueWrites (m : OutMsg) (s : State) : (emit m s).dueWrites = s.dueWrites := rfl
@[simp] theorem emit_freeCtr (m : OutMsg) (s : State) : (emit m s).freeCtr = s.freeCtr := rfl
@[simp] theorem emit_hif (m : OutMsg) (s : State) : (emit m s).hif = s.hif := rfl
@[simp] theorem emit_stw (m : OutMsg) (s : State) : (emit m s).stw = s.stw := rfl
@[simp] theorem emit_irq (m : OutMsg) (s : State) : (emit m s).irq = s.irq := rfl
@[simp] theorem emit_mtx (m : OutMsg) (s : State) : (emit m s).mtx = s.mtx := rfl
@[simp] theorem emit_lgr (m : OutMsg) (s : State) : (emit m s).lgr = s.lgr := rfl
@[simp] theorem emit_aon (m : OutMsg) (s : State) : (emit m s).aon = s.aon := rfl
@[simp] theorem emit_clk (m : OutMsg) (s : State) : (emit m s).clk = s.clk := rfl
@[simp] theorem emit_ptp (m : OutMsg) (s : State) : (emit m s).ptp = s.ptp := rfl
@[simp] theorem emit_mp (m : OutMsg) (s : State) : (emit m s).mp = s.mp := rfl
@[simp] theorem emit_dpx (m : OutMsg) (s : State) : (emit m s).dpx = s.dpx := rfl
@[simp] theorem emit_obj (m : OutMsg) (s : State) : (emit m s).obj = s.obj := rfl
@[simp] theorem emit_prefilter (m : OutMsg) (s : State) : (emit m s).prefilter = s.prefilter := rfl
@[simp] theorem emit_segUid (m : OutMsg) (s : State) : (emit m s).segUid = s.segUid := rfl
@[simp] theorem emit_alignSet (m : OutMsg) (s : State) : (emit m s).alignSet = s.alignSet := rfl
@[simp] theorem emit_geo (m : OutMsg) (s : State) : (emit m s).geo = s.geo := rfl
@[simp] theorem emit_pair (m : OutMsg) (s : State) : (emit m s).pair = s.pair := rfl
@[simp] theorem emit_cor (m : OutMsg) (s : State) : (emit m s).cor = s.cor := rfl
@[simp] theorem emit_sch (m : OutMsg) (s : State) : (emit m s).sch = s.sch := rfl
@[simp] theorem emit_fab (m : OutMsg) (s : State) : (emit m s).fab = s.fab := rfl
@[simp] theorem emit_drc (m : OutMsg) (s : State) : (emit m s).drc = s.drc := rfl
@[simp] theorem emit_keyed (m : OutMsg) (s : State) : (emit m s).keyed = s.keyed := rfl
@[simp] theorem emit_keySeq (m : OutMsg) (s : State) : (emit m s).keySeq = s.keySeq := rfl
@[simp] theorem emit_lau (m : OutMsg) (s : State) : (emit m s).lau = s.lau := rfl
@[simp] theorem emit_outs (m : OutMsg) (s : State) : (emit m s).outs = s.outs ++ [m] := rfl

/-! ### setAon -/

@[simp] theorem setAon_pending (s : State) (f : Aon → Aon) : (setAon s f).pending = s.pending := rfl
@[simp] theorem setAon_regs (s : State) (f : Aon → Aon) : (setAon s f).regs = s.regs := rfl
@[simp] theorem setAon_latches (s : State) (f : Aon → Aon) : (setAon s f).latches = s.latches := rfl
@[simp] theorem setAon_rdata (s : State) (f : Aon → Aon) : (setAon s f).rdata = s.rdata := rfl
@[simp] theorem setAon_outcomes (s : State) (f : Aon → Aon) : (setAon s f).outcomes = s.outcomes := rfl
@[simp] theorem setAon_outs (s : State) (f : Aon → Aon) : (setAon s f).outs = s.outs := rfl
@[simp] theorem setAon_hostMem (s : State) (f : Aon → Aon) : (setAon s f).hostMem = s.hostMem := rfl
@[simp] theorem setAon_dueWrites (s : State) (f : Aon → Aon) : (setAon s f).dueWrites = s.dueWrites := rfl
@[simp] theorem setAon_freeCtr (s : State) (f : Aon → Aon) : (setAon s f).freeCtr = s.freeCtr := rfl
@[simp] theorem setAon_hif (s : State) (f : Aon → Aon) : (setAon s f).hif = s.hif := rfl
@[simp] theorem setAon_stw (s : State) (f : Aon → Aon) : (setAon s f).stw = s.stw := rfl
@[simp] theorem setAon_irq (s : State) (f : Aon → Aon) : (setAon s f).irq = s.irq := rfl
@[simp] theorem setAon_mtx (s : State) (f : Aon → Aon) : (setAon s f).mtx = s.mtx := rfl
@[simp] theorem setAon_lgr (s : State) (f : Aon → Aon) : (setAon s f).lgr = s.lgr := rfl
@[simp] theorem setAon_clk (s : State) (f : Aon → Aon) : (setAon s f).clk = s.clk := rfl
@[simp] theorem setAon_ptp (s : State) (f : Aon → Aon) : (setAon s f).ptp = s.ptp := rfl
@[simp] theorem setAon_mp (s : State) (f : Aon → Aon) : (setAon s f).mp = s.mp := rfl
@[simp] theorem setAon_dpx (s : State) (f : Aon → Aon) : (setAon s f).dpx = s.dpx := rfl
@[simp] theorem setAon_obj (s : State) (f : Aon → Aon) : (setAon s f).obj = s.obj := rfl
@[simp] theorem setAon_prefilter (s : State) (f : Aon → Aon) : (setAon s f).prefilter = s.prefilter := rfl
@[simp] theorem setAon_segUid (s : State) (f : Aon → Aon) : (setAon s f).segUid = s.segUid := rfl
@[simp] theorem setAon_alignSet (s : State) (f : Aon → Aon) : (setAon s f).alignSet = s.alignSet := rfl
@[simp] theorem setAon_geo (s : State) (f : Aon → Aon) : (setAon s f).geo = s.geo := rfl
@[simp] theorem setAon_pair (s : State) (f : Aon → Aon) : (setAon s f).pair = s.pair := rfl
@[simp] theorem setAon_cor (s : State) (f : Aon → Aon) : (setAon s f).cor = s.cor := rfl
@[simp] theorem setAon_sch (s : State) (f : Aon → Aon) : (setAon s f).sch = s.sch := rfl
@[simp] theorem setAon_fab (s : State) (f : Aon → Aon) : (setAon s f).fab = s.fab := rfl
@[simp] theorem setAon_drc (s : State) (f : Aon → Aon) : (setAon s f).drc = s.drc := rfl
@[simp] theorem setAon_keyed (s : State) (f : Aon → Aon) : (setAon s f).keyed = s.keyed := rfl
@[simp] theorem setAon_keySeq (s : State) (f : Aon → Aon) : (setAon s f).keySeq = s.keySeq := rfl
@[simp] theorem setAon_lau (s : State) (f : Aon → Aon) : (setAon s f).lau = s.lau := rfl
@[simp] theorem setAon_aon (s : State) (f : Aon → Aon) : (setAon s f).aon = f s.aon := rfl

/-! ### setClk -/

@[simp] theorem setClk_pending (s : State) (f : Clk → Clk) : (setClk s f).pending = s.pending := rfl
@[simp] theorem setClk_regs (s : State) (f : Clk → Clk) : (setClk s f).regs = s.regs := rfl
@[simp] theorem setClk_latches (s : State) (f : Clk → Clk) : (setClk s f).latches = s.latches := rfl
@[simp] theorem setClk_rdata (s : State) (f : Clk → Clk) : (setClk s f).rdata = s.rdata := rfl
@[simp] theorem setClk_outcomes (s : State) (f : Clk → Clk) : (setClk s f).outcomes = s.outcomes := rfl
@[simp] theorem setClk_outs (s : State) (f : Clk → Clk) : (setClk s f).outs = s.outs := rfl
@[simp] theorem setClk_hostMem (s : State) (f : Clk → Clk) : (setClk s f).hostMem = s.hostMem := rfl
@[simp] theorem setClk_dueWrites (s : State) (f : Clk → Clk) : (setClk s f).dueWrites = s.dueWrites := rfl
@[simp] theorem setClk_freeCtr (s : State) (f : Clk → Clk) : (setClk s f).freeCtr = s.freeCtr := rfl
@[simp] theorem setClk_hif (s : State) (f : Clk → Clk) : (setClk s f).hif = s.hif := rfl
@[simp] theorem setClk_stw (s : State) (f : Clk → Clk) : (setClk s f).stw = s.stw := rfl
@[simp] theorem setClk_irq (s : State) (f : Clk → Clk) : (setClk s f).irq = s.irq := rfl
@[simp] theorem setClk_mtx (s : State) (f : Clk → Clk) : (setClk s f).mtx = s.mtx := rfl
@[simp] theorem setClk_lgr (s : State) (f : Clk → Clk) : (setClk s f).lgr = s.lgr := rfl
@[simp] theorem setClk_aon (s : State) (f : Clk → Clk) : (setClk s f).aon = s.aon := rfl
@[simp] theorem setClk_ptp (s : State) (f : Clk → Clk) : (setClk s f).ptp = s.ptp := rfl
@[simp] theorem setClk_mp (s : State) (f : Clk → Clk) : (setClk s f).mp = s.mp := rfl
@[simp] theorem setClk_dpx (s : State) (f : Clk → Clk) : (setClk s f).dpx = s.dpx := rfl
@[simp] theorem setClk_obj (s : State) (f : Clk → Clk) : (setClk s f).obj = s.obj := rfl
@[simp] theorem setClk_prefilter (s : State) (f : Clk → Clk) : (setClk s f).prefilter = s.prefilter := rfl
@[simp] theorem setClk_segUid (s : State) (f : Clk → Clk) : (setClk s f).segUid = s.segUid := rfl
@[simp] theorem setClk_alignSet (s : State) (f : Clk → Clk) : (setClk s f).alignSet = s.alignSet := rfl
@[simp] theorem setClk_geo (s : State) (f : Clk → Clk) : (setClk s f).geo = s.geo := rfl
@[simp] theorem setClk_pair (s : State) (f : Clk → Clk) : (setClk s f).pair = s.pair := rfl
@[simp] theorem setClk_cor (s : State) (f : Clk → Clk) : (setClk s f).cor = s.cor := rfl
@[simp] theorem setClk_sch (s : State) (f : Clk → Clk) : (setClk s f).sch = s.sch := rfl
@[simp] theorem setClk_fab (s : State) (f : Clk → Clk) : (setClk s f).fab = s.fab := rfl
@[simp] theorem setClk_drc (s : State) (f : Clk → Clk) : (setClk s f).drc = s.drc := rfl
@[simp] theorem setClk_keyed (s : State) (f : Clk → Clk) : (setClk s f).keyed = s.keyed := rfl
@[simp] theorem setClk_keySeq (s : State) (f : Clk → Clk) : (setClk s f).keySeq = s.keySeq := rfl
@[simp] theorem setClk_lau (s : State) (f : Clk → Clk) : (setClk s f).lau = s.lau := rfl
@[simp] theorem setClk_clk (s : State) (f : Clk → Clk) : (setClk s f).clk = f s.clk := rfl

/-! ### setPtp -/

@[simp] theorem setPtp_pending (s : State) (f : Ptp → Ptp) : (setPtp s f).pending = s.pending := rfl
@[simp] theorem setPtp_regs (s : State) (f : Ptp → Ptp) : (setPtp s f).regs = s.regs := rfl
@[simp] theorem setPtp_latches (s : State) (f : Ptp → Ptp) : (setPtp s f).latches = s.latches := rfl
@[simp] theorem setPtp_rdata (s : State) (f : Ptp → Ptp) : (setPtp s f).rdata = s.rdata := rfl
@[simp] theorem setPtp_outcomes (s : State) (f : Ptp → Ptp) : (setPtp s f).outcomes = s.outcomes := rfl
@[simp] theorem setPtp_outs (s : State) (f : Ptp → Ptp) : (setPtp s f).outs = s.outs := rfl
@[simp] theorem setPtp_hostMem (s : State) (f : Ptp → Ptp) : (setPtp s f).hostMem = s.hostMem := rfl
@[simp] theorem setPtp_dueWrites (s : State) (f : Ptp → Ptp) : (setPtp s f).dueWrites = s.dueWrites := rfl
@[simp] theorem setPtp_freeCtr (s : State) (f : Ptp → Ptp) : (setPtp s f).freeCtr = s.freeCtr := rfl
@[simp] theorem setPtp_hif (s : State) (f : Ptp → Ptp) : (setPtp s f).hif = s.hif := rfl
@[simp] theorem setPtp_stw (s : State) (f : Ptp → Ptp) : (setPtp s f).stw = s.stw := rfl
@[simp] theorem setPtp_irq (s : State) (f : Ptp → Ptp) : (setPtp s f).irq = s.irq := rfl
@[simp] theorem setPtp_mtx (s : State) (f : Ptp → Ptp) : (setPtp s f).mtx = s.mtx := rfl
@[simp] theorem setPtp_lgr (s : State) (f : Ptp → Ptp) : (setPtp s f).lgr = s.lgr := rfl
@[simp] theorem setPtp_aon (s : State) (f : Ptp → Ptp) : (setPtp s f).aon = s.aon := rfl
@[simp] theorem setPtp_clk (s : State) (f : Ptp → Ptp) : (setPtp s f).clk = s.clk := rfl
@[simp] theorem setPtp_mp (s : State) (f : Ptp → Ptp) : (setPtp s f).mp = s.mp := rfl
@[simp] theorem setPtp_dpx (s : State) (f : Ptp → Ptp) : (setPtp s f).dpx = s.dpx := rfl
@[simp] theorem setPtp_obj (s : State) (f : Ptp → Ptp) : (setPtp s f).obj = s.obj := rfl
@[simp] theorem setPtp_prefilter (s : State) (f : Ptp → Ptp) : (setPtp s f).prefilter = s.prefilter := rfl
@[simp] theorem setPtp_segUid (s : State) (f : Ptp → Ptp) : (setPtp s f).segUid = s.segUid := rfl
@[simp] theorem setPtp_alignSet (s : State) (f : Ptp → Ptp) : (setPtp s f).alignSet = s.alignSet := rfl
@[simp] theorem setPtp_geo (s : State) (f : Ptp → Ptp) : (setPtp s f).geo = s.geo := rfl
@[simp] theorem setPtp_pair (s : State) (f : Ptp → Ptp) : (setPtp s f).pair = s.pair := rfl
@[simp] theorem setPtp_cor (s : State) (f : Ptp → Ptp) : (setPtp s f).cor = s.cor := rfl
@[simp] theorem setPtp_sch (s : State) (f : Ptp → Ptp) : (setPtp s f).sch = s.sch := rfl
@[simp] theorem setPtp_fab (s : State) (f : Ptp → Ptp) : (setPtp s f).fab = s.fab := rfl
@[simp] theorem setPtp_drc (s : State) (f : Ptp → Ptp) : (setPtp s f).drc = s.drc := rfl
@[simp] theorem setPtp_keyed (s : State) (f : Ptp → Ptp) : (setPtp s f).keyed = s.keyed := rfl
@[simp] theorem setPtp_keySeq (s : State) (f : Ptp → Ptp) : (setPtp s f).keySeq = s.keySeq := rfl
@[simp] theorem setPtp_lau (s : State) (f : Ptp → Ptp) : (setPtp s f).lau = s.lau := rfl
@[simp] theorem setPtp_ptp (s : State) (f : Ptp → Ptp) : (setPtp s f).ptp = f s.ptp := rfl

/-! ### setMp -/

@[simp] theorem setMp_pending (s : State) (f : Mp → Mp) : (setMp s f).pending = s.pending := rfl
@[simp] theorem setMp_regs (s : State) (f : Mp → Mp) : (setMp s f).regs = s.regs := rfl
@[simp] theorem setMp_latches (s : State) (f : Mp → Mp) : (setMp s f).latches = s.latches := rfl
@[simp] theorem setMp_rdata (s : State) (f : Mp → Mp) : (setMp s f).rdata = s.rdata := rfl
@[simp] theorem setMp_outcomes (s : State) (f : Mp → Mp) : (setMp s f).outcomes = s.outcomes := rfl
@[simp] theorem setMp_outs (s : State) (f : Mp → Mp) : (setMp s f).outs = s.outs := rfl
@[simp] theorem setMp_hostMem (s : State) (f : Mp → Mp) : (setMp s f).hostMem = s.hostMem := rfl
@[simp] theorem setMp_dueWrites (s : State) (f : Mp → Mp) : (setMp s f).dueWrites = s.dueWrites := rfl
@[simp] theorem setMp_freeCtr (s : State) (f : Mp → Mp) : (setMp s f).freeCtr = s.freeCtr := rfl
@[simp] theorem setMp_hif (s : State) (f : Mp → Mp) : (setMp s f).hif = s.hif := rfl
@[simp] theorem setMp_stw (s : State) (f : Mp → Mp) : (setMp s f).stw = s.stw := rfl
@[simp] theorem setMp_irq (s : State) (f : Mp → Mp) : (setMp s f).irq = s.irq := rfl
@[simp] theorem setMp_mtx (s : State) (f : Mp → Mp) : (setMp s f).mtx = s.mtx := rfl
@[simp] theorem setMp_lgr (s : State) (f : Mp → Mp) : (setMp s f).lgr = s.lgr := rfl
@[simp] theorem setMp_aon (s : State) (f : Mp → Mp) : (setMp s f).aon = s.aon := rfl
@[simp] theorem setMp_clk (s : State) (f : Mp → Mp) : (setMp s f).clk = s.clk := rfl
@[simp] theorem setMp_ptp (s : State) (f : Mp → Mp) : (setMp s f).ptp = s.ptp := rfl
@[simp] theorem setMp_dpx (s : State) (f : Mp → Mp) : (setMp s f).dpx = s.dpx := rfl
@[simp] theorem setMp_obj (s : State) (f : Mp → Mp) : (setMp s f).obj = s.obj := rfl
@[simp] theorem setMp_prefilter (s : State) (f : Mp → Mp) : (setMp s f).prefilter = s.prefilter := rfl
@[simp] theorem setMp_segUid (s : State) (f : Mp → Mp) : (setMp s f).segUid = s.segUid := rfl
@[simp] theorem setMp_alignSet (s : State) (f : Mp → Mp) : (setMp s f).alignSet = s.alignSet := rfl
@[simp] theorem setMp_geo (s : State) (f : Mp → Mp) : (setMp s f).geo = s.geo := rfl
@[simp] theorem setMp_pair (s : State) (f : Mp → Mp) : (setMp s f).pair = s.pair := rfl
@[simp] theorem setMp_cor (s : State) (f : Mp → Mp) : (setMp s f).cor = s.cor := rfl
@[simp] theorem setMp_sch (s : State) (f : Mp → Mp) : (setMp s f).sch = s.sch := rfl
@[simp] theorem setMp_fab (s : State) (f : Mp → Mp) : (setMp s f).fab = s.fab := rfl
@[simp] theorem setMp_drc (s : State) (f : Mp → Mp) : (setMp s f).drc = s.drc := rfl
@[simp] theorem setMp_keyed (s : State) (f : Mp → Mp) : (setMp s f).keyed = s.keyed := rfl
@[simp] theorem setMp_keySeq (s : State) (f : Mp → Mp) : (setMp s f).keySeq = s.keySeq := rfl
@[simp] theorem setMp_lau (s : State) (f : Mp → Mp) : (setMp s f).lau = s.lau := rfl
@[simp] theorem setMp_mp (s : State) (f : Mp → Mp) : (setMp s f).mp = f s.mp := rfl

/-! ### setDpx -/

@[simp] theorem setDpx_pending (s : State) (f : Dpx → Dpx) : (setDpx s f).pending = s.pending := rfl
@[simp] theorem setDpx_regs (s : State) (f : Dpx → Dpx) : (setDpx s f).regs = s.regs := rfl
@[simp] theorem setDpx_latches (s : State) (f : Dpx → Dpx) : (setDpx s f).latches = s.latches := rfl
@[simp] theorem setDpx_rdata (s : State) (f : Dpx → Dpx) : (setDpx s f).rdata = s.rdata := rfl
@[simp] theorem setDpx_outcomes (s : State) (f : Dpx → Dpx) : (setDpx s f).outcomes = s.outcomes := rfl
@[simp] theorem setDpx_outs (s : State) (f : Dpx → Dpx) : (setDpx s f).outs = s.outs := rfl
@[simp] theorem setDpx_hostMem (s : State) (f : Dpx → Dpx) : (setDpx s f).hostMem = s.hostMem := rfl
@[simp] theorem setDpx_dueWrites (s : State) (f : Dpx → Dpx) : (setDpx s f).dueWrites = s.dueWrites := rfl
@[simp] theorem setDpx_freeCtr (s : State) (f : Dpx → Dpx) : (setDpx s f).freeCtr = s.freeCtr := rfl
@[simp] theorem setDpx_hif (s : State) (f : Dpx → Dpx) : (setDpx s f).hif = s.hif := rfl
@[simp] theorem setDpx_stw (s : State) (f : Dpx → Dpx) : (setDpx s f).stw = s.stw := rfl
@[simp] theorem setDpx_irq (s : State) (f : Dpx → Dpx) : (setDpx s f).irq = s.irq := rfl
@[simp] theorem setDpx_mtx (s : State) (f : Dpx → Dpx) : (setDpx s f).mtx = s.mtx := rfl
@[simp] theorem setDpx_lgr (s : State) (f : Dpx → Dpx) : (setDpx s f).lgr = s.lgr := rfl
@[simp] theorem setDpx_aon (s : State) (f : Dpx → Dpx) : (setDpx s f).aon = s.aon := rfl
@[simp] theorem setDpx_clk (s : State) (f : Dpx → Dpx) : (setDpx s f).clk = s.clk := rfl
@[simp] theorem setDpx_ptp (s : State) (f : Dpx → Dpx) : (setDpx s f).ptp = s.ptp := rfl
@[simp] theorem setDpx_mp (s : State) (f : Dpx → Dpx) : (setDpx s f).mp = s.mp := rfl
@[simp] theorem setDpx_obj (s : State) (f : Dpx → Dpx) : (setDpx s f).obj = s.obj := rfl
@[simp] theorem setDpx_prefilter (s : State) (f : Dpx → Dpx) : (setDpx s f).prefilter = s.prefilter := rfl
@[simp] theorem setDpx_segUid (s : State) (f : Dpx → Dpx) : (setDpx s f).segUid = s.segUid := rfl
@[simp] theorem setDpx_alignSet (s : State) (f : Dpx → Dpx) : (setDpx s f).alignSet = s.alignSet := rfl
@[simp] theorem setDpx_geo (s : State) (f : Dpx → Dpx) : (setDpx s f).geo = s.geo := rfl
@[simp] theorem setDpx_pair (s : State) (f : Dpx → Dpx) : (setDpx s f).pair = s.pair := rfl
@[simp] theorem setDpx_cor (s : State) (f : Dpx → Dpx) : (setDpx s f).cor = s.cor := rfl
@[simp] theorem setDpx_sch (s : State) (f : Dpx → Dpx) : (setDpx s f).sch = s.sch := rfl
@[simp] theorem setDpx_fab (s : State) (f : Dpx → Dpx) : (setDpx s f).fab = s.fab := rfl
@[simp] theorem setDpx_drc (s : State) (f : Dpx → Dpx) : (setDpx s f).drc = s.drc := rfl
@[simp] theorem setDpx_keyed (s : State) (f : Dpx → Dpx) : (setDpx s f).keyed = s.keyed := rfl
@[simp] theorem setDpx_keySeq (s : State) (f : Dpx → Dpx) : (setDpx s f).keySeq = s.keySeq := rfl
@[simp] theorem setDpx_lau (s : State) (f : Dpx → Dpx) : (setDpx s f).lau = s.lau := rfl
@[simp] theorem setDpx_dpx (s : State) (f : Dpx → Dpx) : (setDpx s f).dpx = f s.dpx := rfl

/-! ### setGeo -/

@[simp] theorem setGeo_pending (s : State) (f : Geo → Geo) : (setGeo s f).pending = s.pending := rfl
@[simp] theorem setGeo_regs (s : State) (f : Geo → Geo) : (setGeo s f).regs = s.regs := rfl
@[simp] theorem setGeo_latches (s : State) (f : Geo → Geo) : (setGeo s f).latches = s.latches := rfl
@[simp] theorem setGeo_rdata (s : State) (f : Geo → Geo) : (setGeo s f).rdata = s.rdata := rfl
@[simp] theorem setGeo_outcomes (s : State) (f : Geo → Geo) : (setGeo s f).outcomes = s.outcomes := rfl
@[simp] theorem setGeo_outs (s : State) (f : Geo → Geo) : (setGeo s f).outs = s.outs := rfl
@[simp] theorem setGeo_hostMem (s : State) (f : Geo → Geo) : (setGeo s f).hostMem = s.hostMem := rfl
@[simp] theorem setGeo_dueWrites (s : State) (f : Geo → Geo) : (setGeo s f).dueWrites = s.dueWrites := rfl
@[simp] theorem setGeo_freeCtr (s : State) (f : Geo → Geo) : (setGeo s f).freeCtr = s.freeCtr := rfl
@[simp] theorem setGeo_hif (s : State) (f : Geo → Geo) : (setGeo s f).hif = s.hif := rfl
@[simp] theorem setGeo_stw (s : State) (f : Geo → Geo) : (setGeo s f).stw = s.stw := rfl
@[simp] theorem setGeo_irq (s : State) (f : Geo → Geo) : (setGeo s f).irq = s.irq := rfl
@[simp] theorem setGeo_mtx (s : State) (f : Geo → Geo) : (setGeo s f).mtx = s.mtx := rfl
@[simp] theorem setGeo_lgr (s : State) (f : Geo → Geo) : (setGeo s f).lgr = s.lgr := rfl
@[simp] theorem setGeo_aon (s : State) (f : Geo → Geo) : (setGeo s f).aon = s.aon := rfl
@[simp] theorem setGeo_clk (s : State) (f : Geo → Geo) : (setGeo s f).clk = s.clk := rfl
@[simp] theorem setGeo_ptp (s : State) (f : Geo → Geo) : (setGeo s f).ptp = s.ptp := rfl
@[simp] theorem setGeo_mp (s : State) (f : Geo → Geo) : (setGeo s f).mp = s.mp := rfl
@[simp] theorem setGeo_dpx (s : State) (f : Geo → Geo) : (setGeo s f).dpx = s.dpx := rfl
@[simp] theorem setGeo_obj (s : State) (f : Geo → Geo) : (setGeo s f).obj = s.obj := rfl
@[simp] theorem setGeo_prefilter (s : State) (f : Geo → Geo) : (setGeo s f).prefilter = s.prefilter := rfl
@[simp] theorem setGeo_segUid (s : State) (f : Geo → Geo) : (setGeo s f).segUid = s.segUid := rfl
@[simp] theorem setGeo_alignSet (s : State) (f : Geo → Geo) : (setGeo s f).alignSet = s.alignSet := rfl
@[simp] theorem setGeo_pair (s : State) (f : Geo → Geo) : (setGeo s f).pair = s.pair := rfl
@[simp] theorem setGeo_cor (s : State) (f : Geo → Geo) : (setGeo s f).cor = s.cor := rfl
@[simp] theorem setGeo_sch (s : State) (f : Geo → Geo) : (setGeo s f).sch = s.sch := rfl
@[simp] theorem setGeo_fab (s : State) (f : Geo → Geo) : (setGeo s f).fab = s.fab := rfl
@[simp] theorem setGeo_drc (s : State) (f : Geo → Geo) : (setGeo s f).drc = s.drc := rfl
@[simp] theorem setGeo_keyed (s : State) (f : Geo → Geo) : (setGeo s f).keyed = s.keyed := rfl
@[simp] theorem setGeo_keySeq (s : State) (f : Geo → Geo) : (setGeo s f).keySeq = s.keySeq := rfl
@[simp] theorem setGeo_lau (s : State) (f : Geo → Geo) : (setGeo s f).lau = s.lau := rfl
@[simp] theorem setGeo_geo (s : State) (f : Geo → Geo) : (setGeo s f).geo = f s.geo := rfl

/-! ### setPair -/

@[simp] theorem setPair_pending (s : State) (f : Pair → Pair) : (setPair s f).pending = s.pending := rfl
@[simp] theorem setPair_regs (s : State) (f : Pair → Pair) : (setPair s f).regs = s.regs := rfl
@[simp] theorem setPair_latches (s : State) (f : Pair → Pair) : (setPair s f).latches = s.latches := rfl
@[simp] theorem setPair_rdata (s : State) (f : Pair → Pair) : (setPair s f).rdata = s.rdata := rfl
@[simp] theorem setPair_outcomes (s : State) (f : Pair → Pair) : (setPair s f).outcomes = s.outcomes := rfl
@[simp] theorem setPair_outs (s : State) (f : Pair → Pair) : (setPair s f).outs = s.outs := rfl
@[simp] theorem setPair_hostMem (s : State) (f : Pair → Pair) : (setPair s f).hostMem = s.hostMem := rfl
@[simp] theorem setPair_dueWrites (s : State) (f : Pair → Pair) : (setPair s f).dueWrites = s.dueWrites := rfl
@[simp] theorem setPair_freeCtr (s : State) (f : Pair → Pair) : (setPair s f).freeCtr = s.freeCtr := rfl
@[simp] theorem setPair_hif (s : State) (f : Pair → Pair) : (setPair s f).hif = s.hif := rfl
@[simp] theorem setPair_stw (s : State) (f : Pair → Pair) : (setPair s f).stw = s.stw := rfl
@[simp] theorem setPair_irq (s : State) (f : Pair → Pair) : (setPair s f).irq = s.irq := rfl
@[simp] theorem setPair_mtx (s : State) (f : Pair → Pair) : (setPair s f).mtx = s.mtx := rfl
@[simp] theorem setPair_lgr (s : State) (f : Pair → Pair) : (setPair s f).lgr = s.lgr := rfl
@[simp] theorem setPair_aon (s : State) (f : Pair → Pair) : (setPair s f).aon = s.aon := rfl
@[simp] theorem setPair_clk (s : State) (f : Pair → Pair) : (setPair s f).clk = s.clk := rfl
@[simp] theorem setPair_ptp (s : State) (f : Pair → Pair) : (setPair s f).ptp = s.ptp := rfl
@[simp] theorem setPair_mp (s : State) (f : Pair → Pair) : (setPair s f).mp = s.mp := rfl
@[simp] theorem setPair_dpx (s : State) (f : Pair → Pair) : (setPair s f).dpx = s.dpx := rfl
@[simp] theorem setPair_obj (s : State) (f : Pair → Pair) : (setPair s f).obj = s.obj := rfl
@[simp] theorem setPair_prefilter (s : State) (f : Pair → Pair) : (setPair s f).prefilter = s.prefilter := rfl
@[simp] theorem setPair_segUid (s : State) (f : Pair → Pair) : (setPair s f).segUid = s.segUid := rfl
@[simp] theorem setPair_alignSet (s : State) (f : Pair → Pair) : (setPair s f).alignSet = s.alignSet := rfl
@[simp] theorem setPair_geo (s : State) (f : Pair → Pair) : (setPair s f).geo = s.geo := rfl
@[simp] theorem setPair_cor (s : State) (f : Pair → Pair) : (setPair s f).cor = s.cor := rfl
@[simp] theorem setPair_sch (s : State) (f : Pair → Pair) : (setPair s f).sch = s.sch := rfl
@[simp] theorem setPair_fab (s : State) (f : Pair → Pair) : (setPair s f).fab = s.fab := rfl
@[simp] theorem setPair_drc (s : State) (f : Pair → Pair) : (setPair s f).drc = s.drc := rfl
@[simp] theorem setPair_keyed (s : State) (f : Pair → Pair) : (setPair s f).keyed = s.keyed := rfl
@[simp] theorem setPair_keySeq (s : State) (f : Pair → Pair) : (setPair s f).keySeq = s.keySeq := rfl
@[simp] theorem setPair_lau (s : State) (f : Pair → Pair) : (setPair s f).lau = s.lau := rfl
@[simp] theorem setPair_pair (s : State) (f : Pair → Pair) : (setPair s f).pair = f s.pair := rfl

/-! ### setCor -/

@[simp] theorem setCor_pending (s : State) (f : Cor → Cor) : (setCor s f).pending = s.pending := rfl
@[simp] theorem setCor_regs (s : State) (f : Cor → Cor) : (setCor s f).regs = s.regs := rfl
@[simp] theorem setCor_latches (s : State) (f : Cor → Cor) : (setCor s f).latches = s.latches := rfl
@[simp] theorem setCor_rdata (s : State) (f : Cor → Cor) : (setCor s f).rdata = s.rdata := rfl
@[simp] theorem setCor_outcomes (s : State) (f : Cor → Cor) : (setCor s f).outcomes = s.outcomes := rfl
@[simp] theorem setCor_outs (s : State) (f : Cor → Cor) : (setCor s f).outs = s.outs := rfl
@[simp] theorem setCor_hostMem (s : State) (f : Cor → Cor) : (setCor s f).hostMem = s.hostMem := rfl
@[simp] theorem setCor_dueWrites (s : State) (f : Cor → Cor) : (setCor s f).dueWrites = s.dueWrites := rfl
@[simp] theorem setCor_freeCtr (s : State) (f : Cor → Cor) : (setCor s f).freeCtr = s.freeCtr := rfl
@[simp] theorem setCor_hif (s : State) (f : Cor → Cor) : (setCor s f).hif = s.hif := rfl
@[simp] theorem setCor_stw (s : State) (f : Cor → Cor) : (setCor s f).stw = s.stw := rfl
@[simp] theorem setCor_irq (s : State) (f : Cor → Cor) : (setCor s f).irq = s.irq := rfl
@[simp] theorem setCor_mtx (s : State) (f : Cor → Cor) : (setCor s f).mtx = s.mtx := rfl
@[simp] theorem setCor_lgr (s : State) (f : Cor → Cor) : (setCor s f).lgr = s.lgr := rfl
@[simp] theorem setCor_aon (s : State) (f : Cor → Cor) : (setCor s f).aon = s.aon := rfl
@[simp] theorem setCor_clk (s : State) (f : Cor → Cor) : (setCor s f).clk = s.clk := rfl
@[simp] theorem setCor_ptp (s : State) (f : Cor → Cor) : (setCor s f).ptp = s.ptp := rfl
@[simp] theorem setCor_mp (s : State) (f : Cor → Cor) : (setCor s f).mp = s.mp := rfl
@[simp] theorem setCor_dpx (s : State) (f : Cor → Cor) : (setCor s f).dpx = s.dpx := rfl
@[simp] theorem setCor_obj (s : State) (f : Cor → Cor) : (setCor s f).obj = s.obj := rfl
@[simp] theorem setCor_prefilter (s : State) (f : Cor → Cor) : (setCor s f).prefilter = s.prefilter := rfl
@[simp] theorem setCor_segUid (s : State) (f : Cor → Cor) : (setCor s f).segUid = s.segUid := rfl
@[simp] theorem setCor_alignSet (s : State) (f : Cor → Cor) : (setCor s f).alignSet = s.alignSet := rfl
@[simp] theorem setCor_geo (s : State) (f : Cor → Cor) : (setCor s f).geo = s.geo := rfl
@[simp] theorem setCor_pair (s : State) (f : Cor → Cor) : (setCor s f).pair = s.pair := rfl
@[simp] theorem setCor_sch (s : State) (f : Cor → Cor) : (setCor s f).sch = s.sch := rfl
@[simp] theorem setCor_fab (s : State) (f : Cor → Cor) : (setCor s f).fab = s.fab := rfl
@[simp] theorem setCor_drc (s : State) (f : Cor → Cor) : (setCor s f).drc = s.drc := rfl
@[simp] theorem setCor_keyed (s : State) (f : Cor → Cor) : (setCor s f).keyed = s.keyed := rfl
@[simp] theorem setCor_keySeq (s : State) (f : Cor → Cor) : (setCor s f).keySeq = s.keySeq := rfl
@[simp] theorem setCor_lau (s : State) (f : Cor → Cor) : (setCor s f).lau = s.lau := rfl
@[simp] theorem setCor_cor (s : State) (f : Cor → Cor) : (setCor s f).cor = f s.cor := rfl

/-! ### setSch -/

@[simp] theorem setSch_pending (s : State) (f : Sch → Sch) : (setSch s f).pending = s.pending := rfl
@[simp] theorem setSch_regs (s : State) (f : Sch → Sch) : (setSch s f).regs = s.regs := rfl
@[simp] theorem setSch_latches (s : State) (f : Sch → Sch) : (setSch s f).latches = s.latches := rfl
@[simp] theorem setSch_rdata (s : State) (f : Sch → Sch) : (setSch s f).rdata = s.rdata := rfl
@[simp] theorem setSch_outcomes (s : State) (f : Sch → Sch) : (setSch s f).outcomes = s.outcomes := rfl
@[simp] theorem setSch_outs (s : State) (f : Sch → Sch) : (setSch s f).outs = s.outs := rfl
@[simp] theorem setSch_hostMem (s : State) (f : Sch → Sch) : (setSch s f).hostMem = s.hostMem := rfl
@[simp] theorem setSch_dueWrites (s : State) (f : Sch → Sch) : (setSch s f).dueWrites = s.dueWrites := rfl
@[simp] theorem setSch_freeCtr (s : State) (f : Sch → Sch) : (setSch s f).freeCtr = s.freeCtr := rfl
@[simp] theorem setSch_hif (s : State) (f : Sch → Sch) : (setSch s f).hif = s.hif := rfl
@[simp] theorem setSch_stw (s : State) (f : Sch → Sch) : (setSch s f).stw = s.stw := rfl
@[simp] theorem setSch_irq (s : State) (f : Sch → Sch) : (setSch s f).irq = s.irq := rfl
@[simp] theorem setSch_mtx (s : State) (f : Sch → Sch) : (setSch s f).mtx = s.mtx := rfl
@[simp] theorem setSch_lgr (s : State) (f : Sch → Sch) : (setSch s f).lgr = s.lgr := rfl
@[simp] theorem setSch_aon (s : State) (f : Sch → Sch) : (setSch s f).aon = s.aon := rfl
@[simp] theorem setSch_clk (s : State) (f : Sch → Sch) : (setSch s f).clk = s.clk := rfl
@[simp] theorem setSch_ptp (s : State) (f : Sch → Sch) : (setSch s f).ptp = s.ptp := rfl
@[simp] theorem setSch_mp (s : State) (f : Sch → Sch) : (setSch s f).mp = s.mp := rfl
@[simp] theorem setSch_dpx (s : State) (f : Sch → Sch) : (setSch s f).dpx = s.dpx := rfl
@[simp] theorem setSch_obj (s : State) (f : Sch → Sch) : (setSch s f).obj = s.obj := rfl
@[simp] theorem setSch_prefilter (s : State) (f : Sch → Sch) : (setSch s f).prefilter = s.prefilter := rfl
@[simp] theorem setSch_segUid (s : State) (f : Sch → Sch) : (setSch s f).segUid = s.segUid := rfl
@[simp] theorem setSch_alignSet (s : State) (f : Sch → Sch) : (setSch s f).alignSet = s.alignSet := rfl
@[simp] theorem setSch_geo (s : State) (f : Sch → Sch) : (setSch s f).geo = s.geo := rfl
@[simp] theorem setSch_pair (s : State) (f : Sch → Sch) : (setSch s f).pair = s.pair := rfl
@[simp] theorem setSch_cor (s : State) (f : Sch → Sch) : (setSch s f).cor = s.cor := rfl
@[simp] theorem setSch_fab (s : State) (f : Sch → Sch) : (setSch s f).fab = s.fab := rfl
@[simp] theorem setSch_drc (s : State) (f : Sch → Sch) : (setSch s f).drc = s.drc := rfl
@[simp] theorem setSch_keyed (s : State) (f : Sch → Sch) : (setSch s f).keyed = s.keyed := rfl
@[simp] theorem setSch_keySeq (s : State) (f : Sch → Sch) : (setSch s f).keySeq = s.keySeq := rfl
@[simp] theorem setSch_lau (s : State) (f : Sch → Sch) : (setSch s f).lau = s.lau := rfl
@[simp] theorem setSch_sch (s : State) (f : Sch → Sch) : (setSch s f).sch = f s.sch := rfl

/-! ### setFab -/

@[simp] theorem setFab_pending (s : State) (f : Fab → Fab) : (setFab s f).pending = s.pending := rfl
@[simp] theorem setFab_regs (s : State) (f : Fab → Fab) : (setFab s f).regs = s.regs := rfl
@[simp] theorem setFab_latches (s : State) (f : Fab → Fab) : (setFab s f).latches = s.latches := rfl
@[simp] theorem setFab_rdata (s : State) (f : Fab → Fab) : (setFab s f).rdata = s.rdata := rfl
@[simp] theorem setFab_outcomes (s : State) (f : Fab → Fab) : (setFab s f).outcomes = s.outcomes := rfl
@[simp] theorem setFab_outs (s : State) (f : Fab → Fab) : (setFab s f).outs = s.outs := rfl
@[simp] theorem setFab_hostMem (s : State) (f : Fab → Fab) : (setFab s f).hostMem = s.hostMem := rfl
@[simp] theorem setFab_dueWrites (s : State) (f : Fab → Fab) : (setFab s f).dueWrites = s.dueWrites := rfl
@[simp] theorem setFab_freeCtr (s : State) (f : Fab → Fab) : (setFab s f).freeCtr = s.freeCtr := rfl
@[simp] theorem setFab_hif (s : State) (f : Fab → Fab) : (setFab s f).hif = s.hif := rfl
@[simp] theorem setFab_stw (s : State) (f : Fab → Fab) : (setFab s f).stw = s.stw := rfl
@[simp] theorem setFab_irq (s : State) (f : Fab → Fab) : (setFab s f).irq = s.irq := rfl
@[simp] theorem setFab_mtx (s : State) (f : Fab → Fab) : (setFab s f).mtx = s.mtx := rfl
@[simp] theorem setFab_lgr (s : State) (f : Fab → Fab) : (setFab s f).lgr = s.lgr := rfl
@[simp] theorem setFab_aon (s : State) (f : Fab → Fab) : (setFab s f).aon = s.aon := rfl
@[simp] theorem setFab_clk (s : State) (f : Fab → Fab) : (setFab s f).clk = s.clk := rfl
@[simp] theorem setFab_ptp (s : State) (f : Fab → Fab) : (setFab s f).ptp = s.ptp := rfl
@[simp] theorem setFab_mp (s : State) (f : Fab → Fab) : (setFab s f).mp = s.mp := rfl
@[simp] theorem setFab_dpx (s : State) (f : Fab → Fab) : (setFab s f).dpx = s.dpx := rfl
@[simp] theorem setFab_obj (s : State) (f : Fab → Fab) : (setFab s f).obj = s.obj := rfl
@[simp] theorem setFab_prefilter (s : State) (f : Fab → Fab) : (setFab s f).prefilter = s.prefilter := rfl
@[simp] theorem setFab_segUid (s : State) (f : Fab → Fab) : (setFab s f).segUid = s.segUid := rfl
@[simp] theorem setFab_alignSet (s : State) (f : Fab → Fab) : (setFab s f).alignSet = s.alignSet := rfl
@[simp] theorem setFab_geo (s : State) (f : Fab → Fab) : (setFab s f).geo = s.geo := rfl
@[simp] theorem setFab_pair (s : State) (f : Fab → Fab) : (setFab s f).pair = s.pair := rfl
@[simp] theorem setFab_cor (s : State) (f : Fab → Fab) : (setFab s f).cor = s.cor := rfl
@[simp] theorem setFab_sch (s : State) (f : Fab → Fab) : (setFab s f).sch = s.sch := rfl
@[simp] theorem setFab_drc (s : State) (f : Fab → Fab) : (setFab s f).drc = s.drc := rfl
@[simp] theorem setFab_keyed (s : State) (f : Fab → Fab) : (setFab s f).keyed = s.keyed := rfl
@[simp] theorem setFab_keySeq (s : State) (f : Fab → Fab) : (setFab s f).keySeq = s.keySeq := rfl
@[simp] theorem setFab_lau (s : State) (f : Fab → Fab) : (setFab s f).lau = s.lau := rfl
@[simp] theorem setFab_fab (s : State) (f : Fab → Fab) : (setFab s f).fab = f s.fab := rfl

/-! ### setDrc -/

@[simp] theorem setDrc_pending (s : State) (f : Drc → Drc) : (setDrc s f).pending = s.pending := rfl
@[simp] theorem setDrc_regs (s : State) (f : Drc → Drc) : (setDrc s f).regs = s.regs := rfl
@[simp] theorem setDrc_latches (s : State) (f : Drc → Drc) : (setDrc s f).latches = s.latches := rfl
@[simp] theorem setDrc_rdata (s : State) (f : Drc → Drc) : (setDrc s f).rdata = s.rdata := rfl
@[simp] theorem setDrc_outcomes (s : State) (f : Drc → Drc) : (setDrc s f).outcomes = s.outcomes := rfl
@[simp] theorem setDrc_outs (s : State) (f : Drc → Drc) : (setDrc s f).outs = s.outs := rfl
@[simp] theorem setDrc_hostMem (s : State) (f : Drc → Drc) : (setDrc s f).hostMem = s.hostMem := rfl
@[simp] theorem setDrc_dueWrites (s : State) (f : Drc → Drc) : (setDrc s f).dueWrites = s.dueWrites := rfl
@[simp] theorem setDrc_freeCtr (s : State) (f : Drc → Drc) : (setDrc s f).freeCtr = s.freeCtr := rfl
@[simp] theorem setDrc_hif (s : State) (f : Drc → Drc) : (setDrc s f).hif = s.hif := rfl
@[simp] theorem setDrc_stw (s : State) (f : Drc → Drc) : (setDrc s f).stw = s.stw := rfl
@[simp] theorem setDrc_irq (s : State) (f : Drc → Drc) : (setDrc s f).irq = s.irq := rfl
@[simp] theorem setDrc_mtx (s : State) (f : Drc → Drc) : (setDrc s f).mtx = s.mtx := rfl
@[simp] theorem setDrc_lgr (s : State) (f : Drc → Drc) : (setDrc s f).lgr = s.lgr := rfl
@[simp] theorem setDrc_aon (s : State) (f : Drc → Drc) : (setDrc s f).aon = s.aon := rfl
@[simp] theorem setDrc_clk (s : State) (f : Drc → Drc) : (setDrc s f).clk = s.clk := rfl
@[simp] theorem setDrc_ptp (s : State) (f : Drc → Drc) : (setDrc s f).ptp = s.ptp := rfl
@[simp] theorem setDrc_mp (s : State) (f : Drc → Drc) : (setDrc s f).mp = s.mp := rfl
@[simp] theorem setDrc_dpx (s : State) (f : Drc → Drc) : (setDrc s f).dpx = s.dpx := rfl
@[simp] theorem setDrc_obj (s : State) (f : Drc → Drc) : (setDrc s f).obj = s.obj := rfl
@[simp] theorem setDrc_prefilter (s : State) (f : Drc → Drc) : (setDrc s f).prefilter = s.prefilter := rfl
@[simp] theorem setDrc_segUid (s : State) (f : Drc → Drc) : (setDrc s f).segUid = s.segUid := rfl
@[simp] theorem setDrc_alignSet (s : State) (f : Drc → Drc) : (setDrc s f).alignSet = s.alignSet := rfl
@[simp] theorem setDrc_geo (s : State) (f : Drc → Drc) : (setDrc s f).geo = s.geo := rfl
@[simp] theorem setDrc_pair (s : State) (f : Drc → Drc) : (setDrc s f).pair = s.pair := rfl
@[simp] theorem setDrc_cor (s : State) (f : Drc → Drc) : (setDrc s f).cor = s.cor := rfl
@[simp] theorem setDrc_sch (s : State) (f : Drc → Drc) : (setDrc s f).sch = s.sch := rfl
@[simp] theorem setDrc_fab (s : State) (f : Drc → Drc) : (setDrc s f).fab = s.fab := rfl
@[simp] theorem setDrc_keyed (s : State) (f : Drc → Drc) : (setDrc s f).keyed = s.keyed := rfl
@[simp] theorem setDrc_keySeq (s : State) (f : Drc → Drc) : (setDrc s f).keySeq = s.keySeq := rfl
@[simp] theorem setDrc_lau (s : State) (f : Drc → Drc) : (setDrc s f).lau = s.lau := rfl
@[simp] theorem setDrc_drc (s : State) (f : Drc → Drc) : (setDrc s f).drc = f s.drc := rfl

/-! ### setLau -/

@[simp] theorem setLau_pending (s : State) (f : Lau → Lau) : (setLau s f).pending = s.pending := rfl
@[simp] theorem setLau_regs (s : State) (f : Lau → Lau) : (setLau s f).regs = s.regs := rfl
@[simp] theorem setLau_latches (s : State) (f : Lau → Lau) : (setLau s f).latches = s.latches := rfl
@[simp] theorem setLau_rdata (s : State) (f : Lau → Lau) : (setLau s f).rdata = s.rdata := rfl
@[simp] theorem setLau_outcomes (s : State) (f : Lau → Lau) : (setLau s f).outcomes = s.outcomes := rfl
@[simp] theorem setLau_outs (s : State) (f : Lau → Lau) : (setLau s f).outs = s.outs := rfl
@[simp] theorem setLau_hostMem (s : State) (f : Lau → Lau) : (setLau s f).hostMem = s.hostMem := rfl
@[simp] theorem setLau_dueWrites (s : State) (f : Lau → Lau) : (setLau s f).dueWrites = s.dueWrites := rfl
@[simp] theorem setLau_freeCtr (s : State) (f : Lau → Lau) : (setLau s f).freeCtr = s.freeCtr := rfl
@[simp] theorem setLau_hif (s : State) (f : Lau → Lau) : (setLau s f).hif = s.hif := rfl
@[simp] theorem setLau_stw (s : State) (f : Lau → Lau) : (setLau s f).stw = s.stw := rfl
@[simp] theorem setLau_irq (s : State) (f : Lau → Lau) : (setLau s f).irq = s.irq := rfl
@[simp] theorem setLau_mtx (s : State) (f : Lau → Lau) : (setLau s f).mtx = s.mtx := rfl
@[simp] theorem setLau_lgr (s : State) (f : Lau → Lau) : (setLau s f).lgr = s.lgr := rfl
@[simp] theorem setLau_aon (s : State) (f : Lau → Lau) : (setLau s f).aon = s.aon := rfl
@[simp] theorem setLau_clk (s : State) (f : Lau → Lau) : (setLau s f).clk = s.clk := rfl
@[simp] theorem setLau_ptp (s : State) (f : Lau → Lau) : (setLau s f).ptp = s.ptp := rfl
@[simp] theorem setLau_mp (s : State) (f : Lau → Lau) : (setLau s f).mp = s.mp := rfl
@[simp] theorem setLau_dpx (s : State) (f : Lau → Lau) : (setLau s f).dpx = s.dpx := rfl
@[simp] theorem setLau_obj (s : State) (f : Lau → Lau) : (setLau s f).obj = s.obj := rfl
@[simp] theorem setLau_prefilter (s : State) (f : Lau → Lau) : (setLau s f).prefilter = s.prefilter := rfl
@[simp] theorem setLau_segUid (s : State) (f : Lau → Lau) : (setLau s f).segUid = s.segUid := rfl
@[simp] theorem setLau_alignSet (s : State) (f : Lau → Lau) : (setLau s f).alignSet = s.alignSet := rfl
@[simp] theorem setLau_geo (s : State) (f : Lau → Lau) : (setLau s f).geo = s.geo := rfl
@[simp] theorem setLau_pair (s : State) (f : Lau → Lau) : (setLau s f).pair = s.pair := rfl
@[simp] theorem setLau_cor (s : State) (f : Lau → Lau) : (setLau s f).cor = s.cor := rfl
@[simp] theorem setLau_sch (s : State) (f : Lau → Lau) : (setLau s f).sch = s.sch := rfl
@[simp] theorem setLau_fab (s : State) (f : Lau → Lau) : (setLau s f).fab = s.fab := rfl
@[simp] theorem setLau_drc (s : State) (f : Lau → Lau) : (setLau s f).drc = s.drc := rfl
@[simp] theorem setLau_keyed (s : State) (f : Lau → Lau) : (setLau s f).keyed = s.keyed := rfl
@[simp] theorem setLau_keySeq (s : State) (f : Lau → Lau) : (setLau s f).keySeq = s.keySeq := rfl
@[simp] theorem setLau_lau (s : State) (f : Lau → Lau) : (setLau s f).lau = f s.lau := rfl

/-! ### setObj -/

@[simp] theorem setObj_pending (s : State) (o : Nat) (x : Obj) : (setObj s o x).pending = s.pending := rfl
@[simp] theorem setObj_regs (s : State) (o : Nat) (x : Obj) : (setObj s o x).regs = s.regs := rfl
@[simp] theorem setObj_latches (s : State) (o : Nat) (x : Obj) : (setObj s o x).latches = s.latches := rfl
@[simp] theorem setObj_rdata (s : State) (o : Nat) (x : Obj) : (setObj s o x).rdata = s.rdata := rfl
@[simp] theorem setObj_outcomes (s : State) (o : Nat) (x : Obj) : (setObj s o x).outcomes = s.outcomes := rfl
@[simp] theorem setObj_outs (s : State) (o : Nat) (x : Obj) : (setObj s o x).outs = s.outs := rfl
@[simp] theorem setObj_hostMem (s : State) (o : Nat) (x : Obj) : (setObj s o x).hostMem = s.hostMem := rfl
@[simp] theorem setObj_dueWrites (s : State) (o : Nat) (x : Obj) : (setObj s o x).dueWrites = s.dueWrites := rfl
@[simp] theorem setObj_freeCtr (s : State) (o : Nat) (x : Obj) : (setObj s o x).freeCtr = s.freeCtr := rfl
@[simp] theorem setObj_hif (s : State) (o : Nat) (x : Obj) : (setObj s o x).hif = s.hif := rfl
@[simp] theorem setObj_stw (s : State) (o : Nat) (x : Obj) : (setObj s o x).stw = s.stw := rfl
@[simp] theorem setObj_irq (s : State) (o : Nat) (x : Obj) : (setObj s o x).irq = s.irq := rfl
@[simp] theorem setObj_mtx (s : State) (o : Nat) (x : Obj) : (setObj s o x).mtx = s.mtx := rfl
@[simp] theorem setObj_lgr (s : State) (o : Nat) (x : Obj) : (setObj s o x).lgr = s.lgr := rfl
@[simp] theorem setObj_aon (s : State) (o : Nat) (x : Obj) : (setObj s o x).aon = s.aon := rfl
@[simp] theorem setObj_clk (s : State) (o : Nat) (x : Obj) : (setObj s o x).clk = s.clk := rfl
@[simp] theorem setObj_ptp (s : State) (o : Nat) (x : Obj) : (setObj s o x).ptp = s.ptp := rfl
@[simp] theorem setObj_mp (s : State) (o : Nat) (x : Obj) : (setObj s o x).mp = s.mp := rfl
@[simp] theorem setObj_dpx (s : State) (o : Nat) (x : Obj) : (setObj s o x).dpx = s.dpx := rfl
@[simp] theorem setObj_prefilter (s : State) (o : Nat) (x : Obj) : (setObj s o x).prefilter = s.prefilter := rfl
@[simp] theorem setObj_segUid (s : State) (o : Nat) (x : Obj) : (setObj s o x).segUid = s.segUid := rfl
@[simp] theorem setObj_alignSet (s : State) (o : Nat) (x : Obj) : (setObj s o x).alignSet = s.alignSet := rfl
@[simp] theorem setObj_geo (s : State) (o : Nat) (x : Obj) : (setObj s o x).geo = s.geo := rfl
@[simp] theorem setObj_pair (s : State) (o : Nat) (x : Obj) : (setObj s o x).pair = s.pair := rfl
@[simp] theorem setObj_cor (s : State) (o : Nat) (x : Obj) : (setObj s o x).cor = s.cor := rfl
@[simp] theorem setObj_sch (s : State) (o : Nat) (x : Obj) : (setObj s o x).sch = s.sch := rfl
@[simp] theorem setObj_fab (s : State) (o : Nat) (x : Obj) : (setObj s o x).fab = s.fab := rfl
@[simp] theorem setObj_drc (s : State) (o : Nat) (x : Obj) : (setObj s o x).drc = s.drc := rfl
@[simp] theorem setObj_keyed (s : State) (o : Nat) (x : Obj) : (setObj s o x).keyed = s.keyed := rfl
@[simp] theorem setObj_keySeq (s : State) (o : Nat) (x : Obj) : (setObj s o x).keySeq = s.keySeq := rfl
@[simp] theorem setObj_lau (s : State) (o : Nat) (x : Obj) : (setObj s o x).lau = s.lau := rfl
@[simp] theorem setObj_obj (s : State) (o : Nat) (x : Obj) : (setObj s o x).obj = smSet {} s.obj o x := rfl

/-! ### setOut -/

@[simp] theorem setOut_pending (s : State) (o : Nat) (x : Out) : (setOut s o x).pending = s.pending := rfl
@[simp] theorem setOut_regs (s : State) (o : Nat) (x : Out) : (setOut s o x).regs = s.regs := rfl
@[simp] theorem setOut_latches (s : State) (o : Nat) (x : Out) : (setOut s o x).latches = s.latches := rfl
@[simp] theorem setOut_rdata (s : State) (o : Nat) (x : Out) : (setOut s o x).rdata = s.rdata := rfl
@[simp] theorem setOut_outcomes (s : State) (o : Nat) (x : Out) : (setOut s o x).outcomes = s.outcomes := rfl
@[simp] theorem setOut_outs (s : State) (o : Nat) (x : Out) : (setOut s o x).outs = s.outs := rfl
@[simp] theorem setOut_hostMem (s : State) (o : Nat) (x : Out) : (setOut s o x).hostMem = s.hostMem := rfl
@[simp] theorem setOut_dueWrites (s : State) (o : Nat) (x : Out) : (setOut s o x).dueWrites = s.dueWrites := rfl
@[simp] theorem setOut_freeCtr (s : State) (o : Nat) (x : Out) : (setOut s o x).freeCtr = s.freeCtr := rfl
@[simp] theorem setOut_hif (s : State) (o : Nat) (x : Out) : (setOut s o x).hif = s.hif := rfl
@[simp] theorem setOut_stw (s : State) (o : Nat) (x : Out) : (setOut s o x).stw = s.stw := rfl
@[simp] theorem setOut_irq (s : State) (o : Nat) (x : Out) : (setOut s o x).irq = s.irq := rfl
@[simp] theorem setOut_mtx (s : State) (o : Nat) (x : Out) : (setOut s o x).mtx = s.mtx := rfl
@[simp] theorem setOut_lgr (s : State) (o : Nat) (x : Out) : (setOut s o x).lgr = s.lgr := rfl
@[simp] theorem setOut_aon (s : State) (o : Nat) (x : Out) : (setOut s o x).aon = s.aon := rfl
@[simp] theorem setOut_clk (s : State) (o : Nat) (x : Out) : (setOut s o x).clk = s.clk := rfl
@[simp] theorem setOut_ptp (s : State) (o : Nat) (x : Out) : (setOut s o x).ptp = s.ptp := rfl
@[simp] theorem setOut_mp (s : State) (o : Nat) (x : Out) : (setOut s o x).mp = s.mp := rfl
@[simp] theorem setOut_dpx (s : State) (o : Nat) (x : Out) : (setOut s o x).dpx = s.dpx := rfl
@[simp] theorem setOut_obj (s : State) (o : Nat) (x : Out) : (setOut s o x).obj = s.obj := rfl
@[simp] theorem setOut_prefilter (s : State) (o : Nat) (x : Out) : (setOut s o x).prefilter = s.prefilter := rfl
@[simp] theorem setOut_segUid (s : State) (o : Nat) (x : Out) : (setOut s o x).segUid = s.segUid := rfl
@[simp] theorem setOut_alignSet (s : State) (o : Nat) (x : Out) : (setOut s o x).alignSet = s.alignSet := rfl
@[simp] theorem setOut_geo (s : State) (o : Nat) (x : Out) : (setOut s o x).geo = s.geo := rfl
@[simp] theorem setOut_pair (s : State) (o : Nat) (x : Out) : (setOut s o x).pair = s.pair := rfl
@[simp] theorem setOut_sch (s : State) (o : Nat) (x : Out) : (setOut s o x).sch = s.sch := rfl
@[simp] theorem setOut_fab (s : State) (o : Nat) (x : Out) : (setOut s o x).fab = s.fab := rfl
@[simp] theorem setOut_drc (s : State) (o : Nat) (x : Out) : (setOut s o x).drc = s.drc := rfl
@[simp] theorem setOut_keyed (s : State) (o : Nat) (x : Out) : (setOut s o x).keyed = s.keyed := rfl
@[simp] theorem setOut_keySeq (s : State) (o : Nat) (x : Out) : (setOut s o x).keySeq = s.keySeq := rfl
@[simp] theorem setOut_lau (s : State) (o : Nat) (x : Out) : (setOut s o x).lau = s.lau := rfl

/-! ### setRef -/

@[simp] theorem setRef_pending (r : Nat) (x : RefSt) (s : State) : (setRef r x s).pending = s.pending := rfl
@[simp] theorem setRef_regs (r : Nat) (x : RefSt) (s : State) : (setRef r x s).regs = s.regs := rfl
@[simp] theorem setRef_latches (r : Nat) (x : RefSt) (s : State) : (setRef r x s).latches = s.latches := rfl
@[simp] theorem setRef_rdata (r : Nat) (x : RefSt) (s : State) : (setRef r x s).rdata = s.rdata := rfl
@[simp] theorem setRef_outcomes (r : Nat) (x : RefSt) (s : State) : (setRef r x s).outcomes = s.outcomes := rfl
@[simp] theorem setRef_outs (r : Nat) (x : RefSt) (s : State) : (setRef r x s).outs = s.outs := rfl
@[simp] theorem setRef_hostMem (r : Nat) (x : RefSt) (s : State) : (setRef r x s).hostMem = s.hostMem := rfl
@[simp] theorem setRef_dueWrites (r : Nat) (x : RefSt) (s : State) : (setRef r x s).dueWrites = s.dueWrites := rfl
@[simp] theorem setRef_freeCtr (r : Nat) (x : RefSt) (s : State) : (setRef r x s).freeCtr = s.freeCtr := rfl
@[simp] theorem setRef_hif (r : Nat) (x : RefSt) (s : State) : (setRef r x s).hif = s.hif := rfl
@[simp] theorem setRef_stw (r : Nat) (x : RefSt) (s : State) : (setRef r x s).stw = s.stw := rfl
@[simp] theorem setRef_irq (r : Nat) (x : RefSt) (s : State) : (setRef r x s).irq = s.irq := rfl
@[simp] theorem setRef_mtx (r : Nat) (x : RefSt) (s : State) : (setRef r x s).mtx = s.mtx := rfl
@[simp] theorem setRef_lgr (r : Nat) (x : RefSt) (s : State) : (setRef r x s).lgr = s.lgr := rfl
@[simp] theorem setRef_aon (r : Nat) (x : RefSt) (s : State) : (setRef r x s).aon = s.aon := rfl
@[simp] theorem setRef_ptp (r : Nat) (x : RefSt) (s : State) : (setRef r x s).ptp = s.ptp := rfl
@[simp] theorem setRef_mp (r : Nat) (x : RefSt) (s : State) : (setRef r x s).mp = s.mp := rfl
@[simp] theorem setRef_dpx (r : Nat) (x : RefSt) (s : State) : (setRef r x s).dpx = s.dpx := rfl
@[simp] theorem setRef_obj (r : Nat) (x : RefSt) (s : State) : (setRef r x s).obj = s.obj := rfl
@[simp] theorem setRef_prefilter (r : Nat) (x : RefSt) (s : State) : (setRef r x s).prefilter = s.prefilter := rfl
@[simp] theorem setRef_segUid (r : Nat) (x : RefSt) (s : State) : (setRef r x s).segUid = s.segUid := rfl
@[simp] theorem setRef_alignSet (r : Nat) (x : RefSt) (s : State) : (setRef r x s).alignSet = s.alignSet := rfl
@[simp] theorem setRef_geo (r : Nat) (x : RefSt) (s : State) : (setRef r x s).geo = s.geo := rfl
@[simp] theorem setRef_pair (r : Nat) (x : RefSt) (s : State) : (setRef r x s).pair = s.pair := rfl
@[simp] theorem setRef_cor (r : Nat) (x : RefSt) (s : State) : (setRef r x s).cor = s.cor := rfl
@[simp] theorem setRef_sch (r : Nat) (x : RefSt) (s : State) : (setRef r x s).sch = s.sch := rfl
@[simp] theorem setRef_fab (r : Nat) (x : RefSt) (s : State) : (setRef r x s).fab = s.fab := rfl
@[simp] theorem setRef_drc (r : Nat) (x : RefSt) (s : State) : (setRef r x s).drc = s.drc := rfl
@[simp] theorem setRef_keyed (r : Nat) (x : RefSt) (s : State) : (setRef r x s).keyed = s.keyed := rfl
@[simp] theorem setRef_keySeq (r : Nat) (x : RefSt) (s : State) : (setRef r x s).keySeq = s.keySeq := rfl
@[simp] theorem setRef_lau (r : Nat) (x : RefSt) (s : State) : (setRef r x s).lau = s.lau := rfl

/-! ### setLink -/

@[simp] theorem setLink_pending (s : State) (l : Nat) (x : LinkSt) : (setLink s l x).pending = s.pending := rfl
@[simp] theorem setLink_regs (s : State) (l : Nat) (x : LinkSt) : (setLink s l x).regs = s.regs := rfl
@[simp] theorem setLink_latches (s : State) (l : Nat) (x : LinkSt) : (setLink s l x).latches = s.latches := rfl
@[simp] theorem setLink_rdata (s : State) (l : Nat) (x : LinkSt) : (setLink s l x).rdata = s.rdata := rfl
@[simp] theorem setLink_outcomes (s : State) (l : Nat) (x : LinkSt) : (setLink s l x).outcomes = s.outcomes := rfl
@[simp] theorem setLink_outs (s : State) (l : Nat) (x : LinkSt) : (setLink s l x).outs = s.outs := rfl
@[simp] theorem setLink_hostMem (s : State) (l : Nat) (x : LinkSt) : (setLink s l x).hostMem = s.hostMem := rfl
@[simp] theorem setLink_dueWrites (s : State) (l : Nat) (x : LinkSt) : (setLink s l x).dueWrites = s.dueWrites := rfl
@[simp] theorem setLink_freeCtr (s : State) (l : Nat) (x : LinkSt) : (setLink s l x).freeCtr = s.freeCtr := rfl
@[simp] theorem setLink_hif (s : State) (l : Nat) (x : LinkSt) : (setLink s l x).hif = s.hif := rfl
@[simp] theorem setLink_stw (s : State) (l : Nat) (x : LinkSt) : (setLink s l x).stw = s.stw := rfl
@[simp] theorem setLink_irq (s : State) (l : Nat) (x : LinkSt) : (setLink s l x).irq = s.irq := rfl
@[simp] theorem setLink_mtx (s : State) (l : Nat) (x : LinkSt) : (setLink s l x).mtx = s.mtx := rfl
@[simp] theorem setLink_lgr (s : State) (l : Nat) (x : LinkSt) : (setLink s l x).lgr = s.lgr := rfl
@[simp] theorem setLink_aon (s : State) (l : Nat) (x : LinkSt) : (setLink s l x).aon = s.aon := rfl
@[simp] theorem setLink_clk (s : State) (l : Nat) (x : LinkSt) : (setLink s l x).clk = s.clk := rfl
@[simp] theorem setLink_ptp (s : State) (l : Nat) (x : LinkSt) : (setLink s l x).ptp = s.ptp := rfl
@[simp] theorem setLink_mp (s : State) (l : Nat) (x : LinkSt) : (setLink s l x).mp = s.mp := rfl
@[simp] theorem setLink_dpx (s : State) (l : Nat) (x : LinkSt) : (setLink s l x).dpx = s.dpx := rfl
@[simp] theorem setLink_obj (s : State) (l : Nat) (x : LinkSt) : (setLink s l x).obj = s.obj := rfl
@[simp] theorem setLink_prefilter (s : State) (l : Nat) (x : LinkSt) : (setLink s l x).prefilter = s.prefilter := rfl
@[simp] theorem setLink_segUid (s : State) (l : Nat) (x : LinkSt) : (setLink s l x).segUid = s.segUid := rfl
@[simp] theorem setLink_alignSet (s : State) (l : Nat) (x : LinkSt) : (setLink s l x).alignSet = s.alignSet := rfl
@[simp] theorem setLink_geo (s : State) (l : Nat) (x : LinkSt) : (setLink s l x).geo = s.geo := rfl
@[simp] theorem setLink_pair (s : State) (l : Nat) (x : LinkSt) : (setLink s l x).pair = s.pair := rfl
@[simp] theorem setLink_cor (s : State) (l : Nat) (x : LinkSt) : (setLink s l x).cor = s.cor := rfl
@[simp] theorem setLink_sch (s : State) (l : Nat) (x : LinkSt) : (setLink s l x).sch = s.sch := rfl
@[simp] theorem setLink_drc (s : State) (l : Nat) (x : LinkSt) : (setLink s l x).drc = s.drc := rfl
@[simp] theorem setLink_keyed (s : State) (l : Nat) (x : LinkSt) : (setLink s l x).keyed = s.keyed := rfl
@[simp] theorem setLink_keySeq (s : State) (l : Nat) (x : LinkSt) : (setLink s l x).keySeq = s.keySeq := rfl
@[simp] theorem setLink_lau (s : State) (l : Nat) (x : LinkSt) : (setLink s l x).lau = s.lau := rfl

/-! ### setPort -/

@[simp] theorem setPort_pending (n : Nat) (x : MpPort) (s : State) : (setPort n x s).pending = s.pending := rfl
@[simp] theorem setPort_regs (n : Nat) (x : MpPort) (s : State) : (setPort n x s).regs = s.regs := rfl
@[simp] theorem setPort_latches (n : Nat) (x : MpPort) (s : State) : (setPort n x s).latches = s.latches := rfl
@[simp] theorem setPort_rdata (n : Nat) (x : MpPort) (s : State) : (setPort n x s).rdata = s.rdata := rfl
@[simp] theorem setPort_outcomes (n : Nat) (x : MpPort) (s : State) : (setPort n x s).outcomes = s.outcomes := rfl
@[simp] theorem setPort_outs (n : Nat) (x : MpPort) (s : State) : (setPort n x s).outs = s.outs := rfl
@[simp] theorem setPort_hostMem (n : Nat) (x : MpPort) (s : State) : (setPort n x s).hostMem = s.hostMem := rfl
@[simp] theorem setPort_dueWrites (n : Nat) (x : MpPort) (s : State) : (setPort n x s).dueWrites = s.dueWrites := rfl
@[simp] theorem setPort_freeCtr (n : Nat) (x : MpPort) (s : State) : (setPort n x s).freeCtr = s.freeCtr := rfl
@[simp] theorem setPort_hif (n : Nat) (x : MpPort) (s : State) : (setPort n x s).hif = s.hif := rfl
@[simp] theorem setPort_stw (n : Nat) (x : MpPort) (s : State) : (setPort n x s).stw = s.stw := rfl
@[simp] theorem setPort_irq (n : Nat) (x : MpPort) (s : State) : (setPort n x s).irq = s.irq := rfl
@[simp] theorem setPort_mtx (n : Nat) (x : MpPort) (s : State) : (setPort n x s).mtx = s.mtx := rfl
@[simp] theorem setPort_lgr (n : Nat) (x : MpPort) (s : State) : (setPort n x s).lgr = s.lgr := rfl
@[simp] theorem setPort_aon (n : Nat) (x : MpPort) (s : State) : (setPort n x s).aon = s.aon := rfl
@[simp] theorem setPort_clk (n : Nat) (x : MpPort) (s : State) : (setPort n x s).clk = s.clk := rfl
@[simp] theorem setPort_ptp (n : Nat) (x : MpPort) (s : State) : (setPort n x s).ptp = s.ptp := rfl
@[simp] theorem setPort_dpx (n : Nat) (x : MpPort) (s : State) : (setPort n x s).dpx = s.dpx := rfl
@[simp] theorem setPort_obj (n : Nat) (x : MpPort) (s : State) : (setPort n x s).obj = s.obj := rfl
@[simp] theorem setPort_prefilter (n : Nat) (x : MpPort) (s : State) : (setPort n x s).prefilter = s.prefilter := rfl
@[simp] theorem setPort_segUid (n : Nat) (x : MpPort) (s : State) : (setPort n x s).segUid = s.segUid := rfl
@[simp] theorem setPort_alignSet (n : Nat) (x : MpPort) (s : State) : (setPort n x s).alignSet = s.alignSet := rfl
@[simp] theorem setPort_geo (n : Nat) (x : MpPort) (s : State) : (setPort n x s).geo = s.geo := rfl
@[simp] theorem setPort_pair (n : Nat) (x : MpPort) (s : State) : (setPort n x s).pair = s.pair := rfl
@[simp] theorem setPort_cor (n : Nat) (x : MpPort) (s : State) : (setPort n x s).cor = s.cor := rfl
@[simp] theorem setPort_sch (n : Nat) (x : MpPort) (s : State) : (setPort n x s).sch = s.sch := rfl
@[simp] theorem setPort_fab (n : Nat) (x : MpPort) (s : State) : (setPort n x s).fab = s.fab := rfl
@[simp] theorem setPort_drc (n : Nat) (x : MpPort) (s : State) : (setPort n x s).drc = s.drc := rfl
@[simp] theorem setPort_keyed (n : Nat) (x : MpPort) (s : State) : (setPort n x s).keyed = s.keyed := rfl
@[simp] theorem setPort_keySeq (n : Nat) (x : MpPort) (s : State) : (setPort n x s).keySeq = s.keySeq := rfl
@[simp] theorem setPort_lau (n : Nat) (x : MpPort) (s : State) : (setPort n x s).lau = s.lau := rfl

/-! ### setRx -/

@[simp] theorem setRx_pending (x : Nat) (r : RxStream) (s : State) : (setRx x r s).pending = s.pending := rfl
@[simp] theorem setRx_regs (x : Nat) (r : RxStream) (s : State) : (setRx x r s).regs = s.regs := rfl
@[simp] theorem setRx_latches (x : Nat) (r : RxStream) (s : State) : (setRx x r s).latches = s.latches := rfl
@[simp] theorem setRx_rdata (x : Nat) (r : RxStream) (s : State) : (setRx x r s).rdata = s.rdata := rfl
@[simp] theorem setRx_outcomes (x : Nat) (r : RxStream) (s : State) : (setRx x r s).outcomes = s.outcomes := rfl
@[simp] theorem setRx_outs (x : Nat) (r : RxStream) (s : State) : (setRx x r s).outs = s.outs := rfl
@[simp] theorem setRx_hostMem (x : Nat) (r : RxStream) (s : State) : (setRx x r s).hostMem = s.hostMem := rfl
@[simp] theorem setRx_dueWrites (x : Nat) (r : RxStream) (s : State) : (setRx x r s).dueWrites = s.dueWrites := rfl
@[simp] theorem setRx_freeCtr (x : Nat) (r : RxStream) (s : State) : (setRx x r s).freeCtr = s.freeCtr := rfl
@[simp] theorem setRx_hif (x : Nat) (r : RxStream) (s : State) : (setRx x r s).hif = s.hif := rfl
@[simp] theorem setRx_stw (x : Nat) (r : RxStream) (s : State) : (setRx x r s).stw = s.stw := rfl
@[simp] theorem setRx_irq (x : Nat) (r : RxStream) (s : State) : (setRx x r s).irq = s.irq := rfl
@[simp] theorem setRx_mtx (x : Nat) (r : RxStream) (s : State) : (setRx x r s).mtx = s.mtx := rfl
@[simp] theorem setRx_lgr (x : Nat) (r : RxStream) (s : State) : (setRx x r s).lgr = s.lgr := rfl
@[simp] theorem setRx_aon (x : Nat) (r : RxStream) (s : State) : (setRx x r s).aon = s.aon := rfl
@[simp] theorem setRx_clk (x : Nat) (r : RxStream) (s : State) : (setRx x r s).clk = s.clk := rfl
@[simp] theorem setRx_ptp (x : Nat) (r : RxStream) (s : State) : (setRx x r s).ptp = s.ptp := rfl
@[simp] theorem setRx_dpx (x : Nat) (r : RxStream) (s : State) : (setRx x r s).dpx = s.dpx := rfl
@[simp] theorem setRx_obj (x : Nat) (r : RxStream) (s : State) : (setRx x r s).obj = s.obj := rfl
@[simp] theorem setRx_prefilter (x : Nat) (r : RxStream) (s : State) : (setRx x r s).prefilter = s.prefilter := rfl
@[simp] theorem setRx_segUid (x : Nat) (r : RxStream) (s : State) : (setRx x r s).segUid = s.segUid := rfl
@[simp] theorem setRx_alignSet (x : Nat) (r : RxStream) (s : State) : (setRx x r s).alignSet = s.alignSet := rfl
@[simp] theorem setRx_geo (x : Nat) (r : RxStream) (s : State) : (setRx x r s).geo = s.geo := rfl
@[simp] theorem setRx_pair (x : Nat) (r : RxStream) (s : State) : (setRx x r s).pair = s.pair := rfl
@[simp] theorem setRx_cor (x : Nat) (r : RxStream) (s : State) : (setRx x r s).cor = s.cor := rfl
@[simp] theorem setRx_sch (x : Nat) (r : RxStream) (s : State) : (setRx x r s).sch = s.sch := rfl
@[simp] theorem setRx_fab (x : Nat) (r : RxStream) (s : State) : (setRx x r s).fab = s.fab := rfl
@[simp] theorem setRx_drc (x : Nat) (r : RxStream) (s : State) : (setRx x r s).drc = s.drc := rfl
@[simp] theorem setRx_keyed (x : Nat) (r : RxStream) (s : State) : (setRx x r s).keyed = s.keyed := rfl
@[simp] theorem setRx_keySeq (x : Nat) (r : RxStream) (s : State) : (setRx x r s).keySeq = s.keySeq := rfl
@[simp] theorem setRx_lau (x : Nat) (r : RxStream) (s : State) : (setRx x r s).lau = s.lau := rfl

/-! ### setTx -/

@[simp] theorem setTx_pending (x : Nat) (t : TxStream) (s : State) : (setTx x t s).pending = s.pending := rfl
@[simp] theorem setTx_regs (x : Nat) (t : TxStream) (s : State) : (setTx x t s).regs = s.regs := rfl
@[simp] theorem setTx_latches (x : Nat) (t : TxStream) (s : State) : (setTx x t s).latches = s.latches := rfl
@[simp] theorem setTx_rdata (x : Nat) (t : TxStream) (s : State) : (setTx x t s).rdata = s.rdata := rfl
@[simp] theorem setTx_outcomes (x : Nat) (t : TxStream) (s : State) : (setTx x t s).outcomes = s.outcomes := rfl
@[simp] theorem setTx_outs (x : Nat) (t : TxStream) (s : State) : (setTx x t s).outs = s.outs := rfl
@[simp] theorem setTx_hostMem (x : Nat) (t : TxStream) (s : State) : (setTx x t s).hostMem = s.hostMem := rfl
@[simp] theorem setTx_dueWrites (x : Nat) (t : TxStream) (s : State) : (setTx x t s).dueWrites = s.dueWrites := rfl
@[simp] theorem setTx_freeCtr (x : Nat) (t : TxStream) (s : State) : (setTx x t s).freeCtr = s.freeCtr := rfl
@[simp] theorem setTx_hif (x : Nat) (t : TxStream) (s : State) : (setTx x t s).hif = s.hif := rfl
@[simp] theorem setTx_stw (x : Nat) (t : TxStream) (s : State) : (setTx x t s).stw = s.stw := rfl
@[simp] theorem setTx_irq (x : Nat) (t : TxStream) (s : State) : (setTx x t s).irq = s.irq := rfl
@[simp] theorem setTx_mtx (x : Nat) (t : TxStream) (s : State) : (setTx x t s).mtx = s.mtx := rfl
@[simp] theorem setTx_lgr (x : Nat) (t : TxStream) (s : State) : (setTx x t s).lgr = s.lgr := rfl
@[simp] theorem setTx_aon (x : Nat) (t : TxStream) (s : State) : (setTx x t s).aon = s.aon := rfl
@[simp] theorem setTx_clk (x : Nat) (t : TxStream) (s : State) : (setTx x t s).clk = s.clk := rfl
@[simp] theorem setTx_ptp (x : Nat) (t : TxStream) (s : State) : (setTx x t s).ptp = s.ptp := rfl
@[simp] theorem setTx_dpx (x : Nat) (t : TxStream) (s : State) : (setTx x t s).dpx = s.dpx := rfl
@[simp] theorem setTx_obj (x : Nat) (t : TxStream) (s : State) : (setTx x t s).obj = s.obj := rfl
@[simp] theorem setTx_prefilter (x : Nat) (t : TxStream) (s : State) : (setTx x t s).prefilter = s.prefilter := rfl
@[simp] theorem setTx_segUid (x : Nat) (t : TxStream) (s : State) : (setTx x t s).segUid = s.segUid := rfl
@[simp] theorem setTx_alignSet (x : Nat) (t : TxStream) (s : State) : (setTx x t s).alignSet = s.alignSet := rfl
@[simp] theorem setTx_geo (x : Nat) (t : TxStream) (s : State) : (setTx x t s).geo = s.geo := rfl
@[simp] theorem setTx_pair (x : Nat) (t : TxStream) (s : State) : (setTx x t s).pair = s.pair := rfl
@[simp] theorem setTx_cor (x : Nat) (t : TxStream) (s : State) : (setTx x t s).cor = s.cor := rfl
@[simp] theorem setTx_sch (x : Nat) (t : TxStream) (s : State) : (setTx x t s).sch = s.sch := rfl
@[simp] theorem setTx_fab (x : Nat) (t : TxStream) (s : State) : (setTx x t s).fab = s.fab := rfl
@[simp] theorem setTx_drc (x : Nat) (t : TxStream) (s : State) : (setTx x t s).drc = s.drc := rfl
@[simp] theorem setTx_keyed (x : Nat) (t : TxStream) (s : State) : (setTx x t s).keyed = s.keyed := rfl
@[simp] theorem setTx_keySeq (x : Nat) (t : TxStream) (s : State) : (setTx x t s).keySeq = s.keySeq := rfl
@[simp] theorem setTx_lau (x : Nat) (t : TxStream) (s : State) : (setTx x t s).lau = s.lau := rfl

/-! ### setSap -/

@[simp] theorem setSap_pending (p : Nat) (x : SapPort) (s : State) : (setSap p x s).pending = s.pending := rfl
@[simp] theorem setSap_regs (p : Nat) (x : SapPort) (s : State) : (setSap p x s).regs = s.regs := rfl
@[simp] theorem setSap_latches (p : Nat) (x : SapPort) (s : State) : (setSap p x s).latches = s.latches := rfl
@[simp] theorem setSap_rdata (p : Nat) (x : SapPort) (s : State) : (setSap p x s).rdata = s.rdata := rfl
@[simp] theorem setSap_outcomes (p : Nat) (x : SapPort) (s : State) : (setSap p x s).outcomes = s.outcomes := rfl
@[simp] theorem setSap_outs (p : Nat) (x : SapPort) (s : State) : (setSap p x s).outs = s.outs := rfl
@[simp] theorem setSap_hostMem (p : Nat) (x : SapPort) (s : State) : (setSap p x s).hostMem = s.hostMem := rfl
@[simp] theorem setSap_dueWrites (p : Nat) (x : SapPort) (s : State) : (setSap p x s).dueWrites = s.dueWrites := rfl
@[simp] theorem setSap_freeCtr (p : Nat) (x : SapPort) (s : State) : (setSap p x s).freeCtr = s.freeCtr := rfl
@[simp] theorem setSap_hif (p : Nat) (x : SapPort) (s : State) : (setSap p x s).hif = s.hif := rfl
@[simp] theorem setSap_stw (p : Nat) (x : SapPort) (s : State) : (setSap p x s).stw = s.stw := rfl
@[simp] theorem setSap_irq (p : Nat) (x : SapPort) (s : State) : (setSap p x s).irq = s.irq := rfl
@[simp] theorem setSap_mtx (p : Nat) (x : SapPort) (s : State) : (setSap p x s).mtx = s.mtx := rfl
@[simp] theorem setSap_lgr (p : Nat) (x : SapPort) (s : State) : (setSap p x s).lgr = s.lgr := rfl
@[simp] theorem setSap_aon (p : Nat) (x : SapPort) (s : State) : (setSap p x s).aon = s.aon := rfl
@[simp] theorem setSap_clk (p : Nat) (x : SapPort) (s : State) : (setSap p x s).clk = s.clk := rfl
@[simp] theorem setSap_ptp (p : Nat) (x : SapPort) (s : State) : (setSap p x s).ptp = s.ptp := rfl
@[simp] theorem setSap_mp (p : Nat) (x : SapPort) (s : State) : (setSap p x s).mp = s.mp := rfl
@[simp] theorem setSap_dpx (p : Nat) (x : SapPort) (s : State) : (setSap p x s).dpx = s.dpx := rfl
@[simp] theorem setSap_obj (p : Nat) (x : SapPort) (s : State) : (setSap p x s).obj = s.obj := rfl
@[simp] theorem setSap_prefilter (p : Nat) (x : SapPort) (s : State) : (setSap p x s).prefilter = s.prefilter := rfl
@[simp] theorem setSap_segUid (p : Nat) (x : SapPort) (s : State) : (setSap p x s).segUid = s.segUid := rfl
@[simp] theorem setSap_alignSet (p : Nat) (x : SapPort) (s : State) : (setSap p x s).alignSet = s.alignSet := rfl
@[simp] theorem setSap_geo (p : Nat) (x : SapPort) (s : State) : (setSap p x s).geo = s.geo := rfl
@[simp] theorem setSap_pair (p : Nat) (x : SapPort) (s : State) : (setSap p x s).pair = s.pair := rfl
@[simp] theorem setSap_cor (p : Nat) (x : SapPort) (s : State) : (setSap p x s).cor = s.cor := rfl
@[simp] theorem setSap_sch (p : Nat) (x : SapPort) (s : State) : (setSap p x s).sch = s.sch := rfl
@[simp] theorem setSap_fab (p : Nat) (x : SapPort) (s : State) : (setSap p x s).fab = s.fab := rfl
@[simp] theorem setSap_drc (p : Nat) (x : SapPort) (s : State) : (setSap p x s).drc = s.drc := rfl
@[simp] theorem setSap_keyed (p : Nat) (x : SapPort) (s : State) : (setSap p x s).keyed = s.keyed := rfl
@[simp] theorem setSap_keySeq (p : Nat) (x : SapPort) (s : State) : (setSap p x s).keySeq = s.keySeq := rfl

/-! ### setBus -/

@[simp] theorem setBus_pending (b : Nat) (x : Bus) (s : State) : (setBus b x s).pending = s.pending := rfl
@[simp] theorem setBus_regs (b : Nat) (x : Bus) (s : State) : (setBus b x s).regs = s.regs := rfl
@[simp] theorem setBus_latches (b : Nat) (x : Bus) (s : State) : (setBus b x s).latches = s.latches := rfl
@[simp] theorem setBus_rdata (b : Nat) (x : Bus) (s : State) : (setBus b x s).rdata = s.rdata := rfl
@[simp] theorem setBus_outcomes (b : Nat) (x : Bus) (s : State) : (setBus b x s).outcomes = s.outcomes := rfl
@[simp] theorem setBus_outs (b : Nat) (x : Bus) (s : State) : (setBus b x s).outs = s.outs := rfl
@[simp] theorem setBus_hostMem (b : Nat) (x : Bus) (s : State) : (setBus b x s).hostMem = s.hostMem := rfl
@[simp] theorem setBus_dueWrites (b : Nat) (x : Bus) (s : State) : (setBus b x s).dueWrites = s.dueWrites := rfl
@[simp] theorem setBus_freeCtr (b : Nat) (x : Bus) (s : State) : (setBus b x s).freeCtr = s.freeCtr := rfl
@[simp] theorem setBus_hif (b : Nat) (x : Bus) (s : State) : (setBus b x s).hif = s.hif := rfl
@[simp] theorem setBus_stw (b : Nat) (x : Bus) (s : State) : (setBus b x s).stw = s.stw := rfl
@[simp] theorem setBus_irq (b : Nat) (x : Bus) (s : State) : (setBus b x s).irq = s.irq := rfl
@[simp] theorem setBus_mtx (b : Nat) (x : Bus) (s : State) : (setBus b x s).mtx = s.mtx := rfl
@[simp] theorem setBus_lgr (b : Nat) (x : Bus) (s : State) : (setBus b x s).lgr = s.lgr := rfl
@[simp] theorem setBus_aon (b : Nat) (x : Bus) (s : State) : (setBus b x s).aon = s.aon := rfl
@[simp] theorem setBus_clk (b : Nat) (x : Bus) (s : State) : (setBus b x s).clk = s.clk := rfl
@[simp] theorem setBus_ptp (b : Nat) (x : Bus) (s : State) : (setBus b x s).ptp = s.ptp := rfl
@[simp] theorem setBus_mp (b : Nat) (x : Bus) (s : State) : (setBus b x s).mp = s.mp := rfl
@[simp] theorem setBus_dpx (b : Nat) (x : Bus) (s : State) : (setBus b x s).dpx = s.dpx := rfl
@[simp] theorem setBus_obj (b : Nat) (x : Bus) (s : State) : (setBus b x s).obj = s.obj := rfl
@[simp] theorem setBus_prefilter (b : Nat) (x : Bus) (s : State) : (setBus b x s).prefilter = s.prefilter := rfl
@[simp] theorem setBus_segUid (b : Nat) (x : Bus) (s : State) : (setBus b x s).segUid = s.segUid := rfl
@[simp] theorem setBus_alignSet (b : Nat) (x : Bus) (s : State) : (setBus b x s).alignSet = s.alignSet := rfl
@[simp] theorem setBus_geo (b : Nat) (x : Bus) (s : State) : (setBus b x s).geo = s.geo := rfl
@[simp] theorem setBus_pair (b : Nat) (x : Bus) (s : State) : (setBus b x s).pair = s.pair := rfl
@[simp] theorem setBus_cor (b : Nat) (x : Bus) (s : State) : (setBus b x s).cor = s.cor := rfl
@[simp] theorem setBus_sch (b : Nat) (x : Bus) (s : State) : (setBus b x s).sch = s.sch := rfl
@[simp] theorem setBus_fab (b : Nat) (x : Bus) (s : State) : (setBus b x s).fab = s.fab := rfl
@[simp] theorem setBus_drc (b : Nat) (x : Bus) (s : State) : (setBus b x s).drc = s.drc := rfl
@[simp] theorem setBus_keyed (b : Nat) (x : Bus) (s : State) : (setBus b x s).keyed = s.keyed := rfl
@[simp] theorem setBus_keySeq (b : Nat) (x : Bus) (s : State) : (setBus b x s).keySeq = s.keySeq := rfl

/-! ### setMon -/

@[simp] theorem setMon_pending (s : State) (k : Nat) (m : Mon) : (setMon s k m).pending = s.pending := rfl
@[simp] theorem setMon_regs (s : State) (k : Nat) (m : Mon) : (setMon s k m).regs = s.regs := rfl
@[simp] theorem setMon_latches (s : State) (k : Nat) (m : Mon) : (setMon s k m).latches = s.latches := rfl
@[simp] theorem setMon_rdata (s : State) (k : Nat) (m : Mon) : (setMon s k m).rdata = s.rdata := rfl
@[simp] theorem setMon_outcomes (s : State) (k : Nat) (m : Mon) : (setMon s k m).outcomes = s.outcomes := rfl
@[simp] theorem setMon_outs (s : State) (k : Nat) (m : Mon) : (setMon s k m).outs = s.outs := rfl
@[simp] theorem setMon_hostMem (s : State) (k : Nat) (m : Mon) : (setMon s k m).hostMem = s.hostMem := rfl
@[simp] theorem setMon_dueWrites (s : State) (k : Nat) (m : Mon) : (setMon s k m).dueWrites = s.dueWrites := rfl
@[simp] theorem setMon_freeCtr (s : State) (k : Nat) (m : Mon) : (setMon s k m).freeCtr = s.freeCtr := rfl
@[simp] theorem setMon_hif (s : State) (k : Nat) (m : Mon) : (setMon s k m).hif = s.hif := rfl
@[simp] theorem setMon_stw (s : State) (k : Nat) (m : Mon) : (setMon s k m).stw = s.stw := rfl
@[simp] theorem setMon_irq (s : State) (k : Nat) (m : Mon) : (setMon s k m).irq = s.irq := rfl
@[simp] theorem setMon_mtx (s : State) (k : Nat) (m : Mon) : (setMon s k m).mtx = s.mtx := rfl
@[simp] theorem setMon_lgr (s : State) (k : Nat) (m : Mon) : (setMon s k m).lgr = s.lgr := rfl
@[simp] theorem setMon_aon (s : State) (k : Nat) (m : Mon) : (setMon s k m).aon = s.aon := rfl
@[simp] theorem setMon_clk (s : State) (k : Nat) (m : Mon) : (setMon s k m).clk = s.clk := rfl
@[simp] theorem setMon_ptp (s : State) (k : Nat) (m : Mon) : (setMon s k m).ptp = s.ptp := rfl
@[simp] theorem setMon_mp (s : State) (k : Nat) (m : Mon) : (setMon s k m).mp = s.mp := rfl
@[simp] theorem setMon_dpx (s : State) (k : Nat) (m : Mon) : (setMon s k m).dpx = s.dpx := rfl
@[simp] theorem setMon_obj (s : State) (k : Nat) (m : Mon) : (setMon s k m).obj = s.obj := rfl
@[simp] theorem setMon_prefilter (s : State) (k : Nat) (m : Mon) : (setMon s k m).prefilter = s.prefilter := rfl
@[simp] theorem setMon_segUid (s : State) (k : Nat) (m : Mon) : (setMon s k m).segUid = s.segUid := rfl
@[simp] theorem setMon_alignSet (s : State) (k : Nat) (m : Mon) : (setMon s k m).alignSet = s.alignSet := rfl
@[simp] theorem setMon_geo (s : State) (k : Nat) (m : Mon) : (setMon s k m).geo = s.geo := rfl
@[simp] theorem setMon_pair (s : State) (k : Nat) (m : Mon) : (setMon s k m).pair = s.pair := rfl
@[simp] theorem setMon_cor (s : State) (k : Nat) (m : Mon) : (setMon s k m).cor = s.cor := rfl
@[simp] theorem setMon_sch (s : State) (k : Nat) (m : Mon) : (setMon s k m).sch = s.sch := rfl
@[simp] theorem setMon_fab (s : State) (k : Nat) (m : Mon) : (setMon s k m).fab = s.fab := rfl
@[simp] theorem setMon_drc (s : State) (k : Nat) (m : Mon) : (setMon s k m).drc = s.drc := rfl
@[simp] theorem setMon_keyed (s : State) (k : Nat) (m : Mon) : (setMon s k m).keyed = s.keyed := rfl
@[simp] theorem setMon_keySeq (s : State) (k : Nat) (m : Mon) : (setMon s k m).keySeq = s.keySeq := rfl

/-! ### setCore -/

@[simp] theorem setCore_pending (s : State) (n : Nat) (c : CoreSt) : (setCore s n c).pending = s.pending := rfl
@[simp] theorem setCore_regs (s : State) (n : Nat) (c : CoreSt) : (setCore s n c).regs = s.regs := rfl
@[simp] theorem setCore_latches (s : State) (n : Nat) (c : CoreSt) : (setCore s n c).latches = s.latches := rfl
@[simp] theorem setCore_rdata (s : State) (n : Nat) (c : CoreSt) : (setCore s n c).rdata = s.rdata := rfl
@[simp] theorem setCore_outcomes (s : State) (n : Nat) (c : CoreSt) : (setCore s n c).outcomes = s.outcomes := rfl
@[simp] theorem setCore_outs (s : State) (n : Nat) (c : CoreSt) : (setCore s n c).outs = s.outs := rfl
@[simp] theorem setCore_hostMem (s : State) (n : Nat) (c : CoreSt) : (setCore s n c).hostMem = s.hostMem := rfl
@[simp] theorem setCore_dueWrites (s : State) (n : Nat) (c : CoreSt) : (setCore s n c).dueWrites = s.dueWrites := rfl
@[simp] theorem setCore_freeCtr (s : State) (n : Nat) (c : CoreSt) : (setCore s n c).freeCtr = s.freeCtr := rfl
@[simp] theorem setCore_hif (s : State) (n : Nat) (c : CoreSt) : (setCore s n c).hif = s.hif := rfl
@[simp] theorem setCore_irq (s : State) (n : Nat) (c : CoreSt) : (setCore s n c).irq = s.irq := rfl
@[simp] theorem setCore_mtx (s : State) (n : Nat) (c : CoreSt) : (setCore s n c).mtx = s.mtx := rfl
@[simp] theorem setCore_lgr (s : State) (n : Nat) (c : CoreSt) : (setCore s n c).lgr = s.lgr := rfl
@[simp] theorem setCore_aon (s : State) (n : Nat) (c : CoreSt) : (setCore s n c).aon = s.aon := rfl
@[simp] theorem setCore_clk (s : State) (n : Nat) (c : CoreSt) : (setCore s n c).clk = s.clk := rfl
@[simp] theorem setCore_ptp (s : State) (n : Nat) (c : CoreSt) : (setCore s n c).ptp = s.ptp := rfl
@[simp] theorem setCore_mp (s : State) (n : Nat) (c : CoreSt) : (setCore s n c).mp = s.mp := rfl
@[simp] theorem setCore_dpx (s : State) (n : Nat) (c : CoreSt) : (setCore s n c).dpx = s.dpx := rfl
@[simp] theorem setCore_obj (s : State) (n : Nat) (c : CoreSt) : (setCore s n c).obj = s.obj := rfl
@[simp] theorem setCore_prefilter (s : State) (n : Nat) (c : CoreSt) : (setCore s n c).prefilter = s.prefilter := rfl
@[simp] theorem setCore_segUid (s : State) (n : Nat) (c : CoreSt) : (setCore s n c).segUid = s.segUid := rfl
@[simp] theorem setCore_alignSet (s : State) (n : Nat) (c : CoreSt) : (setCore s n c).alignSet = s.alignSet := rfl
@[simp] theorem setCore_geo (s : State) (n : Nat) (c : CoreSt) : (setCore s n c).geo = s.geo := rfl
@[simp] theorem setCore_pair (s : State) (n : Nat) (c : CoreSt) : (setCore s n c).pair = s.pair := rfl
@[simp] theorem setCore_cor (s : State) (n : Nat) (c : CoreSt) : (setCore s n c).cor = s.cor := rfl
@[simp] theorem setCore_sch (s : State) (n : Nat) (c : CoreSt) : (setCore s n c).sch = s.sch := rfl
@[simp] theorem setCore_fab (s : State) (n : Nat) (c : CoreSt) : (setCore s n c).fab = s.fab := rfl
@[simp] theorem setCore_drc (s : State) (n : Nat) (c : CoreSt) : (setCore s n c).drc = s.drc := rfl
@[simp] theorem setCore_keyed (s : State) (n : Nat) (c : CoreSt) : (setCore s n c).keyed = s.keyed := rfl
@[simp] theorem setCore_keySeq (s : State) (n : Nat) (c : CoreSt) : (setCore s n c).keySeq = s.keySeq := rfl
@[simp] theorem setCore_lau (s : State) (n : Nat) (c : CoreSt) : (setCore s n c).lau = s.lau := rfl

/-! ### setSq -/

@[simp] theorem setSq_pending (s : State) (n : Nat) (r : SqRing) : (setSq s n r).pending = s.pending := rfl
@[simp] theorem setSq_regs (s : State) (n : Nat) (r : SqRing) : (setSq s n r).regs = s.regs := rfl
@[simp] theorem setSq_latches (s : State) (n : Nat) (r : SqRing) : (setSq s n r).latches = s.latches := rfl
@[simp] theorem setSq_rdata (s : State) (n : Nat) (r : SqRing) : (setSq s n r).rdata = s.rdata := rfl
@[simp] theorem setSq_outcomes (s : State) (n : Nat) (r : SqRing) : (setSq s n r).outcomes = s.outcomes := rfl
@[simp] theorem setSq_outs (s : State) (n : Nat) (r : SqRing) : (setSq s n r).outs = s.outs := rfl
@[simp] theorem setSq_hostMem (s : State) (n : Nat) (r : SqRing) : (setSq s n r).hostMem = s.hostMem := rfl
@[simp] theorem setSq_dueWrites (s : State) (n : Nat) (r : SqRing) : (setSq s n r).dueWrites = s.dueWrites := rfl
@[simp] theorem setSq_freeCtr (s : State) (n : Nat) (r : SqRing) : (setSq s n r).freeCtr = s.freeCtr := rfl
@[simp] theorem setSq_stw (s : State) (n : Nat) (r : SqRing) : (setSq s n r).stw = s.stw := rfl
@[simp] theorem setSq_irq (s : State) (n : Nat) (r : SqRing) : (setSq s n r).irq = s.irq := rfl
@[simp] theorem setSq_mtx (s : State) (n : Nat) (r : SqRing) : (setSq s n r).mtx = s.mtx := rfl
@[simp] theorem setSq_lgr (s : State) (n : Nat) (r : SqRing) : (setSq s n r).lgr = s.lgr := rfl
@[simp] theorem setSq_aon (s : State) (n : Nat) (r : SqRing) : (setSq s n r).aon = s.aon := rfl
@[simp] theorem setSq_clk (s : State) (n : Nat) (r : SqRing) : (setSq s n r).clk = s.clk := rfl
@[simp] theorem setSq_ptp (s : State) (n : Nat) (r : SqRing) : (setSq s n r).ptp = s.ptp := rfl
@[simp] theorem setSq_mp (s : State) (n : Nat) (r : SqRing) : (setSq s n r).mp = s.mp := rfl
@[simp] theorem setSq_dpx (s : State) (n : Nat) (r : SqRing) : (setSq s n r).dpx = s.dpx := rfl
@[simp] theorem setSq_obj (s : State) (n : Nat) (r : SqRing) : (setSq s n r).obj = s.obj := rfl
@[simp] theorem setSq_prefilter (s : State) (n : Nat) (r : SqRing) : (setSq s n r).prefilter = s.prefilter := rfl
@[simp] theorem setSq_segUid (s : State) (n : Nat) (r : SqRing) : (setSq s n r).segUid = s.segUid := rfl
@[simp] theorem setSq_alignSet (s : State) (n : Nat) (r : SqRing) : (setSq s n r).alignSet = s.alignSet := rfl
@[simp] theorem setSq_geo (s : State) (n : Nat) (r : SqRing) : (setSq s n r).geo = s.geo := rfl
@[simp] theorem setSq_pair (s : State) (n : Nat) (r : SqRing) : (setSq s n r).pair = s.pair := rfl
@[simp] theorem setSq_cor (s : State) (n : Nat) (r : SqRing) : (setSq s n r).cor = s.cor := rfl
@[simp] theorem setSq_sch (s : State) (n : Nat) (r : SqRing) : (setSq s n r).sch = s.sch := rfl
@[simp] theorem setSq_fab (s : State) (n : Nat) (r : SqRing) : (setSq s n r).fab = s.fab := rfl
@[simp] theorem setSq_drc (s : State) (n : Nat) (r : SqRing) : (setSq s n r).drc = s.drc := rfl
@[simp] theorem setSq_keyed (s : State) (n : Nat) (r : SqRing) : (setSq s n r).keyed = s.keyed := rfl
@[simp] theorem setSq_keySeq (s : State) (n : Nat) (r : SqRing) : (setSq s n r).keySeq = s.keySeq := rfl
@[simp] theorem setSq_lau (s : State) (n : Nat) (r : SqRing) : (setSq s n r).lau = s.lau := rfl

/-! ### setCq -/

@[simp] theorem setCq_pending (s : State) (n : Nat) (r : CqRing) : (setCq s n r).pending = s.pending := rfl
@[simp] theorem setCq_regs (s : State) (n : Nat) (r : CqRing) : (setCq s n r).regs = s.regs := rfl
@[simp] theorem setCq_latches (s : State) (n : Nat) (r : CqRing) : (setCq s n r).latches = s.latches := rfl
@[simp] theorem setCq_rdata (s : State) (n : Nat) (r : CqRing) : (setCq s n r).rdata = s.rdata := rfl
@[simp] theorem setCq_outcomes (s : State) (n : Nat) (r : CqRing) : (setCq s n r).outcomes = s.outcomes := rfl
@[simp] theorem setCq_outs (s : State) (n : Nat) (r : CqRing) : (setCq s n r).outs = s.outs := rfl
@[simp] theorem setCq_hostMem (s : State) (n : Nat) (r : CqRing) : (setCq s n r).hostMem = s.hostMem := rfl
@[simp] theorem setCq_dueWrites (s : State) (n : Nat) (r : CqRing) : (setCq s n r).dueWrites = s.dueWrites := rfl
@[simp] theorem setCq_freeCtr (s : State) (n : Nat) (r : CqRing) : (setCq s n r).freeCtr = s.freeCtr := rfl
@[simp] theorem setCq_stw (s : State) (n : Nat) (r : CqRing) : (setCq s n r).stw = s.stw := rfl
@[simp] theorem setCq_irq (s : State) (n : Nat) (r : CqRing) : (setCq s n r).irq = s.irq := rfl
@[simp] theorem setCq_mtx (s : State) (n : Nat) (r : CqRing) : (setCq s n r).mtx = s.mtx := rfl
@[simp] theorem setCq_lgr (s : State) (n : Nat) (r : CqRing) : (setCq s n r).lgr = s.lgr := rfl
@[simp] theorem setCq_aon (s : State) (n : Nat) (r : CqRing) : (setCq s n r).aon = s.aon := rfl
@[simp] theorem setCq_clk (s : State) (n : Nat) (r : CqRing) : (setCq s n r).clk = s.clk := rfl
@[simp] theorem setCq_ptp (s : State) (n : Nat) (r : CqRing) : (setCq s n r).ptp = s.ptp := rfl
@[simp] theorem setCq_mp (s : State) (n : Nat) (r : CqRing) : (setCq s n r).mp = s.mp := rfl
@[simp] theorem setCq_dpx (s : State) (n : Nat) (r : CqRing) : (setCq s n r).dpx = s.dpx := rfl
@[simp] theorem setCq_obj (s : State) (n : Nat) (r : CqRing) : (setCq s n r).obj = s.obj := rfl
@[simp] theorem setCq_prefilter (s : State) (n : Nat) (r : CqRing) : (setCq s n r).prefilter = s.prefilter := rfl
@[simp] theorem setCq_segUid (s : State) (n : Nat) (r : CqRing) : (setCq s n r).segUid = s.segUid := rfl
@[simp] theorem setCq_alignSet (s : State) (n : Nat) (r : CqRing) : (setCq s n r).alignSet = s.alignSet := rfl
@[simp] theorem setCq_geo (s : State) (n : Nat) (r : CqRing) : (setCq s n r).geo = s.geo := rfl
@[simp] theorem setCq_pair (s : State) (n : Nat) (r : CqRing) : (setCq s n r).pair = s.pair := rfl
@[simp] theorem setCq_cor (s : State) (n : Nat) (r : CqRing) : (setCq s n r).cor = s.cor := rfl
@[simp] theorem setCq_sch (s : State) (n : Nat) (r : CqRing) : (setCq s n r).sch = s.sch := rfl
@[simp] theorem setCq_fab (s : State) (n : Nat) (r : CqRing) : (setCq s n r).fab = s.fab := rfl
@[simp] theorem setCq_drc (s : State) (n : Nat) (r : CqRing) : (setCq s n r).drc = s.drc := rfl
@[simp] theorem setCq_keyed (s : State) (n : Nat) (r : CqRing) : (setCq s n r).keyed = s.keyed := rfl
@[simp] theorem setCq_keySeq (s : State) (n : Nat) (r : CqRing) : (setCq s n r).keySeq = s.keySeq := rfl
@[simp] theorem setCq_lau (s : State) (n : Nat) (r : CqRing) : (setCq s n r).lau = s.lau := rfl

/-! ### armKeyed -/

@[simp] theorem armKeyed_pending (n : Nat) (tok : Option Nat) (a : KeyedAct) (s : State) : (armKeyed n tok a s).pending = s.pending := rfl
@[simp] theorem armKeyed_regs (n : Nat) (tok : Option Nat) (a : KeyedAct) (s : State) : (armKeyed n tok a s).regs = s.regs := rfl
@[simp] theorem armKeyed_latches (n : Nat) (tok : Option Nat) (a : KeyedAct) (s : State) : (armKeyed n tok a s).latches = s.latches := rfl
@[simp] theorem armKeyed_rdata (n : Nat) (tok : Option Nat) (a : KeyedAct) (s : State) : (armKeyed n tok a s).rdata = s.rdata := rfl
@[simp] theorem armKeyed_outcomes (n : Nat) (tok : Option Nat) (a : KeyedAct) (s : State) : (armKeyed n tok a s).outcomes = s.outcomes := rfl
@[simp] theorem armKeyed_outs (n : Nat) (tok : Option Nat) (a : KeyedAct) (s : State) : (armKeyed n tok a s).outs = s.outs := rfl
@[simp] theorem armKeyed_hostMem (n : Nat) (tok : Option Nat) (a : KeyedAct) (s : State) : (armKeyed n tok a s).hostMem = s.hostMem := rfl
@[simp] theorem armKeyed_dueWrites (n : Nat) (tok : Option Nat) (a : KeyedAct) (s : State) : (armKeyed n tok a s).dueWrites = s.dueWrites := rfl
@[simp] theorem armKeyed_freeCtr (n : Nat) (tok : Option Nat) (a : KeyedAct) (s : State) : (armKeyed n tok a s).freeCtr = s.freeCtr := rfl
@[simp] theorem armKeyed_hif (n : Nat) (tok : Option Nat) (a : KeyedAct) (s : State) : (armKeyed n tok a s).hif = s.hif := rfl
@[simp] theorem armKeyed_stw (n : Nat) (tok : Option Nat) (a : KeyedAct) (s : State) : (armKeyed n tok a s).stw = s.stw := rfl
@[simp] theorem armKeyed_irq (n : Nat) (tok : Option Nat) (a : KeyedAct) (s : State) : (armKeyed n tok a s).irq = s.irq := rfl
@[simp] theorem armKeyed_mtx (n : Nat) (tok : Option Nat) (a : KeyedAct) (s : State) : (armKeyed n tok a s).mtx = s.mtx := rfl
@[simp] theorem armKeyed_lgr (n : Nat) (tok : Option Nat) (a : KeyedAct) (s : State) : (armKeyed n tok a s).lgr = s.lgr := rfl
@[simp] theorem armKeyed_aon (n : Nat) (tok : Option Nat) (a : KeyedAct) (s : State) : (armKeyed n tok a s).aon = s.aon := rfl
@[simp] theorem armKeyed_clk (n : Nat) (tok : Option Nat) (a : KeyedAct) (s : State) : (armKeyed n tok a s).clk = s.clk := rfl
@[simp] theorem armKeyed_ptp (n : Nat) (tok : Option Nat) (a : KeyedAct) (s : State) : (armKeyed n tok a s).ptp = s.ptp := rfl
@[simp] theorem armKeyed_mp (n : Nat) (tok : Option Nat) (a : KeyedAct) (s : State) : (armKeyed n tok a s).mp = s.mp := rfl
@[simp] theorem armKeyed_dpx (n : Nat) (tok : Option Nat) (a : KeyedAct) (s : State) : (armKeyed n tok a s).dpx = s.dpx := rfl
@[simp] theorem armKeyed_obj (n : Nat) (tok : Option Nat) (a : KeyedAct) (s : State) : (armKeyed n tok a s).obj = s.obj := rfl
@[simp] theorem armKeyed_prefilter (n : Nat) (tok : Option Nat) (a : KeyedAct) (s : State) : (armKeyed n tok a s).prefilter = s.prefilter := rfl
@[simp] theorem armKeyed_segUid (n : Nat) (tok : Option Nat) (a : KeyedAct) (s : State) : (armKeyed n tok a s).segUid = s.segUid := rfl
@[simp] theorem armKeyed_alignSet (n : Nat) (tok : Option Nat) (a : KeyedAct) (s : State) : (armKeyed n tok a s).alignSet = s.alignSet := rfl
@[simp] theorem armKeyed_geo (n : Nat) (tok : Option Nat) (a : KeyedAct) (s : State) : (armKeyed n tok a s).geo = s.geo := rfl
@[simp] theorem armKeyed_pair (n : Nat) (tok : Option Nat) (a : KeyedAct) (s : State) : (armKeyed n tok a s).pair = s.pair := rfl
@[simp] theorem armKeyed_cor (n : Nat) (tok : Option Nat) (a : KeyedAct) (s : State) : (armKeyed n tok a s).cor = s.cor := rfl
@[simp] theorem armKeyed_sch (n : Nat) (tok : Option Nat) (a : KeyedAct) (s : State) : (armKeyed n tok a s).sch = s.sch := rfl
@[simp] theorem armKeyed_fab (n : Nat) (tok : Option Nat) (a : KeyedAct) (s : State) : (armKeyed n tok a s).fab = s.fab := rfl
@[simp] theorem armKeyed_drc (n : Nat) (tok : Option Nat) (a : KeyedAct) (s : State) : (armKeyed n tok a s).drc = s.drc := rfl
@[simp] theorem armKeyed_lau (n : Nat) (tok : Option Nat) (a : KeyedAct) (s : State) : (armKeyed n tok a s).lau = s.lau := rfl
@[simp] theorem armKeyed_keyed (n : Nat) (tok : Option Nat) (a : KeyedAct) (s : State) :
    (armKeyed n tok a s).keyed = s.keyed ++ [{ n := n, tok := tok, seq := s.keySeq, act := a }] := rfl
@[simp] theorem armKeyed_keySeq (n : Nat) (tok : Option Nat) (a : KeyedAct) (s : State) : (armKeyed n tok a s).keySeq = s.keySeq + 1 := rfl

/-! ### evIf -/

@[simp] theorem evIf_pending (c : Bool) (a b : Nat) (s : State) : (evIf c a b s).pending = s.pending := by unfold evIf; split <;> rfl
@[simp] theorem evIf_latches (c : Bool) (a b : Nat) (s : State) : (evIf c a b s).latches = s.latches := by unfold evIf; split <;> rfl
@[simp] theorem evIf_rdata (c : Bool) (a b : Nat) (s : State) : (evIf c a b s).rdata = s.rdata := by unfold evIf; split <;> rfl
@[simp] theorem evIf_outcomes (c : Bool) (a b : Nat) (s : State) : (evIf c a b s).outcomes = s.outcomes := by unfold evIf; split <;> rfl
@[simp] theorem evIf_outs (c : Bool) (a b : Nat) (s : State) : (evIf c a b s).outs = s.outs := by unfold evIf; split <;> rfl
@[simp] theorem evIf_hostMem (c : Bool) (a b : Nat) (s : State) : (evIf c a b s).hostMem = s.hostMem := by unfold evIf; split <;> rfl
@[simp] theorem evIf_dueWrites (c : Bool) (a b : Nat) (s : State) : (evIf c a b s).dueWrites = s.dueWrites := by unfold evIf; split <;> rfl
@[simp] theorem evIf_freeCtr (c : Bool) (a b : Nat) (s : State) : (evIf c a b s).freeCtr = s.freeCtr := by unfold evIf; split <;> rfl
@[simp] theorem evIf_hif (c : Bool) (a b : Nat) (s : State) : (evIf c a b s).hif = s.hif := by unfold evIf; split <;> rfl
@[simp] theorem evIf_stw (c : Bool) (a b : Nat) (s : State) : (evIf c a b s).stw = s.stw := by unfold evIf; split <;> rfl
@[simp] theorem evIf_irq (c : Bool) (a b : Nat) (s : State) : (evIf c a b s).irq = s.irq := by unfold evIf; split <;> rfl
@[simp] theorem evIf_mtx (c : Bool) (a b : Nat) (s : State) : (evIf c a b s).mtx = s.mtx := by unfold evIf; split <;> rfl
@[simp] theorem evIf_lgr (c : Bool) (a b : Nat) (s : State) : (evIf c a b s).lgr = s.lgr := by unfold evIf; split <;> rfl
@[simp] theorem evIf_aon (c : Bool) (a b : Nat) (s : State) : (evIf c a b s).aon = s.aon := by unfold evIf; split <;> rfl
@[simp] theorem evIf_clk (c : Bool) (a b : Nat) (s : State) : (evIf c a b s).clk = s.clk := by unfold evIf; split <;> rfl
@[simp] theorem evIf_ptp (c : Bool) (a b : Nat) (s : State) : (evIf c a b s).ptp = s.ptp := by unfold evIf; split <;> rfl
@[simp] theorem evIf_mp (c : Bool) (a b : Nat) (s : State) : (evIf c a b s).mp = s.mp := by unfold evIf; split <;> rfl
@[simp] theorem evIf_dpx (c : Bool) (a b : Nat) (s : State) : (evIf c a b s).dpx = s.dpx := by unfold evIf; split <;> rfl
@[simp] theorem evIf_obj (c : Bool) (a b : Nat) (s : State) : (evIf c a b s).obj = s.obj := by unfold evIf; split <;> rfl
@[simp] theorem evIf_prefilter (c : Bool) (a b : Nat) (s : State) : (evIf c a b s).prefilter = s.prefilter := by unfold evIf; split <;> rfl
@[simp] theorem evIf_segUid (c : Bool) (a b : Nat) (s : State) : (evIf c a b s).segUid = s.segUid := by unfold evIf; split <;> rfl
@[simp] theorem evIf_alignSet (c : Bool) (a b : Nat) (s : State) : (evIf c a b s).alignSet = s.alignSet := by unfold evIf; split <;> rfl
@[simp] theorem evIf_geo (c : Bool) (a b : Nat) (s : State) : (evIf c a b s).geo = s.geo := by unfold evIf; split <;> rfl
@[simp] theorem evIf_pair (c : Bool) (a b : Nat) (s : State) : (evIf c a b s).pair = s.pair := by unfold evIf; split <;> rfl
@[simp] theorem evIf_cor (c : Bool) (a b : Nat) (s : State) : (evIf c a b s).cor = s.cor := by unfold evIf; split <;> rfl
@[simp] theorem evIf_sch (c : Bool) (a b : Nat) (s : State) : (evIf c a b s).sch = s.sch := by unfold evIf; split <;> rfl
@[simp] theorem evIf_fab (c : Bool) (a b : Nat) (s : State) : (evIf c a b s).fab = s.fab := by unfold evIf; split <;> rfl
@[simp] theorem evIf_drc (c : Bool) (a b : Nat) (s : State) : (evIf c a b s).drc = s.drc := by unfold evIf; split <;> rfl
@[simp] theorem evIf_keyed (c : Bool) (a b : Nat) (s : State) : (evIf c a b s).keyed = s.keyed := by unfold evIf; split <;> rfl
@[simp] theorem evIf_keySeq (c : Bool) (a b : Nat) (s : State) : (evIf c a b s).keySeq = s.keySeq := by unfold evIf; split <;> rfl
@[simp] theorem evIf_lau (c : Bool) (a b : Nat) (s : State) : (evIf c a b s).lau = s.lau := by unfold evIf; split <;> rfl

/-! ### ledgerBy -/

@[simp] theorem ledgerBy_pending (code sev : Nat) (host : Bool) (p1 p2 p3 : Nat) (s : State) : (ledgerBy code sev host p1 p2 p3 s).pending = s.pending := by simp [ledgerBy]
@[simp] theorem ledgerBy_latches (code sev : Nat) (host : Bool) (p1 p2 p3 : Nat) (s : State) : (ledgerBy code sev host p1 p2 p3 s).latches = s.latches := by simp [ledgerBy]
@[simp] theorem ledgerBy_rdata (code sev : Nat) (host : Bool) (p1 p2 p3 : Nat) (s : State) : (ledgerBy code sev host p1 p2 p3 s).rdata = s.rdata := by simp [ledgerBy]
@[simp] theorem ledgerBy_outcomes (code sev : Nat) (host : Bool) (p1 p2 p3 : Nat) (s : State) : (ledgerBy code sev host p1 p2 p3 s).outcomes = s.outcomes := by simp [ledgerBy]
@[simp] theorem ledgerBy_outs (code sev : Nat) (host : Bool) (p1 p2 p3 : Nat) (s : State) : (ledgerBy code sev host p1 p2 p3 s).outs = s.outs := by simp [ledgerBy]
@[simp] theorem ledgerBy_hostMem (code sev : Nat) (host : Bool) (p1 p2 p3 : Nat) (s : State) : (ledgerBy code sev host p1 p2 p3 s).hostMem = s.hostMem := by simp [ledgerBy]
@[simp] theorem ledgerBy_dueWrites (code sev : Nat) (host : Bool) (p1 p2 p3 : Nat) (s : State) : (ledgerBy code sev host p1 p2 p3 s).dueWrites = s.dueWrites := by simp [ledgerBy]
@[simp] theorem ledgerBy_freeCtr (code sev : Nat) (host : Bool) (p1 p2 p3 : Nat) (s : State) : (ledgerBy code sev host p1 p2 p3 s).freeCtr = s.freeCtr := by simp [ledgerBy]
@[simp] theorem ledgerBy_hif (code sev : Nat) (host : Bool) (p1 p2 p3 : Nat) (s : State) : (ledgerBy code sev host p1 p2 p3 s).hif = s.hif := by simp [ledgerBy]
@[simp] theorem ledgerBy_stw (code sev : Nat) (host : Bool) (p1 p2 p3 : Nat) (s : State) : (ledgerBy code sev host p1 p2 p3 s).stw = s.stw := by simp [ledgerBy]
@[simp] theorem ledgerBy_irq (code sev : Nat) (host : Bool) (p1 p2 p3 : Nat) (s : State) : (ledgerBy code sev host p1 p2 p3 s).irq = s.irq := by simp [ledgerBy]
@[simp] theorem ledgerBy_mtx (code sev : Nat) (host : Bool) (p1 p2 p3 : Nat) (s : State) : (ledgerBy code sev host p1 p2 p3 s).mtx = s.mtx := by simp [ledgerBy]
@[simp] theorem ledgerBy_aon (code sev : Nat) (host : Bool) (p1 p2 p3 : Nat) (s : State) : (ledgerBy code sev host p1 p2 p3 s).aon = s.aon := by simp [ledgerBy]
@[simp] theorem ledgerBy_clk (code sev : Nat) (host : Bool) (p1 p2 p3 : Nat) (s : State) : (ledgerBy code sev host p1 p2 p3 s).clk = s.clk := by simp [ledgerBy]
@[simp] theorem ledgerBy_ptp (code sev : Nat) (host : Bool) (p1 p2 p3 : Nat) (s : State) : (ledgerBy code sev host p1 p2 p3 s).ptp = s.ptp := by simp [ledgerBy]
@[simp] theorem ledgerBy_mp (code sev : Nat) (host : Bool) (p1 p2 p3 : Nat) (s : State) : (ledgerBy code sev host p1 p2 p3 s).mp = s.mp := by simp [ledgerBy]
@[simp] theorem ledgerBy_dpx (code sev : Nat) (host : Bool) (p1 p2 p3 : Nat) (s : State) : (ledgerBy code sev host p1 p2 p3 s).dpx = s.dpx := by simp [ledgerBy]
@[simp] theorem ledgerBy_obj (code sev : Nat) (host : Bool) (p1 p2 p3 : Nat) (s : State) : (ledgerBy code sev host p1 p2 p3 s).obj = s.obj := by simp [ledgerBy]
@[simp] theorem ledgerBy_prefilter (code sev : Nat) (host : Bool) (p1 p2 p3 : Nat) (s : State) : (ledgerBy code sev host p1 p2 p3 s).prefilter = s.prefilter := by simp [ledgerBy]
@[simp] theorem ledgerBy_segUid (code sev : Nat) (host : Bool) (p1 p2 p3 : Nat) (s : State) : (ledgerBy code sev host p1 p2 p3 s).segUid = s.segUid := by simp [ledgerBy]
@[simp] theorem ledgerBy_alignSet (code sev : Nat) (host : Bool) (p1 p2 p3 : Nat) (s : State) : (ledgerBy code sev host p1 p2 p3 s).alignSet = s.alignSet := by simp [ledgerBy]
@[simp] theorem ledgerBy_geo (code sev : Nat) (host : Bool) (p1 p2 p3 : Nat) (s : State) : (ledgerBy code sev host p1 p2 p3 s).geo = s.geo := by simp [ledgerBy]
@[simp] theorem ledgerBy_pair (code sev : Nat) (host : Bool) (p1 p2 p3 : Nat) (s : State) : (ledgerBy code sev host p1 p2 p3 s).pair = s.pair := by simp [ledgerBy]
@[simp] theorem ledgerBy_cor (code sev : Nat) (host : Bool) (p1 p2 p3 : Nat) (s : State) : (ledgerBy code sev host p1 p2 p3 s).cor = s.cor := by simp [ledgerBy]
@[simp] theorem ledgerBy_sch (code sev : Nat) (host : Bool) (p1 p2 p3 : Nat) (s : State) : (ledgerBy code sev host p1 p2 p3 s).sch = s.sch := by simp [ledgerBy]
@[simp] theorem ledgerBy_fab (code sev : Nat) (host : Bool) (p1 p2 p3 : Nat) (s : State) : (ledgerBy code sev host p1 p2 p3 s).fab = s.fab := by simp [ledgerBy]
@[simp] theorem ledgerBy_drc (code sev : Nat) (host : Bool) (p1 p2 p3 : Nat) (s : State) : (ledgerBy code sev host p1 p2 p3 s).drc = s.drc := by simp [ledgerBy]
@[simp] theorem ledgerBy_keyed (code sev : Nat) (host : Bool) (p1 p2 p3 : Nat) (s : State) : (ledgerBy code sev host p1 p2 p3 s).keyed = s.keyed := by simp [ledgerBy]
@[simp] theorem ledgerBy_keySeq (code sev : Nat) (host : Bool) (p1 p2 p3 : Nat) (s : State) : (ledgerBy code sev host p1 p2 p3 s).keySeq = s.keySeq := by simp [ledgerBy]
@[simp] theorem ledgerBy_lau (code sev : Nat) (host : Bool) (p1 p2 p3 : Nat) (s : State) : (ledgerBy code sev host p1 p2 p3 s).lau = s.lau := by simp [ledgerBy]

/-! ### ledger -/

@[simp] theorem ledger_pending (code sev p1 p2 p3 : Nat) (s : State) : (ledger code sev p1 p2 p3 s).pending = s.pending := by simp [ledger]
@[simp] theorem ledger_latches (code sev p1 p2 p3 : Nat) (s : State) : (ledger code sev p1 p2 p3 s).latches = s.latches := by simp [ledger]
@[simp] theorem ledger_rdata (code sev p1 p2 p3 : Nat) (s : State) : (ledger code sev p1 p2 p3 s).rdata = s.rdata := by simp [ledger]
@[simp] theorem ledger_outcomes (code sev p1 p2 p3 : Nat) (s : State) : (ledger code sev p1 p2 p3 s).outcomes = s.outcomes := by simp [ledger]
@[simp] theorem ledger_outs (code sev p1 p2 p3 : Nat) (s : State) : (ledger code sev p1 p2 p3 s).outs = s.outs := by simp [ledger]
@[simp] theorem ledger_hostMem (code sev p1 p2 p3 : Nat) (s : State) : (ledger code sev p1 p2 p3 s).hostMem = s.hostMem := by simp [ledger]
@[simp] theorem ledger_dueWrites (code sev p1 p2 p3 : Nat) (s : State) : (ledger code sev p1 p2 p3 s).dueWrites = s.dueWrites := by simp [ledger]
@[simp] theorem ledger_freeCtr (code sev p1 p2 p3 : Nat) (s : State) : (ledger code sev p1 p2 p3 s).freeCtr = s.freeCtr := by simp [ledger]
@[simp] theorem ledger_hif (code sev p1 p2 p3 : Nat) (s : State) : (ledger code sev p1 p2 p3 s).hif = s.hif := by simp [ledger]
@[simp] theorem ledger_stw (code sev p1 p2 p3 : Nat) (s : State) : (ledger code sev p1 p2 p3 s).stw = s.stw := by simp [ledger]
@[simp] theorem ledger_irq (code sev p1 p2 p3 : Nat) (s : State) : (ledger code sev p1 p2 p3 s).irq = s.irq := by simp [ledger]
@[simp] theorem ledger_mtx (code sev p1 p2 p3 : Nat) (s : State) : (ledger code sev p1 p2 p3 s).mtx = s.mtx := by simp [ledger]
@[simp] theorem ledger_aon (code sev p1 p2 p3 : Nat) (s : State) : (ledger code sev p1 p2 p3 s).aon = s.aon := by simp [ledger]
@[simp] theorem ledger_clk (code sev p1 p2 p3 : Nat) (s : State) : (ledger code sev p1 p2 p3 s).clk = s.clk := by simp [ledger]
@[simp] theorem ledger_ptp (code sev p1 p2 p3 : Nat) (s : State) : (ledger code sev p1 p2 p3 s).ptp = s.ptp := by simp [ledger]
@[simp] theorem ledger_mp (code sev p1 p2 p3 : Nat) (s : State) : (ledger code sev p1 p2 p3 s).mp = s.mp := by simp [ledger]
@[simp] theorem ledger_dpx (code sev p1 p2 p3 : Nat) (s : State) : (ledger code sev p1 p2 p3 s).dpx = s.dpx := by simp [ledger]
@[simp] theorem ledger_obj (code sev p1 p2 p3 : Nat) (s : State) : (ledger code sev p1 p2 p3 s).obj = s.obj := by simp [ledger]
@[simp] theorem ledger_prefilter (code sev p1 p2 p3 : Nat) (s : State) : (ledger code sev p1 p2 p3 s).prefilter = s.prefilter := by simp [ledger]
@[simp] theorem ledger_segUid (code sev p1 p2 p3 : Nat) (s : State) : (ledger code sev p1 p2 p3 s).segUid = s.segUid := by simp [ledger]
@[simp] theorem ledger_alignSet (code sev p1 p2 p3 : Nat) (s : State) : (ledger code sev p1 p2 p3 s).alignSet = s.alignSet := by simp [ledger]
@[simp] theorem ledger_geo (code sev p1 p2 p3 : Nat) (s : State) : (ledger code sev p1 p2 p3 s).geo = s.geo := by simp [ledger]
@[simp] theorem ledger_pair (code sev p1 p2 p3 : Nat) (s : State) : (ledger code sev p1 p2 p3 s).pair = s.pair := by simp [ledger]
@[simp] theorem ledger_cor (code sev p1 p2 p3 : Nat) (s : State) : (ledger code sev p1 p2 p3 s).cor = s.cor := by simp [ledger]
@[simp] theorem ledger_sch (code sev p1 p2 p3 : Nat) (s : State) : (ledger code sev p1 p2 p3 s).sch = s.sch := by simp [ledger]
@[simp] theorem ledger_fab (code sev p1 p2 p3 : Nat) (s : State) : (ledger code sev p1 p2 p3 s).fab = s.fab := by simp [ledger]
@[simp] theorem ledger_drc (code sev p1 p2 p3 : Nat) (s : State) : (ledger code sev p1 p2 p3 s).drc = s.drc := by simp [ledger]
@[simp] theorem ledger_keyed (code sev p1 p2 p3 : Nat) (s : State) : (ledger code sev p1 p2 p3 s).keyed = s.keyed := by simp [ledger]
@[simp] theorem ledger_keySeq (code sev p1 p2 p3 : Nat) (s : State) : (ledger code sev p1 p2 p3 s).keySeq = s.keySeq := by simp [ledger]
@[simp] theorem ledger_lau (code sev p1 p2 p3 : Nat) (s : State) : (ledger code sev p1 p2 p3 s).lau = s.lau := by simp [ledger]

/-! ### ledgerLim -/

@[simp] theorem ledgerLim_pending (code sev subject n : Nat) (ps : Nat → Nat × Nat × Nat) (s : State) : (ledgerLim code sev subject n ps s).pending = s.pending := by simp only [ledgerLim]; split <;> (try split) <;> simp
@[simp] theorem ledgerLim_latches (code sev subject n : Nat) (ps : Nat → Nat × Nat × Nat) (s : State) : (ledgerLim code sev subject n ps s).latches = s.latches := by simp only [ledgerLim]; split <;> (try split) <;> simp
@[simp] theorem ledgerLim_rdata (code sev subject n : Nat) (ps : Nat → Nat × Nat × Nat) (s : State) : (ledgerLim code sev subject n ps s).rdata = s.rdata := by simp only [ledgerLim]; split <;> (try split) <;> simp
@[simp] theorem ledgerLim_outcomes (code sev subject n : Nat) (ps : Nat → Nat × Nat × Nat) (s : State) : (ledgerLim code sev subject n ps s).outcomes = s.outcomes := by simp only [ledgerLim]; split <;> (try split) <;> simp
@[simp] theorem ledgerLim_outs (code sev subject n : Nat) (ps : Nat → Nat × Nat × Nat) (s : State) : (ledgerLim code sev subject n ps s).outs = s.outs := by simp only [ledgerLim]; split <;> (try split) <;> simp
@[simp] theorem ledgerLim_hostMem (code sev subject n : Nat) (ps : Nat → Nat × Nat × Nat) (s : State) : (ledgerLim code sev subject n ps s).hostMem = s.hostMem := by simp only [ledgerLim]; split <;> (try split) <;> simp
@[simp] theorem ledgerLim_dueWrites (code sev subject n : Nat) (ps : Nat → Nat × Nat × Nat) (s : State) : (ledgerLim code sev subject n ps s).dueWrites = s.dueWrites := by simp only [ledgerLim]; split <;> (try split) <;> simp
@[simp] theorem ledgerLim_freeCtr (code sev subject n : Nat) (ps : Nat → Nat × Nat × Nat) (s : State) : (ledgerLim code sev subject n ps s).freeCtr = s.freeCtr := by simp only [ledgerLim]; split <;> (try split) <;> simp
@[simp] theorem ledgerLim_hif (code sev subject n : Nat) (ps : Nat → Nat × Nat × Nat) (s : State) : (ledgerLim code sev subject n ps s).hif = s.hif := by simp only [ledgerLim]; split <;> (try split) <;> simp
@[simp] theorem ledgerLim_stw (code sev subject n : Nat) (ps : Nat → Nat × Nat × Nat) (s : State) : (ledgerLim code sev subject n ps s).stw = s.stw := by simp only [ledgerLim]; split <;> (try split) <;> simp
@[simp] theorem ledgerLim_irq (code sev subject n : Nat) (ps : Nat → Nat × Nat × Nat) (s : State) : (ledgerLim code sev subject n ps s).irq = s.irq := by simp only [ledgerLim]; split <;> (try split) <;> simp
@[simp] theorem ledgerLim_mtx (code sev subject n : Nat) (ps : Nat → Nat × Nat × Nat) (s : State) : (ledgerLim code sev subject n ps s).mtx = s.mtx := by simp only [ledgerLim]; split <;> (try split) <;> simp
@[simp] theorem ledgerLim_aon (code sev subject n : Nat) (ps : Nat → Nat × Nat × Nat) (s : State) : (ledgerLim code sev subject n ps s).aon = s.aon := by simp only [ledgerLim]; split <;> (try split) <;> simp
@[simp] theorem ledgerLim_clk (code sev subject n : Nat) (ps : Nat → Nat × Nat × Nat) (s : State) : (ledgerLim code sev subject n ps s).clk = s.clk := by simp only [ledgerLim]; split <;> (try split) <;> simp
@[simp] theorem ledgerLim_ptp (code sev subject n : Nat) (ps : Nat → Nat × Nat × Nat) (s : State) : (ledgerLim code sev subject n ps s).ptp = s.ptp := by simp only [ledgerLim]; split <;> (try split) <;> simp
@[simp] theorem ledgerLim_mp (code sev subject n : Nat) (ps : Nat → Nat × Nat × Nat) (s : State) : (ledgerLim code sev subject n ps s).mp = s.mp := by simp only [ledgerLim]; split <;> (try split) <;> simp
@[simp] theorem ledgerLim_dpx (code sev subject n : Nat) (ps : Nat → Nat × Nat × Nat) (s : State) : (ledgerLim code sev subject n ps s).dpx = s.dpx := by simp only [ledgerLim]; split <;> (try split) <;> simp
@[simp] theorem ledgerLim_obj (code sev subject n : Nat) (ps : Nat → Nat × Nat × Nat) (s : State) : (ledgerLim code sev subject n ps s).obj = s.obj := by simp only [ledgerLim]; split <;> (try split) <;> simp
@[simp] theorem ledgerLim_prefilter (code sev subject n : Nat) (ps : Nat → Nat × Nat × Nat) (s : State) : (ledgerLim code sev subject n ps s).prefilter = s.prefilter := by simp only [ledgerLim]; split <;> (try split) <;> simp
@[simp] theorem ledgerLim_segUid (code sev subject n : Nat) (ps : Nat → Nat × Nat × Nat) (s : State) : (ledgerLim code sev subject n ps s).segUid = s.segUid := by simp only [ledgerLim]; split <;> (try split) <;> simp
@[simp] theorem ledgerLim_alignSet (code sev subject n : Nat) (ps : Nat → Nat × Nat × Nat) (s : State) : (ledgerLim code sev subject n ps s).alignSet = s.alignSet := by simp only [ledgerLim]; split <;> (try split) <;> simp
@[simp] theorem ledgerLim_geo (code sev subject n : Nat) (ps : Nat → Nat × Nat × Nat) (s : State) : (ledgerLim code sev subject n ps s).geo = s.geo := by simp only [ledgerLim]; split <;> (try split) <;> simp
@[simp] theorem ledgerLim_pair (code sev subject n : Nat) (ps : Nat → Nat × Nat × Nat) (s : State) : (ledgerLim code sev subject n ps s).pair = s.pair := by simp only [ledgerLim]; split <;> (try split) <;> simp
@[simp] theorem ledgerLim_cor (code sev subject n : Nat) (ps : Nat → Nat × Nat × Nat) (s : State) : (ledgerLim code sev subject n ps s).cor = s.cor := by simp only [ledgerLim]; split <;> (try split) <;> simp
@[simp] theorem ledgerLim_sch (code sev subject n : Nat) (ps : Nat → Nat × Nat × Nat) (s : State) : (ledgerLim code sev subject n ps s).sch = s.sch := by simp only [ledgerLim]; split <;> (try split) <;> simp
@[simp] theorem ledgerLim_fab (code sev subject n : Nat) (ps : Nat → Nat × Nat × Nat) (s : State) : (ledgerLim code sev subject n ps s).fab = s.fab := by simp only [ledgerLim]; split <;> (try split) <;> simp
@[simp] theorem ledgerLim_drc (code sev subject n : Nat) (ps : Nat → Nat × Nat × Nat) (s : State) : (ledgerLim code sev subject n ps s).drc = s.drc := by simp only [ledgerLim]; split <;> (try split) <;> simp
@[simp] theorem ledgerLim_keyed (code sev subject n : Nat) (ps : Nat → Nat × Nat × Nat) (s : State) : (ledgerLim code sev subject n ps s).keyed = s.keyed := by simp only [ledgerLim]; split <;> (try split) <;> simp
@[simp] theorem ledgerLim_keySeq (code sev subject n : Nat) (ps : Nat → Nat × Nat × Nat) (s : State) : (ledgerLim code sev subject n ps s).keySeq = s.keySeq := by simp only [ledgerLim]; split <;> (try split) <;> simp
@[simp] theorem ledgerLim_lau (code sev subject n : Nat) (ps : Nat → Nat × Nat × Nat) (s : State) : (ledgerLim code sev subject n ps s).lau = s.lau := by simp only [ledgerLim]; split <;> (try split) <;> simp

/-! ### hostWrite -/

@[simp] theorem hostWrite_pending (a : Nat) (bs : List Byte) (s : State) : (hostWrite a bs s).pending = s.pending := by unfold hostWrite; split <;> rfl
@[simp] theorem hostWrite_regs (a : Nat) (bs : List Byte) (s : State) : (hostWrite a bs s).regs = s.regs := by unfold hostWrite; split <;> rfl
@[simp] theorem hostWrite_latches (a : Nat) (bs : List Byte) (s : State) : (hostWrite a bs s).latches = s.latches := by unfold hostWrite; split <;> rfl
@[simp] theorem hostWrite_rdata (a : Nat) (bs : List Byte) (s : State) : (hostWrite a bs s).rdata = s.rdata := by unfold hostWrite; split <;> rfl
@[simp] theorem hostWrite_outcomes (a : Nat) (bs : List Byte) (s : State) : (hostWrite a bs s).outcomes = s.outcomes := by unfold hostWrite; split <;> rfl
@[simp] theorem hostWrite_outs (a : Nat) (bs : List Byte) (s : State) : (hostWrite a bs s).outs = s.outs := by unfold hostWrite; split <;> rfl
@[simp] theorem hostWrite_freeCtr (a : Nat) (bs : List Byte) (s : State) : (hostWrite a bs s).freeCtr = s.freeCtr := by unfold hostWrite; split <;> rfl
@[simp] theorem hostWrite_hif (a : Nat) (bs : List Byte) (s : State) : (hostWrite a bs s).hif = s.hif := by unfold hostWrite; split <;> rfl
@[simp] theorem hostWrite_stw (a : Nat) (bs : List Byte) (s : State) : (hostWrite a bs s).stw = s.stw := by unfold hostWrite; split <;> rfl
@[simp] theorem hostWrite_irq (a : Nat) (bs : List Byte) (s : State) : (hostWrite a bs s).irq = s.irq := by unfold hostWrite; split <;> rfl
@[simp] theorem hostWrite_mtx (a : Nat) (bs : List Byte) (s : State) : (hostWrite a bs s).mtx = s.mtx := by unfold hostWrite; split <;> rfl
@[simp] theorem hostWrite_lgr (a : Nat) (bs : List Byte) (s : State) : (hostWrite a bs s).lgr = s.lgr := by unfold hostWrite; split <;> rfl
@[simp] theorem hostWrite_aon (a : Nat) (bs : List Byte) (s : State) : (hostWrite a bs s).aon = s.aon := by unfold hostWrite; split <;> rfl
@[simp] theorem hostWrite_clk (a : Nat) (bs : List Byte) (s : State) : (hostWrite a bs s).clk = s.clk := by unfold hostWrite; split <;> rfl
@[simp] theorem hostWrite_ptp (a : Nat) (bs : List Byte) (s : State) : (hostWrite a bs s).ptp = s.ptp := by unfold hostWrite; split <;> rfl
@[simp] theorem hostWrite_mp (a : Nat) (bs : List Byte) (s : State) : (hostWrite a bs s).mp = s.mp := by unfold hostWrite; split <;> rfl
@[simp] theorem hostWrite_dpx (a : Nat) (bs : List Byte) (s : State) : (hostWrite a bs s).dpx = s.dpx := by unfold hostWrite; split <;> rfl
@[simp] theorem hostWrite_obj (a : Nat) (bs : List Byte) (s : State) : (hostWrite a bs s).obj = s.obj := by unfold hostWrite; split <;> rfl
@[simp] theorem hostWrite_prefilter (a : Nat) (bs : List Byte) (s : State) : (hostWrite a bs s).prefilter = s.prefilter := by unfold hostWrite; split <;> rfl
@[simp] theorem hostWrite_segUid (a : Nat) (bs : List Byte) (s : State) : (hostWrite a bs s).segUid = s.segUid := by unfold hostWrite; split <;> rfl
@[simp] theorem hostWrite_alignSet (a : Nat) (bs : List Byte) (s : State) : (hostWrite a bs s).alignSet = s.alignSet := by unfold hostWrite; split <;> rfl
@[simp] theorem hostWrite_geo (a : Nat) (bs : List Byte) (s : State) : (hostWrite a bs s).geo = s.geo := by unfold hostWrite; split <;> rfl
@[simp] theorem hostWrite_pair (a : Nat) (bs : List Byte) (s : State) : (hostWrite a bs s).pair = s.pair := by unfold hostWrite; split <;> rfl
@[simp] theorem hostWrite_cor (a : Nat) (bs : List Byte) (s : State) : (hostWrite a bs s).cor = s.cor := by unfold hostWrite; split <;> rfl
@[simp] theorem hostWrite_sch (a : Nat) (bs : List Byte) (s : State) : (hostWrite a bs s).sch = s.sch := by unfold hostWrite; split <;> rfl
@[simp] theorem hostWrite_fab (a : Nat) (bs : List Byte) (s : State) : (hostWrite a bs s).fab = s.fab := by unfold hostWrite; split <;> rfl
@[simp] theorem hostWrite_drc (a : Nat) (bs : List Byte) (s : State) : (hostWrite a bs s).drc = s.drc := by unfold hostWrite; split <;> rfl
@[simp] theorem hostWrite_keyed (a : Nat) (bs : List Byte) (s : State) : (hostWrite a bs s).keyed = s.keyed := by unfold hostWrite; split <;> rfl
@[simp] theorem hostWrite_keySeq (a : Nat) (bs : List Byte) (s : State) : (hostWrite a bs s).keySeq = s.keySeq := by unfold hostWrite; split <;> rfl
@[simp] theorem hostWrite_lau (a : Nat) (bs : List Byte) (s : State) : (hostWrite a bs s).lau = s.lau := by unfold hostWrite; split <;> rfl

/-! ### finish -/

@[simp] theorem finish_pending (d : Desc) (status : Nat) (s : State) : (finish d status s).pending = s.pending := by rfl
@[simp] theorem finish_regs (d : Desc) (status : Nat) (s : State) : (finish d status s).regs = s.regs := by rfl
@[simp] theorem finish_latches (d : Desc) (status : Nat) (s : State) : (finish d status s).latches = s.latches := by rfl
@[simp] theorem finish_rdata (d : Desc) (status : Nat) (s : State) : (finish d status s).rdata = s.rdata := by rfl
@[simp] theorem finish_outs (d : Desc) (status : Nat) (s : State) : (finish d status s).outs = s.outs := by rfl
@[simp] theorem finish_hostMem (d : Desc) (status : Nat) (s : State) : (finish d status s).hostMem = s.hostMem := by rfl
@[simp] theorem finish_dueWrites (d : Desc) (status : Nat) (s : State) : (finish d status s).dueWrites = s.dueWrites := by rfl
@[simp] theorem finish_freeCtr (d : Desc) (status : Nat) (s : State) : (finish d status s).freeCtr = s.freeCtr := by rfl
@[simp] theorem finish_hif (d : Desc) (status : Nat) (s : State) : (finish d status s).hif = s.hif := by rfl
@[simp] theorem finish_stw (d : Desc) (status : Nat) (s : State) : (finish d status s).stw = s.stw := by rfl
@[simp] theorem finish_irq (d : Desc) (status : Nat) (s : State) : (finish d status s).irq = s.irq := by rfl
@[simp] theorem finish_mtx (d : Desc) (status : Nat) (s : State) : (finish d status s).mtx = s.mtx := by rfl
@[simp] theorem finish_lgr (d : Desc) (status : Nat) (s : State) : (finish d status s).lgr = s.lgr := by rfl
@[simp] theorem finish_aon (d : Desc) (status : Nat) (s : State) : (finish d status s).aon = s.aon := by rfl
@[simp] theorem finish_clk (d : Desc) (status : Nat) (s : State) : (finish d status s).clk = s.clk := by rfl
@[simp] theorem finish_ptp (d : Desc) (status : Nat) (s : State) : (finish d status s).ptp = s.ptp := by rfl
@[simp] theorem finish_mp (d : Desc) (status : Nat) (s : State) : (finish d status s).mp = s.mp := by rfl
@[simp] theorem finish_dpx (d : Desc) (status : Nat) (s : State) : (finish d status s).dpx = s.dpx := by rfl
@[simp] theorem finish_obj (d : Desc) (status : Nat) (s : State) : (finish d status s).obj = s.obj := by rfl
@[simp] theorem finish_prefilter (d : Desc) (status : Nat) (s : State) : (finish d status s).prefilter = s.prefilter := by rfl
@[simp] theorem finish_segUid (d : Desc) (status : Nat) (s : State) : (finish d status s).segUid = s.segUid := by rfl
@[simp] theorem finish_alignSet (d : Desc) (status : Nat) (s : State) : (finish d status s).alignSet = s.alignSet := by rfl
@[simp] theorem finish_geo (d : Desc) (status : Nat) (s : State) : (finish d status s).geo = s.geo := by rfl
@[simp] theorem finish_pair (d : Desc) (status : Nat) (s : State) : (finish d status s).pair = s.pair := by rfl
@[simp] theorem finish_cor (d : Desc) (status : Nat) (s : State) : (finish d status s).cor = s.cor := by rfl
@[simp] theorem finish_sch (d : Desc) (status : Nat) (s : State) : (finish d status s).sch = s.sch := by rfl
@[simp] theorem finish_fab (d : Desc) (status : Nat) (s : State) : (finish d status s).fab = s.fab := by rfl
@[simp] theorem finish_drc (d : Desc) (status : Nat) (s : State) : (finish d status s).drc = s.drc := by rfl
@[simp] theorem finish_keyed (d : Desc) (status : Nat) (s : State) : (finish d status s).keyed = s.keyed := by rfl
@[simp] theorem finish_keySeq (d : Desc) (status : Nat) (s : State) : (finish d status s).keySeq = s.keySeq := by rfl
@[simp] theorem finish_lau (d : Desc) (status : Nat) (s : State) : (finish d status s).lau = s.lau := by rfl

/-! ### badField -/

@[simp] theorem badField_pending (d : Desc) (off : Nat) (s : State) : (badField d off s).pending = s.pending := by rfl
@[simp] theorem badField_regs (d : Desc) (off : Nat) (s : State) : (badField d off s).regs = s.regs := by rfl
@[simp] theorem badField_latches (d : Desc) (off : Nat) (s : State) : (badField d off s).latches = s.latches := by rfl
@[simp] theorem badField_rdata (d : Desc) (off : Nat) (s : State) : (badField d off s).rdata = s.rdata := by rfl
@[simp] theorem badField_outs (d : Desc) (off : Nat) (s : State) : (badField d off s).outs = s.outs := by rfl
@[simp] theorem badField_hostMem (d : Desc) (off : Nat) (s : State) : (badField d off s).hostMem = s.hostMem := by rfl
@[simp] theorem badField_dueWrites (d : Desc) (off : Nat) (s : State) : (badField d off s).dueWrites = s.dueWrites := by rfl
@[simp] theorem badField_freeCtr (d : Desc) (off : Nat) (s : State) : (badField d off s).freeCtr = s.freeCtr := by rfl
@[simp] theorem badField_hif (d : Desc) (off : Nat) (s : State) : (badField d off s).hif = s.hif := by rfl
@[simp] theorem badField_stw (d : Desc) (off : Nat) (s : State) : (badField d off s).stw = s.stw := by rfl
@[simp] theorem badField_irq (d : Desc) (off : Nat) (s : State) : (badField d off s).irq = s.irq := by rfl
@[simp] theorem badField_mtx (d : Desc) (off : Nat) (s : State) : (badField d off s).mtx = s.mtx := by rfl
@[simp] theorem badField_lgr (d : Desc) (off : Nat) (s : State) : (badField d off s).lgr = s.lgr := by rfl
@[simp] theorem badField_aon (d : Desc) (off : Nat) (s : State) : (badField d off s).aon = s.aon := by rfl
@[simp] theorem badField_clk (d : Desc) (off : Nat) (s : State) : (badField d off s).clk = s.clk := by rfl
@[simp] theorem badField_ptp (d : Desc) (off : Nat) (s : State) : (badField d off s).ptp = s.ptp := by rfl
@[simp] theorem badField_mp (d : Desc) (off : Nat) (s : State) : (badField d off s).mp = s.mp := by rfl
@[simp] theorem badField_dpx (d : Desc) (off : Nat) (s : State) : (badField d off s).dpx = s.dpx := by rfl
@[simp] theorem badField_obj (d : Desc) (off : Nat) (s : State) : (badField d off s).obj = s.obj := by rfl
@[simp] theorem badField_prefilter (d : Desc) (off : Nat) (s : State) : (badField d off s).prefilter = s.prefilter := by rfl
@[simp] theorem badField_segUid (d : Desc) (off : Nat) (s : State) : (badField d off s).segUid = s.segUid := by rfl
@[simp] theorem badField_alignSet (d : Desc) (off : Nat) (s : State) : (badField d off s).alignSet = s.alignSet := by rfl
@[simp] theorem badField_geo (d : Desc) (off : Nat) (s : State) : (badField d off s).geo = s.geo := by rfl
@[simp] theorem badField_pair (d : Desc) (off : Nat) (s : State) : (badField d off s).pair = s.pair := by rfl
@[simp] theorem badField_cor (d : Desc) (off : Nat) (s : State) : (badField d off s).cor = s.cor := by rfl
@[simp] theorem badField_sch (d : Desc) (off : Nat) (s : State) : (badField d off s).sch = s.sch := by rfl
@[simp] theorem badField_fab (d : Desc) (off : Nat) (s : State) : (badField d off s).fab = s.fab := by rfl
@[simp] theorem badField_drc (d : Desc) (off : Nat) (s : State) : (badField d off s).drc = s.drc := by rfl
@[simp] theorem badField_keyed (d : Desc) (off : Nat) (s : State) : (badField d off s).keyed = s.keyed := by rfl
@[simp] theorem badField_keySeq (d : Desc) (off : Nat) (s : State) : (badField d off s).keySeq = s.keySeq := by rfl
@[simp] theorem badField_lau (d : Desc) (off : Nat) (s : State) : (badField d off s).lau = s.lau := by rfl

/-! ### badBlock -/

@[simp] theorem badBlock_pending (d : Desc) (off : Nat) (s : State) : (badBlock d off s).pending = s.pending := by rfl
@[simp] theorem badBlock_latches (d : Desc) (off : Nat) (s : State) : (badBlock d off s).latches = s.latches := by rfl
@[simp] theorem badBlock_rdata (d : Desc) (off : Nat) (s : State) : (badBlock d off s).rdata = s.rdata := by rfl
@[simp] theorem badBlock_outs (d : Desc) (off : Nat) (s : State) : (badBlock d off s).outs = s.outs := by rfl
@[simp] theorem badBlock_hostMem (d : Desc) (off : Nat) (s : State) : (badBlock d off s).hostMem = s.hostMem := by rfl
@[simp] theorem badBlock_dueWrites (d : Desc) (off : Nat) (s : State) : (badBlock d off s).dueWrites = s.dueWrites := by rfl
@[simp] theorem badBlock_freeCtr (d : Desc) (off : Nat) (s : State) : (badBlock d off s).freeCtr = s.freeCtr := by rfl
@[simp] theorem badBlock_hif (d : Desc) (off : Nat) (s : State) : (badBlock d off s).hif = s.hif := by rfl
@[simp] theorem badBlock_stw (d : Desc) (off : Nat) (s : State) : (badBlock d off s).stw = s.stw := by rfl
@[simp] theorem badBlock_irq (d : Desc) (off : Nat) (s : State) : (badBlock d off s).irq = s.irq := by rfl
@[simp] theorem badBlock_mtx (d : Desc) (off : Nat) (s : State) : (badBlock d off s).mtx = s.mtx := by rfl
@[simp] theorem badBlock_lgr (d : Desc) (off : Nat) (s : State) : (badBlock d off s).lgr = s.lgr := by rfl
@[simp] theorem badBlock_aon (d : Desc) (off : Nat) (s : State) : (badBlock d off s).aon = s.aon := by rfl
@[simp] theorem badBlock_clk (d : Desc) (off : Nat) (s : State) : (badBlock d off s).clk = s.clk := by rfl
@[simp] theorem badBlock_ptp (d : Desc) (off : Nat) (s : State) : (badBlock d off s).ptp = s.ptp := by rfl
@[simp] theorem badBlock_mp (d : Desc) (off : Nat) (s : State) : (badBlock d off s).mp = s.mp := by rfl
@[simp] theorem badBlock_dpx (d : Desc) (off : Nat) (s : State) : (badBlock d off s).dpx = s.dpx := by rfl
@[simp] theorem badBlock_obj (d : Desc) (off : Nat) (s : State) : (badBlock d off s).obj = s.obj := by rfl
@[simp] theorem badBlock_prefilter (d : Desc) (off : Nat) (s : State) : (badBlock d off s).prefilter = s.prefilter := by rfl
@[simp] theorem badBlock_segUid (d : Desc) (off : Nat) (s : State) : (badBlock d off s).segUid = s.segUid := by rfl
@[simp] theorem badBlock_alignSet (d : Desc) (off : Nat) (s : State) : (badBlock d off s).alignSet = s.alignSet := by rfl
@[simp] theorem badBlock_geo (d : Desc) (off : Nat) (s : State) : (badBlock d off s).geo = s.geo := by rfl
@[simp] theorem badBlock_pair (d : Desc) (off : Nat) (s : State) : (badBlock d off s).pair = s.pair := by rfl
@[simp] theorem badBlock_cor (d : Desc) (off : Nat) (s : State) : (badBlock d off s).cor = s.cor := by rfl
@[simp] theorem badBlock_sch (d : Desc) (off : Nat) (s : State) : (badBlock d off s).sch = s.sch := by rfl
@[simp] theorem badBlock_fab (d : Desc) (off : Nat) (s : State) : (badBlock d off s).fab = s.fab := by rfl
@[simp] theorem badBlock_drc (d : Desc) (off : Nat) (s : State) : (badBlock d off s).drc = s.drc := by rfl
@[simp] theorem badBlock_keyed (d : Desc) (off : Nat) (s : State) : (badBlock d off s).keyed = s.keyed := by rfl
@[simp] theorem badBlock_keySeq (d : Desc) (off : Nat) (s : State) : (badBlock d off s).keySeq = s.keySeq := by rfl
@[simp] theorem badBlock_lau (d : Desc) (off : Nat) (s : State) : (badBlock d off s).lau = s.lau := by rfl

@[simp] theorem finish_outcomes (d : Desc) (status : Nat) (s : State) :
    (finish d status s).outcomes = s.outcomes ++ [{ tok := d.tok, status := status, result := 0, detail := 0 }] := rfl
@[simp] theorem badField_outcomes (d : Desc) (off : Nat) (s : State) :
    (badField d off s).outcomes = s.outcomes ++ [{ tok := d.tok, status := stBad, result := 0, detail := off }] := rfl

end Sys2Proof.Machine
end

