-- ==== Sys2Proof/Laws/Frame.lean ====
section
/-! SUPPORT. Frames: how "only these parts change" composes, and what a record update changes. -/

namespace Sys2Proof.Machine

theorem OnlyChanges.refl (W : List Part) (s : State) : OnlyChanges W s s := ⟨fun p _ => by cases p <;> rfl⟩

theorem Part.same_trans {p : Part} {s t u : State} (h1 : p.same s t) (h2 : p.same t u) : p.same s u := by
  cases p <;> exact Eq.trans h2 h1

/-- A change of fewer parts after a change. -/
theorem OnlyChanges.after {V W : List Part} {s t u : State} (h2 : OnlyChanges V t u) (hv : V ⊆ W) (h1 : OnlyChanges W s t) :
    OnlyChanges W s u :=
  ⟨fun p hp => Part.same_trans (h1.same p hp) (h2.same p (fun h => hp (hv h)))⟩

theorem OnlyChanges.trans {W : List Part} {s t u : State} (h2 : OnlyChanges W t u) (h1 : OnlyChanges W s t) : OnlyChanges W s u :=
  ⟨fun p hp => Part.same_trans (h1.same p hp) (h2.same p hp)⟩

theorem OnlyChanges.mono {V W : List Part} {s t : State} (h : OnlyChanges V s t) (hv : V ⊆ W) : OnlyChanges W s t :=
  ⟨fun p hp => h.same p (fun h => hp (hv h))⟩

theorem OnlyChanges.ite {W : List Part} {s t u : State} {c : Prop} [Decidable c] (h1 : OnlyChanges W s t) (h2 : OnlyChanges W s u) :
    OnlyChanges W s (if c then t else u) := by
  split <;> assumption

theorem OnlyChanges.foldl {α : Type} {W : List Part} {f : State → α → State} (h : ∀ t a, OnlyChanges W t (f t a)) (l : List α) (s : State) :
    OnlyChanges W s (l.foldl f s) := by
  induction l generalizing s with
  | nil => exact OnlyChanges.refl W s
  | cons a l ih => exact (ih (f s a)).after (fun _ h => h) (h s a)

theorem OnlyChanges.foldl_trans {α : Type} {W : List Part} {f : State → α → State} {s t : State} (h : ∀ t a, OnlyChanges W t (f t a))
    (h1 : OnlyChanges W s t) (l : List α) : OnlyChanges W s (l.foldl f t) := (OnlyChanges.foldl h l t).trans h1

/-- A frame through a named intermediate state. -/
theorem OnlyChanges.cut {W : List Part} {s t u : State} (h1 : OnlyChanges W s t) (h2 : OnlyChanges W s t → OnlyChanges W s u) :
    OnlyChanges W s u := h2 h1

/-- A record update of a state `t`: each field is a listed part or the one of `t`. -/
theorem OnlyChanges.upd {W : List Part} {s t : State} {v_regs} {v_latches} {v_rdata} {v_outcomes} {v_outs} {v_hostMem} {v_dueWrites} {v_freeCtr} {v_hif} {v_stw} {v_irq} {v_mtx} {v_lgr} {v_aon} {v_clk} {v_ptp} {v_mp} {v_dpx} {v_obj} {v_prefilter} {v_segUid} {v_alignSet} {v_geo} {v_pair} {v_cor} {v_sch} {v_fab} {v_drc} {v_keyed} {v_keySeq} {v_lau}
    (h : OnlyChanges W s t)
    (h_regs : v_regs = t.regs ∨ Part.regs ∈ W)
    (h_latches : v_latches = t.latches ∨ Part.latches ∈ W)
    (h_rdata : v_rdata = t.rdata ∨ Part.rdata ∈ W)
    (h_outcomes : v_outcomes = t.outcomes ∨ Part.outcomes ∈ W)
    (h_outs : v_outs = t.outs ∨ Part.outs ∈ W)
    (h_hostMem : v_hostMem = t.hostMem ∨ Part.hostMem ∈ W)
    (h_dueWrites : v_dueWrites = t.dueWrites ∨ Part.dueWrites ∈ W)
    (h_freeCtr : v_freeCtr = t.freeCtr ∨ Part.freeCtr ∈ W)
    (h_hif : v_hif = t.hif ∨ Part.hif ∈ W)
    (h_stw : v_stw = t.stw ∨ Part.stw ∈ W)
    (h_irq : v_irq = t.irq ∨ Part.irq ∈ W)
    (h_mtx : v_mtx = t.mtx ∨ Part.mtx ∈ W)
    (h_lgr : v_lgr = t.lgr ∨ Part.lgr ∈ W)
    (h_aon : v_aon = t.aon ∨ Part.aon ∈ W)
    (h_clk : v_clk = t.clk ∨ Part.clk ∈ W)
    (h_ptp : v_ptp = t.ptp ∨ Part.ptp ∈ W)
    (h_mp : v_mp = t.mp ∨ Part.mp ∈ W)
    (h_dpx : v_dpx = t.dpx ∨ Part.dpx ∈ W)
    (h_obj : v_obj = t.obj ∨ Part.obj ∈ W)
    (h_prefilter : v_prefilter = t.prefilter ∨ Part.prefilter ∈ W)
    (h_segUid : v_segUid = t.segUid ∨ Part.segUid ∈ W)
    (h_alignSet : v_alignSet = t.alignSet ∨ Part.alignSet ∈ W)
    (h_geo : v_geo = t.geo ∨ Part.geo ∈ W)
    (h_pair : v_pair = t.pair ∨ Part.pair ∈ W)
    (h_cor : v_cor = t.cor ∨ Part.cor ∈ W)
    (h_sch : v_sch = t.sch ∨ Part.sch ∈ W)
    (h_fab : v_fab = t.fab ∨ Part.fab ∈ W)
    (h_drc : v_drc = t.drc ∨ Part.drc ∈ W)
    (h_keyed : v_keyed = t.keyed ∨ Part.keyed ∈ W)
    (h_keySeq : v_keySeq = t.keySeq ∨ Part.keySeq ∈ W)
    (h_lau : v_lau = t.lau ∨ Part.lau ∈ W) :
    OnlyChanges W s (State.mk t.pending v_regs v_latches v_rdata v_outcomes v_outs v_hostMem v_dueWrites v_freeCtr v_hif v_stw v_irq v_mtx v_lgr v_aon v_clk v_ptp v_mp v_dpx v_obj v_prefilter v_segUid v_alignSet v_geo v_pair v_cor v_sch v_fab v_drc v_keyed v_keySeq v_lau) := by
  refine OnlyChanges.after (V := W) (t := t) ?_ (fun _ h => h) h
  refine ⟨fun p hp => ?_⟩
  cases p
  · rfl
  · exact h_regs.resolve_right hp
  · exact h_latches.resolve_right hp
  · exact h_rdata.resolve_right hp
  · exact h_outcomes.resolve_right hp
  · exact h_outs.resolve_right hp
  · exact h_hostMem.resolve_right hp
  · exact h_dueWrites.resolve_right hp
  · exact h_freeCtr.resolve_right hp
  · exact h_hif.resolve_right hp
  · exact h_stw.resolve_right hp
  · exact h_irq.resolve_right hp
  · exact h_mtx.resolve_right hp
  · exact h_lgr.resolve_right hp
  · exact h_aon.resolve_right hp
  · exact h_clk.resolve_right hp
  · exact h_ptp.resolve_right hp
  · exact h_mp.resolve_right hp
  · exact h_dpx.resolve_right hp
  · exact h_obj.resolve_right hp
  · exact h_prefilter.resolve_right hp
  · exact h_segUid.resolve_right hp
  · exact h_alignSet.resolve_right hp
  · exact h_geo.resolve_right hp
  · exact h_pair.resolve_right hp
  · exact h_cor.resolve_right hp
  · exact h_sch.resolve_right hp
  · exact h_fab.resolve_right hp
  · exact h_drc.resolve_right hp
  · exact h_keyed.resolve_right hp
  · exact h_keySeq.resolve_right hp
  · exact h_lau.resolve_right hp

end Sys2Proof.Machine
end

