-- ==== Sys2Proof/Laws/FramesHost.lean ====
section
/-! SUPPORT. What each operation of a group can change: the host interface, the ledger queue, duplex, keyed commands, the guard and the clock.
One lemma per operation that answers a state; a caller cites it and never unfolds the operation. -/

namespace Sys2Proof.Machine

theorem setCore_only (s) (x1) (x2) : OnlyChanges [.stw] s (setCore s x1 x2) := by
  unfold setCore
  repeat (first
    | with_reducible exact OnlyChanges.refl _ _
    | with_reducible assumption
    | (extract_lets +onlyGivenNames t1; clear_value t1)
    | extract_lets
    | (fail_if_no_progress (with_reducible apply OnlyChanges.upd <;> first | exact Or.inr (by decide) | exact Or.inl (by with_reducible rfl) | skip)))

theorem setReg_only (s) (x1) (x2) : OnlyChanges [.regs] s (setReg s x1 x2) := by
  unfold setReg
  repeat (first
    | with_reducible exact OnlyChanges.refl _ _
    | with_reducible assumption
    | extract_lets
    | (fail_if_no_progress (with_reducible apply OnlyChanges.upd <;> first | exact Or.inr (by decide) | exact Or.inl (by with_reducible rfl) | skip)))

theorem evRaise_only (x0) (x1) (s) : OnlyChanges [.regs] s (evRaise x0 x1 s) := by
  unfold evRaise
  repeat (first
    | with_reducible exact OnlyChanges.refl _ _
    | with_reducible assumption
    | (with_reducible refine (setReg_only ..).after (by decide) ?_))

theorem evIf_only (x0) (x1) (x2) (s) : OnlyChanges [.regs] s (evIf x0 x1 x2 s) := by
  unfold evIf
  repeat (first
    | with_reducible exact OnlyChanges.refl _ _
    | with_reducible assumption
    | (with_reducible refine (evRaise_only ..).after (by decide) ?_)
    | split
    | with_reducible refine OnlyChanges.ite ?_ ?_)

theorem ledgerBy_only (x0) (x1) (x2) (x3) (x4) (x5) (s) : OnlyChanges [.regs, .lgr] s (ledgerBy x0 x1 x2 x3 x4 x5 s) := by
  unfold ledgerBy
  repeat (first
    | with_reducible exact OnlyChanges.refl _ _
    | with_reducible assumption
    | (with_reducible refine (evIf_only ..).after (by decide) ?_)
    | extract_lets
    | (fail_if_no_progress (with_reducible apply OnlyChanges.upd <;> first | exact Or.inr (by decide) | exact Or.inl (by with_reducible rfl) | skip)))

theorem ledger_only (x0) (x1) (x2) (x3) (x4) (s) : OnlyChanges [.regs, .lgr] s (ledger x0 x1 x2 x3 x4 s) := by
  unfold ledger
  repeat (first
    | with_reducible exact OnlyChanges.refl _ _
    | with_reducible assumption
    | (with_reducible refine (ledgerBy_only ..).after (by decide) ?_))

theorem ledgerLim_only (x0) (x1) (x2) (x3) (x4) (s) : OnlyChanges [.regs, .lgr] s (ledgerLim x0 x1 x2 x3 x4 s) := by
  unfold ledgerLim
  repeat (first
    | with_reducible exact OnlyChanges.refl _ _
    | with_reducible assumption
    | (with_reducible refine (ledger_only ..).after (by decide) ?_)
    | (extract_lets +onlyGivenNames t1; with_reducible refine OnlyChanges.cut (t := t1) ?_ ?_ <;> [subst t1; (clear_value t1; intro)])
    | (extract_lets +onlyGivenNames t1; clear_value t1)
    | extract_lets
    | split
    | with_reducible refine OnlyChanges.ite ?_ ?_
    | (fail_if_no_progress (with_reducible apply OnlyChanges.upd <;> first | exact Or.inr (by decide) | exact Or.inl (by with_reducible rfl) | skip)))

theorem report_only (x0) (x1) (x2) (x3) (s) : OnlyChanges [.outcomes] s (report x0 x1 x2 x3 s) := by
  unfold report
  repeat (first
    | with_reducible exact OnlyChanges.refl _ _
    | with_reducible assumption
    | extract_lets
    | (fail_if_no_progress (with_reducible apply OnlyChanges.upd <;> first | exact Or.inr (by decide) | exact Or.inl (by with_reducible rfl) | skip)))

theorem hostWrite_only (x0) (x1) (s) : OnlyChanges [.hostMem, .dueWrites] s (hostWrite x0 x1 s) := by
  unfold hostWrite
  repeat (first
    | with_reducible exact OnlyChanges.refl _ _
    | with_reducible assumption
    | extract_lets
    | split
    | with_reducible refine OnlyChanges.ite ?_ ?_
    | (fail_if_no_progress (with_reducible apply OnlyChanges.upd <;> first | exact Or.inr (by decide) | exact Or.inl (by with_reducible rfl) | skip)))

theorem emit_only (x0) (s) : OnlyChanges [.outs] s (emit x0 s) := by
  unfold emit
  repeat (first
    | with_reducible exact OnlyChanges.refl _ _
    | with_reducible assumption
    | extract_lets
    | (fail_if_no_progress (with_reducible apply OnlyChanges.upd <;> first | exact Or.inr (by decide) | exact Or.inl (by with_reducible rfl) | skip)))

theorem resetMasters_only (x0) (s) : OnlyChanges [.mtx] s (resetMasters x0 s) := by
  unfold resetMasters
  repeat (first
    | with_reducible exact OnlyChanges.refl _ _
    | with_reducible assumption
    | (extract_lets +onlyGivenNames t1; clear_value t1)
    | extract_lets
    | (fail_if_no_progress (with_reducible apply OnlyChanges.upd <;> first | exact Or.inr (by decide) | exact Or.inl (by with_reducible rfl) | skip)))

theorem setField_only (s) (x1) (x2) (x3) (x4) : OnlyChanges [.regs] s (setField s x1 x2 x3 x4) := by
  unfold setField
  repeat (first
    | with_reducible exact OnlyChanges.refl _ _
    | with_reducible assumption
    | (with_reducible refine (setReg_only ..).after (by decide) ?_))

theorem draw_only (s) : OnlyChanges [.freeCtr] s (draw s) := by
  unfold draw
  repeat (first
    | with_reducible exact OnlyChanges.refl _ _
    | with_reducible assumption
    | extract_lets
    | (fail_if_no_progress (with_reducible apply OnlyChanges.upd <;> first | exact Or.inr (by decide) | exact Or.inl (by with_reducible rfl) | skip)))

theorem latch_only (s) (x1) (x2) : OnlyChanges [.latches] s (latch s x1 x2) := by
  unfold latch
  repeat (first
    | with_reducible exact OnlyChanges.refl _ _
    | with_reducible assumption
    | extract_lets
    | (fail_if_no_progress (with_reducible apply OnlyChanges.upd <;> first | exact Or.inr (by decide) | exact Or.inl (by with_reducible rfl) | skip)))

theorem narrow_only (x0) (s) : OnlyChanges [.rdata] s (narrow x0 s) := by
  unfold narrow
  repeat (first
    | with_reducible exact OnlyChanges.refl _ _
    | with_reducible assumption
    | extract_lets
    | (fail_if_no_progress (with_reducible apply OnlyChanges.upd <;> first | exact Or.inr (by decide) | exact Or.inl (by with_reducible rfl) | skip)))

theorem sramPut_only (x0) (x1) (s) : OnlyChanges [.stw] s (sramPut x0 x1 s) := by
  unfold sramPut
  repeat (first
    | with_reducible exact OnlyChanges.refl _ _
    | with_reducible assumption
    | (extract_lets +onlyGivenNames t1; clear_value t1)
    | extract_lets
    | (fail_if_no_progress (with_reducible apply OnlyChanges.upd <;> first | exact Or.inr (by decide) | exact Or.inl (by with_reducible rfl) | skip)))

theorem tickSeq_only (s) : OnlyChanges [.stw] s (tickSeq s) := by
  unfold tickSeq
  repeat (first
    | with_reducible exact OnlyChanges.refl _ _
    | with_reducible assumption
    | (extract_lets +onlyGivenNames t1; clear_value t1)
    | extract_lets
    | (fail_if_no_progress (with_reducible apply OnlyChanges.upd <;> first | exact Or.inr (by decide) | exact Or.inl (by with_reducible rfl) | skip)))

theorem putItem_only (s) (x1) (x2) : OnlyChanges [.stw] s (putItem s x1 x2) := by
  unfold putItem
  repeat (first
    | with_reducible exact OnlyChanges.refl _ _
    | with_reducible assumption
    | (extract_lets +onlyGivenNames t1; clear_value t1)
    | extract_lets
    | (fail_if_no_progress (with_reducible apply OnlyChanges.upd <;> first | exact Or.inr (by decide) | exact Or.inl (by with_reducible rfl) | skip)))

theorem makeReady_only (x0) (s) : OnlyChanges [.stw] s (makeReady x0 s) := by
  unfold makeReady
  repeat (first
    | with_reducible exact OnlyChanges.refl _ _
    | with_reducible assumption
    | (with_reducible refine (tickSeq_only ..).after (by decide) ?_)
    | (with_reducible refine (putItem_only ..).after (by decide) ?_)
    | extract_lets
    | split
    | with_reducible refine OnlyChanges.ite ?_ ?_)

theorem advanceFlow_only (x0) (s) : OnlyChanges [.stw] s (advanceFlow x0 s) := by
  unfold advanceFlow
  repeat (first
    | with_reducible exact OnlyChanges.refl _ _
    | with_reducible assumption
    | (with_reducible refine (makeReady_only ..).after (by decide) ?_)
    | extract_lets
    | split
    | with_reducible refine OnlyChanges.ite ?_ ?_)

theorem addAt_only (x0) (x1) (s) : OnlyChanges [.regs, .stw] s (addAt x0 x1 s) := by
  unfold addAt
  repeat (first
    | with_reducible exact OnlyChanges.refl _ _
    | with_reducible assumption
    | (with_reducible refine (tickSeq_only ..).after (by decide) ?_)
    | (with_reducible refine (putItem_only ..).after (by decide) ?_)
    | (with_reducible refine (evIf_only ..).after (by decide) ?_)
    | (with_reducible refine (advanceFlow_only ..).after (by decide) ?_)
    | extract_lets)

theorem freeItem_only (x0) (s) : OnlyChanges [.stw] s (freeItem x0 s) := by
  unfold freeItem
  repeat (first
    | with_reducible exact OnlyChanges.refl _ _
    | with_reducible assumption
    | (with_reducible refine (advanceFlow_only ..).after (by decide) ?_)
    | (extract_lets +onlyGivenNames t1; clear_value t1)
    | extract_lets
    | split
    | with_reducible refine OnlyChanges.ite ?_ ?_
    | (fail_if_no_progress (with_reducible apply OnlyChanges.upd <;> first | exact Or.inr (by decide) | exact Or.inl (by with_reducible rfl) | skip)))

theorem stewardFrame_only (x0) (x1) (x2) (x3) (x4) (x5) (x6) (s) : OnlyChanges [.regs, .freeCtr, .stw, .lgr] s (stewardFrame x0 x1 x2 x3 x4 x5 x6 s) := by
  unfold stewardFrame
  repeat (first
    | with_reducible exact OnlyChanges.refl _ _
    | with_reducible assumption
    | (with_reducible refine (ledgerLim_only ..).after (by decide) ?_)
    | (with_reducible refine (evRaise_only ..).after (by decide) ?_)
    | (with_reducible refine (draw_only ..).after (by decide) ?_)
    | (with_reducible refine (addAt_only ..).after (by decide) ?_)
    | (with_reducible refine (sramPut_only ..).after (by decide) ?_)
    | (extract_lets +onlyGivenNames t1; with_reducible refine OnlyChanges.cut (t := t1) ?_ ?_ <;> [subst t1; (clear_value t1; intro)])
    | (extract_lets +onlyGivenNames t1; clear_value t1)
    | extract_lets
    | split
    | with_reducible refine OnlyChanges.ite ?_ ?_
    | (fail_if_no_progress (with_reducible apply OnlyChanges.upd <;> first | exact Or.inr (by decide) | exact Or.inl (by with_reducible rfl) | skip)))

theorem setGwStat_only (x0) (x1) (s) : OnlyChanges [.regs] s (setGwStat x0 x1 s) := by
  unfold setGwStat
  repeat (first
    | with_reducible exact OnlyChanges.refl _ _
    | with_reducible assumption
    | (with_reducible refine (setReg_only ..).after (by decide) ?_)
    | extract_lets
    | split
    | with_reducible refine OnlyChanges.ite ?_ ?_)

theorem nullHandle_only (x0) (x1) (s) : OnlyChanges [.regs, .rdata, .stw] s (nullHandle x0 x1 s) := by
  unfold nullHandle
  repeat (first
    | with_reducible exact OnlyChanges.refl _ _
    | with_reducible assumption
    | (with_reducible refine (setGwStat_only ..).after (by decide) ?_)
    | (with_reducible refine (setCore_only ..).after (by decide) ?_)
    | (extract_lets +onlyGivenNames t1; with_reducible refine OnlyChanges.cut (t := t1) ?_ ?_ <;> [subst t1; (clear_value t1; intro)])
    | (extract_lets +onlyGivenNames t1; clear_value t1)
    | extract_lets
    | (fail_if_no_progress (with_reducible apply OnlyChanges.upd <;> first | exact Or.inr (by decide) | exact Or.inl (by with_reducible rfl) | skip)))

theorem grantTo_only (x0) (x1) (x2) (s) : OnlyChanges [.regs, .rdata, .hif, .stw] s (grantTo x0 x1 x2 s) := by
  unfold grantTo
  repeat (first
    | with_reducible exact OnlyChanges.refl _ _
    | with_reducible assumption
    | (with_reducible refine (putItem_only ..).after (by decide) ?_)
    | (with_reducible refine (setCore_only ..).after (by decide) ?_)
    | (with_reducible refine (setReg_only ..).after (by decide) ?_)
    | (with_reducible refine (setGwStat_only ..).after (by decide) ?_)
    | (extract_lets +onlyGivenNames t1; clear_value t1)
    | extract_lets
    | split
    | with_reducible refine OnlyChanges.ite ?_ ?_
    | (fail_if_no_progress (with_reducible apply OnlyChanges.upd <;> first | exact Or.inr (by decide) | exact Or.inl (by with_reducible rfl) | skip)))

theorem finish_only (x0) (x1) (s) : OnlyChanges [.outcomes] s (finish x0 x1 s) := by
  unfold finish
  repeat (first
    | with_reducible exact OnlyChanges.refl _ _
    | with_reducible assumption
    | (with_reducible refine (report_only ..).after (by decide) ?_))

theorem badField_only (x0) (x1) (s) : OnlyChanges [.outcomes] s (badField x0 x1 s) := by
  unfold badField
  repeat (first
    | with_reducible exact OnlyChanges.refl _ _
    | with_reducible assumption
    | (with_reducible refine (report_only ..).after (by decide) ?_))

theorem checked_only {W : List Part} {s k : State} (hw : Part.outcomes ∈ W) (h : OnlyChanges W s k) (d : Desc) (used : List (Nat × Nat))
    (limits : List (Nat × Bool)) : OnlyChanges W s (checked d used limits s k) := by
  unfold checked
  split
  · exact OnlyChanges.mono (badField_only ..) (by simpa using hw)
  · exact h

theorem badBlock_only (x0) (x1) (s) : OnlyChanges [.regs, .outcomes] s (badBlock x0 x1 s) := by
  unfold badBlock
  repeat (first
    | with_reducible exact OnlyChanges.refl _ _
    | with_reducible assumption
    | (with_reducible refine (report_only ..).after (by decide) ?_)
    | (with_reducible refine (evRaise_only ..).after (by decide) ?_))

theorem answerAbort_only (x0) (s) : OnlyChanges [.regs, .outcomes] s (answerAbort x0 s) := by
  unfold answerAbort
  repeat (first
    | with_reducible exact OnlyChanges.refl _ _
    | with_reducible assumption
    | (with_reducible refine (setReg_only ..).after (by decide) ?_)
    | (with_reducible refine (report_only ..).after (by decide) ?_)
    | extract_lets
    | split
    | with_reducible refine OnlyChanges.ite ?_ ?_)

theorem answerAll_only (x0) (s) : OnlyChanges [.regs, .outcomes] s (answerAll x0 s) := by
  fun_induction answerAll x0 s
  all_goals repeat (first
    | with_reducible exact OnlyChanges.refl _ _
    | with_reducible refine OnlyChanges.trans (by with_reducible assumption) ?_
    | with_reducible assumption
    | (with_reducible refine (answerAbort_only ..).after (by decide) ?_)
    | split
    | with_reducible refine OnlyChanges.ite ?_ ?_)

theorem settleAborts_only (s) : OnlyChanges [.regs, .outcomes, .hif] s (settleAborts s) := by
  unfold settleAborts
  repeat (first
    | with_reducible exact OnlyChanges.refl _ _
    | with_reducible assumption
    | (with_reducible refine (answerAll_only ..).after (by decide) ?_)
    | (extract_lets +onlyGivenNames t1; with_reducible refine OnlyChanges.cut (t := t1) ?_ ?_ <;> [subst t1; (clear_value t1; intro)])
    | (extract_lets +onlyGivenNames t1; clear_value t1)
    | extract_lets
    | with_reducible refine OnlyChanges.ite ?_ ?_
    | (fail_if_no_progress (with_reducible apply OnlyChanges.upd <;> first | exact Or.inr (by decide) | exact Or.inl (by with_reducible rfl) | skip)))

theorem tellAborts_only (x0) (x1) (x2) (s) : OnlyChanges [.regs, .outcomes, .hif] s (tellAborts x0 x1 x2 s) := by
  unfold tellAborts
  repeat (first
    | with_reducible exact OnlyChanges.refl _ _
    | with_reducible assumption
    | (with_reducible refine (settleAborts_only ..).after (by decide) ?_)
    | (extract_lets +onlyGivenNames t1; clear_value t1)
    | extract_lets
    | split
    | with_reducible refine OnlyChanges.ite ?_ ?_
    | (fail_if_no_progress (with_reducible apply OnlyChanges.upd <;> first | exact Or.inr (by decide) | exact Or.inl (by with_reducible rfl) | skip)))

theorem commitTok_only (x0) (s) : OnlyChanges [.regs, .outcomes, .hif] s (commitTok x0 s) := by
  unfold commitTok
  repeat (first
    | with_reducible exact OnlyChanges.refl _ _
    | with_reducible assumption
    | (with_reducible refine (tellAborts_only ..).after (by decide) ?_)
    | (extract_lets +onlyGivenNames t1; clear_value t1)
    | extract_lets
    | split
    | with_reducible refine OnlyChanges.ite ?_ ?_
    | (fail_if_no_progress (with_reducible apply OnlyChanges.upd <;> first | exact Or.inr (by decide) | exact Or.inl (by with_reducible rfl) | skip)))

theorem commitToks_only (x0) (s) : OnlyChanges [.regs, .outcomes, .hif] s (commitToks x0 s) := by
  fun_induction commitToks x0 s
  all_goals repeat (first
    | with_reducible exact OnlyChanges.refl _ _
    | with_reducible refine OnlyChanges.trans (by with_reducible assumption) ?_
    | with_reducible assumption
    | (with_reducible refine (commitTok_only ..).after (by decide) ?_)
    | split)

theorem commitOutcomes_only (s) : OnlyChanges [.regs, .outcomes, .hif] s (commitOutcomes s) := by
  unfold commitOutcomes
  repeat (first
    | with_reducible exact OnlyChanges.refl _ _
    | with_reducible assumption
    | (with_reducible refine (commitToks_only ..).after (by decide) ?_))

theorem addOps_only (x0) (x1) (x2) (s) : OnlyChanges [.regs, .hif, .stw] s (addOps x0 x1 x2 s) := by
  fun_induction addOps x0 x1 x2 s
  all_goals repeat (first
    | with_reducible exact OnlyChanges.refl _ _
    | with_reducible refine OnlyChanges.trans (by with_reducible assumption) ?_
    | with_reducible assumption
    | (with_reducible refine (sramPut_only ..).after (by decide) ?_)
    | (with_reducible refine (addAt_only ..).after (by decide) ?_)
    | extract_lets
    | split
    | with_reducible refine OnlyChanges.ite ?_ ?_
    | (fail_if_no_progress (with_reducible apply OnlyChanges.upd <;> first | exact Or.inr (by decide) | exact Or.inl (by with_reducible rfl) | skip)))

theorem releaseFences_only (x0) (s) : OnlyChanges [.regs, .hif, .stw] s (releaseFences x0 s) := by
  unfold releaseFences
  repeat (first
    | with_reducible exact OnlyChanges.refl _ _
    | with_reducible assumption
    | (with_reducible refine (addOps_only ..).after (by decide) ?_))

theorem settleOp_only (s) (x1) : OnlyChanges [.hif] s (settleOp s x1) := by
  unfold settleOp
  repeat (first
    | with_reducible exact OnlyChanges.refl _ _
    | with_reducible assumption
    | (extract_lets +onlyGivenNames t1; clear_value t1)
    | extract_lets
    | split
    | with_reducible refine OnlyChanges.ite ?_ ?_
    | (fail_if_no_progress (with_reducible apply OnlyChanges.upd <;> first | exact Or.inr (by decide) | exact Or.inl (by with_reducible rfl) | skip)))

theorem dropOp_only (s) (x1) : OnlyChanges [.hif] s (dropOp s x1) := by
  unfold dropOp
  repeat (first
    | with_reducible exact OnlyChanges.refl _ _
    | with_reducible assumption
    | (extract_lets +onlyGivenNames t1; clear_value t1)
    | extract_lets
    | with_reducible refine OnlyChanges.ite ?_ ?_
    | (fail_if_no_progress (with_reducible apply OnlyChanges.upd <;> first | exact Or.inr (by decide) | exact Or.inl (by with_reducible rfl) | skip)))

theorem setCq_only (s) (x1) (x2) : OnlyChanges [.hif] s (setCq s x1 x2) := by
  unfold setCq
  repeat (first
    | with_reducible exact OnlyChanges.refl _ _
    | with_reducible assumption
    | (extract_lets +onlyGivenNames t1; clear_value t1)
    | extract_lets
    | with_reducible refine OnlyChanges.ite ?_ ?_
    | (fail_if_no_progress (with_reducible apply OnlyChanges.upd <;> first | exact Or.inr (by decide) | exact Or.inl (by with_reducible rfl) | skip)))

theorem sendVector_only (x0) (s) : OnlyChanges [.outs, .hif] s (sendVector x0 s) := by
  unfold sendVector
  repeat (first
    | with_reducible exact OnlyChanges.refl _ _
    | with_reducible assumption
    | (with_reducible refine (emit_only ..).after (by decide) ?_)
    | (extract_lets +onlyGivenNames t1; clear_value t1)
    | extract_lets
    | split
    | with_reducible refine OnlyChanges.ite ?_ ?_
    | (fail_if_no_progress (with_reducible apply OnlyChanges.upd <;> first | exact Or.inr (by decide) | exact Or.inl (by with_reducible rfl) | skip)))

theorem moderate_only (x0) (s) : OnlyChanges [.outs, .hif] s (moderate x0 s) := by
  unfold moderate
  repeat (first
    | with_reducible exact OnlyChanges.refl _ _
    | with_reducible assumption
    | (with_reducible refine (sendVector_only ..).after (by decide) ?_)
    | (with_reducible refine (setCq_only ..).after (by decide) ?_)
    | (extract_lets +onlyGivenNames t1; clear_value t1)
    | extract_lets
    | split
    | with_reducible refine OnlyChanges.ite ?_ ?_)

theorem writeCpl_only (x0) (x1) (s) : OnlyChanges [.outs, .hostMem, .dueWrites, .hif] s (writeCpl x0 x1 s) := by
  unfold writeCpl
  repeat (first
    | with_reducible exact OnlyChanges.refl _ _
    | with_reducible assumption
    | (with_reducible refine (hostWrite_only ..).after (by decide) ?_)
    | (with_reducible refine (setCq_only ..).after (by decide) ?_)
    | (with_reducible refine (moderate_only ..).after (by decide) ?_)
    | (with_reducible refine (dropOp_only ..).after (by decide) ?_)
    | extract_lets
    | split
    | with_reducible refine OnlyChanges.ite ?_ ?_)

theorem pmeDue_only (s) : OnlyChanges [.outs, .hif] s (pmeDue s) := by
  unfold pmeDue
  repeat (first
    | with_reducible exact OnlyChanges.refl _ _
    | with_reducible assumption
    | (with_reducible refine (emit_only ..).after (by decide) ?_)
    | (extract_lets +onlyGivenNames t1; clear_value t1)
    | extract_lets
    | split
    | with_reducible refine OnlyChanges.ite ?_ ?_
    | (fail_if_no_progress (with_reducible apply OnlyChanges.upd <;> first | exact Or.inr (by decide) | exact Or.inl (by with_reducible rfl) | skip)))

theorem noteFull_only (x0) (s) : OnlyChanges [.regs, .hif] s (noteFull x0 s) := by
  unfold noteFull
  repeat (first
    | with_reducible exact OnlyChanges.refl _ _
    | with_reducible assumption
    | (with_reducible refine (setCq_only ..).after (by decide) ?_)
    | (with_reducible refine (evRaise_only ..).after (by decide) ?_)
    | (extract_lets +onlyGivenNames t1; with_reducible refine OnlyChanges.cut (t := t1) ?_ ?_ <;> [subst t1; (clear_value t1; intro)])
    | (extract_lets +onlyGivenNames t1; clear_value t1)
    | extract_lets
    | split
    | with_reducible refine OnlyChanges.ite ?_ ?_
    | (fail_if_no_progress (with_reducible apply OnlyChanges.upd <;> first | exact Or.inr (by decide) | exact Or.inl (by with_reducible rfl) | skip)))

theorem holdCpl_only (x0) (x1) (s) : OnlyChanges [.regs, .outs, .hif] s (holdCpl x0 x1 s) := by
  unfold holdCpl
  repeat (first
    | with_reducible exact OnlyChanges.refl _ _
    | with_reducible assumption
    | (with_reducible refine (pmeDue_only ..).after (by decide) ?_)
    | (with_reducible refine (noteFull_only ..).after (by decide) ?_)
    | (with_reducible refine (setCq_only ..).after (by decide) ?_)
    | extract_lets)

theorem postCpl_only (x0) (s) : OnlyChanges [.regs, .outs, .hostMem, .dueWrites, .hif] s (postCpl x0 s) := by
  unfold postCpl
  repeat (first
    | with_reducible exact OnlyChanges.refl _ _
    | with_reducible assumption
    | (with_reducible refine (settleOp_only ..).after (by decide) ?_)
    | (with_reducible refine (dropOp_only ..).after (by decide) ?_)
    | (with_reducible refine (writeCpl_only ..).after (by decide) ?_)
    | (with_reducible refine (holdCpl_only ..).after (by decide) ?_)
    | (extract_lets +onlyGivenNames t1; with_reducible refine OnlyChanges.cut (t := t1) ?_ ?_ <;> [subst t1; (clear_value t1; intro)])
    | (extract_lets +onlyGivenNames t1; clear_value t1)
    | extract_lets
    | split
    | with_reducible refine OnlyChanges.ite ?_ ?_)

theorem endOp_only (x0) (x1) (x2) (x3) (x4) (s) : OnlyChanges [.regs, .outs, .hostMem, .dueWrites, .hif, .stw] s (endOp x0 x1 x2 x3 x4 s) := by
  unfold endOp
  repeat (first
    | with_reducible exact OnlyChanges.refl _ _
    | with_reducible assumption
    | (with_reducible refine (releaseFences_only ..).after (by decide) ?_)
    | (with_reducible refine (postCpl_only ..).after (by decide) ?_))

theorem releaseAll_only (x0) (s) : OnlyChanges [.regs, .hif, .stw] s (releaseAll x0 s) := by
  fun_induction releaseAll x0 s
  all_goals repeat (first
    | with_reducible exact OnlyChanges.refl _ _
    | with_reducible refine OnlyChanges.trans (by with_reducible assumption) ?_
    | with_reducible assumption
    | (with_reducible refine (releaseFences_only ..).after (by decide) ?_)
    | split)

theorem freeSlotOf_only (x0) (s) : OnlyChanges [.regs, .hif, .stw] s (freeSlotOf x0 s) := by
  unfold freeSlotOf
  repeat (first
    | with_reducible exact OnlyChanges.refl _ _
    | with_reducible assumption
    | (with_reducible refine (releaseAll_only ..).after (by decide) ?_)
    | (with_reducible refine (freeItem_only ..).after (by decide) ?_))

theorem dropOpItem_only (x0) (s) : OnlyChanges [.regs, .hif, .stw] s (dropOpItem x0 s) := by
  unfold dropOpItem
  repeat (first
    | with_reducible exact OnlyChanges.refl _ _
    | with_reducible assumption
    | (with_reducible refine (freeSlotOf_only ..).after (by decide) ?_)
    | extract_lets
    | split)

theorem abortQueued_only (x0) (s) : OnlyChanges [.regs, .outs, .hostMem, .dueWrites, .hif, .stw] s (abortQueued x0 s) := by
  unfold abortQueued
  repeat (first
    | with_reducible exact OnlyChanges.refl _ _
    | with_reducible assumption
    | (with_reducible refine (endOp_only ..).after (by decide) ?_)
    | (with_reducible refine (dropOpItem_only ..).after (by decide) ?_))

theorem giveNotice_only (x0) (s) : OnlyChanges [.hif] s (giveNotice x0 s) := by
  unfold giveNotice
  repeat (first
    | with_reducible exact OnlyChanges.refl _ _
    | with_reducible assumption
    | (extract_lets +onlyGivenNames t1; clear_value t1)
    | extract_lets
    | split
    | with_reducible refine OnlyChanges.ite ?_ ?_
    | (fail_if_no_progress (with_reducible apply OnlyChanges.upd <;> first | exact Or.inr (by decide) | exact Or.inl (by with_reducible rfl) | skip)))

theorem abortOne_only (x0) (s) : OnlyChanges [.regs, .outs, .hostMem, .dueWrites, .hif, .stw] s (abortOne x0 s).2.2 := by
  unfold abortOne
  repeat (first
    | with_reducible exact OnlyChanges.refl _ _
    | with_reducible assumption
    | (with_reducible refine (abortQueued_only ..).after (by decide) ?_)
    | (with_reducible refine (giveNotice_only ..).after (by decide) ?_)
    | extract_lets
    | split
    | with_reducible refine OnlyChanges.ite ?_ ?_)

theorem abortList_only (x0) (x1) (x2) (s) : OnlyChanges [.regs, .outs, .hostMem, .dueWrites, .hif, .stw] s (abortList x0 x1 x2 s).2.2 := by
  fun_induction abortList x0 x1 x2 s
  all_goals repeat (first
    | with_reducible exact OnlyChanges.refl _ _
    | with_reducible refine OnlyChanges.trans (by with_reducible assumption) ?_
    | with_reducible assumption
    | (with_reducible refine (abortOne_only ..).after (by decide) ?_)
    | split)

theorem startAbort_only (x0) (x1) (x2) (x3) (s) : OnlyChanges [.regs, .outcomes, .outs, .hostMem, .dueWrites, .hif, .stw, .mtx] s (startAbort x0 x1 x2 x3 s) := by
  unfold startAbort
  repeat (first
    | with_reducible exact OnlyChanges.refl _ _
    | with_reducible assumption
    | (with_reducible refine (commitOutcomes_only ..).after (by decide) ?_)
    | (with_reducible refine (abortList_only ..).after (by decide) ?_)
    | (with_reducible refine (resetMasters_only ..).after (by decide) ?_)
    | (with_reducible refine (settleAborts_only ..).after (by decide) ?_)
    | (extract_lets +onlyGivenNames t1; clear_value t1)
    | extract_lets
    | with_reducible refine OnlyChanges.ite ?_ ?_
    | (fail_if_no_progress (with_reducible apply OnlyChanges.upd <;> first | exact Or.inr (by decide) | exact Or.inl (by with_reducible rfl) | skip)))

theorem abortWrite_only (x0) (s) : OnlyChanges [.regs, .outcomes, .outs, .hostMem, .dueWrites, .hif, .stw, .mtx] s (abortWrite x0 s) := by
  unfold abortWrite
  repeat (first
    | with_reducible exact OnlyChanges.refl _ _
    | with_reducible assumption
    | (with_reducible refine (startAbort_only ..).after (by decide) ?_)
    | split
    | with_reducible refine OnlyChanges.ite ?_ ?_)

theorem setSq_only (s) (x1) (x2) : OnlyChanges [.hif] s (setSq s x1 x2) := by
  unfold setSq
  repeat (first
    | with_reducible exact OnlyChanges.refl _ _
    | with_reducible assumption
    | (extract_lets +onlyGivenNames t1; clear_value t1)
    | extract_lets
    | with_reducible refine OnlyChanges.ite ?_ ?_
    | (fail_if_no_progress (with_reducible apply OnlyChanges.upd <;> first | exact Or.inr (by decide) | exact Or.inl (by with_reducible rfl) | skip)))

theorem disablesDone_only (x0) (s) : OnlyChanges [.outcomes] s (disablesDone x0 s) := by
  fun_induction disablesDone x0 s
  all_goals repeat (first
    | with_reducible exact OnlyChanges.refl _ _
    | with_reducible refine OnlyChanges.trans (by with_reducible assumption) ?_
    | with_reducible assumption
    | (with_reducible refine (report_only ..).after (by decide) ?_)
    | split)

theorem settleCqs_only (x0) (s) : OnlyChanges [.hif] s (settleCqs x0 s) := by
  fun_induction settleCqs x0 s
  all_goals repeat (first
    | with_reducible exact OnlyChanges.refl _ _
    | with_reducible refine OnlyChanges.trans (by with_reducible assumption) ?_
    | with_reducible assumption
    | (with_reducible refine (setCq_only ..).after (by decide) ?_)
    | (extract_lets +onlyGivenNames t1; clear_value t1)
    | extract_lets
    | split
    | with_reducible refine OnlyChanges.ite ?_ ?_)

theorem sqDisableEnd_only (x0) (s) : OnlyChanges [.outcomes, .hif] s (sqDisableEnd x0 s) := by
  unfold sqDisableEnd
  repeat (first
    | with_reducible exact OnlyChanges.refl _ _
    | with_reducible assumption
    | (with_reducible refine (disablesDone_only ..).after (by decide) ?_)
    | (with_reducible refine (settleCqs_only ..).after (by decide) ?_)
    | (with_reducible refine (setSq_only ..).after (by decide) ?_)
    | (extract_lets +onlyGivenNames t1; clear_value t1)
    | extract_lets
    | split
    | with_reducible refine OnlyChanges.ite ?_ ?_)

theorem flushQueued_only (x0) (s) : OnlyChanges [.regs, .outs, .hostMem, .dueWrites, .hif, .stw] s (flushQueued x0 s) := by
  fun_induction flushQueued x0 s
  all_goals repeat (first
    | with_reducible exact OnlyChanges.refl _ _
    | with_reducible refine OnlyChanges.trans (by with_reducible assumption) ?_
    | with_reducible assumption
    | (with_reducible refine (endOp_only ..).after (by decide) ?_)
    | (with_reducible refine (dropOpItem_only ..).after (by decide) ?_)
    | split
    | with_reducible refine OnlyChanges.ite ?_ ?_)

theorem sqDisableStart_only (x0) (x1) (s) : OnlyChanges [.regs, .outcomes, .outs, .hostMem, .dueWrites, .hif, .stw] s (sqDisableStart x0 x1 s) := by
  unfold sqDisableStart
  repeat (first
    | with_reducible exact OnlyChanges.refl _ _
    | with_reducible assumption
    | (with_reducible refine (setSq_only ..).after (by decide) ?_)
    | (with_reducible refine (sqDisableEnd_only ..).after (by decide) ?_)
    | (with_reducible refine (flushQueued_only ..).after (by decide) ?_)
    | (with_reducible refine (report_only ..).after (by decide) ?_)
    | (extract_lets +onlyGivenNames t1; with_reducible refine OnlyChanges.cut (t := t1) ?_ ?_ <;> [subst t1; (clear_value t1; intro)])
    | (extract_lets +onlyGivenNames t1; clear_value t1)
    | extract_lets
    | split
    | with_reducible refine OnlyChanges.ite ?_ ?_)

theorem drainCq_only (x0) (x1) (s) : OnlyChanges [.regs, .outs, .hostMem, .dueWrites, .hif, .stw] s (drainCq x0 x1 s) := by
  fun_induction drainCq x0 x1 s
  all_goals repeat (first
    | with_reducible exact OnlyChanges.refl _ _
    | with_reducible refine OnlyChanges.trans (by with_reducible assumption) ?_
    | with_reducible assumption
    | (with_reducible refine (releaseFences_only ..).after (by decide) ?_)
    | (with_reducible refine (writeCpl_only ..).after (by decide) ?_)
    | (with_reducible refine (setCq_only ..).after (by decide) ?_)
    | (with_reducible refine (noteFull_only ..).after (by decide) ?_)
    | extract_lets
    | split
    | with_reducible refine OnlyChanges.ite ?_ ?_)

theorem cplAnswer_only (x0) (x1) (s) : OnlyChanges [.regs] s (cplAnswer x0 x1 s) := by
  unfold cplAnswer
  repeat (first
    | with_reducible exact OnlyChanges.refl _ _
    | with_reducible assumption
    | (with_reducible refine (setReg_only ..).after (by decide) ?_))

theorem refuseReport_only (x0) (s) : OnlyChanges [.regs, .hif] s (refuseReport x0 s) := by
  unfold refuseReport
  repeat (first
    | with_reducible exact OnlyChanges.refl _ _
    | with_reducible assumption
    | (with_reducible refine (cplAnswer_only ..).after (by decide) ?_)
    | (extract_lets +onlyGivenNames t1; clear_value t1)
    | extract_lets
    | split
    | with_reducible refine OnlyChanges.ite ?_ ?_
    | (fail_if_no_progress (with_reducible apply OnlyChanges.upd <;> first | exact Or.inr (by decide) | exact Or.inl (by with_reducible rfl) | skip)))

theorem reportCommit_only (x0) (s) : OnlyChanges [.regs, .outcomes, .hif] s (reportCommit x0 s) := by
  unfold reportCommit
  repeat (first
    | with_reducible exact OnlyChanges.refl _ _
    | with_reducible assumption
    | (with_reducible refine (cplAnswer_only ..).after (by decide) ?_)
    | (with_reducible refine (commitTok_only ..).after (by decide) ?_)
    | (with_reducible refine (refuseReport_only ..).after (by decide) ?_)
    | extract_lets
    | split)

theorem reportComplete_only (x0) (x1) (x2) (s) : OnlyChanges [.regs, .outcomes, .outs, .hostMem, .dueWrites, .hif, .stw] s (reportComplete x0 x1 x2 s) := by
  unfold reportComplete
  repeat (first
    | with_reducible exact OnlyChanges.refl _ _
    | with_reducible assumption
    | (with_reducible refine (endOp_only ..).after (by decide) ?_)
    | (with_reducible refine (cplAnswer_only ..).after (by decide) ?_)
    | (with_reducible refine (tellAborts_only ..).after (by decide) ?_)
    | (with_reducible refine (refuseReport_only ..).after (by decide) ?_)
    | extract_lets
    | split)

theorem reportWithdraw_only (x0) (s) : OnlyChanges [.regs, .outcomes, .outs, .hostMem, .dueWrites, .hif, .stw] s (reportWithdraw x0 s).2 := by
  unfold reportWithdraw
  repeat (first
    | with_reducible exact OnlyChanges.refl _ _
    | with_reducible assumption
    | (with_reducible refine (endOp_only ..).after (by decide) ?_)
    | (with_reducible refine (cplAnswer_only ..).after (by decide) ?_)
    | (with_reducible refine (tellAborts_only ..).after (by decide) ?_)
    | (with_reducible refine (refuseReport_only ..).after (by decide) ?_)
    | (extract_lets +onlyGivenNames t1; with_reducible refine OnlyChanges.cut (t := t1) ?_ ?_ <;> [subst t1; (clear_value t1; intro)])
    | extract_lets
    | split
    | with_reducible refine OnlyChanges.ite ?_ ?_)

theorem endUncertain_only (x0) (s) : OnlyChanges [.regs, .outcomes, .outs, .hostMem, .dueWrites, .hif, .stw, .lgr] s (endUncertain x0 s) := by
  unfold endUncertain
  repeat (first
    | with_reducible exact OnlyChanges.refl _ _
    | with_reducible assumption
    | (with_reducible refine (endOp_only ..).after (by decide) ?_)
    | (with_reducible refine (tellAborts_only ..).after (by decide) ?_)
    | (with_reducible refine (ledger_only ..).after (by decide) ?_)
    | (with_reducible refine (evRaise_only ..).after (by decide) ?_)
    | (extract_lets +onlyGivenNames t1; clear_value t1)
    | extract_lets
    | with_reducible refine OnlyChanges.ite ?_ ?_
    | (fail_if_no_progress (with_reducible apply OnlyChanges.upd <;> first | exact Or.inr (by decide) | exact Or.inl (by with_reducible rfl) | skip)))

theorem orphanOp_only (x0) (s) : OnlyChanges [.hif] s (orphanOp x0 s) := by
  unfold orphanOp
  repeat (first
    | with_reducible exact OnlyChanges.refl _ _
    | with_reducible assumption
    | (with_reducible refine (giveNotice_only ..).after (by decide) ?_)
    | (extract_lets +onlyGivenNames t1; with_reducible refine OnlyChanges.cut (t := t1) ?_ ?_ <;> [subst t1; (clear_value t1; intro)])
    | (extract_lets +onlyGivenNames t1; clear_value t1)
    | extract_lets
    | split
    | with_reducible refine OnlyChanges.ite ?_ ?_
    | (fail_if_no_progress (with_reducible apply OnlyChanges.upd <;> first | exact Or.inr (by decide) | exact Or.inl (by with_reducible rfl) | skip)))

theorem resetOps_only (x0) (s) : OnlyChanges [.regs, .hif, .stw] s (resetOps x0 s) := by
  fun_induction resetOps x0 s
  all_goals repeat (first
    | with_reducible exact OnlyChanges.refl _ _
    | with_reducible refine OnlyChanges.trans (by with_reducible assumption) ?_
    | with_reducible assumption
    | (with_reducible refine (dropOp_only ..).after (by decide) ?_)
    | (with_reducible refine (dropOpItem_only ..).after (by decide) ?_)
    | (with_reducible refine (orphanOp_only ..).after (by decide) ?_)
    | split
    | with_reducible refine OnlyChanges.ite ?_ ?_)

theorem clearEn_only (x0) (s) : OnlyChanges [.regs] s (clearEn x0 s) := by
  fun_induction clearEn x0 s
  all_goals repeat (first
    | with_reducible exact OnlyChanges.refl _ _
    | with_reducible refine OnlyChanges.trans (by with_reducible assumption) ?_
    | with_reducible assumption
    | (with_reducible refine (setField_only ..).after (by decide) ?_)
    | split)

theorem hostReset_only (x0) (x1) (s) : OnlyChanges [.regs, .dueWrites, .hif, .stw, .irq, .mtx, .lgr] s (hostReset x0 x1 s) := by
  unfold hostReset
  repeat (first
    | with_reducible exact OnlyChanges.refl _ _
    | with_reducible assumption
    | (with_reducible refine (resetOps_only ..).after (by decide) ?_)
    | (with_reducible refine (clearEn_only ..).after (by decide) ?_)
    | (with_reducible refine (setField_only ..).after (by decide) ?_)
    | (with_reducible refine (setReg_only ..).after (by decide) ?_)
    | (with_reducible refine (ledger_only ..).after (by decide) ?_)
    | (with_reducible refine (evRaise_only ..).after (by decide) ?_)
    | (with_reducible refine (resetMasters_only ..).after (by decide) ?_)
    | (extract_lets +onlyGivenNames t1; clear_value t1)
    | extract_lets
    | split
    | with_reducible refine OnlyChanges.ite ?_ ?_
    | (fail_if_no_progress (with_reducible apply OnlyChanges.upd <;> first | exact Or.inr (by decide) | exact Or.inl (by with_reducible rfl) | skip)))

theorem kickOp_only (s) : OnlyChanges [.hif] s (kickOp s) := by
  unfold kickOp
  repeat (first
    | with_reducible exact OnlyChanges.refl _ _
    | with_reducible assumption
    | (extract_lets +onlyGivenNames t1; clear_value t1)
    | extract_lets
    | with_reducible refine OnlyChanges.ite ?_ ?_
    | (fail_if_no_progress (with_reducible apply OnlyChanges.upd <;> first | exact Or.inr (by decide) | exact Or.inl (by with_reducible rfl) | skip)))

theorem evrCfgWrite_only (x0) (s) : OnlyChanges [.regs, .hif, .irq] s (evrCfgWrite x0 s) := by
  unfold evrCfgWrite
  repeat (first
    | with_reducible exact OnlyChanges.refl _ _
    | with_reducible assumption
    | (with_reducible refine (setReg_only ..).after (by decide) ?_)
    | (extract_lets +onlyGivenNames t1; with_reducible refine OnlyChanges.cut (t := t1) ?_ ?_ <;> [subst t1; (clear_value t1; intro)])
    | (extract_lets +onlyGivenNames t1; clear_value t1)
    | extract_lets
    | split
    | with_reducible refine OnlyChanges.ite ?_ ?_
    | (fail_if_no_progress (with_reducible apply OnlyChanges.upd <;> first | exact Or.inr (by decide) | exact Or.inl (by with_reducible rfl) | skip)))

theorem discardHeld_only (x0) (s) : OnlyChanges [.hif] s (discardHeld x0 s) := by
  unfold discardHeld
  repeat (first
    | with_reducible exact OnlyChanges.refl _ _
    | with_reducible assumption
    | (with_reducible refine (setCq_only ..).after (by decide) ?_)
    | (extract_lets +onlyGivenNames t1; with_reducible refine OnlyChanges.cut (t := t1) ?_ ?_ <;> [subst t1; (clear_value t1; intro)])
    | (extract_lets +onlyGivenNames t1; clear_value t1)
    | extract_lets
    | with_reducible refine OnlyChanges.ite ?_ ?_
    | (fail_if_no_progress (with_reducible apply OnlyChanges.upd <;> first | exact Or.inr (by decide) | exact Or.inl (by with_reducible rfl) | skip)))

theorem sqCfgWrite_only (x0) (x1) (s) : OnlyChanges [.regs, .outcomes, .outs, .hostMem, .dueWrites, .hif, .stw] s (sqCfgWrite x0 x1 s) := by
  unfold sqCfgWrite
  repeat (first
    | with_reducible exact OnlyChanges.refl _ _
    | with_reducible assumption
    | (with_reducible refine (sqDisableStart_only ..).after (by decide) ?_)
    | (with_reducible refine (setReg_only ..).after (by decide) ?_)
    | (with_reducible refine (setSq_only ..).after (by decide) ?_)
    | (with_reducible refine (discardHeld_only ..).after (by decide) ?_)
    | (extract_lets +onlyGivenNames t1; clear_value t1)
    | extract_lets
    | split
    | with_reducible refine OnlyChanges.ite ?_ ?_)

theorem drainAll_only (x0) (s) : OnlyChanges [.regs, .outs, .hostMem, .dueWrites, .hif, .stw] s (drainAll x0 s) := by
  fun_induction drainAll x0 s
  all_goals repeat (first
    | with_reducible exact OnlyChanges.refl _ _
    | with_reducible refine OnlyChanges.trans (by with_reducible assumption) ?_
    | with_reducible assumption
    | (with_reducible refine (drainCq_only ..).after (by decide) ?_)
    | split)

theorem cqCfgWrite_only (x0) (x1) (s) : OnlyChanges [.regs, .outs, .hostMem, .dueWrites, .hif, .stw] s (cqCfgWrite x0 x1 s) := by
  unfold cqCfgWrite
  repeat (first
    | with_reducible exact OnlyChanges.refl _ _
    | with_reducible assumption
    | (with_reducible refine (drainAll_only ..).after (by decide) ?_)
    | (with_reducible refine (setCq_only ..).after (by decide) ?_)
    | (with_reducible refine (setReg_only ..).after (by decide) ?_)
    | (with_reducible refine (settleCqs_only ..).after (by decide) ?_)
    | (extract_lets +onlyGivenNames t1; clear_value t1)
    | extract_lets
    | split
    | with_reducible refine OnlyChanges.ite ?_ ?_)

theorem abortGiveUp_only (x0) (s) : OnlyChanges [.regs, .outcomes, .outs, .hostMem, .dueWrites, .hif, .stw, .lgr] s (abortGiveUp x0 s) := by
  unfold abortGiveUp
  repeat (first
    | with_reducible exact OnlyChanges.refl _ _
    | with_reducible assumption
    | (with_reducible refine (endUncertain_only ..).after (by decide) ?_)
    | extract_lets
    | split
    | with_reducible refine OnlyChanges.ite ?_ ?_)

theorem flushDue_only (s) : OnlyChanges [.hostMem, .dueWrites] s (flushDue s) := by
  unfold flushDue
  repeat (first
    | with_reducible exact OnlyChanges.refl _ _
    | with_reducible assumption
    | extract_lets
    | with_reducible refine OnlyChanges.foldl_trans (fun _ _ => ?_) ?_ _
    | (fail_if_no_progress (with_reducible apply OnlyChanges.upd <;> first | exact Or.inr (by decide) | exact Or.inl (by with_reducible rfl) | skip)))

theorem sendAll_only (x0) (s) : OnlyChanges [.outs, .hif] s (sendAll x0 s) := by
  fun_induction sendAll x0 s
  all_goals repeat (first
    | with_reducible exact OnlyChanges.refl _ _
    | with_reducible refine OnlyChanges.trans (by with_reducible assumption) ?_
    | with_reducible assumption
    | (with_reducible refine (sendVector_only ..).after (by decide) ?_)
    | split)

theorem resumeHost_only (x0) (s) : OnlyChanges [.regs, .outs, .hostMem, .dueWrites, .hif, .stw] s (resumeHost x0 s) := by
  unfold resumeHost
  repeat (first
    | with_reducible exact OnlyChanges.refl _ _
    | with_reducible assumption
    | (with_reducible refine (drainAll_only ..).after (by decide) ?_)
    | (with_reducible refine (flushDue_only ..).after (by decide) ?_)
    | (with_reducible refine (sendAll_only ..).after (by decide) ?_)
    | (extract_lets +onlyGivenNames t1; with_reducible refine OnlyChanges.cut (t := t1) ?_ ?_ <;> [subst t1; (clear_value t1; intro)])
    | (extract_lets +onlyGivenNames t1; clear_value t1)
    | extract_lets
    | split
    | with_reducible refine OnlyChanges.ite ?_ ?_
    | (fail_if_no_progress (with_reducible apply OnlyChanges.upd <;> first | exact Or.inr (by decide) | exact Or.inl (by with_reducible rfl) | skip)))

theorem sendPending_only (s) : OnlyChanges [.outs, .hif] s (sendPending s) := by
  unfold sendPending
  repeat (first
    | with_reducible exact OnlyChanges.refl _ _
    | with_reducible assumption
    | (with_reducible refine (sendAll_only ..).after (by decide) ?_)
    | (extract_lets +onlyGivenNames t1; clear_value t1)
    | extract_lets
    | split
    | with_reducible refine OnlyChanges.ite ?_ ?_
    | (fail_if_no_progress (with_reducible apply OnlyChanges.upd <;> first | exact Or.inr (by decide) | exact Or.inl (by with_reducible rfl) | skip)))

theorem leaveL1_only (s) : OnlyChanges [.regs, .outs, .hostMem, .dueWrites, .hif, .stw] s (leaveL1 s) := by
  unfold leaveL1
  repeat (first
    | with_reducible exact OnlyChanges.refl _ _
    | with_reducible assumption
    | (with_reducible refine (resumeHost_only ..).after (by decide) ?_)
    | (extract_lets +onlyGivenNames t1; clear_value t1)
    | extract_lets
    | with_reducible refine OnlyChanges.ite ?_ ?_
    | (fail_if_no_progress (with_reducible apply OnlyChanges.upd <;> first | exact Or.inr (by decide) | exact Or.inl (by with_reducible rfl) | skip)))

theorem ringErr_only (x0) (x1) (x2) (s) : OnlyChanges [.regs, .lgr] s (ringErr x0 x1 x2 s) := by
  unfold ringErr
  repeat (first
    | with_reducible exact OnlyChanges.refl _ _
    | with_reducible assumption
    | (with_reducible refine (ledger_only ..).after (by decide) ?_)
    | (with_reducible refine (evRaise_only ..).after (by decide) ?_))

theorem pollSq_only (x0) (x1) (s) : OnlyChanges [.regs, .hif, .lgr] s (pollSq x0 x1 s) := by
  unfold pollSq
  repeat (first
    | with_reducible exact OnlyChanges.refl _ _
    | with_reducible assumption
    | (with_reducible refine (ringErr_only ..).after (by decide) ?_)
    | (with_reducible refine (setSq_only ..).after (by decide) ?_)
    | (extract_lets +onlyGivenNames t1; clear_value t1)
    | extract_lets
    | split
    | with_reducible refine OnlyChanges.ite ?_ ?_)

theorem pollCq_only (x0) (x1) (s) : OnlyChanges [.regs, .outs, .hostMem, .dueWrites, .hif, .stw, .lgr] s (pollCq x0 x1 s) := by
  unfold pollCq
  repeat (first
    | with_reducible exact OnlyChanges.refl _ _
    | with_reducible assumption
    | (with_reducible refine (ringErr_only ..).after (by decide) ?_)
    | (with_reducible refine (setCq_only ..).after (by decide) ?_)
    | (with_reducible refine (drainCq_only ..).after (by decide) ?_)
    | (extract_lets +onlyGivenNames t1; clear_value t1)
    | extract_lets
    | split
    | with_reducible refine OnlyChanges.ite ?_ ?_)

theorem pollEvr_only (x0) (s) : OnlyChanges [.regs, .hif, .irq, .lgr] s (pollEvr x0 s) := by
  unfold pollEvr
  repeat (first
    | with_reducible exact OnlyChanges.refl _ _
    | with_reducible assumption
    | (with_reducible refine (ringErr_only ..).after (by decide) ?_)
    | (extract_lets +onlyGivenNames t1; clear_value t1)
    | extract_lets
    | split
    | with_reducible refine OnlyChanges.ite ?_ ?_
    | (fail_if_no_progress (with_reducible apply OnlyChanges.upd <;> first | exact Or.inr (by decide) | exact Or.inl (by with_reducible rfl) | skip)))

theorem pollSqs_only (x0) (x1) (s) : OnlyChanges [.regs, .hif, .lgr] s (pollSqs x0 x1 s) := by
  fun_induction pollSqs x0 x1 s
  all_goals repeat (first
    | with_reducible exact OnlyChanges.refl _ _
    | with_reducible refine OnlyChanges.trans (by with_reducible assumption) ?_
    | with_reducible assumption
    | (with_reducible refine (pollSq_only ..).after (by decide) ?_)
    | split)

theorem pollCqs_only (x0) (x1) (s) : OnlyChanges [.regs, .outs, .hostMem, .dueWrites, .hif, .stw, .lgr] s (pollCqs x0 x1 s) := by
  fun_induction pollCqs x0 x1 s
  all_goals repeat (first
    | with_reducible exact OnlyChanges.refl _ _
    | with_reducible refine OnlyChanges.trans (by with_reducible assumption) ?_
    | with_reducible assumption
    | (with_reducible refine (pollCq_only ..).after (by decide) ?_)
    | split)

theorem fetchOne_only (x0) (x1) (s) : OnlyChanges [.regs, .outcomes, .outs, .hostMem, .dueWrites, .hif, .stw] s (fetchOne x0 x1 s) := by
  unfold fetchOne
  repeat (first
    | with_reducible exact OnlyChanges.refl _ _
    | with_reducible assumption
    | (with_reducible refine (setSq_only ..).after (by decide) ?_)
    | (with_reducible refine (endOp_only ..).after (by decide) ?_)
    | (with_reducible refine (releaseFences_only ..).after (by decide) ?_)
    | (extract_lets +onlyGivenNames t1; with_reducible refine OnlyChanges.cut (t := t1) ?_ ?_ <;> [subst t1; (clear_value t1; intro)])
    | (extract_lets +onlyGivenNames t1; clear_value t1)
    | extract_lets
    | split
    | with_reducible refine OnlyChanges.ite ?_ ?_
    | (fail_if_no_progress (with_reducible apply OnlyChanges.upd <;> first | exact Or.inr (by decide) | exact Or.inl (by with_reducible rfl) | skip)))

theorem fetchAll_only (x0) (x1) (s) : OnlyChanges [.regs, .outcomes, .outs, .hostMem, .dueWrites, .hif, .stw] s (fetchAll x0 x1 s) := by
  fun_induction fetchAll x0 x1 s
  all_goals repeat (first
    | with_reducible exact OnlyChanges.refl _ _
    | with_reducible refine OnlyChanges.trans (by with_reducible assumption) ?_
    | with_reducible assumption
    | (with_reducible refine (evRaise_only ..).after (by decide) ?_)
    | (with_reducible refine (fetchOne_only ..).after (by decide) ?_)
    | (extract_lets +onlyGivenNames t1; clear_value t1)
    | extract_lets
    | split
    | with_reducible refine OnlyChanges.ite ?_ ?_
    | (fail_if_no_progress (with_reducible apply OnlyChanges.upd <;> first | exact Or.inr (by decide) | exact Or.inl (by with_reducible rfl) | skip)))

theorem settleL1_only (s) : OnlyChanges [.hif] s (settleL1 s) := by
  unfold settleL1
  repeat (first
    | with_reducible exact OnlyChanges.refl _ _
    | with_reducible assumption
    | (extract_lets +onlyGivenNames t1; clear_value t1)
    | extract_lets
    | with_reducible refine OnlyChanges.ite ?_ ?_
    | (fail_if_no_progress (with_reducible apply OnlyChanges.upd <;> first | exact Or.inr (by decide) | exact Or.inl (by with_reducible rfl) | skip)))

theorem setDpx_only (s) (x1) : OnlyChanges [.dpx] s (setDpx s x1) := by
  unfold setDpx
  repeat (first
    | with_reducible exact OnlyChanges.refl _ _
    | with_reducible assumption
    | extract_lets
    | (fail_if_no_progress (with_reducible apply OnlyChanges.upd <;> first | exact Or.inr (by decide) | exact Or.inl (by with_reducible rfl) | skip)))

theorem setMon_only (s) (x1) (x2) : OnlyChanges [.lau] s (setMon s x1 x2) := by
  unfold setMon
  repeat (first
    | with_reducible exact OnlyChanges.refl _ _
    | with_reducible assumption
    | (extract_lets +onlyGivenNames t1; clear_value t1)
    | extract_lets
    | (fail_if_no_progress (with_reducible apply OnlyChanges.upd <;> first | exact Or.inr (by decide) | exact Or.inl (by with_reducible rfl) | skip)))

theorem monSettle_only (x0) (s) : OnlyChanges [.lau] s (monSettle x0 s) := by
  fun_induction monSettle x0 s
  all_goals repeat (first
    | with_reducible exact OnlyChanges.refl _ _
    | with_reducible refine OnlyChanges.trans (by with_reducible assumption) ?_
    | with_reducible assumption
    | (with_reducible refine (setMon_only ..).after (by decide) ?_)
    | extract_lets
    | split
    | with_reducible refine OnlyChanges.ite ?_ ?_)

theorem monSettleAll_only (s) : OnlyChanges [.lau] s (monSettleAll s) := by
  unfold monSettleAll
  repeat (first
    | with_reducible exact OnlyChanges.refl _ _
    | with_reducible assumption
    | (with_reducible refine (monSettle_only ..).after (by decide) ?_))

theorem stopDriving_only (x0) (s) : OnlyChanges [.regs, .lgr, .dpx, .lau] s (stopDriving x0 s) := by
  unfold stopDriving
  repeat (first
    | with_reducible exact OnlyChanges.refl _ _
    | with_reducible assumption
    | (with_reducible refine (setDpx_only ..).after (by decide) ?_)
    | (with_reducible refine (monSettleAll_only ..).after (by decide) ?_)
    | (with_reducible refine (ledger_only ..).after (by decide) ?_)
    | (with_reducible refine (evRaise_only ..).after (by decide) ?_)
    | extract_lets
    | split)

theorem disarmed_only (x0) (s) : OnlyChanges [.regs, .lgr, .dpx, .lau] s (disarmed x0 s) := by
  unfold disarmed
  repeat (first
    | with_reducible exact OnlyChanges.refl _ _
    | with_reducible assumption
    | (with_reducible refine (stopDriving_only ..).after (by decide) ?_)
    | (with_reducible refine (setDpx_only ..).after (by decide) ?_)
    | extract_lets
    | split
    | with_reducible refine OnlyChanges.ite ?_ ?_)

theorem clearArm_only (x0) (s) : OnlyChanges [.regs, .lgr, .dpx, .lau] s (clearArm x0 s) := by
  unfold clearArm
  repeat (first
    | with_reducible exact OnlyChanges.refl _ _
    | with_reducible assumption
    | (with_reducible refine (disarmed_only ..).after (by decide) ?_)
    | (with_reducible refine (setField_only ..).after (by decide) ?_))

theorem dpxCount_only (x0) (s) : OnlyChanges [.dpx] s (dpxCount x0 s) := by
  unfold dpxCount
  repeat (first
    | with_reducible exact OnlyChanges.refl _ _
    | with_reducible assumption
    | (with_reducible refine (setDpx_only ..).after (by decide) ?_)
    | extract_lets)

theorem startDriving_only (x0) (s) : OnlyChanges [.regs, .freeCtr, .lgr, .dpx, .lau] s (startDriving x0 s) := by
  unfold startDriving
  repeat (first
    | with_reducible exact OnlyChanges.refl _ _
    | with_reducible assumption
    | (with_reducible refine (setDpx_only ..).after (by decide) ?_)
    | (with_reducible refine (draw_only ..).after (by decide) ?_)
    | (with_reducible refine (monSettleAll_only ..).after (by decide) ?_)
    | (with_reducible refine (ledger_only ..).after (by decide) ?_)
    | (with_reducible refine (evRaise_only ..).after (by decide) ?_)
    | (with_reducible refine (dpxCount_only ..).after (by decide) ?_)
    | extract_lets
    | split
    | with_reducible refine OnlyChanges.ite ?_ ?_)

theorem tryClaim_only (s) : OnlyChanges [.regs, .freeCtr, .lgr, .dpx, .lau] s (tryClaim s) := by
  unfold tryClaim
  repeat (first
    | with_reducible exact OnlyChanges.refl _ _
    | with_reducible assumption
    | (with_reducible refine (startDriving_only ..).after (by decide) ?_)
    | (with_reducible refine (setDpx_only ..).after (by decide) ?_)
    | extract_lets
    | split
    | with_reducible refine OnlyChanges.ite ?_ ?_)

theorem armOp_only (x0) (s) : OnlyChanges [.regs, .freeCtr, .lgr, .dpx, .lau] s (armOp x0 s) := by
  unfold armOp
  repeat (first
    | with_reducible exact OnlyChanges.refl _ _
    | with_reducible assumption
    | (with_reducible refine (setField_only ..).after (by decide) ?_)
    | (with_reducible refine (tryClaim_only ..).after (by decide) ?_)
    | (with_reducible refine (setDpx_only ..).after (by decide) ?_)
    | (with_reducible refine (clearArm_only ..).after (by decide) ?_)
    | (extract_lets +onlyGivenNames t1; with_reducible refine OnlyChanges.cut (t := t1) ?_ ?_ <;> [subst t1; (clear_value t1; intro)])
    | extract_lets
    | split
    | with_reducible refine OnlyChanges.ite ?_ ?_)

theorem armWriteOp_only (x0) (s) : OnlyChanges [.regs, .freeCtr, .lgr, .dpx, .lau] s (armWriteOp x0 s) := by
  unfold armWriteOp
  repeat (first
    | with_reducible exact OnlyChanges.refl _ _
    | with_reducible assumption
    | (with_reducible refine (armOp_only ..).after (by decide) ?_)
    | split
    | with_reducible refine OnlyChanges.ite ?_ ?_)

theorem deviceFault_only (x0) (s) : OnlyChanges [.regs, .lgr, .dpx, .lau] s (deviceFault x0 s) := by
  unfold deviceFault
  repeat (first
    | with_reducible exact OnlyChanges.refl _ _
    | with_reducible assumption
    | (with_reducible refine (setDpx_only ..).after (by decide) ?_)
    | (with_reducible refine (ledger_only ..).after (by decide) ?_)
    | (with_reducible refine (evRaise_only ..).after (by decide) ?_)
    | (with_reducible refine (clearArm_only ..).after (by decide) ?_)
    | (extract_lets +onlyGivenNames t1; with_reducible refine OnlyChanges.cut (t := t1) ?_ ?_ <;> [subst t1; (clear_value t1; intro)])
    | extract_lets
    | split
    | with_reducible refine OnlyChanges.ite ?_ ?_)

theorem judge_only (x0) (s) : OnlyChanges [.regs, .lgr, .dpx] s (judge x0 s) := by
  unfold judge
  repeat (first
    | with_reducible exact OnlyChanges.refl _ _
    | with_reducible assumption
    | (with_reducible refine (dpxCount_only ..).after (by decide) ?_)
    | (with_reducible refine (ledger_only ..).after (by decide) ?_)
    | (with_reducible refine (evRaise_only ..).after (by decide) ?_)
    | (with_reducible refine (setDpx_only ..).after (by decide) ?_)
    | (with_reducible refine (setReg_only ..).after (by decide) ?_)
    | (extract_lets +onlyGivenNames t1; with_reducible refine OnlyChanges.cut (t := t1) ?_ ?_ <;> [subst t1; (clear_value t1; intro)])
    | (extract_lets +onlyGivenNames t1; clear_value t1)
    | extract_lets
    | split
    | with_reducible refine OnlyChanges.ite ?_ ?_)

theorem judgeAt_only (x0) (s) : OnlyChanges [.regs, .lgr, .dpx] s (judgeAt x0 s) := by
  unfold judgeAt
  repeat (first
    | with_reducible exact OnlyChanges.refl _ _
    | with_reducible assumption
    | (with_reducible refine (judge_only ..).after (by decide) ?_)
    | split
    | with_reducible refine OnlyChanges.ite ?_ ?_)

theorem digestBoundary_only {W : List Part} {f : List Byte → State → State} (h : ∀ b t, OnlyChanges W t (f b t)) (hw : [.regs, .lgr, .dpx] ⊆ W)
    (s : State) : OnlyChanges W s (digestBoundary f s) := by
  have hj : ∀ k t, OnlyChanges W t (judgeAt k t) := fun _ _ => OnlyChanges.mono (judgeAt_only ..) hw
  have hd : ∀ t g, OnlyChanges W t (setDpx t g) := fun _ _ => OnlyChanges.mono (setDpx_only ..) (List.Subset.trans (by decide) hw)
  unfold digestBoundary
  extract_lets
  split
  · split
    · exact (hj _ _).trans ((hd _ _).trans ((h _ _).trans (hd _ _)))
    · exact hd _ _
  · exact OnlyChanges.refl _ _

theorem syncTurn_only (s) : OnlyChanges [.dpx] s (syncTurn s) := by
  unfold syncTurn
  repeat (first
    | with_reducible exact OnlyChanges.refl _ _
    | with_reducible assumption
    | (with_reducible refine (setDpx_only ..).after (by decide) ?_)
    | extract_lets
    | split)

theorem syncFault_only (x0) (s) : OnlyChanges [.regs, .lgr, .dpx] s (syncFault x0 s) := by
  unfold syncFault
  repeat (first
    | with_reducible exact OnlyChanges.refl _ _
    | with_reducible assumption
    | (with_reducible refine (setDpx_only ..).after (by decide) ?_)
    | (with_reducible refine (dpxCount_only ..).after (by decide) ?_)
    | (with_reducible refine (evRaise_only ..).after (by decide) ?_)
    | (with_reducible refine (ledger_only ..).after (by decide) ?_)
    | (extract_lets +onlyGivenNames t1; with_reducible refine OnlyChanges.cut (t := t1) ?_ ?_ <;> [subst t1; (clear_value t1; intro)])
    | extract_lets
    | split
    | with_reducible refine OnlyChanges.ite ?_ ?_)

theorem strobeBoundary_only (s) : OnlyChanges [.regs, .outs, .lgr, .dpx] s (strobeBoundary s) := by
  unfold strobeBoundary
  repeat (first
    | with_reducible exact OnlyChanges.refl _ _
    | with_reducible assumption
    | (with_reducible refine (syncTurn_only ..).after (by decide) ?_)
    | (with_reducible refine (emit_only ..).after (by decide) ?_)
    | (with_reducible refine (setDpx_only ..).after (by decide) ?_)
    | (with_reducible refine (syncFault_only ..).after (by decide) ?_)
    | (extract_lets +onlyGivenNames t1; with_reducible refine OnlyChanges.cut (t := t1) ?_ ?_ <;> [subst t1; (clear_value t1; intro)])
    | extract_lets
    | split
    | with_reducible refine OnlyChanges.ite ?_ ?_)

theorem dpxBoundary_only (s) : OnlyChanges [.outcomes, .dpx] s (dpxBoundary s) := by
  unfold dpxBoundary
  repeat (first
    | with_reducible exact OnlyChanges.refl _ _
    | with_reducible assumption
    | (with_reducible refine (report_only ..).after (by decide) ?_)
    | (with_reducible refine (setDpx_only ..).after (by decide) ?_)
    | (extract_lets +onlyGivenNames t1; with_reducible refine OnlyChanges.cut (t := t1) ?_ ?_ <;> [subst t1; (clear_value t1; intro)])
    | extract_lets
    | split
    | with_reducible refine OnlyChanges.ite ?_ ?_)

theorem xlinkChange_only (x0) (s) : OnlyChanges [.regs, .lgr] s (xlinkChange x0 s) := by
  unfold xlinkChange
  repeat (first
    | with_reducible exact OnlyChanges.refl _ _
    | with_reducible assumption
    | (with_reducible refine (ledger_only ..).after (by decide) ?_)
    | (with_reducible refine (evRaise_only ..).after (by decide) ?_)
    | split
    | with_reducible refine OnlyChanges.ite ?_ ?_)

theorem strapConflict_only (x0) (s) : OnlyChanges [.regs, .lgr, .dpx] s (strapConflict x0 s) := by
  unfold strapConflict
  repeat (first
    | with_reducible exact OnlyChanges.refl _ _
    | with_reducible assumption
    | (with_reducible refine (setDpx_only ..).after (by decide) ?_)
    | (with_reducible refine (ledger_only ..).after (by decide) ?_)
    | (with_reducible refine (evRaise_only ..).after (by decide) ?_)
    | extract_lets)

theorem dpxFrameReceive_only (x0) (s) : OnlyChanges [.regs, .lgr, .dpx] s (dpxFrameReceive x0 s) := by
  unfold dpxFrameReceive
  repeat (first
    | with_reducible exact OnlyChanges.refl _ _
    | with_reducible assumption
    | (with_reducible refine (setDpx_only ..).after (by decide) ?_)
    | (with_reducible refine (syncFault_only ..).after (by decide) ?_)
    | (with_reducible refine (strapConflict_only ..).after (by decide) ?_)
    | (with_reducible refine (dpxCount_only ..).after (by decide) ?_)
    | (extract_lets +onlyGivenNames t1; with_reducible refine OnlyChanges.cut (t := t1) ?_ ?_ <;> [subst t1; (clear_value t1; intro)])
    | (extract_lets +onlyGivenNames t1; clear_value t1)
    | extract_lets
    | split
    | with_reducible refine OnlyChanges.ite ?_ ?_)

theorem handoffCheck_only (x0) (x1) (s) : OnlyChanges [.regs, .lgr, .dpx] s (handoffCheck x0 x1 s) := by
  unfold handoffCheck
  repeat (first
    | with_reducible exact OnlyChanges.refl _ _
    | with_reducible assumption
    | (with_reducible refine (evRaise_only ..).after (by decide) ?_)
    | (with_reducible refine (dpxCount_only ..).after (by decide) ?_)
    | (with_reducible refine (ledgerLim_only ..).after (by decide) ?_)
    | extract_lets)

theorem yieldClaim_only (s) : OnlyChanges [.regs, .freeCtr, .lgr, .dpx, .lau] s (yieldClaim s) := by
  unfold yieldClaim
  repeat (first
    | with_reducible exact OnlyChanges.refl _ _
    | with_reducible assumption
    | (with_reducible refine (setDpx_only ..).after (by decide) ?_)
    | (with_reducible refine (draw_only ..).after (by decide) ?_)
    | (with_reducible refine (evRaise_only ..).after (by decide) ?_)
    | (with_reducible refine (strapConflict_only ..).after (by decide) ?_)
    | (with_reducible refine (clearArm_only ..).after (by decide) ?_)
    | (extract_lets +onlyGivenNames t1; with_reducible refine OnlyChanges.cut (t := t1) ?_ ?_ <;> [subst t1; (clear_value t1; intro)])
    | (extract_lets +onlyGivenNames t1; clear_value t1)
    | extract_lets
    | split
    | with_reducible refine OnlyChanges.ite ?_ ?_)

theorem reportAll_only (x0) (x1) (s) : OnlyChanges [.outcomes] s (reportAll x0 x1 s) := by
  fun_induction reportAll x0 x1 s
  all_goals repeat (first
    | with_reducible exact OnlyChanges.refl _ _
    | with_reducible refine OnlyChanges.trans (by with_reducible assumption) ?_
    | with_reducible assumption
    | (with_reducible refine (report_only ..).after (by decide) ?_)
    | split)

theorem dropKeyed_only (x0) (x1) (s) : OnlyChanges [.keyed] s (dropKeyed x0 x1 s) := by
  unfold dropKeyed
  repeat (first
    | with_reducible exact OnlyChanges.refl _ _
    | with_reducible assumption
    | extract_lets
    | (fail_if_no_progress (with_reducible apply OnlyChanges.upd <;> first | exact Or.inr (by decide) | exact Or.inl (by with_reducible rfl) | skip)))

theorem commitKeyed_only (x0) (x1) (s) : OnlyChanges [.outcomes, .keyed] s (commitKeyed x0 x1 s) := by
  unfold commitKeyed
  repeat (first
    | with_reducible exact OnlyChanges.refl _ _
    | with_reducible assumption
    | (with_reducible refine (reportAll_only ..).after (by decide) ?_)
    | extract_lets
    | split
    | with_reducible refine OnlyChanges.ite ?_ ?_
    | (fail_if_no_progress (with_reducible apply OnlyChanges.upd <;> first | exact Or.inr (by decide) | exact Or.inl (by with_reducible rfl) | skip)))

theorem flushKeyed_only (s) : OnlyChanges [.outcomes, .keyed] s (flushKeyed s) := by
  unfold flushKeyed
  repeat (first
    | with_reducible exact OnlyChanges.refl _ _
    | with_reducible assumption
    | (with_reducible refine (reportAll_only ..).after (by decide) ?_)
    | extract_lets
    | (fail_if_no_progress (with_reducible apply OnlyChanges.upd <;> first | exact Or.inr (by decide) | exact Or.inl (by with_reducible rfl) | skip)))

theorem armKeyed_only (x0) (x1) (x2) (s) : OnlyChanges [.keyed, .keySeq] s (armKeyed x0 x1 x2 s) := by
  unfold armKeyed
  repeat (first
    | with_reducible exact OnlyChanges.refl _ _
    | with_reducible assumption
    | extract_lets
    | (fail_if_no_progress (with_reducible apply OnlyChanges.upd <;> first | exact Or.inr (by decide) | exact Or.inl (by with_reducible rfl) | skip)))

theorem armCutoff_only (x0) (x1) (s) : OnlyChanges [.outcomes, .keyed, .keySeq] s (armCutoff x0 x1 s) := by
  unfold armCutoff
  repeat (first
    | with_reducible exact OnlyChanges.refl _ _
    | with_reducible assumption
    | (with_reducible refine (finish_only ..).after (by decide) ?_)
    | (with_reducible refine (armKeyed_only ..).after (by decide) ?_)
    | (extract_lets +onlyGivenNames t1; clear_value t1)
    | extract_lets
    | split
    | with_reducible refine OnlyChanges.ite ?_ ?_)

theorem armOutput_only (x0) (x1) (s) : OnlyChanges [.outcomes, .keyed, .keySeq] s (armOutput x0 x1 s) := by
  unfold armOutput
  repeat (first
    | with_reducible exact OnlyChanges.refl _ _
    | with_reducible assumption
    | (with_reducible refine (armKeyed_only ..).after (by decide) ?_)
    | (with_reducible refine (finish_only ..).after (by decide) ?_)
    | (extract_lets +onlyGivenNames t1; clear_value t1)
    | extract_lets
    | split
    | with_reducible refine OnlyChanges.ite ?_ ?_)

theorem setCor_only (s) (x1) : OnlyChanges [.cor] s (setCor s x1) := by
  unfold setCor
  repeat (first
    | with_reducible exact OnlyChanges.refl _ _
    | with_reducible assumption
    | extract_lets
    | (fail_if_no_progress (with_reducible apply OnlyChanges.upd <;> first | exact Or.inr (by decide) | exact Or.inl (by with_reducible rfl) | skip)))

theorem setSch_only (s) (x1) : OnlyChanges [.sch] s (setSch s x1) := by
  unfold setSch
  repeat (first
    | with_reducible exact OnlyChanges.refl _ _
    | with_reducible assumption
    | extract_lets
    | (fail_if_no_progress (with_reducible apply OnlyChanges.upd <;> first | exact Or.inr (by decide) | exact Or.inl (by with_reducible rfl) | skip)))

theorem setRender_only (x0) (s) : OnlyChanges [.regs, .sch] s (setRender x0 s) := by
  unfold setRender
  repeat (first
    | with_reducible exact OnlyChanges.refl _ _
    | with_reducible assumption
    | (with_reducible refine (evRaise_only ..).after (by decide) ?_)
    | (with_reducible refine (setSch_only ..).after (by decide) ?_)
    | extract_lets
    | split
    | with_reducible refine OnlyChanges.ite ?_ ?_)

theorem setOut_only (s) (x1) (x2) : OnlyChanges [.cor] s (setOut s x1 x2) := by
  unfold setOut
  repeat (first
    | with_reducible exact OnlyChanges.refl _ _
    | with_reducible assumption
    | (with_reducible refine (setCor_only ..).after (by decide) ?_)
    | extract_lets)

theorem flushSegments_only (s) : OnlyChanges [.obj] s (flushSegments s) := by
  unfold flushSegments
  repeat (first
    | with_reducible exact OnlyChanges.refl _ _
    | with_reducible assumption
    | extract_lets
    | (fail_if_no_progress (with_reducible apply OnlyChanges.upd <;> first | exact Or.inr (by decide) | exact Or.inl (by with_reducible rfl) | skip)))

theorem flushTrigs_only (s) : OnlyChanges [.outcomes, .ptp] s (flushTrigs s) := by
  unfold flushTrigs
  repeat (first
    | with_reducible exact OnlyChanges.refl _ _
    | with_reducible assumption
    | (with_reducible refine (reportAll_only ..).after (by decide) ?_)
    | (extract_lets +onlyGivenNames t1; clear_value t1)
    | extract_lets
    | (fail_if_no_progress (with_reducible apply OnlyChanges.upd <;> first | exact Or.inr (by decide) | exact Or.inl (by with_reducible rfl) | skip)))

theorem flushStarts_only (s) : OnlyChanges [.outcomes, .lau] s (flushStarts s) := by
  unfold flushStarts
  repeat (first
    | with_reducible exact OnlyChanges.refl _ _
    | with_reducible assumption
    | (with_reducible refine (reportAll_only ..).after (by decide) ?_)
    | (extract_lets +onlyGivenNames t1; with_reducible refine OnlyChanges.cut (t := t1) ?_ ?_ <;> [subst t1; (clear_value t1; intro)])
    | (extract_lets +onlyGivenNames t1; clear_value t1)
    | extract_lets
    | split
    | with_reducible refine OnlyChanges.ite ?_ ?_
    | (fail_if_no_progress (with_reducible apply OnlyChanges.upd <;> first | exact Or.inr (by decide) | exact Or.inl (by with_reducible rfl) | skip)))

theorem flushEpoch_only (s) : OnlyChanges [.outcomes, .fab] s (flushEpoch s) := by
  unfold flushEpoch
  repeat (first
    | with_reducible exact OnlyChanges.refl _ _
    | with_reducible assumption
    | (with_reducible refine (report_only ..).after (by decide) ?_)
    | (extract_lets +onlyGivenNames t1; clear_value t1)
    | extract_lets
    | split
    | with_reducible refine OnlyChanges.ite ?_ ?_
    | (fail_if_no_progress (with_reducible apply OnlyChanges.upd <;> first | exact Or.inr (by decide) | exact Or.inl (by with_reducible rfl) | skip)))

theorem flushSwap_only (s) : OnlyChanges [.outcomes, .sch] s (flushSwap s) := by
  unfold flushSwap
  repeat (first
    | with_reducible exact OnlyChanges.refl _ _
    | with_reducible assumption
    | (with_reducible refine (report_only ..).after (by decide) ?_)
    | (with_reducible refine (setSch_only ..).after (by decide) ?_)
    | extract_lets
    | split
    | with_reducible refine OnlyChanges.ite ?_ ?_)

theorem flushSwitches_only (s) : OnlyChanges [.outcomes, .cor] s (flushSwitches s) := by
  unfold flushSwitches
  repeat (first
    | with_reducible exact OnlyChanges.refl _ _
    | with_reducible assumption
    | (with_reducible refine (reportAll_only ..).after (by decide) ?_)
    | (with_reducible refine (setCor_only ..).after (by decide) ?_)
    | extract_lets)

theorem flushRender_only (s) : OnlyChanges [.outcomes, .ptp, .obj, .cor, .sch, .fab, .keyed, .lau] s (flushRender s) := by
  unfold flushRender
  repeat (first
    | with_reducible exact OnlyChanges.refl _ _
    | with_reducible assumption
    | (with_reducible refine (flushSegments_only ..).after (by decide) ?_)
    | (with_reducible refine (flushTrigs_only ..).after (by decide) ?_)
    | (with_reducible refine (flushStarts_only ..).after (by decide) ?_)
    | (with_reducible refine (flushEpoch_only ..).after (by decide) ?_)
    | (with_reducible refine (flushSwap_only ..).after (by decide) ?_)
    | (with_reducible refine (flushSwitches_only ..).after (by decide) ?_)
    | (with_reducible refine (flushKeyed_only ..).after (by decide) ?_))

theorem guardRecord_only (x0) (s) : OnlyChanges [.regs, .lgr] s (guardRecord x0 s) := by
  unfold guardRecord
  repeat (first
    | with_reducible exact OnlyChanges.refl _ _
    | with_reducible assumption
    | (with_reducible refine (setReg_only ..).after (by decide) ?_)
    | (with_reducible refine (ledger_only ..).after (by decide) ?_)
    | (with_reducible refine (evRaise_only ..).after (by decide) ?_)
    | extract_lets)

theorem dropStart_only (s) : OnlyChanges [.regs, .outcomes, .sch] s (dropStart s) := by
  unfold dropStart
  repeat (first
    | with_reducible exact OnlyChanges.refl _ _
    | with_reducible assumption
    | (with_reducible refine (report_only ..).after (by decide) ?_)
    | (with_reducible refine (setRender_only ..).after (by decide) ?_)
    | (with_reducible refine (setSch_only ..).after (by decide) ?_)
    | extract_lets
    | split)

theorem guardActions_only (x0) (s) : OnlyChanges [.regs, .outcomes, .lgr, .ptp, .dpx, .obj, .cor, .sch, .fab, .keyed, .lau] s (guardActions x0 s) := by
  unfold guardActions
  repeat (first
    | with_reducible exact OnlyChanges.refl _ _
    | with_reducible assumption
    | (with_reducible refine (deviceFault_only ..).after (by decide) ?_)
    | (with_reducible refine (flushRender_only ..).after (by decide) ?_)
    | (with_reducible refine (guardRecord_only ..).after (by decide) ?_)
    | (with_reducible refine (setSch_only ..).after (by decide) ?_)
    | extract_lets)

theorem countGuard_only (s) : OnlyChanges [.regs] s (countGuard s) := by
  unfold countGuard
  repeat (first
    | with_reducible exact OnlyChanges.refl _ _
    | with_reducible assumption
    | (with_reducible refine (setReg_only ..).after (by decide) ?_))

theorem dropStop_only (s) : OnlyChanges [.regs, .outcomes, .sch] s (dropStop s) := by
  unfold dropStop
  repeat (first
    | with_reducible exact OnlyChanges.refl _ _
    | with_reducible assumption
    | (with_reducible refine (report_only ..).after (by decide) ?_)
    | (with_reducible refine (setRender_only ..).after (by decide) ?_)
    | (with_reducible refine (setSch_only ..).after (by decide) ?_)
    | extract_lets
    | split)

theorem guardFault_only (x0) (s) : OnlyChanges [.regs, .outcomes, .lgr, .ptp, .dpx, .obj, .cor, .sch, .fab, .keyed, .lau] s (guardFault x0 s) := by
  unfold guardFault
  repeat (first
    | with_reducible exact OnlyChanges.refl _ _
    | with_reducible assumption
    | (with_reducible refine (guardRecord_only ..).after (by decide) ?_)
    | (with_reducible refine (dropStart_only ..).after (by decide) ?_)
    | (with_reducible refine (guardActions_only ..).after (by decide) ?_)
    | (with_reducible refine (setRender_only ..).after (by decide) ?_)
    | (with_reducible refine (countGuard_only ..).after (by decide) ?_)
    | (with_reducible refine (dropStop_only ..).after (by decide) ?_)
    | (extract_lets +onlyGivenNames t1; with_reducible refine OnlyChanges.cut (t := t1) ?_ ?_ <;> [subst t1; (clear_value t1; intro)])
    | extract_lets
    | split
    | with_reducible refine OnlyChanges.ite ?_ ?_)

theorem guardFaults_only (x0) (s) : OnlyChanges [.regs, .outcomes, .lgr, .ptp, .dpx, .obj, .cor, .sch, .fab, .keyed, .lau] s (guardFaults x0 s) := by
  fun_induction guardFaults x0 s
  all_goals repeat (first
    | with_reducible exact OnlyChanges.refl _ _
    | with_reducible refine OnlyChanges.trans (by with_reducible assumption) ?_
    | with_reducible assumption
    | (with_reducible refine (guardFault_only ..).after (by decide) ?_)
    | split)

theorem setClk_only (s) (x1) : OnlyChanges [.clk] s (setClk s x1) := by
  unfold setClk
  repeat (first
    | with_reducible exact OnlyChanges.refl _ _
    | with_reducible assumption
    | extract_lets
    | (fail_if_no_progress (with_reducible apply OnlyChanges.upd <;> first | exact Or.inr (by decide) | exact Or.inl (by with_reducible rfl) | skip)))

theorem setRef_only (x0) (x1) (s) : OnlyChanges [.clk] s (setRef x0 x1 s) := by
  unfold setRef
  repeat (first
    | with_reducible exact OnlyChanges.refl _ _
    | with_reducible assumption
    | (with_reducible refine (setClk_only ..).after (by decide) ?_)
    | extract_lets)

theorem beginSwitch_only (x0) (x1) (s) : OnlyChanges [.clk] s (beginSwitch x0 x1 s) := by
  unfold beginSwitch
  repeat (first
    | with_reducible exact OnlyChanges.refl _ _
    | with_reducible assumption
    | (with_reducible refine (setClk_only ..).after (by decide) ?_)
    | extract_lets)

theorem autoSwitch_only (s) : OnlyChanges [.clk] s (autoSwitch s) := by
  unfold autoSwitch
  repeat (first
    | with_reducible exact OnlyChanges.refl _ _
    | with_reducible assumption
    | (with_reducible refine (beginSwitch_only ..).after (by decide) ?_)
    | extract_lets
    | split
    | with_reducible refine OnlyChanges.ite ?_ ?_)

theorem enterHoldover_only (x0) (x1) (x2) (s) : OnlyChanges [.regs, .freeCtr, .lgr, .clk] s (enterHoldover x0 x1 x2 s) := by
  unfold enterHoldover
  repeat (first
    | with_reducible exact OnlyChanges.refl _ _
    | with_reducible assumption
    | (with_reducible refine (setClk_only ..).after (by decide) ?_)
    | (with_reducible refine (draw_only ..).after (by decide) ?_)
    | (with_reducible refine (ledger_only ..).after (by decide) ?_)
    | (with_reducible refine (evRaise_only ..).after (by decide) ?_)
    | extract_lets
    | split
    | with_reducible refine OnlyChanges.ite ?_ ?_)

theorem settleWtr_only (s) : OnlyChanges [.clk] s (settleWtr s) := by
  unfold settleWtr
  repeat (first
    | with_reducible exact OnlyChanges.refl _ _
    | with_reducible assumption
    | (with_reducible refine (setClk_only ..).after (by decide) ?_)
    | extract_lets
    | split
    | with_reducible refine OnlyChanges.ite ?_ ?_)

theorem refFault_only (x0) (x1) (s) : OnlyChanges [.regs, .freeCtr, .lgr, .clk] s (refFault x0 x1 s) := by
  unfold refFault
  repeat (first
    | with_reducible exact OnlyChanges.refl _ _
    | with_reducible assumption
    | (with_reducible refine (setRef_only ..).after (by decide) ?_)
    | (with_reducible refine (evRaise_only ..).after (by decide) ?_)
    | (with_reducible refine (autoSwitch_only ..).after (by decide) ?_)
    | (with_reducible refine (enterHoldover_only ..).after (by decide) ?_)
    | (with_reducible refine (settleWtr_only ..).after (by decide) ?_)
    | (with_reducible refine (ledger_only ..).after (by decide) ?_)
    | (extract_lets +onlyGivenNames t1; with_reducible refine OnlyChanges.cut (t := t1) ?_ ?_ <;> [subst t1; (clear_value t1; intro)])
    | (extract_lets +onlyGivenNames t1; clear_value t1)
    | extract_lets
    | split
    | with_reducible refine OnlyChanges.ite ?_ ?_)

theorem refRecover_only (x0) (s) : OnlyChanges [.clk] s (refRecover x0 s) := by
  unfold refRecover
  repeat (first
    | with_reducible exact OnlyChanges.refl _ _
    | with_reducible assumption
    | (with_reducible refine (setRef_only ..).after (by decide) ?_)
    | (extract_lets +onlyGivenNames t1; clear_value t1)
    | extract_lets
    | split
    | with_reducible refine OnlyChanges.ite ?_ ?_)

theorem ptpSource_only (s) : OnlyChanges [.regs, .freeCtr, .lgr, .clk] s (ptpSource s) := by
  unfold ptpSource
  repeat (first
    | with_reducible exact OnlyChanges.refl _ _
    | with_reducible assumption
    | (with_reducible refine (refFault_only ..).after (by decide) ?_)
    | (with_reducible refine (refRecover_only ..).after (by decide) ?_)
    | split
    | with_reducible refine OnlyChanges.ite ?_ ?_)

theorem splitRead_only (x0) (x1) (s) : OnlyChanges [.latches, .rdata] s (splitRead x0 x1 s) := by
  unfold splitRead
  repeat (first
    | with_reducible exact OnlyChanges.refl _ _
    | with_reducible assumption
    | (with_reducible refine (latch_only ..).after (by decide) ?_)
    | (extract_lets +onlyGivenNames t1; with_reducible refine OnlyChanges.cut (t := t1) ?_ ?_ <;> [subst t1; (clear_value t1; intro)])
    | extract_lets
    | (fail_if_no_progress (with_reducible apply OnlyChanges.upd <;> first | exact Or.inr (by decide) | exact Or.inl (by with_reducible rfl) | skip)))

theorem mapCapture_only (x0) (s) : OnlyChanges [.regs, .lgr, .clk] s (mapCapture x0 s) := by
  unfold mapCapture
  repeat (first
    | with_reducible exact OnlyChanges.refl _ _
    | with_reducible assumption
    | (with_reducible refine (setClk_only ..).after (by decide) ?_)
    | (with_reducible refine (ledger_only ..).after (by decide) ?_)
    | (with_reducible refine (evRaise_only ..).after (by decide) ?_)
    | (extract_lets +onlyGivenNames t1; with_reducible refine OnlyChanges.cut (t := t1) ?_ ?_ <;> [subst t1; (clear_value t1; intro)])
    | (extract_lets +onlyGivenNames t1; clear_value t1)
    | extract_lets
    | split
    | with_reducible refine OnlyChanges.ite ?_ ?_)

theorem fabSource_only (x0) (x1) (s) : OnlyChanges [.regs, .freeCtr, .lgr, .clk] s (fabSource x0 x1 s) := by
  unfold fabSource
  repeat (first
    | with_reducible exact OnlyChanges.refl _ _
    | with_reducible assumption
    | (with_reducible refine (setRef_only ..).after (by decide) ?_)
    | (with_reducible refine (refFault_only ..).after (by decide) ?_)
    | (with_reducible refine (refRecover_only ..).after (by decide) ?_)
    | (extract_lets +onlyGivenNames t1; with_reducible refine OnlyChanges.cut (t := t1) ?_ ?_ <;> [subst t1; (clear_value t1; intro)])
    | (extract_lets +onlyGivenNames t1; clear_value t1)
    | extract_lets
    | split
    | with_reducible refine OnlyChanges.ite ?_ ?_)

theorem unlock_only (s) : OnlyChanges [.clk, .lau] s (unlock s) := by
  unfold unlock
  repeat (first
    | with_reducible exact OnlyChanges.refl _ _
    | with_reducible assumption
    | (with_reducible refine (monSettleAll_only ..).after (by decide) ?_)
    | (with_reducible refine (setClk_only ..).after (by decide) ?_)
    | extract_lets)

theorem clearTimer_only (x0) (s) : OnlyChanges [.clk] s (clearTimer x0 s) := by
  unfold clearTimer
  repeat (first
    | with_reducible exact OnlyChanges.refl _ _
    | with_reducible assumption
    | (with_reducible refine (setRef_only ..).after (by decide) ?_)
    | extract_lets)

theorem switchExpired_only (s) : OnlyChanges [.clk] s (switchExpired s) := by
  unfold switchExpired
  repeat (first
    | with_reducible exact OnlyChanges.refl _ _
    | with_reducible assumption
    | (with_reducible refine (beginSwitch_only ..).after (by decide) ?_)
    | (with_reducible refine (clearTimer_only ..).after (by decide) ?_)
    | extract_lets
    | split
    | with_reducible refine OnlyChanges.ite ?_ ?_)

theorem refQualify_only (x0) (s) : OnlyChanges [.regs, .lgr, .clk] s (refQualify x0 s) := by
  unfold refQualify
  repeat (first
    | with_reducible exact OnlyChanges.refl _ _
    | with_reducible assumption
    | (with_reducible refine (ledger_only ..).after (by decide) ?_)
    | (with_reducible refine (evRaise_only ..).after (by decide) ?_)
    | (with_reducible refine (setRef_only ..).after (by decide) ?_)
    | (with_reducible refine (autoSwitch_only ..).after (by decide) ?_)
    | (with_reducible refine (settleWtr_only ..).after (by decide) ?_)
    | (with_reducible refine (switchExpired_only ..).after (by decide) ?_)
    | (extract_lets +onlyGivenNames t1; with_reducible refine OnlyChanges.cut (t := t1) ?_ ?_ <;> [subst t1; (clear_value t1; intro)])
    | (extract_lets +onlyGivenNames t1; clear_value t1)
    | extract_lets
    | split
    | with_reducible refine OnlyChanges.ite ?_ ?_)

theorem pruneTimers_only (x0) (s) : OnlyChanges [.clk] s (pruneTimers x0 s) := by
  fun_induction pruneTimers x0 s
  all_goals repeat (first
    | with_reducible exact OnlyChanges.refl _ _
    | with_reducible refine OnlyChanges.trans (by with_reducible assumption) ?_
    | with_reducible assumption
    | (with_reducible refine (clearTimer_only ..).after (by decide) ?_)
    | split
    | with_reducible refine OnlyChanges.ite ?_ ?_)

theorem selectNow_only (x0) (x1) (s) : OnlyChanges [.regs, .outcomes, .freeCtr, .lgr, .clk] s (selectNow x0 x1 s) := by
  unfold selectNow
  repeat (first
    | with_reducible exact OnlyChanges.refl _ _
    | with_reducible assumption
    | (with_reducible refine (report_only ..).after (by decide) ?_)
    | (with_reducible refine (setClk_only ..).after (by decide) ?_)
    | (with_reducible refine (enterHoldover_only ..).after (by decide) ?_)
    | (with_reducible refine (autoSwitch_only ..).after (by decide) ?_)
    | (with_reducible refine (beginSwitch_only ..).after (by decide) ?_)
    | extract_lets
    | split
    | with_reducible refine OnlyChanges.ite ?_ ?_)

theorem runSelects_only (x0) (s) : OnlyChanges [.regs, .outcomes, .freeCtr, .lgr, .clk] s (runSelects x0 s) := by
  fun_induction runSelects x0 s
  all_goals repeat (first
    | with_reducible exact OnlyChanges.refl _ _
    | with_reducible refine OnlyChanges.trans (by with_reducible assumption) ?_
    | with_reducible assumption
    | (with_reducible refine (setClk_only ..).after (by decide) ?_)
    | (with_reducible refine (selectNow_only ..).after (by decide) ?_)
    | extract_lets
    | split
    | with_reducible refine OnlyChanges.ite ?_ ?_)

theorem evaluate_only (s) : OnlyChanges [.regs, .outcomes, .freeCtr, .lgr, .clk] s (evaluate s) := by
  unfold evaluate
  repeat (first
    | with_reducible exact OnlyChanges.refl _ _
    | with_reducible assumption
    | (with_reducible refine (autoSwitch_only ..).after (by decide) ?_)
    | (with_reducible refine (settleWtr_only ..).after (by decide) ?_)
    | (with_reducible refine (switchExpired_only ..).after (by decide) ?_)
    | (with_reducible refine (runSelects_only ..).after (by decide) ?_)
    | extract_lets)

theorem edgeOp_only (x0) (x1) (s) : OnlyChanges [.regs, .freeCtr, .lgr, .clk] s (edgeOp x0 x1 s) := by
  unfold edgeOp
  repeat (first
    | with_reducible exact OnlyChanges.refl _ _
    | with_reducible assumption
    | (with_reducible refine (refRecover_only ..).after (by decide) ?_)
    | (with_reducible refine (setRef_only ..).after (by decide) ?_)
    | (with_reducible refine (refFault_only ..).after (by decide) ?_)
    | (extract_lets +onlyGivenNames t1; with_reducible refine OnlyChanges.cut (t := t1) ?_ ?_ <;> [subst t1; (clear_value t1; intro)])
    | (extract_lets +onlyGivenNames t1; clear_value t1)
    | extract_lets
    | split
    | with_reducible refine OnlyChanges.ite ?_ ?_)

theorem driftTake_only (x0) (s) : OnlyChanges [.clk] s (driftTake x0 s) := by
  fun_induction driftTake x0 s
  all_goals repeat (first
    | with_reducible exact OnlyChanges.refl _ _
    | with_reducible refine OnlyChanges.trans (by with_reducible assumption) ?_
    | with_reducible assumption
    | (with_reducible refine (setRef_only ..).after (by decide) ?_)
    | (extract_lets +onlyGivenNames t1; clear_value t1)
    | extract_lets
    | split
    | with_reducible refine OnlyChanges.ite ?_ ?_)

theorem relTake_only (x0) (s) : OnlyChanges [.clk] s (relTake x0 s) := by
  fun_induction relTake x0 s
  all_goals repeat (first
    | with_reducible exact OnlyChanges.refl _ _
    | with_reducible refine OnlyChanges.trans (by with_reducible assumption) ?_
    | with_reducible assumption
    | (with_reducible refine (setRef_only ..).after (by decide) ?_)
    | extract_lets
    | split
    | with_reducible refine OnlyChanges.ite ?_ ?_)

theorem xoJudge_only (s) : OnlyChanges [.regs, .lgr, .clk] s (xoJudge s) := by
  unfold xoJudge
  repeat (first
    | with_reducible exact OnlyChanges.refl _ _
    | with_reducible assumption
    | (with_reducible refine (setClk_only ..).after (by decide) ?_)
    | (with_reducible refine (ledger_only ..).after (by decide) ?_)
    | (with_reducible refine (evRaise_only ..).after (by decide) ?_)
    | (extract_lets +onlyGivenNames t1; with_reducible refine OnlyChanges.cut (t := t1) ?_ ?_ <;> [subst t1; (clear_value t1; intro)])
    | (extract_lets +onlyGivenNames t1; clear_value t1)
    | extract_lets
    | split
    | with_reducible refine OnlyChanges.ite ?_ ?_)

theorem driftJudge_only (x0) (s) : OnlyChanges [.regs, .freeCtr, .lgr, .clk] s (driftJudge x0 s) := by
  fun_induction driftJudge x0 s
  all_goals repeat (first
    | with_reducible exact OnlyChanges.refl _ _
    | with_reducible refine OnlyChanges.trans (by with_reducible assumption) ?_
    | with_reducible assumption
    | (with_reducible refine (setRef_only ..).after (by decide) ?_)
    | (with_reducible refine (refFault_only ..).after (by decide) ?_)
    | (with_reducible refine (refRecover_only ..).after (by decide) ?_)
    | extract_lets
    | split
    | with_reducible refine OnlyChanges.ite ?_ ?_)

theorem switchDone_only (x0) (s) : OnlyChanges [.regs, .outcomes, .freeCtr, .lgr, .clk] s (switchDone x0 s) := by
  unfold switchDone
  repeat (first
    | with_reducible exact OnlyChanges.refl _ _
    | with_reducible assumption
    | (with_reducible refine (setClk_only ..).after (by decide) ?_)
    | (with_reducible refine (ledger_only ..).after (by decide) ?_)
    | (with_reducible refine (evRaise_only ..).after (by decide) ?_)
    | (with_reducible refine (pruneTimers_only ..).after (by decide) ?_)
    | (with_reducible refine (reportAll_only ..).after (by decide) ?_)
    | (with_reducible refine (evaluate_only ..).after (by decide) ?_)
    | (with_reducible refine (enterHoldover_only ..).after (by decide) ?_)
    | extract_lets
    | split
    | with_reducible refine OnlyChanges.ite ?_ ?_)

end Sys2Proof.Machine
end

