-- ==== Sys2Proof/Laws/FramesVenue.lean ====
section
/-! SUPPORT. What each operation of a group can change: objects, tables, geometry, the DRAM, the cistern and the pair engine.
One lemma per operation that answers a state; a caller cites it and never unfolds the operation. -/

namespace Sys2Proof.Machine

theorem setObj_only (s) (x1) (x2) : OnlyChanges [.obj] s (setObj s x1 x2) := by
  unfold setObj
  repeat (first
    | with_reducible exact OnlyChanges.refl _ _
    | with_reducible assumption
    | extract_lets
    | (fail_if_no_progress (with_reducible apply OnlyChanges.upd <;> first | exact Or.inr (by decide) | exact Or.inl (by with_reducible rfl) | skip)))

theorem objCount_only (x0) (x1) (x2) (s) : OnlyChanges [.obj] s (objCount x0 x1 x2 s) := by
  unfold objCount
  repeat (first
    | with_reducible exact OnlyChanges.refl _ _
    | with_reducible assumption
    | (with_reducible refine (setObj_only ..).after (by decide) ?_)
    | (extract_lets +onlyGivenNames t1; clear_value t1)
    | extract_lets
    | split
    | with_reducible refine OnlyChanges.ite ?_ ?_)

theorem segCount_only (x0) (x1) (x2) (s) : OnlyChanges [.obj] s (segCount x0 x1 x2 s) := by
  unfold segCount
  repeat (first
    | with_reducible exact OnlyChanges.refl _ _
    | with_reducible assumption
    | (with_reducible refine (objCount_only ..).after (by decide) ?_)
    | split
    | with_reducible refine OnlyChanges.ite ?_ ?_)

theorem acceptSeg_only (x0) (x1) (s) : OnlyChanges [.regs, .obj, .segUid] s (acceptSeg x0 x1 s).2 := by
  unfold acceptSeg
  repeat (first
    | with_reducible exact OnlyChanges.refl _ _
    | with_reducible assumption
    | (with_reducible refine (segCount_only ..).after (by decide) ?_)
    | (with_reducible refine (setObj_only ..).after (by decide) ?_)
    | (with_reducible refine (evRaise_only ..).after (by decide) ?_)
    | (extract_lets +onlyGivenNames t1; with_reducible refine OnlyChanges.cut (t := t1) ?_ ?_ <;> [subst t1; (clear_value t1; intro)])
    | (extract_lets +onlyGivenNames t1; clear_value t1)
    | extract_lets
    | split
    | with_reducible refine OnlyChanges.ite ?_ ?_
    | (fail_if_no_progress (with_reducible apply OnlyChanges.upd <;> first | exact Or.inr (by decide) | exact Or.inl (by with_reducible rfl) | skip)))

theorem takeSeg_only (x0) (s) : OnlyChanges [.regs, .obj, .segUid] s (takeSeg x0 s).2 := by
  unfold takeSeg
  repeat (first
    | with_reducible exact OnlyChanges.refl _ _
    | with_reducible assumption
    | (with_reducible refine (segCount_only ..).after (by decide) ?_)
    | (with_reducible refine (acceptSeg_only ..).after (by decide) ?_)
    | extract_lets
    | split
    | with_reducible refine OnlyChanges.ite ?_ ?_)

theorem segPushOp_only (x0) (x1) (s) : OnlyChanges [.regs, .obj, .segUid] s (segPushOp x0 x1 s) := by
  unfold segPushOp
  repeat (first
    | with_reducible exact OnlyChanges.refl _ _
    | with_reducible assumption
    | (with_reducible refine (takeSeg_only ..).after (by decide) ?_)
    | (with_reducible refine (setReg_only ..).after (by decide) ?_)
    | (extract_lets +onlyGivenNames t1; with_reducible refine OnlyChanges.cut (t := t1.2) ?_ ?_ <;> [subst t1; (clear_value t1; intro)])
    | (extract_lets +onlyGivenNames t1; clear_value t1)
    | extract_lets
    | split
    | with_reducible refine OnlyChanges.ite ?_ ?_)

theorem eachObj_only {W : List Part} {f : Nat → State → State} {s t : State} (h : ∀ o t, OnlyChanges W t (f o t))
    (h1 : OnlyChanges W s t) (l : List Nat) : OnlyChanges W s (eachObj f l t) := by
  induction l generalizing t with
  | nil => exact h1
  | cons o l ih => exact ih ((h o t).trans h1)

theorem applyMap_only (x0) (x1) (x2) (x3) (s) : OnlyChanges [.obj] s (applyMap x0 x1 x2 x3 s) := by
  unfold applyMap
  repeat (first
    | with_reducible exact OnlyChanges.refl _ _
    | with_reducible assumption
    | (with_reducible refine (setObj_only ..).after (by decide) ?_)
    | (extract_lets +onlyGivenNames t1; clear_value t1)
    | extract_lets
    | split
    | with_reducible refine eachObj_only (fun _ _ => ?_) ?_ _)

theorem applyCond_only (x0) (x1) (x2) (x3) (s) : OnlyChanges [.obj] s (applyCond x0 x1 x2 x3 s) := by
  unfold applyCond
  repeat (first
    | with_reducible exact OnlyChanges.refl _ _
    | with_reducible assumption
    | (with_reducible refine (setObj_only ..).after (by decide) ?_)
    | extract_lets)

theorem applyCtl_only (x0) (x1) (x2) (x3) (x4) (s) : OnlyChanges [.obj] s (applyCtl x0 x1 x2 x3 x4 s) := by
  unfold applyCtl
  repeat (first
    | with_reducible exact OnlyChanges.refl _ _
    | with_reducible assumption
    | (with_reducible refine (setObj_only ..).after (by decide) ?_)
    | extract_lets
    | with_reducible refine eachObj_only (fun _ _ => ?_) ?_ _)

theorem clearSegs_only (x0) (x1) (s) : OnlyChanges [.obj] s (clearSegs x0 x1 s) := by
  unfold clearSegs
  repeat (first
    | with_reducible exact OnlyChanges.refl _ _
    | with_reducible assumption
    | (with_reducible refine (setObj_only ..).after (by decide) ?_)
    | extract_lets)

theorem cutoffObj_only (x0) (x1) (s) : OnlyChanges [.obj] s (cutoffObj x0 x1 s) := by
  unfold cutoffObj
  repeat (first
    | with_reducible exact OnlyChanges.refl _ _
    | with_reducible assumption
    | (with_reducible refine (segCount_only ..).after (by decide) ?_)
    | (with_reducible refine (setObj_only ..).after (by decide) ?_)
    | (extract_lets +onlyGivenNames t1; clear_value t1)
    | extract_lets
    | split)

theorem cutoffSegs_only (x0) (s) : OnlyChanges [.obj] s (cutoffSegs x0 s) := by
  unfold cutoffSegs
  repeat (first
    | with_reducible exact OnlyChanges.refl _ _
    | with_reducible assumption
    | (with_reducible refine (cutoffObj_only ..).after (by decide) ?_)
    | with_reducible refine eachObj_only (fun _ _ => ?_) ?_ _)

theorem underrunRecords_only (x0) (x1) (s) : OnlyChanges [.regs, .lgr] s (underrunRecords x0 x1 s) := by
  fun_induction underrunRecords x0 x1 s
  all_goals repeat (first
    | with_reducible exact OnlyChanges.refl _ _
    | with_reducible refine OnlyChanges.trans (by with_reducible assumption) ?_
    | with_reducible assumption
    | (with_reducible refine (ledger_only ..).after (by decide) ?_)
    | extract_lets
    | split
    | with_reducible refine OnlyChanges.ite ?_ ?_)

theorem closeObj_only (x0) (x1) (s) : OnlyChanges [.regs, .obj] s (closeObj x0 x1 s) := by
  unfold closeObj
  repeat (first
    | with_reducible exact OnlyChanges.refl _ _
    | with_reducible assumption
    | (with_reducible refine (setObj_only ..).after (by decide) ?_)
    | (with_reducible refine (objCount_only ..).after (by decide) ?_)
    | (with_reducible refine (evIf_only ..).after (by decide) ?_)
    | (extract_lets +onlyGivenNames t1; with_reducible refine OnlyChanges.cut (t := t1) ?_ ?_ <;> [subst t1; (clear_value t1; intro)])
    | (extract_lets +onlyGivenNames t1; clear_value t1)
    | extract_lets
    | split
    | with_reducible refine OnlyChanges.ite ?_ ?_)

theorem closeTranche_only (x0) (s) : OnlyChanges [.regs, .lgr, .obj] s (closeTranche x0 s) := by
  unfold closeTranche
  repeat (first
    | with_reducible exact OnlyChanges.refl _ _
    | with_reducible assumption
    | (with_reducible refine (underrunRecords_only ..).after (by decide) ?_)
    | (with_reducible refine (closeObj_only ..).after (by decide) ?_)
    | extract_lets
    | with_reducible refine eachObj_only (fun _ _ => ?_) ?_ _)

theorem placeOne_only (x0) (x1) (x2) (s) : OnlyChanges [.obj] s (placeOne x0 x1 x2 s) := by
  unfold placeOne
  repeat (first
    | with_reducible exact OnlyChanges.refl _ _
    | with_reducible assumption
    | (with_reducible refine (objCount_only ..).after (by decide) ?_)
    | (with_reducible refine (setObj_only ..).after (by decide) ?_)
    | (extract_lets +onlyGivenNames t1; clear_value t1)
    | extract_lets
    | split
    | with_reducible refine OnlyChanges.ite ?_ ?_)

theorem discardFor_only (x0) (x1) (x2) (s) : OnlyChanges [.regs, .obj] s (discardFor x0 x1 x2 s) := by
  unfold discardFor
  repeat (first
    | with_reducible exact OnlyChanges.refl _ _
    | with_reducible assumption
    | (with_reducible refine (evRaise_only ..).after (by decide) ?_)
    | (with_reducible refine (objCount_only ..).after (by decide) ?_)
    | split
    | with_reducible refine OnlyChanges.ite ?_ ?_
    | with_reducible refine eachObj_only (fun _ _ => ?_) ?_ _)

theorem placeSample_only (x0) (x1) (x2) (s) : OnlyChanges [.regs, .obj] s (placeSample x0 x1 x2 s) := by
  unfold placeSample
  repeat (first
    | with_reducible exact OnlyChanges.refl _ _
    | with_reducible assumption
    | (with_reducible refine (placeOne_only ..).after (by decide) ?_)
    | (with_reducible refine (discardFor_only ..).after (by decide) ?_)
    | (extract_lets +onlyGivenNames t1; clear_value t1)
    | extract_lets
    | split
    | with_reducible refine eachObj_only (fun _ _ => ?_) ?_ _)

theorem placeChannel_only (x0) (x1) (x2) (x3) (s) : OnlyChanges [.regs, .lgr, .obj] s (placeChannel x0 x1 x2 x3 s) := by
  unfold placeChannel
  repeat (first
    | with_reducible exact OnlyChanges.refl _ _
    | with_reducible assumption
    | (with_reducible refine (objCount_only ..).after (by decide) ?_)
    | (with_reducible refine (setObj_only ..).after (by decide) ?_)
    | (with_reducible refine (ledgerLim_only ..).after (by decide) ?_)
    | (with_reducible refine (evRaise_only ..).after (by decide) ?_)
    | (extract_lets +onlyGivenNames t1; with_reducible refine OnlyChanges.cut (t := t1) ?_ ?_ <;> [subst t1; (clear_value t1; intro)])
    | (extract_lets +onlyGivenNames t1; clear_value t1)
    | extract_lets
    | split
    | with_reducible refine OnlyChanges.ite ?_ ?_)

theorem importChannel_only (x0) (x1) (x2) (x3) (s) : OnlyChanges [.regs, .lgr, .obj] s (importChannel x0 x1 x2 x3 s) := by
  unfold importChannel
  repeat (first
    | with_reducible exact OnlyChanges.refl _ _
    | with_reducible assumption
    | (with_reducible refine (placeChannel_only ..).after (by decide) ?_)
    | (with_reducible refine (discardFor_only ..).after (by decide) ?_)
    | (extract_lets +onlyGivenNames t1; clear_value t1)
    | extract_lets
    | split
    | with_reducible refine eachObj_only (fun _ _ => ?_) ?_ _)

theorem takeSegs_only (x0) (x1) (s) : OnlyChanges [.regs, .obj, .segUid] s (takeSegs x0 x1 s).2 := by
  fun_induction takeSegs x0 x1 s
  all_goals repeat (first
    | with_reducible exact OnlyChanges.refl _ _
    | with_reducible refine OnlyChanges.trans (by with_reducible assumption) ?_
    | with_reducible assumption
    | (with_reducible refine (takeSeg_only ..).after (by decide) ?_)
    | extract_lets
    | split
    | with_reducible refine OnlyChanges.ite ?_ ?_)

theorem setGeo_only (s) (x1) : OnlyChanges [.geo] s (setGeo s x1) := by
  unfold setGeo
  repeat (first
    | with_reducible exact OnlyChanges.refl _ _
    | with_reducible assumption
    | extract_lets
    | (fail_if_no_progress (with_reducible apply OnlyChanges.upd <;> first | exact Or.inr (by decide) | exact Or.inl (by with_reducible rfl) | skip)))

theorem applyBankSwitch_only (x0) (x1) (s) : OnlyChanges [.regs, .lgr, .geo] s (applyBankSwitch x0 x1 s) := by
  unfold applyBankSwitch
  repeat (first
    | with_reducible exact OnlyChanges.refl _ _
    | with_reducible assumption
    | (with_reducible refine (setGeo_only ..).after (by decide) ?_)
    | (with_reducible refine (ledger_only ..).after (by decide) ?_)
    | (with_reducible refine (evRaise_only ..).after (by decide) ?_)
    | extract_lets)

theorem applyLaws_only (x0) (x1) (s) : OnlyChanges [.obj] s (applyLaws x0 x1 s) := by
  unfold applyLaws
  repeat (first
    | with_reducible exact OnlyChanges.refl _ _
    | with_reducible assumption
    | (with_reducible refine (setObj_only ..).after (by decide) ?_)
    | (extract_lets +onlyGivenNames t1; clear_value t1)
    | extract_lets
    | split
    | with_reducible refine eachObj_only (fun _ _ => ?_) ?_ _)

theorem syncTable_only (s) (x1) : OnlyChanges [.geo] s (syncTable s x1) := by
  unfold syncTable
  repeat (first
    | with_reducible exact OnlyChanges.refl _ _
    | with_reducible assumption
    | (with_reducible refine (setGeo_only ..).after (by decide) ?_)
    | extract_lets
    | split)

theorem putCube_only (x0) (x1) (x2) (s) : OnlyChanges [.geo] s (putCube x0 x1 x2 s) := by
  unfold putCube
  repeat (first
    | with_reducible exact OnlyChanges.refl _ _
    | with_reducible assumption
    | (with_reducible refine (setGeo_only ..).after (by decide) ?_)
    | extract_lets
    | with_reducible refine OnlyChanges.foldl_trans (fun _ _ => ?_) ?_ _)

theorem geoCount_only (x0) (x1) (x2) (s) : OnlyChanges [.geo] s (geoCount x0 x1 x2 s) := by
  unfold geoCount
  repeat (first
    | with_reducible exact OnlyChanges.refl _ _
    | with_reducible assumption
    | (with_reducible refine (setGeo_only ..).after (by decide) ?_)
    | extract_lets)

theorem countShort_only (x0) (x1) (s) : OnlyChanges [.regs, .lgr, .geo] s (countShort x0 x1 s) := by
  unfold countShort
  repeat (first
    | with_reducible exact OnlyChanges.refl _ _
    | with_reducible assumption
    | (with_reducible refine (ledgerLim_only ..).after (by decide) ?_)
    | (with_reducible refine (evRaise_only ..).after (by decide) ?_)
    | (with_reducible refine (geoCount_only ..).after (by decide) ?_)
    | split
    | with_reducible refine OnlyChanges.ite ?_ ?_)

theorem countRest_only (x0) (x1) (x2) (x3) (s) : OnlyChanges [.regs, .lgr, .geo] s (countRest x0 x1 x2 x3 s) := by
  unfold countRest
  repeat (first
    | with_reducible exact OnlyChanges.refl _ _
    | with_reducible assumption
    | (with_reducible refine (countShort_only ..).after (by decide) ?_)
    | (with_reducible refine (evIf_only ..).after (by decide) ?_)
    | (with_reducible refine (geoCount_only ..).after (by decide) ?_)
    | (extract_lets +onlyGivenNames t1; clear_value t1)
    | extract_lets
    | split
    | with_reducible refine OnlyChanges.ite ?_ ?_)

theorem countSlotless_only (x0) (x1) (x2) (s) : OnlyChanges [.regs, .lgr, .geo] s (countSlotless x0 x1 x2 s) := by
  fun_induction countSlotless x0 x1 x2 s
  all_goals repeat (first
    | with_reducible exact OnlyChanges.refl _ _
    | with_reducible refine OnlyChanges.trans (by with_reducible assumption) ?_
    | with_reducible assumption
    | (with_reducible refine (countRest_only ..).after (by decide) ?_)
    | split
    | with_reducible refine OnlyChanges.ite ?_ ?_)

theorem issueEnd_only (s) : OnlyChanges [.regs, .lgr, .geo] s (issueEnd s) := by
  unfold issueEnd
  repeat (first
    | with_reducible exact OnlyChanges.refl _ _
    | with_reducible assumption
    | (with_reducible refine (countSlotless_only ..).after (by decide) ?_)
    | extract_lets
    | split)

theorem takeSnap_only (s) : OnlyChanges [.geo] s (takeSnap s) := by
  unfold takeSnap
  repeat (first
    | with_reducible exact OnlyChanges.refl _ _
    | with_reducible assumption
    | (with_reducible refine (setGeo_only ..).after (by decide) ?_)
    | extract_lets)

theorem startPass_only (x0) (s) : OnlyChanges [.geo] s (startPass x0 s) := by
  unfold startPass
  repeat (first
    | with_reducible exact OnlyChanges.refl _ _
    | with_reducible assumption
    | (with_reducible refine (setGeo_only ..).after (by decide) ?_)
    | (extract_lets +onlyGivenNames t1; clear_value t1)
    | extract_lets
    | split)

theorem endPass_only (x0) (s) : OnlyChanges [.regs, .geo, .sch] s (endPass x0 s) := by
  unfold endPass
  repeat (first
    | with_reducible exact OnlyChanges.refl _ _
    | with_reducible assumption
    | (with_reducible refine (setGeo_only ..).after (by decide) ?_)
    | (with_reducible refine (setReg_only ..).after (by decide) ?_)
    | (extract_lets +onlyGivenNames t1; clear_value t1)
    | extract_lets
    | split
    | (fail_if_no_progress (with_reducible apply OnlyChanges.upd <;> first | exact Or.inr (by decide) | exact Or.inl (by with_reducible rfl) | skip)))

theorem runPre_only (x0) (x1) (x2) (s) : OnlyChanges [.regs, .obj, .geo] s (runPre x0 x1 x2 s) := by
  unfold runPre
  repeat (first
    | with_reducible exact OnlyChanges.refl _ _
    | with_reducible assumption
    | (with_reducible refine (setGeo_only ..).after (by decide) ?_)
    | (with_reducible refine (objCount_only ..).after (by decide) ?_)
    | (with_reducible refine (evIf_only ..).after (by decide) ?_)
    | (with_reducible refine (geoCount_only ..).after (by decide) ?_)
    | (extract_lets +onlyGivenNames t1; with_reducible refine OnlyChanges.cut (t := t1) ?_ ?_ <;> [subst t1; (clear_value t1; intro)])
    | (extract_lets +onlyGivenNames t1; clear_value t1)
    | extract_lets
    | split
    | with_reducible refine OnlyChanges.ite ?_ ?_)

theorem runDir_only (x0) (x1) (s) : OnlyChanges [.regs, .lgr, .geo] s (runDir x0 x1 s) := by
  unfold runDir
  repeat (first
    | with_reducible exact OnlyChanges.refl _ _
    | with_reducible assumption
    | (with_reducible refine (setGeo_only ..).after (by decide) ?_)
    | (with_reducible refine (evIf_only ..).after (by decide) ?_)
    | (with_reducible refine (geoCount_only ..).after (by decide) ?_)
    | (with_reducible refine (ledgerLim_only ..).after (by decide) ?_)
    | extract_lets
    | split
    | with_reducible refine OnlyChanges.ite ?_ ?_)

theorem runMrg_only (x0) (s) : OnlyChanges [.geo] s (runMrg x0 s) := by
  unfold runMrg
  repeat (first
    | with_reducible exact OnlyChanges.refl _ _
    | with_reducible assumption
    | (with_reducible refine (setGeo_only ..).after (by decide) ?_)
    | extract_lets
    | split)

theorem runSlt_only (x0) (x1) (x2) (x3) (s) : OnlyChanges [.regs, .lgr, .geo] s (runSlt x0 x1 x2 x3 s) := by
  unfold runSlt
  repeat (first
    | with_reducible exact OnlyChanges.refl _ _
    | with_reducible assumption
    | (with_reducible refine (setGeo_only ..).after (by decide) ?_)
    | (with_reducible refine (evIf_only ..).after (by decide) ?_)
    | (with_reducible refine (geoCount_only ..).after (by decide) ?_)
    | (with_reducible refine (countRest_only ..).after (by decide) ?_)
    | (extract_lets +onlyGivenNames t1; with_reducible refine OnlyChanges.cut (t := t1) ?_ ?_ <;> [subst t1; (clear_value t1; intro)])
    | (extract_lets +onlyGivenNames t1; clear_value t1)
    | extract_lets
    | split
    | with_reducible refine OnlyChanges.ite ?_ ?_)

theorem setDrc_only (s) (x1) : OnlyChanges [.drc] s (setDrc s x1) := by
  unfold setDrc
  repeat (first
    | with_reducible exact OnlyChanges.refl _ _
    | with_reducible assumption
    | extract_lets
    | (fail_if_no_progress (with_reducible apply OnlyChanges.upd <;> first | exact Or.inr (by decide) | exact Or.inl (by with_reducible rfl) | skip)))

theorem dramPut_only (x0) (x1) (s) : OnlyChanges [.drc] s (dramPut x0 x1 s) := by
  unfold dramPut
  repeat (first
    | with_reducible exact OnlyChanges.refl _ _
    | with_reducible assumption
    | (with_reducible refine (setDrc_only ..).after (by decide) ?_)
    | extract_lets)

theorem drcCtlWrite_only (x0) (s) : OnlyChanges [.regs, .drc] s (drcCtlWrite x0 s) := by
  unfold drcCtlWrite
  repeat (first
    | with_reducible exact OnlyChanges.refl _ _
    | with_reducible assumption
    | (with_reducible refine (setField_only ..).after (by decide) ?_)
    | (with_reducible refine (setDrc_only ..).after (by decide) ?_)
    | (extract_lets +onlyGivenNames t1; with_reducible refine OnlyChanges.cut (t := t1) ?_ ?_ <;> [subst t1; (clear_value t1; intro)])
    | extract_lets
    | split
    | with_reducible refine OnlyChanges.ite ?_ ?_)

theorem drcRefReadOp_only (x0) (s) : OnlyChanges [.rdata, .drc] s (drcRefReadOp x0 s) := by
  unfold drcRefReadOp
  repeat (first
    | with_reducible exact OnlyChanges.refl _ _
    | with_reducible assumption
    | (with_reducible refine (setDrc_only ..).after (by decide) ?_)
    | extract_lets
    | (fail_if_no_progress (with_reducible apply OnlyChanges.upd <;> first | exact Or.inr (by decide) | exact Or.inl (by with_reducible rfl) | skip)))

theorem holdLine_only (x0) (x1) (x2) (s) : OnlyChanges [.regs] s (holdLine x0 x1 x2 s) := by
  unfold holdLine
  repeat (first
    | with_reducible exact OnlyChanges.refl _ _
    | with_reducible assumption
    | (with_reducible refine (setReg_only ..).after (by decide) ?_)
    | split
    | with_reducible refine OnlyChanges.ite ?_ ?_)

theorem countCe_only (x0) (s) : OnlyChanges [.regs, .lgr] s (countCe x0 s) := by
  unfold countCe
  repeat (first
    | with_reducible exact OnlyChanges.refl _ _
    | with_reducible assumption
    | (with_reducible refine (setReg_only ..).after (by decide) ?_)
    | (with_reducible refine (ledger_only ..).after (by decide) ?_)
    | (with_reducible refine (evRaise_only ..).after (by decide) ?_)
    | (extract_lets +onlyGivenNames t1; with_reducible refine OnlyChanges.cut (t := t1) ?_ ?_ <;> [subst t1; (clear_value t1; intro)])
    | (extract_lets +onlyGivenNames t1; clear_value t1)
    | extract_lets
    | split
    | with_reducible refine OnlyChanges.ite ?_ ?_)

theorem lineRead_only (x0) (x1) (x2) (s) : OnlyChanges [.regs, .lgr, .drc] s (lineRead x0 x1 x2 s) := by
  unfold lineRead
  repeat (first
    | with_reducible exact OnlyChanges.refl _ _
    | with_reducible assumption
    | (with_reducible refine (holdLine_only ..).after (by decide) ?_)
    | (with_reducible refine (countCe_only ..).after (by decide) ?_)
    | (with_reducible refine (setReg_only ..).after (by decide) ?_)
    | (with_reducible refine (setDrc_only ..).after (by decide) ?_)
    | (with_reducible refine (ledgerLim_only ..).after (by decide) ?_)
    | (with_reducible refine (evRaise_only ..).after (by decide) ?_)
    | (extract_lets +onlyGivenNames t1; with_reducible refine OnlyChanges.cut (t := t1) ?_ ?_ <;> [subst t1; (clear_value t1; intro)])
    | extract_lets
    | split
    | with_reducible refine OnlyChanges.ite ?_ ?_)

theorem readErrs_only (x0) (x1) (s) : OnlyChanges [.regs, .lgr, .drc] s (readErrs x0 x1 s) := by
  fun_induction readErrs x0 x1 s
  all_goals repeat (first
    | with_reducible exact OnlyChanges.refl _ _
    | with_reducible refine OnlyChanges.trans (by with_reducible assumption) ?_
    | with_reducible assumption
    | (with_reducible refine (lineRead_only ..).after (by decide) ?_)
    | split)

theorem readRuns_only (port runs errs) (s) : OnlyChanges [.regs, .lgr, .drc] s (readRuns port runs errs s).1 := by
  unfold readRuns
  exact OnlyChanges.mono (readErrs_only ..) (by decide)

theorem readRuns_snd_only (port runs errs) (s) : OnlyChanges [.regs, .lgr, .drc] s (readRuns port runs errs s).2 := by
  unfold readRuns
  extract_lets es s1 fixed
  have h1 : OnlyChanges [.regs, .lgr, .drc] s s1 := OnlyChanges.mono (readErrs_only ..) (by decide)
  have h2 : ∀ f, OnlyChanges [.regs, .lgr, .drc] s1 (setDrc s1 f) := fun _ => OnlyChanges.mono (setDrc_only ..) (by decide)
  dsimp only
  exact (h2 _).trans h1

theorem bestRead_only (a n errs) (s) : OnlyChanges [.regs, .lgr, .drc] s (bestRead a n errs s).2.2 := by
  unfold bestRead
  extract_lets r
  repeat' split
  · exact OnlyChanges.refl _ _
  · exact readRuns_only ..
  · exact readRuns_only ..

theorem putPiece_only (x0) (x1) (s) : OnlyChanges [.regs, .lgr, .drc] s (putPiece x0 x1 s).2 := by
  unfold putPiece
  repeat (first
    | with_reducible exact OnlyChanges.refl _ _
    | with_reducible assumption
    | (with_reducible refine (dramPut_only ..).after (by decide) ?_)
    | (with_reducible refine (lineRead_only ..).after (by decide) ?_)
    | (extract_lets +onlyGivenNames t1; clear_value t1)
    | extract_lets
    | split
    | with_reducible refine OnlyChanges.ite ?_ ?_)

theorem putPieces_only (x0) (x1) (s) : OnlyChanges [.regs, .lgr, .drc] s (putPieces x0 x1 s).2 := by
  fun_induction putPieces x0 x1 s
  all_goals repeat (first
    | with_reducible exact OnlyChanges.refl _ _
    | with_reducible refine OnlyChanges.trans (by with_reducible assumption) ?_
    | with_reducible assumption
    | (with_reducible refine (putPiece_only ..).after (by decide) ?_)
    | split)

theorem bestWrite_only (x0) (x1) (x2) (s) : OnlyChanges [.regs, .lgr, .drc] s (bestWrite x0 x1 x2 s).2 := by
  unfold bestWrite
  repeat (first
    | with_reducible exact OnlyChanges.refl _ _
    | with_reducible assumption
    | (with_reducible refine (putPieces_only ..).after (by decide) ?_)
    | (extract_lets +onlyGivenNames t1; with_reducible refine OnlyChanges.cut (t := t1.2) ?_ ?_ <;> [subst t1; (clear_value t1; intro)])
    | extract_lets
    | split
    | with_reducible refine OnlyChanges.ite ?_ ?_)

theorem dramZero_only (x0) (x1) (s) : OnlyChanges [.drc] s (dramZero x0 x1 s) := by
  unfold dramZero
  repeat (first
    | with_reducible exact OnlyChanges.refl _ _
    | with_reducible assumption
    | (with_reducible refine (setDrc_only ..).after (by decide) ?_)
    | extract_lets)

theorem panicTail_only (x0) (s) : OnlyChanges [.regs, .drc] s (panicTail x0 s) := by
  unfold panicTail
  repeat (first
    | with_reducible exact OnlyChanges.refl _ _
    | with_reducible assumption
    | (with_reducible refine (evIf_only ..).after (by decide) ?_)
    | (with_reducible refine (setDrc_only ..).after (by decide) ?_)
    | extract_lets)

theorem panicCis_only (x0) (s) : OnlyChanges [.regs, .drc] s (panicCis x0 s) := by
  unfold panicCis
  repeat (first
    | with_reducible exact OnlyChanges.refl _ _
    | with_reducible assumption
    | (with_reducible refine (evIf_only ..).after (by decide) ?_)
    | (with_reducible refine (setDrc_only ..).after (by decide) ?_)
    | extract_lets)

theorem payExcess_only (x0) (x1) (s) : OnlyChanges [.drc] s (payExcess x0 x1 s) := by
  unfold payExcess
  repeat (first
    | with_reducible exact OnlyChanges.refl _ _
    | with_reducible assumption
    | (with_reducible refine (setDrc_only ..).after (by decide) ?_)
    | extract_lets
    | with_reducible refine OnlyChanges.foldl_trans (fun _ _ => ?_) ?_ _)

theorem payIdle_only (x0) (x1) (s) : OnlyChanges [.drc] s (payIdle x0 x1 s) := by
  unfold payIdle
  repeat (first
    | with_reducible exact OnlyChanges.refl _ _
    | with_reducible assumption
    | (with_reducible refine (setDrc_only ..).after (by decide) ?_)
    | extract_lets)

theorem storeLanes_only (x0) (x1) (s) : OnlyChanges [.regs] s (storeLanes x0 x1 s) := by
  fun_induction storeLanes x0 x1 s
  all_goals repeat (first
    | with_reducible exact OnlyChanges.refl _ _
    | with_reducible refine OnlyChanges.trans (by with_reducible assumption) ?_
    | with_reducible assumption
    | (with_reducible refine (setReg_only ..).after (by decide) ?_)
    | split
    | with_reducible refine OnlyChanges.ite ?_ ?_)

theorem failLanes_only (x0) (s) : OnlyChanges [.regs] s (failLanes x0 s) := by
  fun_induction failLanes x0 s
  all_goals repeat (first
    | with_reducible exact OnlyChanges.refl _ _
    | with_reducible refine OnlyChanges.trans (by with_reducible assumption) ?_
    | with_reducible assumption
    | (with_reducible refine (setField_only ..).after (by decide) ?_)
    | split)

theorem enterNoDram_only (x0) (s) : OnlyChanges [.regs, .lgr, .drc] s (enterNoDram x0 s) := by
  unfold enterNoDram
  repeat (first
    | with_reducible exact OnlyChanges.refl _ _
    | with_reducible assumption
    | (with_reducible refine (ledger_only ..).after (by decide) ?_)
    | (with_reducible refine (evRaise_only ..).after (by decide) ?_)
    | (with_reducible refine (panicTail_only ..).after (by decide) ?_)
    | (with_reducible refine (panicCis_only ..).after (by decide) ?_)
    | (with_reducible refine (setDrc_only ..).after (by decide) ?_)
    | extract_lets)

theorem trainLanes_only (x0) (s) : OnlyChanges [.regs] s (trainLanes x0 s) := by
  unfold trainLanes
  repeat (first
    | with_reducible exact OnlyChanges.refl _ _
    | with_reducible assumption
    | (with_reducible refine (failLanes_only ..).after (by decide) ?_)
    | (with_reducible refine (storeLanes_only ..).after (by decide) ?_)
    | split)

theorem sramCe_only (x0) (s) : OnlyChanges [.regs, .lgr, .aon] s (sramCe x0 s) := by
  unfold sramCe
  repeat (first
    | with_reducible exact OnlyChanges.refl _ _
    | with_reducible assumption
    | (with_reducible refine (setReg_only ..).after (by decide) ?_)
    | (with_reducible refine (evRaise_only ..).after (by decide) ?_)
    | (with_reducible refine (ledger_only ..).after (by decide) ?_)
    | (extract_lets +onlyGivenNames t1; with_reducible refine OnlyChanges.cut (t := t1) ?_ ?_ <;> [subst t1; (clear_value t1; intro)])
    | (extract_lets +onlyGivenNames t1; clear_value t1)
    | extract_lets
    | split
    | with_reducible refine OnlyChanges.ite ?_ ?_
    | (fail_if_no_progress (with_reducible apply OnlyChanges.upd <;> first | exact Or.inr (by decide) | exact Or.inl (by with_reducible rfl) | skip)))

theorem sramUe_only (x0) (x1) (s) : OnlyChanges [.regs, .lgr] s (sramUe x0 x1 s) := by
  unfold sramUe
  repeat (first
    | with_reducible exact OnlyChanges.refl _ _
    | with_reducible assumption
    | (with_reducible refine (setReg_only ..).after (by decide) ?_)
    | (with_reducible refine (ledgerLim_only ..).after (by decide) ?_)
    | (with_reducible refine (evRaise_only ..).after (by decide) ?_)
    | extract_lets
    | split
    | with_reducible refine OnlyChanges.ite ?_ ?_)

theorem sramCes_only (x0) (s) : OnlyChanges [.regs, .lgr, .aon] s (sramCes x0 s) := by
  fun_induction sramCes x0 s
  all_goals repeat (first
    | with_reducible exact OnlyChanges.refl _ _
    | with_reducible refine OnlyChanges.trans (by with_reducible assumption) ?_
    | with_reducible assumption
    | (with_reducible refine (sramCe_only ..).after (by decide) ?_)
    | split)

theorem sramUes_only (x0) (x1) (s) : OnlyChanges [.regs, .lgr] s (sramUes x0 x1 s) := by
  fun_induction sramUes x0 x1 s
  all_goals repeat (first
    | with_reducible exact OnlyChanges.refl _ _
    | with_reducible refine OnlyChanges.trans (by with_reducible assumption) ?_
    | with_reducible assumption
    | (with_reducible refine (sramUe_only ..).after (by decide) ?_)
    | split)

theorem setPair_only (s) (x1) : OnlyChanges [.pair] s (setPair s x1) := by
  unfold setPair
  repeat (first
    | with_reducible exact OnlyChanges.refl _ _
    | with_reducible assumption
    | extract_lets
    | (fail_if_no_progress (with_reducible apply OnlyChanges.upd <;> first | exact Or.inr (by decide) | exact Or.inl (by with_reducible rfl) | skip)))

theorem cisStatReadOp_only (s) : OnlyChanges [.regs, .rdata] s (cisStatReadOp s) := by
  unfold cisStatReadOp
  repeat (first
    | with_reducible exact OnlyChanges.refl _ _
    | with_reducible assumption
    | (with_reducible refine (setField_only ..).after (by decide) ?_)
    | extract_lets
    | (fail_if_no_progress (with_reducible apply OnlyChanges.upd <;> first | exact Or.inr (by decide) | exact Or.inl (by with_reducible rfl) | skip)))

theorem applyCoarse_only (x0) (x1) (x2) (x3) (x4) (s) : OnlyChanges [.obj] s (applyCoarse x0 x1 x2 x3 x4 s) := by
  unfold applyCoarse
  repeat (first
    | with_reducible exact OnlyChanges.refl _ _
    | with_reducible assumption
    | (with_reducible refine (setObj_only ..).after (by decide) ?_)
    | (extract_lets +onlyGivenNames t1; clear_value t1)
    | extract_lets
    | split
    | with_reducible refine OnlyChanges.ite ?_ ?_
    | with_reducible refine eachObj_only (fun _ _ => ?_) ?_ _)

theorem writeGroups_only (x0) (x1) (s) : OnlyChanges [.drc] s (writeGroups x0 x1 s) := by
  fun_induction writeGroups x0 x1 s
  all_goals repeat (first
    | with_reducible exact OnlyChanges.refl _ _
    | with_reducible refine OnlyChanges.trans (by with_reducible assumption) ?_
    | with_reducible assumption
    | (with_reducible refine (dramPut_only ..).after (by decide) ?_)
    | split)

theorem settlePanic_only (s) : OnlyChanges [.regs, .drc] s (settlePanic s) := by
  unfold settlePanic
  repeat (first
    | with_reducible exact OnlyChanges.refl _ _
    | with_reducible assumption
    | (with_reducible refine (panicCis_only ..).after (by decide) ?_))

theorem issueFor_only (x0) (x1) (s) : OnlyChanges [.pair] s (issueFor x0 x1 s) := by
  unfold issueFor
  repeat (first
    | with_reducible exact OnlyChanges.refl _ _
    | with_reducible assumption
    | (with_reducible refine (setPair_only ..).after (by decide) ?_)
    | extract_lets)

theorem retireFetches_only (x0) (s) : OnlyChanges [.pair] s (retireFetches x0 s) := by
  unfold retireFetches
  repeat (first
    | with_reducible exact OnlyChanges.refl _ _
    | with_reducible assumption
    | (with_reducible refine (setPair_only ..).after (by decide) ?_)
    | extract_lets
    | split)

theorem putWin_only (x0) (x1) (x2) (s) : OnlyChanges [.pair] s (putWin x0 x1 x2 s) := by
  unfold putWin
  repeat (first
    | with_reducible exact OnlyChanges.refl _ _
    | with_reducible assumption
    | (with_reducible refine (setPair_only ..).after (by decide) ?_)
    | extract_lets)

theorem pairCount_only (x0) (x1) (x2) (s) : OnlyChanges [.pair] s (pairCount x0 x1 x2 s) := by
  unfold pairCount
  repeat (first
    | with_reducible exact OnlyChanges.refl _ _
    | with_reducible assumption
    | (with_reducible refine (setPair_only ..).after (by decide) ?_)
    | extract_lets)

theorem supplyBlock_only (x0) (x1) (x2) (x3) (s) : OnlyChanges [.regs, .lgr, .pair] s (supplyBlock x0 x1 x2 x3 s) := by
  unfold supplyBlock
  repeat (first
    | with_reducible exact OnlyChanges.refl _ _
    | with_reducible assumption
    | (with_reducible refine (putWin_only ..).after (by decide) ?_)
    | (with_reducible refine (ledgerLim_only ..).after (by decide) ?_)
    | (with_reducible refine (evRaise_only ..).after (by decide) ?_)
    | (with_reducible refine (pairCount_only ..).after (by decide) ?_)
    | (extract_lets +onlyGivenNames t1; with_reducible refine OnlyChanges.cut (t := t1) ?_ ?_ <;> [subst t1; (clear_value t1; intro)])
    | (extract_lets +onlyGivenNames t1; clear_value t1)
    | extract_lets
    | split
    | with_reducible refine OnlyChanges.ite ?_ ?_)

theorem refillBlock_only (x0) (x1) (x2) (s) : OnlyChanges [.regs, .lgr, .pair, .drc] s (refillBlock x0 x1 x2 s) := by
  unfold refillBlock
  repeat (first
    | with_reducible exact OnlyChanges.refl _ _
    | with_reducible assumption
    | (with_reducible refine (supplyBlock_only ..).after (by decide) ?_)
    | (with_reducible refine (ledgerLim_only ..).after (by decide) ?_)
    | (with_reducible refine (evRaise_only ..).after (by decide) ?_)
    | (with_reducible refine (pairCount_only ..).after (by decide) ?_)
    | (with_reducible refine (readRuns_only ..).after (by decide) ?_)
    | (with_reducible refine (readRuns_snd_only ..).after (by decide) ?_)
    | (extract_lets +onlyGivenNames t1; with_reducible refine OnlyChanges.cut (t := t1) ?_ ?_ <;> [subst t1; (clear_value t1; intro)])
    | (extract_lets +onlyGivenNames t1; clear_value t1)
    | extract_lets
    | split)

theorem refillObj_only (x0) (x1) (s) : OnlyChanges [.regs, .lgr, .pair, .drc] s (refillObj x0 x1 s) := by
  unfold refillObj
  repeat (first
    | with_reducible exact OnlyChanges.refl _ _
    | with_reducible assumption
    | (with_reducible refine (refillBlock_only ..).after (by decide) ?_)
    | split
    | with_reducible refine OnlyChanges.ite ?_ ?_
    | with_reducible refine OnlyChanges.foldl_trans (fun _ _ => ?_) ?_ _)

theorem supplyObj_only (x0) (x1) (s) : OnlyChanges [.regs, .lgr, .pair] s (supplyObj x0 x1 s) := by
  unfold supplyObj
  repeat (first
    | with_reducible exact OnlyChanges.refl _ _
    | with_reducible assumption
    | (with_reducible refine (supplyBlock_only ..).after (by decide) ?_)
    | (extract_lets +onlyGivenNames t1; clear_value t1)
    | extract_lets
    | split
    | with_reducible refine OnlyChanges.ite ?_ ?_)

theorem cisternTurn_only (x0) (x1) (s) : OnlyChanges [.regs, .lgr, .pair, .drc] s (cisternTurn x0 x1 s) := by
  unfold cisternTurn
  repeat (first
    | with_reducible exact OnlyChanges.refl _ _
    | with_reducible assumption
    | (with_reducible refine (writeGroups_only ..).after (by decide) ?_)
    | (with_reducible refine (settlePanic_only ..).after (by decide) ?_)
    | (with_reducible refine (setPair_only ..).after (by decide) ?_)
    | (with_reducible refine (issueFor_only ..).after (by decide) ?_)
    | (with_reducible refine (retireFetches_only ..).after (by decide) ?_)
    | (with_reducible refine (refillObj_only ..).after (by decide) ?_)
    | (with_reducible refine (supplyObj_only ..).after (by decide) ?_)
    | (extract_lets +onlyGivenNames t1; with_reducible refine OnlyChanges.cut (t := t1) ?_ ?_ <;> [subst t1; (clear_value t1; intro)])
    | extract_lets
    | split
    | with_reducible refine OnlyChanges.ite ?_ ?_
    | with_reducible refine eachObj_only (fun _ _ => ?_) ?_ _)

theorem endTrans_only (x0) (x1) (s) : OnlyChanges [.regs, .lgr, .obj] s (endTrans x0 x1 s) := by
  unfold endTrans
  repeat (first
    | with_reducible exact OnlyChanges.refl _ _
    | with_reducible assumption
    | (with_reducible refine (setObj_only ..).after (by decide) ?_)
    | (with_reducible refine (ledger_only ..).after (by decide) ?_)
    | (with_reducible refine (evRaise_only ..).after (by decide) ?_)
    | (extract_lets +onlyGivenNames t1; with_reducible refine OnlyChanges.cut (t := t1) ?_ ?_ <;> [subst t1; (clear_value t1; intro)])
    | (extract_lets +onlyGivenNames t1; clear_value t1)
    | extract_lets
    | split
    | with_reducible refine OnlyChanges.foldl_trans (fun _ _ => ?_) ?_ _)

theorem cisternBoundary_only (x0) (s) : OnlyChanges [.regs, .lgr, .obj, .pair, .drc] s (cisternBoundary x0 s) := by
  unfold cisternBoundary
  repeat (first
    | with_reducible exact OnlyChanges.refl _ _
    | with_reducible assumption
    | (with_reducible refine (cisternTurn_only ..).after (by decide) ?_)
    | (with_reducible refine (endTrans_only ..).after (by decide) ?_)
    | with_reducible refine eachObj_only (fun _ _ => ?_) ?_ _)

theorem accCount_only (x0) (x1) (x2) (s) : OnlyChanges [.pair] s (accCount x0 x1 x2 s) := by
  unfold accCount
  repeat (first
    | with_reducible exact OnlyChanges.refl _ _
    | with_reducible assumption
    | (with_reducible refine (setPair_only ..).after (by decide) ?_)
    | extract_lets)

theorem refillErrs_only (x0) (s) : OnlyChanges [.regs, .lgr, .drc] s (refillErrs x0 s) := by
  fun_induction refillErrs x0 s
  all_goals repeat (first
    | with_reducible exact OnlyChanges.refl _ _
    | with_reducible refine OnlyChanges.trans (by with_reducible assumption) ?_
    | with_reducible assumption
    | (with_reducible refine (setDrc_only ..).after (by decide) ?_)
    | (with_reducible refine (lineRead_only ..).after (by decide) ?_)
    | extract_lets
    | split
    | with_reducible refine OnlyChanges.ite ?_ ?_)

theorem countWinUe_only (x0) (x1) (s) : OnlyChanges [.regs, .lgr, .pair] s (countWinUe x0 x1 s) := by
  unfold countWinUe
  repeat (first
    | with_reducible exact OnlyChanges.refl _ _
    | with_reducible assumption
    | (with_reducible refine (pairCount_only ..).after (by decide) ?_)
    | (with_reducible refine (setPair_only ..).after (by decide) ?_)
    | (with_reducible refine (ledgerLim_only ..).after (by decide) ?_)
    | (with_reducible refine (evRaise_only ..).after (by decide) ?_)
    | (extract_lets +onlyGivenNames t1; with_reducible refine OnlyChanges.cut (t := t1) ?_ ?_ <;> [subst t1; (clear_value t1; intro)])
    | extract_lets
    | split
    | with_reducible refine OnlyChanges.ite ?_ ?_)

theorem markWin_only (x0) (s) : OnlyChanges [.regs, .lgr, .pair] s (markWin x0 s) := by
  unfold markWin
  repeat (first
    | with_reducible exact OnlyChanges.refl _ _
    | with_reducible assumption
    | (with_reducible refine (sramUe_only ..).after (by decide) ?_)
    | (with_reducible refine (setPair_only ..).after (by decide) ?_)
    | extract_lets
    | split
    | with_reducible refine OnlyChanges.ite ?_ ?_)

theorem markWins_only (x0) (s) : OnlyChanges [.regs, .lgr, .pair] s (markWins x0 s) := by
  fun_induction markWins x0 s
  all_goals repeat (first
    | with_reducible exact OnlyChanges.refl _ _
    | with_reducible refine OnlyChanges.trans (by with_reducible assumption) ?_
    | with_reducible assumption
    | (with_reducible refine (markWin_only ..).after (by decide) ?_)
    | split)

theorem condOp_only (x0) (x1) (s) : OnlyChanges [.regs, .obj, .pair] s (condOp x0 x1 s) := by
  unfold condOp
  repeat (first
    | with_reducible exact OnlyChanges.refl _ _
    | with_reducible assumption
    | (with_reducible refine (setObj_only ..).after (by decide) ?_)
    | (with_reducible refine (evIf_only ..).after (by decide) ?_)
    | (with_reducible refine (objCount_only ..).after (by decide) ?_)
    | (with_reducible refine (setPair_only ..).after (by decide) ?_)
    | (with_reducible refine (putWin_only ..).after (by decide) ?_)
    | (extract_lets +onlyGivenNames t1; with_reducible refine OnlyChanges.cut (t := t1) ?_ ?_ <;> [subst t1; (clear_value t1; intro)])
    | (extract_lets +onlyGivenNames t1; clear_value t1)
    | extract_lets
    | split
    | with_reducible refine OnlyChanges.ite ?_ ?_
    | with_reducible refine OnlyChanges.foldl_trans (fun _ _ => ?_) ?_ _)

theorem noteAge_only (x0) (s) : OnlyChanges [.regs] s (noteAge x0 s) := by
  unfold noteAge
  repeat (first
    | with_reducible exact OnlyChanges.refl _ _
    | with_reducible assumption
    | (with_reducible refine (setField_only ..).after (by decide) ?_))

theorem putInactive_only (x0) (s) : OnlyChanges [.pair] s (putInactive x0 s) := by
  unfold putInactive
  repeat (first
    | with_reducible exact OnlyChanges.refl _ _
    | with_reducible assumption
    | (with_reducible refine (setPair_only ..).after (by decide) ?_)
    | extract_lets
    | split
    | with_reducible refine OnlyChanges.ite ?_ ?_)

theorem voidInactive_only (s) : OnlyChanges [.freeCtr, .pair] s (voidInactive s) := by
  unfold voidInactive
  repeat (first
    | with_reducible exact OnlyChanges.refl _ _
    | with_reducible assumption
    | (with_reducible refine (putInactive_only ..).after (by decide) ?_)
    | (with_reducible refine (draw_only ..).after (by decide) ?_)
    | with_reducible refine OnlyChanges.foldl_trans (fun _ _ => ?_) ?_ _)

theorem switchSinc_only (x0) (s) : OnlyChanges [.pair] s (switchSinc x0 s) := by
  unfold switchSinc
  repeat (first
    | with_reducible exact OnlyChanges.refl _ _
    | with_reducible assumption
    | (with_reducible refine (setPair_only ..).after (by decide) ?_)
    | extract_lets)

theorem applyKernel_only (x0) (x1) (x2) (s) : OnlyChanges [.obj] s (applyKernel x0 x1 x2 s) := by
  unfold applyKernel
  repeat (first
    | with_reducible exact OnlyChanges.refl _ _
    | with_reducible assumption
    | (with_reducible refine (setObj_only ..).after (by decide) ?_)
    | extract_lets
    | with_reducible refine eachObj_only (fun _ _ => ?_) ?_ _)

theorem useSinc_only (x0) (s) : OnlyChanges [.pair] s (useSinc x0 s) := by
  unfold useSinc
  repeat (first
    | with_reducible exact OnlyChanges.refl _ _
    | with_reducible assumption
    | (with_reducible refine (setPair_only ..).after (by decide) ?_)
    | extract_lets
    | split
    | with_reducible refine OnlyChanges.ite ?_ ?_)

theorem zeroBank_only (x0) (s) : OnlyChanges [.pair] s (zeroBank x0 s) := by
  unfold zeroBank
  repeat (first
    | with_reducible exact OnlyChanges.refl _ _
    | with_reducible assumption
    | (with_reducible refine (setPair_only ..).after (by decide) ?_)
    | extract_lets)

theorem pairBoundary_only (x0) (s) : OnlyChanges [.pair] s (pairBoundary x0 s) := by
  unfold pairBoundary
  repeat (first
    | with_reducible exact OnlyChanges.refl _ _
    | with_reducible assumption
    | (with_reducible refine (useSinc_only ..).after (by decide) ?_)
    | (with_reducible refine (zeroBank_only ..).after (by decide) ?_)
    | (with_reducible refine (setPair_only ..).after (by decide) ?_)
    | extract_lets)

theorem auditEnd_only (x0) (s) : OnlyChanges [.regs, .lgr, .pair] s (auditEnd x0 s) := by
  unfold auditEnd
  repeat (first
    | with_reducible exact OnlyChanges.refl _ _
    | with_reducible assumption
    | (with_reducible refine (ledger_only ..).after (by decide) ?_)
    | (with_reducible refine (setPair_only ..).after (by decide) ?_)
    | extract_lets
    | split)

theorem slotOp_only (x0) (x1) (x2) (x3) (s) : OnlyChanges [.regs, .lgr, .pair] s (slotOp x0 x1 x2 x3 s) := by
  unfold slotOp
  repeat (first
    | with_reducible exact OnlyChanges.refl _ _
    | with_reducible assumption
    | (with_reducible refine (setPair_only ..).after (by decide) ?_)
    | (with_reducible refine (evIf_only ..).after (by decide) ?_)
    | (with_reducible refine (pairCount_only ..).after (by decide) ?_)
    | (with_reducible refine (countWinUe_only ..).after (by decide) ?_)
    | (extract_lets +onlyGivenNames t1; with_reducible refine OnlyChanges.cut (t := t1) ?_ ?_ <;> [subst t1; (clear_value t1; intro)])
    | (extract_lets +onlyGivenNames t1; clear_value t1)
    | extract_lets
    | split)

theorem auditSlot_only (x0) (x1) (x2) (x3) (s) : OnlyChanges [.regs, .lgr, .dpx, .pair, .lau] s (auditSlot x0 x1 x2 x3 s) := by
  unfold auditSlot
  repeat (first
    | with_reducible exact OnlyChanges.refl _ _
    | with_reducible assumption
    | (with_reducible refine (setPair_only ..).after (by decide) ?_)
    | (with_reducible refine (setReg_only ..).after (by decide) ?_)
    | (with_reducible refine (evRaise_only ..).after (by decide) ?_)
    | (with_reducible refine (deviceFault_only ..).after (by decide) ?_)
    | (extract_lets +onlyGivenNames t1; with_reducible refine OnlyChanges.cut (t := t1) ?_ ?_ <;> [subst t1; (clear_value t1; intro)])
    | (extract_lets +onlyGivenNames t1; clear_value t1)
    | extract_lets
    | split
    | with_reducible refine OnlyChanges.ite ?_ ?_)

theorem guardSlot_only (x0) (s) : OnlyChanges [.regs, .outcomes, .lgr, .ptp, .dpx, .obj, .cor, .sch, .fab, .keyed, .lau] s (guardSlot x0 s) := by
  unfold guardSlot
  repeat (first
    | with_reducible exact OnlyChanges.refl _ _
    | with_reducible assumption
    | (with_reducible refine (guardFault_only ..).after (by decide) ?_)
    | extract_lets
    | split)

theorem verifyObj_only (x0) (x1) (s) : OnlyChanges [.regs, .lgr, .pair] s (verifyObj x0 x1 s) := by
  unfold verifyObj
  repeat (first
    | with_reducible exact OnlyChanges.refl _ _
    | with_reducible assumption
    | (with_reducible refine (countWinUe_only ..).after (by decide) ?_)
    | (with_reducible refine (ledgerLim_only ..).after (by decide) ?_)
    | (with_reducible refine (evRaise_only ..).after (by decide) ?_)
    | (with_reducible refine (pairCount_only ..).after (by decide) ?_)
    | (extract_lets +onlyGivenNames t1; clear_value t1)
    | extract_lets
    | split
    | with_reducible refine OnlyChanges.ite ?_ ?_)

theorem ktblSwitchOp_only (x0) (s) : OnlyChanges [.outcomes, .keyed, .keySeq] s (ktblSwitchOp x0 s) := by
  unfold ktblSwitchOp
  repeat (first
    | with_reducible exact OnlyChanges.refl _ _
    | with_reducible assumption
    | (with_reducible refine (armCutoff_only ..).after (by decide) ?_)
    | (with_reducible refine (finish_only ..).after (by decide) ?_)
    | split
    | with_reducible refine OnlyChanges.ite ?_ ?_)

theorem clearPairCounts_only (x0) (x1) (x2) (s) : OnlyChanges [.pair] s (clearPairCounts x0 x1 x2 s) := by
  unfold clearPairCounts
  repeat (first
    | with_reducible exact OnlyChanges.refl _ _
    | with_reducible assumption
    | (with_reducible refine (setPair_only ..).after (by decide) ?_)
    | extract_lets
    | split
    | with_reducible refine OnlyChanges.ite ?_ ?_)

end Sys2Proof.Machine
end

