-- ==== Sys2Proof/Laws/FramesCorrection.lean ====
section
/-! SUPPORT. What each operation of a group can change: the correction chain, the tail and the schedule.
One lemma per operation that answers a state; a caller cites it and never unfolds the operation. -/

namespace Sys2Proof.Machine

theorem meterBoundary_only (x0) (s) : OnlyChanges [.regs, .cor] s (meterBoundary x0 s) := by
  unfold meterBoundary
  repeat (first
    | with_reducible exact OnlyChanges.refl _ _
    | with_reducible assumption
    | (with_reducible refine (evRaise_only ..).after (by decide) ?_)
    | (with_reducible refine (setCor_only ..).after (by decide) ?_)
    | extract_lets
    | split
    | with_reducible refine OnlyChanges.ite ?_ ?_)

theorem commitSwitches_only (s) : OnlyChanges [.outcomes, .cor] s (commitSwitches s) := by
  unfold commitSwitches
  repeat (first
    | with_reducible exact OnlyChanges.refl _ _
    | with_reducible assumption
    | (with_reducible refine (reportAll_only ..).after (by decide) ?_)
    | (with_reducible refine (setCor_only ..).after (by decide) ?_)
    | extract_lets
    | split
    | with_reducible refine OnlyChanges.ite ?_ ?_)

theorem swapSpectra_only (x0) (x1) (s) : OnlyChanges [.drc] s (swapSpectra x0 x1 s) := by
  unfold swapSpectra
  repeat (first
    | with_reducible exact OnlyChanges.refl _ _
    | with_reducible assumption
    | (with_reducible refine (dramPut_only ..).after (by decide) ?_)
    | (extract_lets +onlyGivenNames t1; clear_value t1)
    | extract_lets
    | split
    | with_reducible refine OnlyChanges.ite ?_ ?_)

theorem setXf_only (x0) (x1) (s) : OnlyChanges [.cor] s (setXf x0 x1 s) := by
  unfold setXf
  repeat (first
    | with_reducible exact OnlyChanges.refl _ _
    | with_reducible assumption
    | (with_reducible refine (setCor_only ..).after (by decide) ?_)
    | extract_lets
    | split
    | with_reducible refine OnlyChanges.ite ?_ ?_)

theorem endXf_only (x0) (s) : OnlyChanges [.regs, .lgr, .cor, .drc] s (endXf x0 s) := by
  unfold endXf
  repeat (first
    | with_reducible exact OnlyChanges.refl _ _
    | with_reducible assumption
    | (with_reducible refine (swapSpectra_only ..).after (by decide) ?_)
    | (with_reducible refine (setOut_only ..).after (by decide) ?_)
    | (with_reducible refine (setCor_only ..).after (by decide) ?_)
    | (with_reducible refine (ledger_only ..).after (by decide) ?_)
    | (with_reducible refine (evRaise_only ..).after (by decide) ?_)
    | (with_reducible refine (setXf_only ..).after (by decide) ?_)
    | extract_lets
    | split
    | with_reducible refine OnlyChanges.ite ?_ ?_)

theorem endXfs_only (x0) (s) : OnlyChanges [.regs, .lgr, .cor, .drc] s (endXfs x0 s) := by
  fun_induction endXfs x0 s
  all_goals repeat (first
    | with_reducible exact OnlyChanges.refl _ _
    | with_reducible refine OnlyChanges.trans (by with_reducible assumption) ?_
    | with_reducible assumption
    | (with_reducible refine (endXf_only ..).after (by decide) ?_)
    | split)

theorem switchBoundary_only (x0) (s) : OnlyChanges [.regs, .outcomes, .lgr, .cor, .drc] s (switchBoundary x0 s) := by
  unfold switchBoundary
  repeat (first
    | with_reducible exact OnlyChanges.refl _ _
    | with_reducible assumption
    | (with_reducible refine (commitSwitches_only ..).after (by decide) ?_)
    | (with_reducible refine (endXfs_only ..).after (by decide) ?_)
    | (with_reducible refine (setCor_only ..).after (by decide) ?_)
    | extract_lets)

theorem silenceCause_only (x0) (x1) (x2) (x3) (s) : OnlyChanges [.regs, .lgr] s (silenceCause x0 x1 x2 x3 s) := by
  unfold silenceCause
  repeat (first
    | with_reducible exact OnlyChanges.refl _ _
    | with_reducible assumption
    | (with_reducible refine (ledger_only ..).after (by decide) ?_)
    | split
    | with_reducible refine OnlyChanges.ite ?_ ?_)

theorem silenceBoundary_only (x0) (s) : OnlyChanges [.regs, .lgr, .cor] s (silenceBoundary x0 s) := by
  unfold silenceBoundary
  repeat (first
    | with_reducible exact OnlyChanges.refl _ _
    | with_reducible assumption
    | (with_reducible refine (silenceCause_only ..).after (by decide) ?_)
    | (with_reducible refine (setCor_only ..).after (by decide) ?_)
    | extract_lets
    | split
    | with_reducible refine OnlyChanges.ite ?_ ?_)

theorem corCount_only (x0) (x1) (x2) (s) : OnlyChanges [.cor] s (corCount x0 x1 x2 s) := by
  unfold corCount
  repeat (first
    | with_reducible exact OnlyChanges.refl _ _
    | with_reducible assumption
    | (with_reducible refine (setOut_only ..).after (by decide) ?_)
    | extract_lets)

theorem corClip_only (x0) (x1) (x2) (s) : OnlyChanges [.regs, .cor] s (corClip x0 x1 x2 s) := by
  unfold corClip
  repeat (first
    | with_reducible exact OnlyChanges.refl _ _
    | with_reducible assumption
    | (with_reducible refine (evRaise_only ..).after (by decide) ?_)
    | (with_reducible refine (corCount_only ..).after (by decide) ?_)
    | split
    | with_reducible refine OnlyChanges.ite ?_ ?_)

theorem histErr_only (x0) (x1) (s) : OnlyChanges [.regs, .lgr, .cor] s (histErr x0 x1 s) := by
  unfold histErr
  repeat (first
    | with_reducible exact OnlyChanges.refl _ _
    | with_reducible assumption
    | (with_reducible refine (corCount_only ..).after (by decide) ?_)
    | (with_reducible refine (setOut_only ..).after (by decide) ?_)
    | (with_reducible refine (ledgerLim_only ..).after (by decide) ?_)
    | (with_reducible refine (evRaise_only ..).after (by decide) ?_)
    | (extract_lets +onlyGivenNames t1; with_reducible refine OnlyChanges.cut (t := t1) ?_ ?_ <;> [subst t1; (clear_value t1; intro)])
    | (extract_lets +onlyGivenNames t1; clear_value t1)
    | extract_lets
    | split
    | with_reducible refine OnlyChanges.ite ?_ ?_)

theorem laneBq_only (x0) (x1) (s) : OnlyChanges [.regs, .cor] s (laneBq x0 x1 s) := by
  unfold laneBq
  repeat (first
    | with_reducible exact OnlyChanges.refl _ _
    | with_reducible assumption
    | (with_reducible refine (corClip_only ..).after (by decide) ?_)
    | (with_reducible refine (setXf_only ..).after (by decide) ?_)
    | (with_reducible refine (setOut_only ..).after (by decide) ?_)
    | (extract_lets +onlyGivenNames t1; clear_value t1)
    | extract_lets
    | split
    | with_reducible refine OnlyChanges.ite ?_ ?_)

theorem bqOut_only (x0) (x1) (x2) (s) : OnlyChanges [.regs, .lgr, .cor] s (bqOut x0 x1 x2 s) := by
  unfold bqOut
  repeat (first
    | with_reducible exact OnlyChanges.refl _ _
    | with_reducible assumption
    | (with_reducible refine (laneBq_only ..).after (by decide) ?_)
    | (with_reducible refine (setCor_only ..).after (by decide) ?_)
    | (with_reducible refine (setOut_only ..).after (by decide) ?_)
    | (with_reducible refine (corClip_only ..).after (by decide) ?_)
    | (with_reducible refine (histErr_only ..).after (by decide) ?_)
    | (extract_lets +onlyGivenNames t1; with_reducible refine OnlyChanges.cut (t := t1) ?_ ?_ <;> [subst t1; (clear_value t1; intro)])
    | (extract_lets +onlyGivenNames t1; clear_value t1)
    | extract_lets
    | split
    | with_reducible refine OnlyChanges.ite ?_ ?_)

theorem headOp_only (x0) (x1) (x2) (x3) (x4) (x5) (s) : OnlyChanges [.regs, .lgr, .cor] s (headOp x0 x1 x2 x3 x4 x5 s) := by
  unfold headOp
  repeat (first
    | with_reducible exact OnlyChanges.refl _ _
    | with_reducible assumption
    | (with_reducible refine (setOut_only ..).after (by decide) ?_)
    | (with_reducible refine (histErr_only ..).after (by decide) ?_)
    | (with_reducible refine (sramUes_only ..).after (by decide) ?_)
    | (extract_lets +onlyGivenNames t1; with_reducible refine OnlyChanges.cut (t := t1) ?_ ?_ <;> [subst t1; (clear_value t1; intro)])
    | (extract_lets +onlyGivenNames t1; clear_value t1)
    | extract_lets
    | split
    | with_reducible refine OnlyChanges.ite ?_ ?_)

theorem tailMiss_only (x0) (x1) (s) : OnlyChanges [.regs, .lgr, .cor] s (tailMiss x0 x1 s) := by
  unfold tailMiss
  repeat (first
    | with_reducible exact OnlyChanges.refl _ _
    | with_reducible assumption
    | (with_reducible refine (ledgerLim_only ..).after (by decide) ?_)
    | (with_reducible refine (evRaise_only ..).after (by decide) ?_)
    | (with_reducible refine (corCount_only ..).after (by decide) ?_))

theorem clipOut_only (x0) (x1) (x2) (s) : OnlyChanges [.regs, .lgr, .cor] s (clipOut x0 x1 x2 s) := by
  unfold clipOut
  repeat (first
    | with_reducible exact OnlyChanges.refl _ _
    | with_reducible assumption
    | (with_reducible refine (ledgerLim_only ..).after (by decide) ?_)
    | (with_reducible refine (evRaise_only ..).after (by decide) ?_)
    | (with_reducible refine (corCount_only ..).after (by decide) ?_)
    | split
    | with_reducible refine OnlyChanges.ite ?_ ?_)

theorem sluiceOp_only (x0) (x1) (x2) (s) : OnlyChanges [.regs, .lgr, .mp, .cor] s (sluiceOp x0 x1 x2 s) := by
  unfold sluiceOp
  repeat (first
    | with_reducible exact OnlyChanges.refl _ _
    | with_reducible assumption
    | (with_reducible refine (setOut_only ..).after (by decide) ?_)
    | (with_reducible refine (clipOut_only ..).after (by decide) ?_)
    | (extract_lets +onlyGivenNames t1; clear_value t1)
    | extract_lets
    | with_reducible refine OnlyChanges.foldl_trans (fun _ _ => ?_) ?_ _
    | (fail_if_no_progress (with_reducible apply OnlyChanges.upd <;> first | exact Or.inr (by decide) | exact Or.inl (by with_reducible rfl) | skip)))

theorem joinOp_only (x0) (x1) (x2) (x3) (x4) (x5) (s) : OnlyChanges [.regs, .lgr, .cor] s (joinOp x0 x1 x2 x3 x4 x5 s).2 := by
  unfold joinOp
  repeat (first
    | with_reducible exact OnlyChanges.refl _ _
    | with_reducible assumption
    | (with_reducible refine (tailMiss_only ..).after (by decide) ?_)
    | (with_reducible refine (corClip_only ..).after (by decide) ?_)
    | extract_lets
    | split
    | with_reducible refine OnlyChanges.ite ?_ ?_)

theorem zeroTail_only (x0) (x1) (s) : OnlyChanges [.cor, .drc] s (zeroTail x0 x1 s) := by
  unfold zeroTail
  repeat (first
    | with_reducible exact OnlyChanges.refl _ _
    | with_reducible assumption
    | (with_reducible refine (setCor_only ..).after (by decide) ?_)
    | (with_reducible refine (setOut_only ..).after (by decide) ?_)
    | (with_reducible refine (dramZero_only ..).after (by decide) ?_)
    | (extract_lets +onlyGivenNames t1; with_reducible refine OnlyChanges.cut (t := t1) ?_ ?_ <;> [subst t1; (clear_value t1; intro)])
    | (extract_lets +onlyGivenNames t1; clear_value t1)
    | extract_lets
    | split
    | with_reducible refine OnlyChanges.ite ?_ ?_)

theorem clearOut_only (x0) (x1) (s) : OnlyChanges [.cor, .drc] s (clearOut x0 x1 s) := by
  unfold clearOut
  repeat (first
    | with_reducible exact OnlyChanges.refl _ _
    | with_reducible assumption
    | (with_reducible refine (zeroTail_only ..).after (by decide) ?_)
    | (with_reducible refine (setCor_only ..).after (by decide) ?_)
    | (with_reducible refine (setOut_only ..).after (by decide) ?_)
    | extract_lets)

theorem startTails_only (x0) (x1) (x2) (s) : OnlyChanges [.cor, .drc] s (startTails x0 x1 x2 s) := by
  unfold startTails
  repeat (first
    | with_reducible exact OnlyChanges.refl _ _
    | with_reducible assumption
    | (with_reducible refine (zeroTail_only ..).after (by decide) ?_)
    | split
    | with_reducible refine OnlyChanges.ite ?_ ?_
    | with_reducible refine eachObj_only (fun _ _ => ?_) ?_ _)

theorem newReservations_only (x0) (s) : OnlyChanges [.cor, .drc] s (newReservations x0 s) := by
  unfold newReservations
  repeat (first
    | with_reducible exact OnlyChanges.refl _ _
    | with_reducible assumption
    | (with_reducible refine (startTails_only ..).after (by decide) ?_)
    | extract_lets
    | split
    | with_reducible refine OnlyChanges.ite ?_ ?_)

theorem writeInGroups_only (x0) (s) : OnlyChanges [.drc] s (writeInGroups x0 s) := by
  unfold writeInGroups
  repeat (first
    | with_reducible exact OnlyChanges.refl _ _
    | with_reducible assumption
    | (with_reducible refine (dramPut_only ..).after (by decide) ?_)
    | split
    | with_reducible refine OnlyChanges.ite ?_ ?_
    | with_reducible refine eachObj_only (fun _ _ => ?_) ?_ _)

theorem issueTail_only (x0) (x1) (s) : OnlyChanges [.cor] s (issueTail x0 x1 s) := by
  unfold issueTail
  repeat (first
    | with_reducible exact OnlyChanges.refl _ _
    | with_reducible assumption
    | (with_reducible refine (setCor_only ..).after (by decide) ?_)
    | extract_lets)

theorem settleTail_only (s) : OnlyChanges [.regs, .drc] s (settleTail s) := by
  unfold settleTail
  repeat (first
    | with_reducible exact OnlyChanges.refl _ _
    | with_reducible assumption
    | (with_reducible refine (panicTail_only ..).after (by decide) ?_)
    | split)

theorem tailBoundary_only (x0) (s) : OnlyChanges [.regs, .cor, .drc] s (tailBoundary x0 s) := by
  unfold tailBoundary
  repeat (first
    | with_reducible exact OnlyChanges.refl _ _
    | with_reducible assumption
    | (with_reducible refine (setCor_only ..).after (by decide) ?_)
    | (with_reducible refine (writeInGroups_only ..).after (by decide) ?_)
    | (with_reducible refine (issueTail_only ..).after (by decide) ?_)
    | (with_reducible refine (settleTail_only ..).after (by decide) ?_)
    | (extract_lets +onlyGivenNames t1; with_reducible refine OnlyChanges.cut (t := t1) ?_ ?_ <;> [subst t1; (clear_value t1; intro)])
    | extract_lets
    | split
    | with_reducible refine OnlyChanges.ite ?_ ?_)

theorem frameErrs_only (x0) (x1) (s) : OnlyChanges [.regs, .lgr, .cor] s (frameErrs x0 x1 s) := by
  fun_induction frameErrs x0 x1 s
  all_goals repeat (first
    | with_reducible exact OnlyChanges.refl _ _
    | with_reducible refine OnlyChanges.trans (by with_reducible assumption) ?_
    | with_reducible assumption
    | (with_reducible refine (ledgerLim_only ..).after (by decide) ?_)
    | (with_reducible refine (evRaise_only ..).after (by decide) ?_)
    | (with_reducible refine (corCount_only ..).after (by decide) ?_)
    | split)

theorem chainOp_only (o b tm c addr outA own obs) (s) : OnlyChanges [.regs, .lgr, .cor, .drc] s (chainOp o b tm c addr outA own obs s) := by
  unfold chainOp
  extract_lets rd v f r xb late z t miss s1 s2
  have h1 : OnlyChanges [.regs, .lgr, .cor, .drc] s rd.1 := OnlyChanges.mono (readRuns_only ..) (by decide)
  have h2 : OnlyChanges [.regs, .lgr, .cor, .drc] s s1 := (frameErrs_only ..).after (by decide) (OnlyChanges.ite ((dramPut_only ..).after (by decide) h1) h1)
  have h3 : OnlyChanges [.regs, .lgr, .cor, .drc] s s2 := (corClip_only ..).after (by decide) ((dramPut_only ..).after (by decide) h2)
  exact OnlyChanges.ite ((tailMiss_only ..).after (by decide) h3) h3

theorem noteSlack_only (x0) (s) : OnlyChanges [.regs] s (noteSlack x0 s) := by
  unfold noteSlack
  repeat (first
    | with_reducible exact OnlyChanges.refl _ _
    | with_reducible assumption
    | (with_reducible refine (setField_only ..).after (by decide) ?_))

theorem chainPanic_only (x0) (x1) (s) : OnlyChanges [.regs, .cor, .drc] s (chainPanic x0 x1 s) := by
  unfold chainPanic
  repeat (first
    | with_reducible exact OnlyChanges.refl _ _
    | with_reducible assumption
    | (with_reducible refine (settleTail_only ..).after (by decide) ?_)
    | (with_reducible refine (setCor_only ..).after (by decide) ?_)
    | extract_lets
    | split
    | with_reducible refine OnlyChanges.ite ?_ ?_)

theorem tailUnit_only (x0) (x1) (x2) (x3) (x4) (s) : OnlyChanges [.regs, .lgr, .cor, .drc] s (tailUnit x0 x1 x2 x3 x4 s) := by
  unfold tailUnit
  repeat (first
    | with_reducible exact OnlyChanges.refl _ _
    | with_reducible assumption
    | (with_reducible refine (chainOp_only ..).after (by decide) ?_)
    | extract_lets
    | split
    | with_reducible refine OnlyChanges.ite ?_ ?_)

theorem dropStage_only (x0) (s) : OnlyChanges [.freeCtr, .cor, .drc] s (dropStage x0 s) := by
  unfold dropStage
  repeat (first
    | with_reducible exact OnlyChanges.refl _ _
    | with_reducible assumption
    | (with_reducible refine (setCor_only ..).after (by decide) ?_)
    | (with_reducible refine (dramPut_only ..).after (by decide) ?_)
    | (with_reducible refine (draw_only ..).after (by decide) ?_)
    | (extract_lets +onlyGivenNames t1; with_reducible refine OnlyChanges.cut (t := t1) ?_ ?_ <;> [subst t1; (clear_value t1; intro)])
    | extract_lets
    | split
    | with_reducible refine OnlyChanges.ite ?_ ?_
    | (fail_if_no_progress (with_reducible apply OnlyChanges.upd <;> first | exact Or.inr (by decide) | exact Or.inl (by with_reducible rfl) | skip)))

theorem corStatReadOp_only (s) : OnlyChanges [.regs, .rdata] s (corStatReadOp s) := by
  unfold corStatReadOp
  repeat (first
    | with_reducible exact OnlyChanges.refl _ _
    | with_reducible assumption
    | (with_reducible refine (setField_only ..).after (by decide) ?_)
    | extract_lets
    | (fail_if_no_progress (with_reducible apply OnlyChanges.upd <;> first | exact Or.inr (by decide) | exact Or.inl (by with_reducible rfl) | skip)))

theorem applySluice_only (x0) (x1) (x2) (x3) (x4) (s) : OnlyChanges [.cor] s (applySluice x0 x1 x2 x3 x4 s) := by
  unfold applySluice
  repeat (first
    | with_reducible exact OnlyChanges.refl _ _
    | with_reducible assumption
    | (with_reducible refine (setOut_only ..).after (by decide) ?_)
    | extract_lets
    | split
    | with_reducible refine OnlyChanges.ite ?_ ?_
    | with_reducible refine eachObj_only (fun _ _ => ?_) ?_ _)

theorem applyMeter_only (x0) (x1) (x2) (s) : OnlyChanges [.cor] s (applyMeter x0 x1 x2 s) := by
  unfold applyMeter
  repeat (first
    | with_reducible exact OnlyChanges.refl _ _
    | with_reducible assumption
    | (with_reducible refine (setCor_only ..).after (by decide) ?_)
    | extract_lets)

theorem moveLane_only (x0) (x1) (s) : OnlyChanges [.cor, .drc] s (moveLane x0 x1 s) := by
  unfold moveLane
  repeat (first
    | with_reducible exact OnlyChanges.refl _ _
    | with_reducible assumption
    | (with_reducible refine (setCor_only ..).after (by decide) ?_)
    | (with_reducible refine (dramPut_only ..).after (by decide) ?_)
    | (extract_lets +onlyGivenNames t1; with_reducible refine OnlyChanges.cut (t := t1) ?_ ?_ <;> [subst t1; (clear_value t1; intro)])
    | extract_lets
    | split
    | with_reducible refine OnlyChanges.ite ?_ ?_)

theorem assignLanes_only (x0) (s) : OnlyChanges [.cor, .drc] s (assignLanes x0 s) := by
  fun_induction assignLanes x0 s
  all_goals repeat (first
    | with_reducible exact OnlyChanges.refl _ _
    | with_reducible refine OnlyChanges.trans (by with_reducible assumption) ?_
    | with_reducible assumption
    | (with_reducible refine (moveLane_only ..).after (by decide) ?_)
    | extract_lets
    | split
    | with_reducible refine OnlyChanges.ite ?_ ?_)

theorem storeParts_only (x0) (x1) (x2) (s) : OnlyChanges [.drc] s (storeParts x0 x1 x2 s) := by
  fun_induction storeParts x0 x1 x2 s
  all_goals repeat (first
    | with_reducible exact OnlyChanges.refl _ _
    | with_reducible refine OnlyChanges.trans (by with_reducible assumption) ?_
    | with_reducible assumption
    | (with_reducible refine (dramPut_only ..).after (by decide) ?_)
    | split)

theorem stageOp_only (x0) (x1) (x2) (x3) (s) : OnlyChanges [.cor, .drc] s (stageOp x0 x1 x2 x3 s) := by
  unfold stageOp
  repeat (first
    | with_reducible exact OnlyChanges.refl _ _
    | with_reducible assumption
    | (with_reducible refine (storeParts_only ..).after (by decide) ?_)
    | (with_reducible refine (setCor_only ..).after (by decide) ?_)
    | extract_lets
    | split
    | with_reducible refine OnlyChanges.ite ?_ ?_)

theorem shadowPut_only (x0) (x1) (s) : OnlyChanges [.sch] s (shadowPut x0 x1 s) := by
  unfold shadowPut
  repeat (first
    | with_reducible exact OnlyChanges.refl _ _
    | with_reducible assumption
    | (with_reducible refine (setSch_only ..).after (by decide) ?_)
    | (extract_lets +onlyGivenNames t1; clear_value t1)
    | extract_lets
    | split
    | with_reducible refine OnlyChanges.ite ?_ ?_)

theorem exchange_only (x0) (s) : OnlyChanges [.sch] s (exchange x0 s) := by
  unfold exchange
  repeat (first
    | with_reducible exact OnlyChanges.refl _ _
    | with_reducible assumption
    | (with_reducible refine (setSch_only ..).after (by decide) ?_)
    | extract_lets)

theorem zeroOut_only (x0) (s) : OnlyChanges [.cor, .drc] s (zeroOut x0 s) := by
  unfold zeroOut
  repeat (first
    | with_reducible exact OnlyChanges.refl _ _
    | with_reducible assumption
    | (with_reducible refine (setOut_only ..).after (by decide) ?_)
    | (with_reducible refine (dramZero_only ..).after (by decide) ?_)
    | (extract_lets +onlyGivenNames t1; with_reducible refine OnlyChanges.cut (t := t1) ?_ ?_ <;> [subst t1; (clear_value t1; intro)])
    | (extract_lets +onlyGivenNames t1; clear_value t1)
    | extract_lets
    | split
    | with_reducible refine OnlyChanges.ite ?_ ?_)

theorem zeroChains_only (s) : OnlyChanges [.obj, .cor, .drc] s (zeroChains s) := by
  unfold zeroChains
  repeat (first
    | with_reducible exact OnlyChanges.refl _ _
    | with_reducible assumption
    | (with_reducible refine (zeroOut_only ..).after (by decide) ?_)
    | (with_reducible refine (setCor_only ..).after (by decide) ?_)
    | (with_reducible refine (dramZero_only ..).after (by decide) ?_)
    | (extract_lets +onlyGivenNames t1; with_reducible refine OnlyChanges.cut (t := t1) ?_ ?_ <;> [subst t1; (clear_value t1; intro)])
    | extract_lets
    | split
    | with_reducible refine OnlyChanges.ite ?_ ?_
    | with_reducible refine eachObj_only (fun _ _ => ?_) ?_ _
    | (fail_if_no_progress (with_reducible apply OnlyChanges.upd <;> first | exact Or.inr (by decide) | exact Or.inl (by with_reducible rfl) | skip)))

theorem zeroPair_only (s) : OnlyChanges [.geo, .pair] s (zeroPair s) := by
  unfold zeroPair
  repeat (first
    | with_reducible exact OnlyChanges.refl _ _
    | with_reducible assumption
    | (with_reducible refine (setGeo_only ..).after (by decide) ?_)
    | (with_reducible refine (setPair_only ..).after (by decide) ?_)
    | extract_lets)

theorem becomeActive_only (x0) (s) : OnlyChanges [.regs, .lgr, .sch] s (becomeActive x0 s) := by
  unfold becomeActive
  repeat (first
    | with_reducible exact OnlyChanges.refl _ _
    | with_reducible assumption
    | (with_reducible refine (ledger_only ..).after (by decide) ?_)
    | (with_reducible refine (setSch_only ..).after (by decide) ?_)
    | extract_lets)

theorem newFades_only (x0) (x1) (s) : OnlyChanges [.geo] s (newFades x0 x1 s) := by
  unfold newFades
  repeat (first
    | with_reducible exact OnlyChanges.refl _ _
    | with_reducible assumption
    | (with_reducible refine (setGeo_only ..).after (by decide) ?_)
    | (extract_lets +onlyGivenNames t1; clear_value t1)
    | extract_lets
    | split
    | with_reducible refine OnlyChanges.foldl_trans (fun _ _ => ?_) ?_ _)

theorem newRun_only (s) : OnlyChanges [.regs, .sch] s (newRun s) := by
  unfold newRun
  repeat (first
    | with_reducible exact OnlyChanges.refl _ _
    | with_reducible assumption
    | (with_reducible refine (setReg_only ..).after (by decide) ?_)
    | (with_reducible refine (setSch_only ..).after (by decide) ?_)
    | extract_lets)

theorem startActivate_only (x0) (s) : OnlyChanges [.regs, .outcomes, .lgr, .obj, .geo, .pair, .cor, .sch, .drc] s (startActivate x0 s) := by
  unfold startActivate
  repeat (first
    | with_reducible exact OnlyChanges.refl _ _
    | with_reducible assumption
    | (with_reducible refine (exchange_only ..).after (by decide) ?_)
    | (with_reducible refine (zeroChains_only ..).after (by decide) ?_)
    | (with_reducible refine (zeroPair_only ..).after (by decide) ?_)
    | (with_reducible refine (setSch_only ..).after (by decide) ?_)
    | (with_reducible refine (report_only ..).after (by decide) ?_)
    | (with_reducible refine (becomeActive_only ..).after (by decide) ?_)
    | (with_reducible refine (setRender_only ..).after (by decide) ?_)
    | (with_reducible refine (newFades_only ..).after (by decide) ?_)
    | (with_reducible refine (newRun_only ..).after (by decide) ?_)
    | extract_lets)

theorem stopComplete_only (x0) (s) : OnlyChanges [.regs, .outcomes, .lgr, .ptp, .obj, .cor, .sch, .fab, .keyed, .lau] s (stopComplete x0 s) := by
  unfold stopComplete
  repeat (first
    | with_reducible exact OnlyChanges.refl _ _
    | with_reducible assumption
    | (with_reducible refine (report_only ..).after (by decide) ?_)
    | (with_reducible refine (ledger_only ..).after (by decide) ?_)
    | (with_reducible refine (flushRender_only ..).after (by decide) ?_)
    | (with_reducible refine (setRender_only ..).after (by decide) ?_)
    | (with_reducible refine (setSch_only ..).after (by decide) ?_)
    | extract_lets)

theorem restartDone_only (x0) (s) : OnlyChanges [.regs, .outcomes, .lgr, .sch] s (restartDone x0 s) := by
  unfold restartDone
  repeat (first
    | with_reducible exact OnlyChanges.refl _ _
    | with_reducible assumption
    | (with_reducible refine (newRun_only ..).after (by decide) ?_)
    | (with_reducible refine (setSch_only ..).after (by decide) ?_)
    | (with_reducible refine (report_only ..).after (by decide) ?_)
    | (with_reducible refine (ledger_only ..).after (by decide) ?_)
    | (with_reducible refine (setRender_only ..).after (by decide) ?_)
    | extract_lets
    | split
    | with_reducible refine OnlyChanges.ite ?_ ?_)

theorem swapDone_only (x0) (s) : OnlyChanges [.regs, .outcomes, .lgr, .sch] s (swapDone x0 s) := by
  unfold swapDone
  repeat (first
    | with_reducible exact OnlyChanges.refl _ _
    | with_reducible assumption
    | (with_reducible refine (setSch_only ..).after (by decide) ?_)
    | (with_reducible refine (report_only ..).after (by decide) ?_)
    | (with_reducible refine (becomeActive_only ..).after (by decide) ?_)
    | (with_reducible refine (evRaise_only ..).after (by decide) ?_)
    | (extract_lets +onlyGivenNames t1; with_reducible refine OnlyChanges.cut (t := t1) ?_ ?_ <;> [subst t1; (clear_value t1; intro)])
    | extract_lets
    | split
    | with_reducible refine OnlyChanges.ite ?_ ?_)

theorem countDrops_only (x0) (x1) (s) : OnlyChanges [.regs, .lgr, .sch] s (countDrops x0 x1 s) := by
  unfold countDrops
  repeat (first
    | with_reducible exact OnlyChanges.refl _ _
    | with_reducible assumption
    | (with_reducible refine (ledger_only ..).after (by decide) ?_)
    | (with_reducible refine (evRaise_only ..).after (by decide) ?_)
    | (with_reducible refine (setSch_only ..).after (by decide) ?_)
    | extract_lets
    | split)

theorem switchImages_only (x0) (s) : OnlyChanges [.regs, .lgr, .geo, .sch] s (switchImages x0 s) := by
  unfold switchImages
  repeat (first
    | with_reducible exact OnlyChanges.refl _ _
    | with_reducible assumption
    | (with_reducible refine (newFades_only ..).after (by decide) ?_)
    | (with_reducible refine (countDrops_only ..).after (by decide) ?_)
    | (with_reducible refine (exchange_only ..).after (by decide) ?_)
    | extract_lets
    | split)

theorem restartActivate_only (x0) (s) : OnlyChanges [.regs, .outcomes, .lgr, .geo, .sch] s (restartActivate x0 s) := by
  unfold restartActivate
  repeat (first
    | with_reducible exact OnlyChanges.refl _ _
    | with_reducible assumption
    | (with_reducible refine (restartDone_only ..).after (by decide) ?_)
    | (with_reducible refine (swapDone_only ..).after (by decide) ?_)
    | (with_reducible refine (setSch_only ..).after (by decide) ?_)
    | (with_reducible refine (switchImages_only ..).after (by decide) ?_)
    | (with_reducible refine (becomeActive_only ..).after (by decide) ?_)
    | (with_reducible refine (report_only ..).after (by decide) ?_)
    | (extract_lets +onlyGivenNames t1; with_reducible refine OnlyChanges.cut (t := t1) ?_ ?_ <;> [subst t1; (clear_value t1; intro)])
    | extract_lets
    | split
    | with_reducible refine OnlyChanges.ite ?_ ?_)

theorem armedBoundary_only (x0) (s) : OnlyChanges [.regs, .outcomes, .lgr, .ptp, .obj, .geo, .pair, .cor, .sch, .fab, .drc, .keyed, .lau] s (armedBoundary x0 s) := by
  unfold armedBoundary
  repeat (first
    | with_reducible exact OnlyChanges.refl _ _
    | with_reducible assumption
    | (with_reducible refine (startActivate_only ..).after (by decide) ?_)
    | (with_reducible refine (stopComplete_only ..).after (by decide) ?_)
    | (with_reducible refine (restartActivate_only ..).after (by decide) ?_)
    | extract_lets
    | split
    | with_reducible refine OnlyChanges.ite ?_ ?_)

theorem swapBoundary_only (x0) (s) : OnlyChanges [.regs, .outcomes, .lgr, .geo, .sch] s (swapBoundary x0 s) := by
  unfold swapBoundary
  repeat (first
    | with_reducible exact OnlyChanges.refl _ _
    | with_reducible assumption
    | (with_reducible refine (setSch_only ..).after (by decide) ?_)
    | (with_reducible refine (switchImages_only ..).after (by decide) ?_)
    | (with_reducible refine (swapDone_only ..).after (by decide) ?_)
    | extract_lets
    | split
    | with_reducible refine OnlyChanges.ite ?_ ?_)

theorem loadStat_only (x0) (x1) (s) : OnlyChanges [.regs] s (loadStat x0 x1 s) := by
  unfold loadStat
  repeat (first
    | with_reducible exact OnlyChanges.refl _ _
    | with_reducible assumption
    | (with_reducible refine (setReg_only ..).after (by decide) ?_))

theorem loadDone_only (s) : OnlyChanges [.regs, .outcomes, .lgr, .sch] s (loadDone s) := by
  unfold loadDone
  repeat (first
    | with_reducible exact OnlyChanges.refl _ _
    | with_reducible assumption
    | (with_reducible refine (setSch_only ..).after (by decide) ?_)
    | (with_reducible refine (report_only ..).after (by decide) ?_)
    | (with_reducible refine (evRaise_only ..).after (by decide) ?_)
    | (with_reducible refine (loadStat_only ..).after (by decide) ?_)
    | (with_reducible refine (ledger_only ..).after (by decide) ?_)
    | (extract_lets +onlyGivenNames t1; with_reducible refine OnlyChanges.cut (t := t1) ?_ ?_ <;> [subst t1; (clear_value t1; intro)])
    | (extract_lets +onlyGivenNames t1; clear_value t1)
    | extract_lets
    | split
    | with_reducible refine OnlyChanges.ite ?_ ?_)

theorem loadBegin_only (x0) (x1) (s) : OnlyChanges [.regs, .outcomes, .lgr, .sch] s (loadBegin x0 x1 s) := by
  unfold loadBegin
  repeat (first
    | with_reducible exact OnlyChanges.refl _ _
    | with_reducible assumption
    | (with_reducible refine (loadDone_only ..).after (by decide) ?_)
    | (with_reducible refine (setSch_only ..).after (by decide) ?_)
    | extract_lets
    | split)

theorem arm_only (x0) (x1) (x2) (x3) (s) : OnlyChanges [.sch] s (arm x0 x1 x2 x3 s) := by
  unfold arm
  repeat (first
    | with_reducible exact OnlyChanges.refl _ _
    | with_reducible assumption
    | (with_reducible refine (setSch_only ..).after (by decide) ?_)
    | extract_lets)

theorem emptyAssembly_only (s) : OnlyChanges [.obj] s (emptyAssembly s) := by
  unfold emptyAssembly
  repeat (first
    | with_reducible exact OnlyChanges.refl _ _
    | with_reducible assumption
    | extract_lets
    | (fail_if_no_progress (with_reducible apply OnlyChanges.upd <;> first | exact Or.inr (by decide) | exact Or.inl (by with_reducible rfl) | skip)))

theorem cancelStop_only (x0) (s) : OnlyChanges [.regs, .outcomes, .sch] s (cancelStop x0 s) := by
  unfold cancelStop
  repeat (first
    | with_reducible exact OnlyChanges.refl _ _
    | with_reducible assumption
    | (with_reducible refine (report_only ..).after (by decide) ?_)
    | (with_reducible refine (setRender_only ..).after (by decide) ?_)
    | (with_reducible refine (setSch_only ..).after (by decide) ?_)
    | extract_lets)

theorem cancelSwap_only (x0) (s) : OnlyChanges [.outcomes, .sch] s (cancelSwap x0 s) := by
  unfold cancelSwap
  repeat (first
    | with_reducible exact OnlyChanges.refl _ _
    | with_reducible assumption
    | (with_reducible refine (report_only ..).after (by decide) ?_)
    | (with_reducible refine (setSch_only ..).after (by decide) ?_)
    | extract_lets)

end Sys2Proof.Machine
end

