-- ==== Sys2Proof/Laws/FramesFabric.lean ====
section
/-! SUPPORT. What each operation of a group can change: links, caravans, the matrix, monitoring and audio ports.
One lemma per operation that answers a state; a caller cites it and never unfolds the operation. -/

namespace Sys2Proof.Machine

theorem setFab_only (s) (x1) : OnlyChanges [.fab] s (setFab s x1) := by
  unfold setFab
  repeat (first
    | with_reducible exact OnlyChanges.refl _ _
    | with_reducible assumption
    | extract_lets
    | (fail_if_no_progress (with_reducible apply OnlyChanges.upd <;> first | exact Or.inr (by decide) | exact Or.inl (by with_reducible rfl) | skip)))

theorem setAddress_only (x0) (x1) (x2) (s) : OnlyChanges [.regs, .lgr] s (setAddress x0 x1 x2 s) := by
  unfold setAddress
  repeat (first
    | with_reducible exact OnlyChanges.refl _ _
    | with_reducible assumption
    | (with_reducible refine (ledger_only ..).after (by decide) ?_)
    | (with_reducible refine (setReg_only ..).after (by decide) ?_)
    | (extract_lets +onlyGivenNames t1; clear_value t1)
    | extract_lets
    | split
    | with_reducible refine OnlyChanges.ite ?_ ?_)

theorem hearEpoch_only (x0) (s) : OnlyChanges [.fab] s (hearEpoch x0 s) := by
  unfold hearEpoch
  repeat (first
    | with_reducible exact OnlyChanges.refl _ _
    | with_reducible assumption
    | (with_reducible refine (setFab_only ..).after (by decide) ?_)
    | extract_lets
    | split
    | with_reducible refine OnlyChanges.ite ?_ ?_)

theorem setLink_only (s) (x1) (x2) : OnlyChanges [.fab] s (setLink s x1 x2) := by
  unfold setLink
  repeat (first
    | with_reducible exact OnlyChanges.refl _ _
    | with_reducible assumption
    | (with_reducible refine (setFab_only ..).after (by decide) ?_)
    | extract_lets)

theorem queueFrame_only (x0) (x1) (s) : OnlyChanges [.fab] s (queueFrame x0 x1 s) := by
  unfold queueFrame
  repeat (first
    | with_reducible exact OnlyChanges.refl _ _
    | with_reducible assumption
    | (with_reducible refine (setLink_only ..).after (by decide) ?_)
    | extract_lets)

theorem queueAll_only (x0) (x1) (s) : OnlyChanges [.fab] s (queueAll x0 x1 s) := by
  fun_induction queueAll x0 x1 s
  all_goals repeat (first
    | with_reducible exact OnlyChanges.refl _ _
    | with_reducible refine OnlyChanges.trans (by with_reducible assumption) ?_
    | with_reducible assumption
    | (with_reducible refine (queueFrame_only ..).after (by decide) ?_)
    | split)

theorem sendMgmt_only (x0) (x1) (x2) (x3) (x4) (s) : OnlyChanges [.freeCtr, .fab] s (sendMgmt x0 x1 x2 x3 x4 s) := by
  unfold sendMgmt
  repeat (first
    | with_reducible exact OnlyChanges.refl _ _
    | with_reducible assumption
    | (with_reducible refine (hearEpoch_only ..).after (by decide) ?_)
    | (with_reducible refine (queueAll_only ..).after (by decide) ?_)
    | (with_reducible refine (draw_only ..).after (by decide) ?_)
    | (extract_lets +onlyGivenNames t1; clear_value t1)
    | extract_lets
    | split
    | with_reducible refine OnlyChanges.ite ?_ ?_)

theorem remoteReturns_only (x0) (s) : OnlyChanges [.outcomes, .freeCtr, .fab] s (remoteReturns x0 s) := by
  fun_induction remoteReturns x0 s
  all_goals repeat (first
    | with_reducible exact OnlyChanges.refl _ _
    | with_reducible refine OnlyChanges.trans (by with_reducible assumption) ?_
    | with_reducible assumption
    | (with_reducible refine (sendMgmt_only ..).after (by decide) ?_)
    | (with_reducible refine (setFab_only ..).after (by decide) ?_)
    | extract_lets
    | split
    | (fail_if_no_progress (with_reducible apply OnlyChanges.upd <;> first | exact Or.inr (by decide) | exact Or.inl (by with_reducible rfl) | skip)))

theorem epochBoundary_only (x0) (s) : OnlyChanges [.regs, .outcomes, .lgr, .fab] s (epochBoundary x0 s) := by
  unfold epochBoundary
  repeat (first
    | with_reducible exact OnlyChanges.refl _ _
    | with_reducible assumption
    | (with_reducible refine (setFab_only ..).after (by decide) ?_)
    | (with_reducible refine (report_only ..).after (by decide) ?_)
    | (with_reducible refine (ledger_only ..).after (by decide) ?_)
    | (with_reducible refine (evRaise_only ..).after (by decide) ?_)
    | (extract_lets +onlyGivenNames t1; with_reducible refine OnlyChanges.cut (t := t1) ?_ ?_ <;> [subst t1; (clear_value t1; intro)])
    | (extract_lets +onlyGivenNames t1; clear_value t1)
    | extract_lets
    | split
    | with_reducible refine OnlyChanges.ite ?_ ?_)

theorem quietBoundary_only (s) : OnlyChanges [.regs, .fab] s (quietBoundary s) := by
  unfold quietBoundary
  repeat (first
    | with_reducible exact OnlyChanges.refl _ _
    | with_reducible assumption
    | (with_reducible refine (evIf_only ..).after (by decide) ?_)
    | (with_reducible refine (setFab_only ..).after (by decide) ?_)
    | extract_lets)

theorem linkGoesUp_only (x0) (s) : OnlyChanges [.regs, .freeCtr, .lgr, .clk, .fab] s (linkGoesUp x0 s) := by
  unfold linkGoesUp
  repeat (first
    | with_reducible exact OnlyChanges.refl _ _
    | with_reducible assumption
    | (with_reducible refine (ledger_only ..).after (by decide) ?_)
    | (with_reducible refine (evRaise_only ..).after (by decide) ?_)
    | (with_reducible refine (setLink_only ..).after (by decide) ?_)
    | (with_reducible refine (fabSource_only ..).after (by decide) ?_)
    | (with_reducible refine (xlinkChange_only ..).after (by decide) ?_)
    | extract_lets
    | split
    | with_reducible refine OnlyChanges.ite ?_ ?_)

theorem fabricFrame_only (x0) (x1) (x2) (s) : OnlyChanges [.regs, .freeCtr, .stw, .lgr] s (fabricFrame x0 x1 x2 s).2 := by
  unfold fabricFrame
  repeat (first
    | with_reducible exact OnlyChanges.refl _ _
    | with_reducible assumption
    | (with_reducible refine (stewardFrame_only ..).after (by decide) ?_)
    | extract_lets
    | split
    | with_reducible refine OnlyChanges.ite ?_ ?_)

theorem remoteRequest_only (x0) (x1) (x2) (s) : OnlyChanges [.freeCtr, .fab] s (remoteRequest x0 x1 x2 s) := by
  unfold remoteRequest
  repeat (first
    | with_reducible exact OnlyChanges.refl _ _
    | with_reducible assumption
    | (with_reducible refine (setFab_only ..).after (by decide) ?_)
    | (with_reducible refine (sendMgmt_only ..).after (by decide) ?_)
    | (extract_lets +onlyGivenNames t1; with_reducible refine OnlyChanges.cut (t := t1) ?_ ?_ <;> [subst t1; (clear_value t1; intro)])
    | extract_lets
    | split
    | with_reducible refine OnlyChanges.ite ?_ ?_)

theorem remoteDone_only (x0) (x1) (x2) (s) : OnlyChanges [.outcomes, .hostMem, .dueWrites, .fab] s (remoteDone x0 x1 x2 s) := by
  unfold remoteDone
  repeat (first
    | with_reducible exact OnlyChanges.refl _ _
    | with_reducible assumption
    | (with_reducible refine (report_only ..).after (by decide) ?_)
    | (with_reducible refine (hostWrite_only ..).after (by decide) ?_)
    | (with_reducible refine (setFab_only ..).after (by decide) ?_)
    | extract_lets
    | split)

theorem metaDatagram_only (x0) (x1) (s) : OnlyChanges [.regs, .obj, .segUid, .fab] s (metaDatagram x0 x1 s) := by
  unfold metaDatagram
  repeat (first
    | with_reducible exact OnlyChanges.refl _ _
    | with_reducible assumption
    | (with_reducible refine (setFab_only ..).after (by decide) ?_)
    | (with_reducible refine (takeSegs_only ..).after (by decide) ?_)
    | (extract_lets +onlyGivenNames t1; with_reducible refine OnlyChanges.cut (t := t1) ?_ ?_ <;> [subst t1; (clear_value t1; intro)])
    | (extract_lets +onlyGivenNames t1; clear_value t1)
    | extract_lets
    | split
    | with_reducible refine OnlyChanges.ite ?_ ?_)

theorem mgmtTake_only (x0) (x1) (s) : OnlyChanges [.regs, .outcomes, .hostMem, .dueWrites, .freeCtr, .obj, .segUid, .fab] s (mgmtTake x0 x1 s) := by
  unfold mgmtTake
  repeat (first
    | with_reducible exact OnlyChanges.refl _ _
    | with_reducible assumption
    | (with_reducible refine (remoteRequest_only ..).after (by decide) ?_)
    | (with_reducible refine (remoteDone_only ..).after (by decide) ?_)
    | (with_reducible refine (metaDatagram_only ..).after (by decide) ?_)
    | (with_reducible refine (evRaise_only ..).after (by decide) ?_)
    | (with_reducible refine (setFab_only ..).after (by decide) ?_)
    | (extract_lets +onlyGivenNames t1; clear_value t1)
    | extract_lets
    | split)

theorem deliverMgmt_only (x0) (x1) (x2) (s) : OnlyChanges [.regs, .outcomes, .hostMem, .dueWrites, .freeCtr, .stw, .lgr, .obj, .segUid, .fab] s (deliverMgmt x0 x1 x2 s) := by
  unfold deliverMgmt
  repeat (first
    | with_reducible exact OnlyChanges.refl _ _
    | with_reducible assumption
    | (with_reducible refine (fabricFrame_only ..).after (by decide) ?_)
    | (with_reducible refine (mgmtTake_only ..).after (by decide) ?_)
    | (extract_lets +onlyGivenNames t1; with_reducible refine OnlyChanges.cut (t := t1.2) ?_ ?_ <;> [subst t1; (clear_value t1; intro)])
    | extract_lets
    | split
    | with_reducible refine OnlyChanges.ite ?_ ?_)

theorem linkCount_only (x0) (x1) (x2) (s) : OnlyChanges [.fab] s (linkCount x0 x1 x2 s) := by
  unfold linkCount
  repeat (first
    | with_reducible exact OnlyChanges.refl _ _
    | with_reducible assumption
    | (with_reducible refine (setLink_only ..).after (by decide) ?_)
    | extract_lets)

theorem dropCaravan_only (x0) (x1) (x2) (s) : OnlyChanges [.regs, .lgr, .fab] s (dropCaravan x0 x1 x2 s) := by
  unfold dropCaravan
  repeat (first
    | with_reducible exact OnlyChanges.refl _ _
    | with_reducible assumption
    | (with_reducible refine (evRaise_only ..).after (by decide) ?_)
    | (with_reducible refine (linkCount_only ..).after (by decide) ?_)
    | (with_reducible refine (ledgerLim_only ..).after (by decide) ?_)
    | (with_reducible refine (setLink_only ..).after (by decide) ?_)
    | (extract_lets +onlyGivenNames t1; with_reducible refine OnlyChanges.cut (t := t1) ?_ ?_ <;> [subst t1; (clear_value t1; intro)])
    | (extract_lets +onlyGivenNames t1; clear_value t1)
    | extract_lets
    | split
    | with_reducible refine OnlyChanges.ite ?_ ?_)

theorem forwardTo_only (x0) (x1) (x2) (s) : OnlyChanges [.regs, .lgr, .fab] s (forwardTo x0 x1 x2 s) := by
  unfold forwardTo
  repeat (first
    | with_reducible exact OnlyChanges.refl _ _
    | with_reducible assumption
    | (with_reducible refine (dropCaravan_only ..).after (by decide) ?_)
    | (with_reducible refine (setLink_only ..).after (by decide) ?_)
    | (extract_lets +onlyGivenNames t1; clear_value t1)
    | extract_lets
    | split
    | with_reducible refine OnlyChanges.ite ?_ ?_)

theorem forwardAll_only (x0) (x1) (x2) (s) : OnlyChanges [.regs, .lgr, .fab] s (forwardAll x0 x1 x2 s) := by
  fun_induction forwardAll x0 x1 x2 s
  all_goals repeat (first
    | with_reducible exact OnlyChanges.refl _ _
    | with_reducible refine OnlyChanges.trans (by with_reducible assumption) ?_
    | with_reducible assumption
    | (with_reducible refine (forwardTo_only ..).after (by decide) ?_)
    | split)

theorem linkSlip_only (x0) (x1) (s) : OnlyChanges [.fab] s (linkSlip x0 x1 s) := by
  unfold linkSlip
  repeat (first
    | with_reducible exact OnlyChanges.refl _ _
    | with_reducible assumption
    | (with_reducible refine (setFab_only ..).after (by decide) ?_)
    | extract_lets)

theorem discReply_only (x0) (s) : OnlyChanges [.outcomes, .hostMem, .dueWrites, .fab] s (discReply x0 s) := by
  unfold discReply
  repeat (first
    | with_reducible exact OnlyChanges.refl _ _
    | with_reducible assumption
    | (with_reducible refine (report_only ..).after (by decide) ?_)
    | (with_reducible refine (hostWrite_only ..).after (by decide) ?_)
    | (with_reducible refine (setFab_only ..).after (by decide) ?_)
    | extract_lets
    | split)

theorem discSetAddr_only (x0) (s) : OnlyChanges [.regs, .lgr] s (discSetAddr x0 s).2 := by
  unfold discSetAddr
  repeat (first
    | with_reducible exact OnlyChanges.refl _ _
    | with_reducible assumption
    | (with_reducible refine (setAddress_only ..).after (by decide) ?_)
    | split
    | with_reducible refine OnlyChanges.ite ?_ ?_)

theorem discAnswer_only (x0) (x1) (s) : OnlyChanges [.regs, .lgr] s (discAnswer x0 x1 s).2 := by
  unfold discAnswer
  repeat (first
    | with_reducible exact OnlyChanges.refl _ _
    | with_reducible assumption
    | (with_reducible refine (discSetAddr_only ..).after (by decide) ?_)
    | (extract_lets +onlyGivenNames t1; with_reducible refine OnlyChanges.cut (t := t1.2) ?_ ?_ <;> [subst t1; (clear_value t1; intro)])
    | extract_lets
    | split)

theorem sendDisc_only (x0) (x1) (s) : OnlyChanges [.freeCtr, .fab] s (sendDisc x0 x1 s) := by
  unfold sendDisc
  repeat (first
    | with_reducible exact OnlyChanges.refl _ _
    | with_reducible assumption
    | (with_reducible refine (queueFrame_only ..).after (by decide) ?_)
    | (with_reducible refine (draw_only ..).after (by decide) ?_)
    | (extract_lets +onlyGivenNames t1; clear_value t1)
    | extract_lets
    | split
    | with_reducible refine OnlyChanges.ite ?_ ?_)

theorem discTarget_only (i p) (s) : OnlyChanges [.regs, .outcomes, .hostMem, .dueWrites, .freeCtr, .lgr, .fab] s (discTarget i p s) := by
  unfold discTarget
  refine OnlyChanges.ite (OnlyChanges.refl _ _) (OnlyChanges.ite (OnlyChanges.mono (discReply_only ..) (by decide)) ?_)
  have h := discAnswer_only (field p 2 1) (p.drop 36) s
  split <;> rename_i e <;> rw [e] at h
  · exact (sendDisc_only ..).after (by decide) (OnlyChanges.mono h (by decide))
  · exact OnlyChanges.mono h (by decide)

theorem linkGoesDown_only (x0) (x1) (x2) (s) : OnlyChanges [.regs, .freeCtr, .lgr, .clk, .fab] s (linkGoesDown x0 x1 x2 s) := by
  unfold linkGoesDown
  repeat (first
    | with_reducible exact OnlyChanges.refl _ _
    | with_reducible assumption
    | (with_reducible refine (ledger_only ..).after (by decide) ?_)
    | (with_reducible refine (evRaise_only ..).after (by decide) ?_)
    | (with_reducible refine (setLink_only ..).after (by decide) ?_)
    | (with_reducible refine (fabSource_only ..).after (by decide) ?_)
    | (with_reducible refine (xlinkChange_only ..).after (by decide) ?_)
    | extract_lets
    | split
    | with_reducible refine OnlyChanges.ite ?_ ?_)

theorem setStream_only (x0) (x1) (s) : OnlyChanges [.fab] s (setStream x0 x1 s) := by
  unfold setStream
  repeat (first
    | with_reducible exact OnlyChanges.refl _ _
    | with_reducible assumption
    | (with_reducible refine (setFab_only ..).after (by decide) ?_)
    | extract_lets)

theorem streamsClose_only (x0) (x1) (s) : OnlyChanges [.regs, .lgr, .fab] s (streamsClose x0 x1 s) := by
  fun_induction streamsClose x0 x1 s
  all_goals repeat (first
    | with_reducible exact OnlyChanges.refl _ _
    | with_reducible refine OnlyChanges.trans (by with_reducible assumption) ?_
    | with_reducible assumption
    | (with_reducible refine (evRaise_only ..).after (by decide) ?_)
    | (with_reducible refine (setStream_only ..).after (by decide) ?_)
    | (with_reducible refine (ledgerLim_only ..).after (by decide) ?_)
    | extract_lets
    | split
    | with_reducible refine OnlyChanges.ite ?_ ?_)

theorem fabricClose_only (x0) (s) : OnlyChanges [.regs, .lgr, .fab] s (fabricClose x0 s) := by
  unfold fabricClose
  repeat (first
    | with_reducible exact OnlyChanges.refl _ _
    | with_reducible assumption
    | (with_reducible refine (streamsClose_only ..).after (by decide) ?_))

theorem sendDpx_only (x0) (s) : OnlyChanges [.freeCtr, .fab] s (sendDpx x0 s) := by
  unfold sendDpx
  repeat (first
    | with_reducible exact OnlyChanges.refl _ _
    | with_reducible assumption
    | (with_reducible refine (queueFrame_only ..).after (by decide) ?_)
    | (with_reducible refine (draw_only ..).after (by decide) ?_)
    | (extract_lets +onlyGivenNames t1; clear_value t1)
    | extract_lets
    | split
    | with_reducible refine OnlyChanges.ite ?_ ?_)

theorem impCount_only (x0) (x1) (s) : OnlyChanges [.fab] s (impCount x0 x1 s) := by
  unfold impCount
  repeat (first
    | with_reducible exact OnlyChanges.refl _ _
    | with_reducible assumption
    | (with_reducible refine (setFab_only ..).after (by decide) ?_)
    | extract_lets)

theorem addBlock_only (x0) (x1) (x2) (s) : OnlyChanges [.pair] s (addBlock x0 x1 x2 s) := by
  unfold addBlock
  repeat (first
    | with_reducible exact OnlyChanges.refl _ _
    | with_reducible assumption
    | (with_reducible refine (setPair_only ..).after (by decide) ?_)
    | extract_lets
    | with_reducible refine OnlyChanges.foldl_trans (fun _ _ => ?_) ?_ _)

theorem mergeImport_only (x0) (x1) (x2) (x3) (s) : OnlyChanges [.regs, .lgr, .pair, .fab] s (mergeImport x0 x1 x2 x3 s) := by
  unfold mergeImport
  repeat (first
    | with_reducible exact OnlyChanges.refl _ _
    | with_reducible assumption
    | (with_reducible refine (ledgerLim_only ..).after (by decide) ?_)
    | (with_reducible refine (evRaise_only ..).after (by decide) ?_)
    | (with_reducible refine (impCount_only ..).after (by decide) ?_)
    | (with_reducible refine (addBlock_only ..).after (by decide) ?_)
    | extract_lets
    | split
    | with_reducible refine OnlyChanges.ite ?_ ?_)

theorem mergeImports_only (x0) (x1) (x2) (s) : OnlyChanges [.regs, .lgr, .pair, .fab] s (mergeImports x0 x1 x2 s) := by
  fun_induction mergeImports x0 x1 x2 s
  all_goals repeat (first
    | with_reducible exact OnlyChanges.refl _ _
    | with_reducible refine OnlyChanges.trans (by with_reducible assumption) ?_
    | with_reducible assumption
    | (with_reducible refine (mergeImport_only ..).after (by decide) ?_)
    | split)

theorem exportOut_only (x0) (x1) (x2) (s) : OnlyChanges [.regs, .pair] s (exportOut x0 x1 x2 s) := by
  unfold exportOut
  repeat (first
    | with_reducible exact OnlyChanges.refl _ _
    | with_reducible assumption
    | (with_reducible refine (setPair_only ..).after (by decide) ?_)
    | (with_reducible refine (evRaise_only ..).after (by decide) ?_)
    | (with_reducible refine (accCount_only ..).after (by decide) ?_)
    | (extract_lets +onlyGivenNames t1; with_reducible refine OnlyChanges.cut (t := t1) ?_ ?_ <;> [subst t1; (clear_value t1; intro)])
    | (extract_lets +onlyGivenNames t1; clear_value t1)
    | extract_lets
    | split
    | with_reducible refine OnlyChanges.ite ?_ ?_)

theorem satOut_only (x0) (x1) (s) : OnlyChanges [.regs, .pair] s (satOut x0 x1 s) := by
  unfold satOut
  repeat (first
    | with_reducible exact OnlyChanges.refl _ _
    | with_reducible assumption
    | (with_reducible refine (evRaise_only ..).after (by decide) ?_)
    | (with_reducible refine (accCount_only ..).after (by decide) ?_)
    | (with_reducible refine (setPair_only ..).after (by decide) ?_)
    | (extract_lets +onlyGivenNames t1; clear_value t1)
    | extract_lets
    | split
    | with_reducible refine OnlyChanges.ite ?_ ?_
    | with_reducible refine OnlyChanges.foldl_trans (fun _ _ => ?_) ?_ _)

theorem mergeTurn_only (x0) (x1) (s) : OnlyChanges [.regs, .lgr, .pair, .fab] s (mergeTurn x0 x1 s) := by
  unfold mergeTurn
  repeat (first
    | with_reducible exact OnlyChanges.refl _ _
    | with_reducible assumption
    | (with_reducible refine (mergeImports_only ..).after (by decide) ?_)
    | (with_reducible refine (setPair_only ..).after (by decide) ?_)
    | (with_reducible refine (exportOut_only ..).after (by decide) ?_)
    | (with_reducible refine (satOut_only ..).after (by decide) ?_)
    | (extract_lets +onlyGivenNames t1; with_reducible refine OnlyChanges.cut (t := t1) ?_ ?_ <;> [subst t1; (clear_value t1; intro)])
    | (extract_lets +onlyGivenNames t1; clear_value t1)
    | extract_lets
    | with_reducible refine eachObj_only (fun _ _ => ?_) ?_ _)

theorem settleMerge_only (s) : OnlyChanges [.regs, .lgr, .pair, .fab] s (settleMerge s) := by
  unfold settleMerge
  repeat (first
    | with_reducible exact OnlyChanges.refl _ _
    | with_reducible assumption
    | (with_reducible refine (mergeTurn_only ..).after (by decide) ?_)
    | extract_lets
    | split
    | with_reducible refine OnlyChanges.ite ?_ ?_)

theorem helloTake_only (x0) (x1) (s) : OnlyChanges [.regs, .freeCtr, .lgr, .clk, .fab] s (helloTake x0 x1 s) := by
  unfold helloTake
  repeat (first
    | with_reducible exact OnlyChanges.refl _ _
    | with_reducible assumption
    | (with_reducible refine (setLink_only ..).after (by decide) ?_)
    | (with_reducible refine (evIf_only ..).after (by decide) ?_)
    | (with_reducible refine (linkGoesUp_only ..).after (by decide) ?_)
    | (extract_lets +onlyGivenNames t1; with_reducible refine OnlyChanges.cut (t := t1) ?_ ?_ <;> [subst t1; (clear_value t1; intro)])
    | (extract_lets +onlyGivenNames t1; clear_value t1)
    | extract_lets
    | split
    | with_reducible refine OnlyChanges.ite ?_ ?_)

theorem tickTake_only (x0) (x1) (x2) (s) : OnlyChanges [.regs, .freeCtr, .lgr, .clk, .fab] s (tickTake x0 x1 x2 s) := by
  unfold tickTake
  repeat (first
    | with_reducible exact OnlyChanges.refl _ _
    | with_reducible assumption
    | (with_reducible refine (fabSource_only ..).after (by decide) ?_)
    | (with_reducible refine (evIf_only ..).after (by decide) ?_)
    | (with_reducible refine (setLink_only ..).after (by decide) ?_)
    | extract_lets
    | split)

theorem countRecord_only (x0) (x1) (x2) (s) : OnlyChanges [.regs, .fab] s (countRecord x0 x1 x2 s) := by
  unfold countRecord
  repeat (first
    | with_reducible exact OnlyChanges.refl _ _
    | with_reducible assumption
    | (with_reducible refine (setStream_only ..).after (by decide) ?_)
    | (with_reducible refine (evRaise_only ..).after (by decide) ?_)
    | (extract_lets +onlyGivenNames t1; clear_value t1)
    | extract_lets
    | split
    | with_reducible refine OnlyChanges.ite ?_ ?_)

theorem importObj_only (x0) (x1) (x2) (s) : OnlyChanges [.regs, .lgr, .obj, .fab] s (importObj x0 x1 x2 s) := by
  fun_induction importObj x0 x1 x2 s
  all_goals repeat (first
    | with_reducible exact OnlyChanges.refl _ _
    | with_reducible refine OnlyChanges.trans (by with_reducible assumption) ?_
    | with_reducible assumption
    | (with_reducible refine (importChannel_only ..).after (by decide) ?_)
    | (with_reducible refine (countRecord_only ..).after (by decide) ?_)
    | split)

theorem holdImport_only (x0) (x1) (x2) (x3) (x4) (x5) (s) : OnlyChanges [.regs, .pair, .fab] s (holdImport x0 x1 x2 x3 x4 x5 s) := by
  unfold holdImport
  repeat (first
    | with_reducible exact OnlyChanges.refl _ _
    | with_reducible assumption
    | (with_reducible refine (evRaise_only ..).after (by decide) ?_)
    | (with_reducible refine (impCount_only ..).after (by decide) ?_)
    | (with_reducible refine (setPair_only ..).after (by decide) ?_)
    | (extract_lets +onlyGivenNames t1; clear_value t1)
    | extract_lets
    | split
    | with_reducible refine OnlyChanges.ite ?_ ?_)

theorem offerImports_only (x0) (x1) (x2) (x3) (x4) (x5) (x6) (s) : OnlyChanges [.regs, .pair, .fab] s (offerImports x0 x1 x2 x3 x4 x5 x6 s) := by
  fun_induction offerImports x0 x1 x2 x3 x4 x5 x6 s
  all_goals repeat (first
    | with_reducible exact OnlyChanges.refl _ _
    | with_reducible refine OnlyChanges.trans (by with_reducible assumption) ?_
    | with_reducible assumption
    | (with_reducible refine (holdImport_only ..).after (by decide) ?_)
    | split
    | with_reducible refine OnlyChanges.ite ?_ ?_)

theorem importPsum_only (x0) (x1) (x2) (x3) (x4) (s) : OnlyChanges [.regs, .pair, .fab] s (importPsum x0 x1 x2 x3 x4 s) := by
  fun_induction importPsum x0 x1 x2 x3 x4 s
  all_goals repeat (first
    | with_reducible exact OnlyChanges.refl _ _
    | with_reducible refine OnlyChanges.trans (by with_reducible assumption) ?_
    | with_reducible assumption
    | (with_reducible refine (offerImports_only ..).after (by decide) ?_)
    | extract_lets
    | split)

theorem stageOut_only (x0) (x1) (x2) (s) : OnlyChanges [.mp] s (stageOut x0 x1 x2 s) := by
  unfold stageOut
  repeat (first
    | with_reducible exact OnlyChanges.refl _ _
    | with_reducible assumption
    | (extract_lets +onlyGivenNames t1; clear_value t1)
    | extract_lets
    | split
    | with_reducible refine OnlyChanges.ite ?_ ?_
    | (fail_if_no_progress (with_reducible apply OnlyChanges.upd <;> first | exact Or.inr (by decide) | exact Or.inl (by with_reducible rfl) | skip)))

theorem offerOut_only (x0) (x1) (x2) (x3) (x4) (x5) (s) : OnlyChanges [.mp] s (offerOut x0 x1 x2 x3 x4 x5 s) := by
  fun_induction offerOut x0 x1 x2 x3 x4 x5 s
  all_goals repeat (first
    | with_reducible exact OnlyChanges.refl _ _
    | with_reducible refine OnlyChanges.trans (by with_reducible assumption) ?_
    | with_reducible assumption
    | (with_reducible refine (stageOut_only ..).after (by decide) ?_)
    | split
    | with_reducible refine OnlyChanges.ite ?_ ?_)

theorem importOut_only (x0) (x1) (x2) (x3) (s) : OnlyChanges [.mp] s (importOut x0 x1 x2 x3 s) := by
  fun_induction importOut x0 x1 x2 x3 s
  all_goals repeat (first
    | with_reducible exact OnlyChanges.refl _ _
    | with_reducible refine OnlyChanges.trans (by with_reducible assumption) ?_
    | with_reducible assumption
    | (with_reducible refine (offerOut_only ..).after (by decide) ?_)
    | extract_lets
    | split)

theorem deliver_only (x0) (x1) (x2) (x3) (x4) (s) : OnlyChanges [.regs, .outcomes, .hostMem, .dueWrites, .freeCtr, .stw, .lgr, .mp, .obj, .segUid, .pair, .fab] s (deliver x0 x1 x2 x3 x4 s) := by
  unfold deliver
  repeat (first
    | with_reducible exact OnlyChanges.refl _ _
    | with_reducible assumption
    | (with_reducible refine (importObj_only ..).after (by decide) ?_)
    | (with_reducible refine (importPsum_only ..).after (by decide) ?_)
    | (with_reducible refine (importOut_only ..).after (by decide) ?_)
    | (with_reducible refine (deliverMgmt_only ..).after (by decide) ?_)
    | (extract_lets +onlyGivenNames t1; clear_value t1)
    | extract_lets
    | split
    | with_reducible refine OnlyChanges.ite ?_ ?_)

theorem forwardOn_only (x0) (x1) (x2) (x3) (x4) (s) : OnlyChanges [.regs, .lgr, .fab] s (forwardOn x0 x1 x2 x3 x4 s) := by
  unfold forwardOn
  repeat (first
    | with_reducible exact OnlyChanges.refl _ _
    | with_reducible assumption
    | (with_reducible refine (dropCaravan_only ..).after (by decide) ?_)
    | (with_reducible refine (forwardAll_only ..).after (by decide) ?_)
    | (extract_lets +onlyGivenNames t1; with_reducible refine OnlyChanges.cut (t := t1) ?_ ?_ <;> [subst t1; (clear_value t1; intro)])
    | (extract_lets +onlyGivenNames t1; clear_value t1)
    | extract_lets
    | split
    | with_reducible refine OnlyChanges.ite ?_ ?_)

theorem deliverQueue_only (x0) (x1) (x2) (x3) (x4) (x5) (s) : OnlyChanges [.regs, .outcomes, .hostMem, .dueWrites, .freeCtr, .stw, .lgr, .mp, .obj, .segUid, .pair, .fab] s (deliverQueue x0 x1 x2 x3 x4 x5 s) := by
  unfold deliverQueue
  repeat (first
    | with_reducible exact OnlyChanges.refl _ _
    | with_reducible assumption
    | (with_reducible refine (deliver_only ..).after (by decide) ?_)
    | (with_reducible refine (linkSlip_only ..).after (by decide) ?_)
    | extract_lets
    | split
    | with_reducible refine OnlyChanges.ite ?_ ?_)

theorem routeCaravan_only (x0) (x1) (x2) (x3) (x4) (x5) (s) : OnlyChanges [.regs, .outcomes, .hostMem, .dueWrites, .freeCtr, .stw, .lgr, .mp, .obj, .segUid, .pair, .fab] s (routeCaravan x0 x1 x2 x3 x4 x5 s) := by
  unfold routeCaravan
  repeat (first
    | with_reducible exact OnlyChanges.refl _ _
    | with_reducible assumption
    | (with_reducible refine (dropCaravan_only ..).after (by decide) ?_)
    | (with_reducible refine (linkCount_only ..).after (by decide) ?_)
    | (with_reducible refine (forwardOn_only ..).after (by decide) ?_)
    | (with_reducible refine (deliverQueue_only ..).after (by decide) ?_)
    | (extract_lets +onlyGivenNames t1; with_reducible refine OnlyChanges.cut (t := t1) ?_ ?_ <;> [subst t1; (clear_value t1; intro)])
    | (extract_lets +onlyGivenNames t1; clear_value t1)
    | extract_lets
    | split
    | with_reducible refine OnlyChanges.ite ?_ ?_)

theorem discReceive_only (x0) (x1) (x2) (s) : OnlyChanges [.regs, .outcomes, .hostMem, .dueWrites, .freeCtr, .stw, .lgr, .fab] s (discReceive x0 x1 x2 s) := by
  unfold discReceive
  repeat (first
    | with_reducible exact OnlyChanges.refl _ _
    | with_reducible assumption
    | (with_reducible refine (fabricFrame_only ..).after (by decide) ?_)
    | (with_reducible refine (discTarget_only ..).after (by decide) ?_)
    | (with_reducible refine (forwardTo_only ..).after (by decide) ?_)
    | (with_reducible refine (dropCaravan_only ..).after (by decide) ?_)
    | (extract_lets +onlyGivenNames t1; with_reducible refine OnlyChanges.cut (t := t1.2) ?_ ?_ <;> [subst t1; (clear_value t1; intro)])
    | (extract_lets +onlyGivenNames t1; clear_value t1)
    | extract_lets
    | split
    | with_reducible refine OnlyChanges.ite ?_ ?_)

theorem hearFrame_only (x0) (s) : OnlyChanges [.fab] s (hearFrame x0 s) := by
  unfold hearFrame
  repeat (first
    | with_reducible exact OnlyChanges.refl _ _
    | with_reducible assumption
    | (with_reducible refine (hearEpoch_only ..).after (by decide) ?_)
    | split
    | with_reducible refine OnlyChanges.ite ?_ ?_)

theorem takeCaravan_only (x0) (x1) (x2) (x3) (x4) (x5) (s) : OnlyChanges [.regs, .outcomes, .hostMem, .dueWrites, .freeCtr, .stw, .lgr, .mp, .dpx, .obj, .segUid, .pair, .fab] s (takeCaravan x0 x1 x2 x3 x4 x5 s) := by
  unfold takeCaravan
  repeat (first
    | with_reducible exact OnlyChanges.refl _ _
    | with_reducible assumption
    | (with_reducible refine (hearFrame_only ..).after (by decide) ?_)
    | (with_reducible refine (dropCaravan_only ..).after (by decide) ?_)
    | (with_reducible refine (dpxFrameReceive_only ..).after (by decide) ?_)
    | (with_reducible refine (discReceive_only ..).after (by decide) ?_)
    | (with_reducible refine (routeCaravan_only ..).after (by decide) ?_)
    | (extract_lets +onlyGivenNames t1; with_reducible refine OnlyChanges.cut (t := t1) ?_ ?_ <;> [subst t1; (clear_value t1; intro)])
    | extract_lets
    | split
    | with_reducible refine OnlyChanges.ite ?_ ?_)

theorem mergeOuts_only (x0) (x1) (s) : OnlyChanges [.pair] s (mergeOuts x0 x1 s) := by
  fun_induction mergeOuts x0 x1 s
  all_goals repeat (first
    | with_reducible exact OnlyChanges.refl _ _
    | with_reducible refine OnlyChanges.trans (by with_reducible assumption) ?_
    | with_reducible assumption
    | (with_reducible refine (setPair_only ..).after (by decide) ?_)
    | extract_lets
    | split
    | with_reducible refine OnlyChanges.foldl_trans (fun _ _ => ?_) ?_ _)

theorem residues_only (x0) (x1) (s) : OnlyChanges [.regs, .lgr, .pair] s (residues x0 x1 s) := by
  fun_induction residues x0 x1 s
  all_goals repeat (first
    | with_reducible exact OnlyChanges.refl _ _
    | with_reducible refine OnlyChanges.trans (by with_reducible assumption) ?_
    | with_reducible assumption
    | (with_reducible refine (ledgerLim_only ..).after (by decide) ?_)
    | (with_reducible refine (evRaise_only ..).after (by decide) ?_)
    | (with_reducible refine (accCount_only ..).after (by decide) ?_)
    | split)

theorem residueFault_only (x0) (s) : OnlyChanges [.regs, .lgr, .dpx, .lau] s (residueFault x0 s) := by
  unfold residueFault
  repeat (first
    | with_reducible exact OnlyChanges.refl _ _
    | with_reducible assumption
    | (with_reducible refine (deviceFault_only ..).after (by decide) ?_)
    | split
    | with_reducible refine OnlyChanges.ite ?_ ?_)

theorem handoverOp_only (x0) (x1) (s) : OnlyChanges [.regs, .lgr, .dpx, .pair, .lau] s (handoverOp x0 x1 s) := by
  unfold handoverOp
  repeat (first
    | with_reducible exact OnlyChanges.refl _ _
    | with_reducible assumption
    | (with_reducible refine (mergeOuts_only ..).after (by decide) ?_)
    | (with_reducible refine (auditEnd_only ..).after (by decide) ?_)
    | (with_reducible refine (residueFault_only ..).after (by decide) ?_)
    | (with_reducible refine (residues_only ..).after (by decide) ?_)
    | (with_reducible refine (setPair_only ..).after (by decide) ?_)
    | extract_lets)

theorem launchChecks_only (x0) (s) : OnlyChanges [.regs, .lgr, .dpx] s (launchChecks x0 s) := by
  fun_induction launchChecks x0 s
  all_goals repeat (first
    | with_reducible exact OnlyChanges.refl _ _
    | with_reducible refine OnlyChanges.trans (by with_reducible assumption) ?_
    | with_reducible assumption
    | (with_reducible refine (handoffCheck_only ..).after (by decide) ?_)
    | split
    | with_reducible refine OnlyChanges.ite ?_ ?_)

theorem launchOp_only (x0) (x1) (x2) (s) : OnlyChanges [.regs, .lgr, .dpx, .fab] s (launchOp x0 x1 x2 s) := by
  unfold launchOp
  repeat (first
    | with_reducible exact OnlyChanges.refl _ _
    | with_reducible assumption
    | (with_reducible refine (launchChecks_only ..).after (by decide) ?_)
    | (with_reducible refine (hearEpoch_only ..).after (by decide) ?_)
    | (with_reducible refine (queueFrame_only ..).after (by decide) ?_)
    | (extract_lets +onlyGivenNames t1; with_reducible refine OnlyChanges.cut (t := t1) ?_ ?_ <;> [subst t1; (clear_value t1; intro)])
    | (extract_lets +onlyGivenNames t1; clear_value t1)
    | extract_lets
    | split
    | with_reducible refine OnlyChanges.ite ?_ ?_)

theorem holdError_only (x0) (x1) (s) : OnlyChanges [.regs] s (holdError x0 x1 s) := by
  unfold holdError
  repeat (first
    | with_reducible exact OnlyChanges.refl _ _
    | with_reducible assumption
    | (with_reducible refine (setReg_only ..).after (by decide) ?_)
    | split
    | with_reducible refine OnlyChanges.ite ?_ ?_)

theorem mtxError_only (x0) (x1) (s) : OnlyChanges [.regs, .lgr] s (mtxError x0 x1 s) := by
  unfold mtxError
  repeat (first
    | with_reducible exact OnlyChanges.refl _ _
    | with_reducible assumption
    | (with_reducible refine (holdError_only ..).after (by decide) ?_)
    | (with_reducible refine (evRaise_only ..).after (by decide) ?_)
    | (with_reducible refine (ledgerLim_only ..).after (by decide) ?_)
    | (extract_lets +onlyGivenNames t1; with_reducible refine OnlyChanges.cut (t := t1) ?_ ?_ <;> [subst t1; (clear_value t1; intro)])
    | extract_lets
    | split
    | with_reducible refine OnlyChanges.ite ?_ ?_)

theorem setMtx_only (s) (x1) : OnlyChanges [.mtx] s (setMtx s x1) := by
  unfold setMtx
  repeat (first
    | with_reducible exact OnlyChanges.refl _ _
    | with_reducible assumption
    | extract_lets
    | (fail_if_no_progress (with_reducible apply OnlyChanges.upd <;> first | exact Or.inr (by decide) | exact Or.inl (by with_reducible rfl) | skip)))

theorem holdReq_only (x0) (s) : OnlyChanges [.mtx] s (holdReq x0 s) := by
  unfold holdReq
  repeat (first
    | with_reducible exact OnlyChanges.refl _ _
    | with_reducible assumption
    | (with_reducible refine (setMtx_only ..).after (by decide) ?_)
    | extract_lets)

theorem winEnd_only (x0) (x1) (x2) (x3) (s) : OnlyChanges [.regs] s (winEnd x0 x1 x2 x3 s) := by
  unfold winEnd
  repeat (first
    | with_reducible exact OnlyChanges.refl _ _
    | with_reducible assumption
    | (with_reducible refine (setReg_only ..).after (by decide) ?_)
    | (extract_lets +onlyGivenNames t1; with_reducible refine OnlyChanges.cut (t := t1) ?_ ?_ <;> [subst t1; (clear_value t1; intro)])
    | extract_lets
    | split
    | with_reducible refine OnlyChanges.ite ?_ ?_)

theorem winTimeout_only (x0) (x1) (s) : OnlyChanges [.regs] s (winTimeout x0 x1 s) := by
  unfold winTimeout
  repeat (first
    | with_reducible exact OnlyChanges.refl _ _
    | with_reducible assumption
    | (with_reducible refine (winEnd_only ..).after (by decide) ?_)
    | split
    | with_reducible refine OnlyChanges.ite ?_ ?_)

theorem setLau_only (s) (x1) : OnlyChanges [.lau] s (setLau s x1) := by
  unfold setLau
  repeat (first
    | with_reducible exact OnlyChanges.refl _ _
    | with_reducible assumption
    | extract_lets
    | (fail_if_no_progress (with_reducible apply OnlyChanges.upd <;> first | exact Or.inr (by decide) | exact Or.inl (by with_reducible rfl) | skip)))

theorem setBus_only (x0) (x1) (s) : OnlyChanges [.lau] s (setBus x0 x1 s) := by
  unfold setBus
  repeat (first
    | with_reducible exact OnlyChanges.refl _ _
    | with_reducible assumption
    | (with_reducible refine (setLau_only ..).after (by decide) ?_)
    | extract_lets)

theorem busCount_only (x0) (x1) (x2) (s) : OnlyChanges [.lau] s (busCount x0 x1 x2 s) := by
  unfold busCount
  repeat (first
    | with_reducible exact OnlyChanges.refl _ _
    | with_reducible assumption
    | (with_reducible refine (setBus_only ..).after (by decide) ?_)
    | extract_lets)

theorem busSample_only (x0) (x1) (s) : OnlyChanges [.regs, .lgr, .lau] s (busSample x0 x1 s) := by
  unfold busSample
  repeat (first
    | with_reducible exact OnlyChanges.refl _ _
    | with_reducible assumption
    | (with_reducible refine (setBus_only ..).after (by decide) ?_)
    | (with_reducible refine (ledgerLim_only ..).after (by decide) ?_)
    | (with_reducible refine (evRaise_only ..).after (by decide) ?_)
    | (with_reducible refine (busCount_only ..).after (by decide) ?_)
    | (extract_lets +onlyGivenNames t1; with_reducible refine OnlyChanges.cut (t := t1) ?_ ?_ <;> [subst t1; (clear_value t1; intro)])
    | (extract_lets +onlyGivenNames t1; clear_value t1)
    | extract_lets
    | split
    | with_reducible refine OnlyChanges.ite ?_ ?_)

theorem busUpTo_only (x0) (x1) (x2) (s) : OnlyChanges [.regs, .lgr, .lau] s (busUpTo x0 x1 x2 s) := by
  fun_induction busUpTo x0 x1 x2 s
  all_goals repeat (first
    | with_reducible exact OnlyChanges.refl _ _
    | with_reducible refine OnlyChanges.trans (by with_reducible assumption) ?_
    | with_reducible assumption
    | (with_reducible refine (busSample_only ..).after (by decide) ?_)
    | split
    | with_reducible refine OnlyChanges.ite ?_ ?_)

theorem capOne_only (x0) (x1) (s) : OnlyChanges [.regs, .lau] s (capOne x0 x1 s) := by
  unfold capOne
  repeat (first
    | with_reducible exact OnlyChanges.refl _ _
    | with_reducible assumption
    | (with_reducible refine (evIf_only ..).after (by decide) ?_)
    | (with_reducible refine (setLau_only ..).after (by decide) ?_)
    | extract_lets
    | split
    | with_reducible refine OnlyChanges.ite ?_ ?_)

theorem capAll_only (x0) (x1) (s) : OnlyChanges [.regs, .lau] s (capAll x0 x1 s) := by
  fun_induction capAll x0 x1 s
  all_goals repeat (first
    | with_reducible exact OnlyChanges.refl _ _
    | with_reducible refine OnlyChanges.trans (by with_reducible assumption) ?_
    | with_reducible assumption
    | (with_reducible refine (capOne_only ..).after (by decide) ?_)
    | split)

theorem capUpTo_only (x0) (x1) (s) : OnlyChanges [.regs, .lau] s (capUpTo x0 x1 s) := by
  fun_induction capUpTo x0 x1 s
  all_goals repeat (first
    | with_reducible exact OnlyChanges.refl _ _
    | with_reducible refine OnlyChanges.trans (by with_reducible assumption) ?_
    | with_reducible assumption
    | (with_reducible refine (capAll_only ..).after (by decide) ?_)
    | (with_reducible refine (setLau_only ..).after (by decide) ?_)
    | extract_lets
    | split
    | with_reducible refine OnlyChanges.ite ?_ ?_)

theorem busAdvance_only (x0) (x1) (s) : OnlyChanges [.regs, .lgr, .lau] s (busAdvance x0 x1 s) := by
  unfold busAdvance
  repeat (first
    | with_reducible exact OnlyChanges.refl _ _
    | with_reducible assumption
    | (with_reducible refine (setBus_only ..).after (by decide) ?_)
    | (with_reducible refine (busUpTo_only ..).after (by decide) ?_)
    | (with_reducible refine (capUpTo_only ..).after (by decide) ?_)
    | extract_lets
    | split
    | with_reducible refine OnlyChanges.ite ?_ ?_)

theorem busAll_only (x0) (x1) (s) : OnlyChanges [.regs, .lgr, .lau] s (busAll x0 x1 s) := by
  fun_induction busAll x0 x1 s
  all_goals repeat (first
    | with_reducible exact OnlyChanges.refl _ _
    | with_reducible refine OnlyChanges.trans (by with_reducible assumption) ?_
    | with_reducible assumption
    | (with_reducible refine (busAdvance_only ..).after (by decide) ?_)
    | split)

theorem stimBoundary_only (x0) (s) : OnlyChanges [.regs, .outcomes, .lau] s (stimBoundary x0 s) := by
  unfold stimBoundary
  repeat (first
    | with_reducible exact OnlyChanges.refl _ _
    | with_reducible assumption
    | (with_reducible refine (reportAll_only ..).after (by decide) ?_)
    | (with_reducible refine (setLau_only ..).after (by decide) ?_)
    | (with_reducible refine (evRaise_only ..).after (by decide) ?_)
    | (extract_lets +onlyGivenNames t1; with_reducible refine OnlyChanges.cut (t := t1) ?_ ?_ <;> [subst t1; (clear_value t1; intro)])
    | (extract_lets +onlyGivenNames t1; clear_value t1)
    | extract_lets
    | split
    | with_reducible refine OnlyChanges.ite ?_ ?_)

theorem captureWrite_only (x0) (x1) (x2) (s) : OnlyChanges [.regs, .hostMem, .dueWrites, .stw, .lgr, .drc] s (captureWrite x0 x1 x2 s) := by
  unfold captureWrite
  repeat (first
    | with_reducible exact OnlyChanges.refl _ _
    | with_reducible assumption
    | (with_reducible refine (mtxError_only ..).after (by decide) ?_)
    | (with_reducible refine (bestWrite_only ..).after (by decide) ?_)
    | (with_reducible refine (hostWrite_only ..).after (by decide) ?_)
    | (extract_lets +onlyGivenNames t1; with_reducible refine OnlyChanges.cut (t := t1.2) ?_ ?_ <;> [subst t1; (clear_value t1; intro)])
    | (extract_lets +onlyGivenNames t1; clear_value t1)
    | extract_lets
    | split
    | with_reducible refine OnlyChanges.ite ?_ ?_
    | (fail_if_no_progress (with_reducible apply OnlyChanges.upd <;> first | exact Or.inr (by decide) | exact Or.inl (by with_reducible rfl) | skip)))

theorem captureWrites_only (x0) (x1) (s) : OnlyChanges [.regs, .hostMem, .dueWrites, .stw, .lgr, .drc] s (captureWrites x0 x1 s) := by
  fun_induction captureWrites x0 x1 s
  all_goals repeat (first
    | with_reducible exact OnlyChanges.refl _ _
    | with_reducible refine OnlyChanges.trans (by with_reducible assumption) ?_
    | with_reducible assumption
    | (with_reducible refine (captureWrite_only ..).after (by decide) ?_)
    | split)

theorem captureFlush_only (x0) (s) : OnlyChanges [.regs, .hostMem, .dueWrites, .stw, .lgr, .drc, .lau] s (captureFlush x0 s) := by
  fun_induction captureFlush x0 s
  all_goals repeat (first
    | with_reducible exact OnlyChanges.refl _ _
    | with_reducible refine OnlyChanges.trans (by with_reducible assumption) ?_
    | with_reducible assumption
    | (with_reducible refine (setLau_only ..).after (by decide) ?_)
    | (with_reducible refine (captureWrites_only ..).after (by decide) ?_)
    | extract_lets
    | split
    | with_reducible refine OnlyChanges.ite ?_ ?_)

theorem captureDrop_only (x0) (x1) (s) : OnlyChanges [.regs, .lgr, .lau] s (captureDrop x0 x1 s) := by
  fun_induction captureDrop x0 x1 s
  all_goals repeat (first
    | with_reducible exact OnlyChanges.refl _ _
    | with_reducible refine OnlyChanges.trans (by with_reducible assumption) ?_
    | with_reducible assumption
    | (with_reducible refine (ledgerLim_only ..).after (by decide) ?_)
    | (with_reducible refine (evRaise_only ..).after (by decide) ?_)
    | (with_reducible refine (setLau_only ..).after (by decide) ?_)
    | extract_lets
    | split)

theorem captureEnd_only (s) : OnlyChanges [.regs, .lau] s (captureEnd s) := by
  unfold captureEnd
  repeat (first
    | with_reducible exact OnlyChanges.refl _ _
    | with_reducible assumption
    | (with_reducible refine (evRaise_only ..).after (by decide) ?_)
    | (with_reducible refine (setLau_only ..).after (by decide) ?_)
    | extract_lets)

theorem captureTranche_only (x0) (s) : OnlyChanges [.regs, .hostMem, .dueWrites, .stw, .lgr, .drc, .lau] s (captureTranche x0 s) := by
  unfold captureTranche
  repeat (first
    | with_reducible exact OnlyChanges.refl _ _
    | with_reducible assumption
    | (with_reducible refine (captureDrop_only ..).after (by decide) ?_)
    | (with_reducible refine (setLau_only ..).after (by decide) ?_)
    | (with_reducible refine (captureWrites_only ..).after (by decide) ?_)
    | (with_reducible refine (captureEnd_only ..).after (by decide) ?_)
    | (extract_lets +onlyGivenNames t1; with_reducible refine OnlyChanges.cut (t := t1) ?_ ?_ <;> [subst t1; (clear_value t1; intro)])
    | (extract_lets +onlyGivenNames t1; clear_value t1)
    | extract_lets
    | split
    | with_reducible refine OnlyChanges.ite ?_ ?_)

theorem captureBoundary_only (x0) (s) : OnlyChanges [.regs, .outcomes, .hostMem, .dueWrites, .stw, .lgr, .drc, .lau] s (captureBoundary x0 s) := by
  unfold captureBoundary
  repeat (first
    | with_reducible exact OnlyChanges.refl _ _
    | with_reducible assumption
    | (with_reducible refine (captureFlush_only ..).after (by decide) ?_)
    | (with_reducible refine (capUpTo_only ..).after (by decide) ?_)
    | (with_reducible refine (captureTranche_only ..).after (by decide) ?_)
    | (with_reducible refine (setLau_only ..).after (by decide) ?_)
    | (with_reducible refine (evRaise_only ..).after (by decide) ?_)
    | (with_reducible refine (reportAll_only ..).after (by decide) ?_)
    | (extract_lets +onlyGivenNames t1; with_reducible refine OnlyChanges.cut (t := t1) ?_ ?_ <;> [subst t1; (clear_value t1; intro)])
    | extract_lets
    | split
    | with_reducible refine OnlyChanges.ite ?_ ?_)

theorem monTick_only (x0) (s) : OnlyChanges [.freeCtr, .lau] s (monTick x0 s) := by
  fun_induction monTick x0 s
  all_goals repeat (first
    | with_reducible exact OnlyChanges.refl _ _
    | with_reducible refine OnlyChanges.trans (by with_reducible assumption) ?_
    | with_reducible assumption
    | (with_reducible refine (setMon_only ..).after (by decide) ?_)
    | (with_reducible refine (draw_only ..).after (by decide) ?_)
    | extract_lets
    | split
    | with_reducible refine OnlyChanges.ite ?_ ?_)

theorem audioBoundary_only (x0) (s) : OnlyChanges [.regs, .outcomes, .hostMem, .dueWrites, .freeCtr, .stw, .lgr, .drc, .lau] s (audioBoundary x0 s) := by
  unfold audioBoundary
  repeat (first
    | with_reducible exact OnlyChanges.refl _ _
    | with_reducible assumption
    | (with_reducible refine (busAll_only ..).after (by decide) ?_)
    | (with_reducible refine (stimBoundary_only ..).after (by decide) ?_)
    | (with_reducible refine (captureBoundary_only ..).after (by decide) ?_)
    | (with_reducible refine (monTick_only ..).after (by decide) ?_)
    | (with_reducible refine (setLau_only ..).after (by decide) ?_)
    | extract_lets
    | split
    | with_reducible refine OnlyChanges.ite ?_ ?_)

theorem captureStop_only (s) : OnlyChanges [.regs, .mtx, .lau] s (captureStop s) := by
  unfold captureStop
  repeat (first
    | with_reducible exact OnlyChanges.refl _ _
    | with_reducible assumption
    | (with_reducible refine (captureEnd_only ..).after (by decide) ?_)
    | (with_reducible refine (resetMasters_only ..).after (by decide) ?_)
    | (with_reducible refine (setLau_only ..).after (by decide) ?_)
    | extract_lets
    | split
    | with_reducible refine OnlyChanges.ite ?_ ?_)

theorem setSap_only (x0) (x1) (s) : OnlyChanges [.lau] s (setSap x0 x1 s) := by
  unfold setSap
  repeat (first
    | with_reducible exact OnlyChanges.refl _ _
    | with_reducible assumption
    | (with_reducible refine (setLau_only ..).after (by decide) ?_)
    | extract_lets)

theorem sideTone_only (x0) (x1) (x2) (s) : OnlyChanges [.regs, .freeCtr, .lau] s (sideTone x0 x1 x2 s) := by
  unfold sideTone
  repeat (first
    | with_reducible exact OnlyChanges.refl _ _
    | with_reducible assumption
    | (with_reducible refine (setMon_only ..).after (by decide) ?_)
    | (with_reducible refine (draw_only ..).after (by decide) ?_)
    | (with_reducible refine (evRaise_only ..).after (by decide) ?_)
    | (with_reducible refine (busCount_only ..).after (by decide) ?_)
    | (extract_lets +onlyGivenNames t1; with_reducible refine OnlyChanges.cut (t := t1) ?_ ?_ <;> [subst t1; (clear_value t1; intro)])
    | (extract_lets +onlyGivenNames t1; clear_value t1)
    | extract_lets
    | split
    | with_reducible refine OnlyChanges.ite ?_ ?_)

theorem monClr_only (x0) (s) : OnlyChanges [.regs, .lgr, .aon, .lau] s (monClr x0 s) := by
  unfold monClr
  repeat (first
    | with_reducible exact OnlyChanges.refl _ _
    | with_reducible assumption
    | (with_reducible refine (monSettleAll_only ..).after (by decide) ?_)
    | (with_reducible refine (ledger_only ..).after (by decide) ?_)
    | (with_reducible refine (evRaise_only ..).after (by decide) ?_)
    | (extract_lets +onlyGivenNames t1; with_reducible refine OnlyChanges.cut (t := t1) ?_ ?_ <;> [subst t1; (clear_value t1; intro)])
    | (extract_lets +onlyGivenNames t1; clear_value t1)
    | extract_lets
    | split
    | with_reducible refine OnlyChanges.ite ?_ ?_
    | (fail_if_no_progress (with_reducible apply OnlyChanges.upd <;> first | exact Or.inr (by decide) | exact Or.inl (by with_reducible rfl) | skip)))

theorem sapCount_only (x0) (x1) (x2) (s) : OnlyChanges [.lau] s (sapCount x0 x1 x2 s) := by
  unfold sapCount
  repeat (first
    | with_reducible exact OnlyChanges.refl _ _
    | with_reducible assumption
    | (with_reducible refine (setSap_only ..).after (by decide) ?_)
    | extract_lets)

theorem sapSlip_only (x0) (s) : OnlyChanges [.regs, .lgr, .lau] s (sapSlip x0 s) := by
  unfold sapSlip
  repeat (first
    | with_reducible exact OnlyChanges.refl _ _
    | with_reducible assumption
    | (with_reducible refine (evRaise_only ..).after (by decide) ?_)
    | (with_reducible refine (sapCount_only ..).after (by decide) ?_)
    | (with_reducible refine (ledgerLim_only ..).after (by decide) ?_)
    | extract_lets)

theorem groupUnderrun_only (x0) (s) : OnlyChanges [.regs, .lgr, .lau] s (groupUnderrun x0 s) := by
  unfold groupUnderrun
  repeat (first
    | with_reducible exact OnlyChanges.refl _ _
    | with_reducible assumption
    | (with_reducible refine (sapCount_only ..).after (by decide) ?_)
    | (with_reducible refine (setSap_only ..).after (by decide) ?_)
    | (with_reducible refine (ledger_only ..).after (by decide) ?_)
    | (with_reducible refine (evRaise_only ..).after (by decide) ?_)
    | (extract_lets +onlyGivenNames t1; with_reducible refine OnlyChanges.cut (t := t1) ?_ ?_ <;> [subst t1; (clear_value t1; intro)])
    | (extract_lets +onlyGivenNames t1; clear_value t1)
    | extract_lets
    | split
    | with_reducible refine OnlyChanges.ite ?_ ?_)

theorem wsEdge_only (x0) (x1) (x2) (s) : OnlyChanges [.regs, .lgr, .lau] s (wsEdge x0 x1 x2 s) := by
  unfold wsEdge
  repeat (first
    | with_reducible exact OnlyChanges.refl _ _
    | with_reducible assumption
    | (with_reducible refine (setSap_only ..).after (by decide) ?_)
    | (with_reducible refine (sapSlip_only ..).after (by decide) ?_)
    | (with_reducible refine (groupUnderrun_only ..).after (by decide) ?_)
    | (extract_lets +onlyGivenNames t1; with_reducible refine OnlyChanges.cut (t := t1) ?_ ?_ <;> [subst t1; (clear_value t1; intro)])
    | (extract_lets +onlyGivenNames t1; clear_value t1)
    | extract_lets
    | split
    | with_reducible refine OnlyChanges.ite ?_ ?_)

theorem takeInput_only (x0) (x1) (x2) (x3) (s) : OnlyChanges [.regs, .obj, .lau] s (takeInput x0 x1 x2 x3 s) := by
  unfold takeInput
  repeat (first
    | with_reducible exact OnlyChanges.refl _ _
    | with_reducible assumption
    | (with_reducible refine (sapCount_only ..).after (by decide) ?_)
    | (with_reducible refine (setSap_only ..).after (by decide) ?_)
    | (with_reducible refine (placeSample_only ..).after (by decide) ?_)
    | (extract_lets +onlyGivenNames t1; with_reducible refine OnlyChanges.cut (t := t1) ?_ ?_ <;> [subst t1; (clear_value t1; intro)])
    | (extract_lets +onlyGivenNames t1; clear_value t1)
    | extract_lets
    | split
    | with_reducible refine OnlyChanges.ite ?_ ?_)

theorem sideTones_only (x0) (x1) (x2) (x3) (x4) (s) : OnlyChanges [.regs, .freeCtr, .lau] s (sideTones x0 x1 x2 x3 x4 s) := by
  fun_induction sideTones x0 x1 x2 x3 x4 s
  all_goals repeat (first
    | with_reducible exact OnlyChanges.refl _ _
    | with_reducible refine OnlyChanges.trans (by with_reducible assumption) ?_
    | with_reducible assumption
    | (with_reducible refine (sideTone_only ..).after (by decide) ?_)
    | extract_lets
    | split
    | with_reducible refine OnlyChanges.ite ?_ ?_)

theorem feedBus_only (x0) (x1) (x2) (x3) (s) : OnlyChanges [.regs, .lgr, .lau] s (feedBus x0 x1 x2 x3 s) := by
  unfold feedBus
  repeat (first
    | with_reducible exact OnlyChanges.refl _ _
    | with_reducible assumption
    | (with_reducible refine (busAdvance_only ..).after (by decide) ?_)
    | split
    | with_reducible refine OnlyChanges.ite ?_ ?_)

theorem sapCheck_only (x0) (x1) (x2) (x3) (s) : OnlyChanges [.regs, .lgr, .dpx] s (sapCheck x0 x1 x2 x3 s) := by
  unfold sapCheck
  repeat (first
    | with_reducible exact OnlyChanges.refl _ _
    | with_reducible assumption
    | (with_reducible refine (handoffCheck_only ..).after (by decide) ?_)
    | split
    | with_reducible refine OnlyChanges.ite ?_ ?_)

theorem sendFrame_only (x0) (x1) (s) : OnlyChanges [.regs, .outs, .lgr, .dpx, .lau] s (sendFrame x0 x1 s) := by
  unfold sendFrame
  repeat (first
    | with_reducible exact OnlyChanges.refl _ _
    | with_reducible assumption
    | (with_reducible refine (sapCheck_only ..).after (by decide) ?_)
    | (with_reducible refine (feedBus_only ..).after (by decide) ?_)
    | (with_reducible refine (emit_only ..).after (by decide) ?_)
    | (with_reducible refine (sapCount_only ..).after (by decide) ?_)
    | (extract_lets +onlyGivenNames t1; with_reducible refine OnlyChanges.cut (t := t1) ?_ ?_ <;> [subst t1; (clear_value t1; intro)])
    | (extract_lets +onlyGivenNames t1; clear_value t1)
    | extract_lets
    | split
    | with_reducible refine OnlyChanges.ite ?_ ?_)

theorem sapFrame_only (x0) (x1) (x2) (s) : OnlyChanges [.regs, .outs, .freeCtr, .lgr, .dpx, .obj, .lau] s (sapFrame x0 x1 x2 s) := by
  unfold sapFrame
  repeat (first
    | with_reducible exact OnlyChanges.refl _ _
    | with_reducible assumption
    | (with_reducible refine (sendFrame_only ..).after (by decide) ?_)
    | (with_reducible refine (takeInput_only ..).after (by decide) ?_)
    | (with_reducible refine (sideTones_only ..).after (by decide) ?_)
    | (with_reducible refine (setSap_only ..).after (by decide) ?_)
    | extract_lets
    | split
    | with_reducible refine OnlyChanges.ite ?_ ?_)

theorem armCapture_only (x0) (x1) (s) : OnlyChanges [.outcomes, .lau] s (armCapture x0 x1 s) := by
  unfold armCapture
  repeat (first
    | with_reducible exact OnlyChanges.refl _ _
    | with_reducible assumption
    | (with_reducible refine (reportAll_only ..).after (by decide) ?_)
    | (with_reducible refine (setLau_only ..).after (by decide) ?_)
    | extract_lets
    | split)

theorem captureArm_only (x0) (x1) (s) : OnlyChanges [.outcomes, .lau] s (captureArm x0 x1 s) := by
  unfold captureArm
  repeat (first
    | with_reducible exact OnlyChanges.refl _ _
    | with_reducible assumption
    | (with_reducible refine (finish_only ..).after (by decide) ?_)
    | (with_reducible refine (armCapture_only ..).after (by decide) ?_)
    | split
    | with_reducible refine OnlyChanges.ite ?_ ?_)

theorem armStimulus_only (x0) (x1) (x2) (s) : OnlyChanges [.outcomes, .lau] s (armStimulus x0 x1 x2 s) := by
  unfold armStimulus
  repeat (first
    | with_reducible exact OnlyChanges.refl _ _
    | with_reducible assumption
    | (with_reducible refine (reportAll_only ..).after (by decide) ?_)
    | (with_reducible refine (setLau_only ..).after (by decide) ?_)
    | extract_lets
    | split)

theorem stimulusArm_only (x0) (x1) (x2) (s) : OnlyChanges [.outcomes, .lau] s (stimulusArm x0 x1 x2 s) := by
  unfold stimulusArm
  repeat (first
    | with_reducible exact OnlyChanges.refl _ _
    | with_reducible assumption
    | (with_reducible refine (armStimulus_only ..).after (by decide) ?_)
    | (with_reducible refine (finish_only ..).after (by decide) ?_)
    | split
    | with_reducible refine OnlyChanges.ite ?_ ?_)

theorem stimulusStop_only (s) : OnlyChanges [.regs, .lau] s (stimulusStop s) := by
  unfold stimulusStop
  repeat (first
    | with_reducible exact OnlyChanges.refl _ _
    | with_reducible assumption
    | (with_reducible refine (evIf_only ..).after (by decide) ?_)
    | (with_reducible refine (setLau_only ..).after (by decide) ?_)
    | extract_lets
    | split)

theorem stimulusOp_only (x0) (s) : OnlyChanges [.regs, .outcomes, .lau] s (stimulusOp x0 s) := by
  unfold stimulusOp
  repeat (first
    | with_reducible exact OnlyChanges.refl _ _
    | with_reducible assumption
    | (with_reducible refine (finish_only ..).after (by decide) ?_)
    | (with_reducible refine (stimulusStop_only ..).after (by decide) ?_)
    | (with_reducible refine (stimulusArm_only ..).after (by decide) ?_)
    | split
    | with_reducible refine OnlyChanges.ite ?_ ?_
    | with_reducible refine checked_only (by decide) ?_ _ _ _)

theorem lauClear_only (s) : OnlyChanges [.lau] s (lauClear s) := by
  unfold lauClear
  repeat (first
    | with_reducible exact OnlyChanges.refl _ _
    | with_reducible assumption
    | (with_reducible refine (setLau_only ..).after (by decide) ?_)
    | extract_lets)

theorem takeFamily_only (x0) (s) : OnlyChanges [.regs, .mtx, .clk, .lau] s (takeFamily x0 s) := by
  unfold takeFamily
  repeat (first
    | with_reducible exact OnlyChanges.refl _ _
    | with_reducible assumption
    | (with_reducible refine (captureStop_only ..).after (by decide) ?_)
    | (with_reducible refine (unlock_only ..).after (by decide) ?_)
    | split
    | with_reducible refine OnlyChanges.ite ?_ ?_)

theorem forgetMaps_only (s) : OnlyChanges [.obj] s (forgetMaps s) := by
  unfold forgetMaps
  repeat (first
    | with_reducible exact OnlyChanges.refl _ _
    | with_reducible assumption
    | extract_lets
    | (fail_if_no_progress (with_reducible apply OnlyChanges.upd <;> first | exact Or.inr (by decide) | exact Or.inl (by with_reducible rfl) | skip)))

theorem takeIndex_only (x0) (x1) (s) : OnlyChanges [.regs, .outcomes, .lgr, .clk, .obj] s (takeIndex x0 x1 s) := by
  unfold takeIndex
  repeat (first
    | with_reducible exact OnlyChanges.refl _ _
    | with_reducible assumption
    | (with_reducible refine (setClk_only ..).after (by decide) ?_)
    | (with_reducible refine (forgetMaps_only ..).after (by decide) ?_)
    | (with_reducible refine (reportAll_only ..).after (by decide) ?_)
    | (with_reducible refine (ledger_only ..).after (by decide) ?_)
    | (with_reducible refine (evRaise_only ..).after (by decide) ?_)
    | extract_lets
    | split
    | with_reducible refine OnlyChanges.ite ?_ ?_)

theorem enableRef_only (x0) (s) : OnlyChanges [.regs, .freeCtr, .lgr, .clk] s (enableRef x0 s) := by
  unfold enableRef
  repeat (first
    | with_reducible exact OnlyChanges.refl _ _
    | with_reducible assumption
    | (with_reducible refine (setRef_only ..).after (by decide) ?_)
    | (with_reducible refine (refQualify_only ..).after (by decide) ?_)
    | (with_reducible refine (refFault_only ..).after (by decide) ?_)
    | (extract_lets +onlyGivenNames t1; with_reducible refine OnlyChanges.cut (t := t1) ?_ ?_ <;> [subst t1; (clear_value t1; intro)])
    | (extract_lets +onlyGivenNames t1; clear_value t1)
    | extract_lets
    | split
    | with_reducible refine OnlyChanges.ite ?_ ?_)

theorem disableRef_only (x0) (s) : OnlyChanges [.regs, .freeCtr, .lgr, .clk] s (disableRef x0 s) := by
  unfold disableRef
  repeat (first
    | with_reducible exact OnlyChanges.refl _ _
    | with_reducible assumption
    | (with_reducible refine (setRef_only ..).after (by decide) ?_)
    | (with_reducible refine (evIf_only ..).after (by decide) ?_)
    | (with_reducible refine (autoSwitch_only ..).after (by decide) ?_)
    | (with_reducible refine (enterHoldover_only ..).after (by decide) ?_)
    | (with_reducible refine (settleWtr_only ..).after (by decide) ?_)
    | (extract_lets +onlyGivenNames t1; with_reducible refine OnlyChanges.cut (t := t1) ?_ ?_ <;> [subst t1; (clear_value t1; intro)])
    | (extract_lets +onlyGivenNames t1; clear_value t1)
    | extract_lets
    | split
    | with_reducible refine OnlyChanges.ite ?_ ?_)

theorem enableLink_only (x0) (x1) (s) : OnlyChanges [.fab] s (enableLink x0 x1 s) := by
  unfold enableLink
  repeat (first
    | with_reducible exact OnlyChanges.refl _ _
    | with_reducible assumption
    | (with_reducible refine (setLink_only ..).after (by decide) ?_)
    | extract_lets
    | split
    | with_reducible refine OnlyChanges.ite ?_ ?_)

theorem disableLink_only (x0) (x1) (s) : OnlyChanges [.regs, .freeCtr, .lgr, .clk, .fab] s (disableLink x0 x1 s) := by
  unfold disableLink
  repeat (first
    | with_reducible exact OnlyChanges.refl _ _
    | with_reducible assumption
    | (with_reducible refine (setLink_only ..).after (by decide) ?_)
    | (with_reducible refine (linkGoesDown_only ..).after (by decide) ?_)
    | (extract_lets +onlyGivenNames t1; with_reducible refine OnlyChanges.cut (t := t1) ?_ ?_ <;> [subst t1; (clear_value t1; intro)])
    | (extract_lets +onlyGivenNames t1; clear_value t1)
    | extract_lets
    | split
    | with_reducible refine OnlyChanges.ite ?_ ?_)

theorem ctlLinks_only (x0) (x1) (x2) (s) : OnlyChanges [.regs, .freeCtr, .lgr, .clk, .fab] s (ctlLinks x0 x1 x2 s) := by
  fun_induction ctlLinks x0 x1 x2 s
  all_goals repeat (first
    | with_reducible exact OnlyChanges.refl _ _
    | with_reducible refine OnlyChanges.trans (by with_reducible assumption) ?_
    | with_reducible assumption
    | (with_reducible refine (enableLink_only ..).after (by decide) ?_)
    | (with_reducible refine (disableLink_only ..).after (by decide) ?_)
    | split
    | with_reducible refine OnlyChanges.ite ?_ ?_)

theorem discWait_only (x0) (x1) (s) : OnlyChanges [.fab] s (discWait x0 x1 s) := by
  unfold discWait
  repeat (first
    | with_reducible exact OnlyChanges.refl _ _
    | with_reducible assumption
    | (with_reducible refine (setFab_only ..).after (by decide) ?_)
    | extract_lets)

theorem discStart_only (d p) (s) : OnlyChanges [.regs, .outcomes, .hostMem, .dueWrites, .freeCtr, .lgr, .fab] s (discStart d p s) := by
  unfold discStart
  have h := discAnswer_only (field p 2 1) (p.drop 36) s
  split
  · split <;> rename_i e <;> rw [e] at h
    · exact (finish_only ..).after (by decide) ((hostWrite_only ..).after (by decide) (OnlyChanges.mono h (by decide)))
    · exact (discWait_only ..).after (by decide) (OnlyChanges.mono h (by decide))
  · exact OnlyChanges.ite ((sendDisc_only ..).after (by decide) (OnlyChanges.mono (discWait_only ..) (by decide))) (OnlyChanges.mono (discWait_only ..) (by decide))

theorem fabClear_only (x0) (x1) (x2) (s) : OnlyChanges [.fab] s (fabClear x0 x1 x2 s) := by
  fun_induction fabClear x0 x1 x2 s
  all_goals repeat (first
    | with_reducible exact OnlyChanges.refl _ _
    | with_reducible refine OnlyChanges.trans (by with_reducible assumption) ?_
    | with_reducible assumption
    | (with_reducible refine (setLink_only ..).after (by decide) ?_)
    | (with_reducible refine (setFab_only ..).after (by decide) ?_)
    | (extract_lets +onlyGivenNames t1; clear_value t1)
    | extract_lets
    | split
    | with_reducible refine OnlyChanges.ite ?_ ?_)

end Sys2Proof.Machine
end

