-- ==== Sys2Proof/Laws/FramesUnits.lean ====
section
/-! SUPPORT. What each operation of a group can change: the steward, media ports, time, interrupts, resets, windows and the boundary.
One lemma per operation that answers a state; a caller cites it and never unfolds the operation. -/

namespace Sys2Proof.Machine

theorem bootWrite_only (x0) (x1) (s) : OnlyChanges [.regs, .aon] s (bootWrite x0 x1 s) := by
  unfold bootWrite
  repeat (first
    | with_reducible exact OnlyChanges.refl _ _
    | with_reducible assumption
    | (with_reducible refine (setField_only ..).after (by decide) ?_)
    | (extract_lets +onlyGivenNames t1; with_reducible refine OnlyChanges.cut (t := t1) ?_ ?_ <;> [subst t1; (clear_value t1; intro)])
    | (extract_lets +onlyGivenNames t1; clear_value t1)
    | extract_lets
    | split
    | with_reducible refine OnlyChanges.ite ?_ ?_
    | (fail_if_no_progress (with_reducible apply OnlyChanges.upd <;> first | exact Or.inr (by decide) | exact Or.inl (by with_reducible rfl) | skip)))

theorem settleAlive_only (s) : OnlyChanges [.regs, .stw, .lgr, .dpx, .lau] s (settleAlive s) := by
  unfold settleAlive
  repeat (first
    | with_reducible exact OnlyChanges.refl _ _
    | with_reducible assumption
    | (with_reducible refine (ledger_only ..).after (by decide) ?_)
    | (with_reducible refine (evRaise_only ..).after (by decide) ?_)
    | (with_reducible refine (deviceFault_only ..).after (by decide) ?_)
    | (extract_lets +onlyGivenNames t1; with_reducible refine OnlyChanges.cut (t := t1) ?_ ?_ <;> [subst t1; (clear_value t1; intro)])
    | (extract_lets +onlyGivenNames t1; clear_value t1)
    | extract_lets
    | split
    | with_reducible refine OnlyChanges.ite ?_ ?_
    | (fail_if_no_progress (with_reducible apply OnlyChanges.upd <;> first | exact Or.inr (by decide) | exact Or.inl (by with_reducible rfl) | skip)))

theorem heartbeatOp_only (x0) (s) : OnlyChanges [.regs, .stw, .lgr, .dpx, .lau] s (heartbeatOp x0 s) := by
  unfold heartbeatOp
  repeat (first
    | with_reducible exact OnlyChanges.refl _ _
    | with_reducible assumption
    | (with_reducible refine (setCore_only ..).after (by decide) ?_)
    | (with_reducible refine (settleAlive_only ..).after (by decide) ?_)
    | (extract_lets +onlyGivenNames t1; clear_value t1)
    | extract_lets
    | (fail_if_no_progress (with_reducible apply OnlyChanges.upd <;> first | exact Or.inr (by decide) | exact Or.inl (by with_reducible rfl) | skip)))

theorem rememberCore_only (x0) (x1) (s) : OnlyChanges [.stw] s (rememberCore x0 x1 s) := by
  unfold rememberCore
  repeat (first
    | with_reducible exact OnlyChanges.refl _ _
    | with_reducible assumption
    | (extract_lets +onlyGivenNames t1; clear_value t1)
    | extract_lets
    | (fail_if_no_progress (with_reducible apply OnlyChanges.upd <;> first | exact Or.inr (by decide) | exact Or.inl (by with_reducible rfl) | skip)))

theorem badHandleAt_only (s) : OnlyChanges [.regs, .stw] s (badHandleAt s) := by
  unfold badHandleAt
  repeat (first
    | with_reducible exact OnlyChanges.refl _ _
    | with_reducible assumption
    | (with_reducible refine (evRaise_only ..).after (by decide) ?_)
    | (extract_lets +onlyGivenNames t1; clear_value t1)
    | extract_lets
    | (fail_if_no_progress (with_reducible apply OnlyChanges.upd <;> first | exact Or.inr (by decide) | exact Or.inl (by with_reducible rfl) | skip)))

theorem dspDone_only (x0) (x1) (s) : OnlyChanges [.regs, .hif, .stw] s (dspDone x0 x1 s) := by
  unfold dspDone
  repeat (first
    | with_reducible exact OnlyChanges.refl _ _
    | with_reducible assumption
    | (with_reducible refine (freeSlotOf_only ..).after (by decide) ?_)
    | (with_reducible refine (rememberCore_only ..).after (by decide) ?_)
    | (with_reducible refine (badHandleAt_only ..).after (by decide) ?_)
    | (extract_lets +onlyGivenNames t1; clear_value t1)
    | extract_lets
    | split
    | with_reducible refine OnlyChanges.ite ?_ ?_)

theorem forwardItem_only (x0) (x1) (x2) (x3) (s) : OnlyChanges [.regs, .stw] s (forwardItem x0 x1 x2 x3 s) := by
  unfold forwardItem
  repeat (first
    | with_reducible exact OnlyChanges.refl _ _
    | with_reducible assumption
    | (with_reducible refine (advanceFlow_only ..).after (by decide) ?_)
    | (with_reducible refine (addAt_only ..).after (by decide) ?_)
    | (with_reducible refine (rememberCore_only ..).after (by decide) ?_)
    | extract_lets)

theorem dspFwd_only (x0) (x1) (s) : OnlyChanges [.regs, .stw] s (dspFwd x0 x1 s) := by
  unfold dspFwd
  repeat (first
    | with_reducible exact OnlyChanges.refl _ _
    | with_reducible assumption
    | (with_reducible refine (forwardItem_only ..).after (by decide) ?_)
    | (with_reducible refine (badHandleAt_only ..).after (by decide) ?_)
    | (extract_lets +onlyGivenNames t1; clear_value t1)
    | extract_lets
    | split)

theorem addResult_only (x0) (x1) (s) : OnlyChanges [.regs] s (addResult x0 x1 s) := by
  unfold addResult
  repeat (first
    | with_reducible exact OnlyChanges.refl _ _
    | with_reducible assumption
    | (with_reducible refine (setReg_only ..).after (by decide) ?_))

theorem dspAdd_only (x0) (x1) (s) : OnlyChanges [.regs, .stw] s (dspAdd x0 x1 s) := by
  unfold dspAdd
  repeat (first
    | with_reducible exact OnlyChanges.refl _ _
    | with_reducible assumption
    | (with_reducible refine (addResult_only ..).after (by decide) ?_)
    | (with_reducible refine (addAt_only ..).after (by decide) ?_)
    | (extract_lets +onlyGivenNames t1; clear_value t1)
    | extract_lets
    | split
    | with_reducible refine OnlyChanges.ite ?_ ?_)

theorem cplReport_only {W : List Part} {f : Nat → State → State} (h : ∀ c t, OnlyChanges W t (f c t))
    (hw : [.regs, .outcomes, .outs, .hostMem, .dueWrites, .hif, .stw] ⊆ W) (c : Nat) (v : Word) (s : State) : OnlyChanges W s (cplReport f c v s) := by
  unfold cplReport
  extract_lets t
  have ht : OnlyChanges W s t := OnlyChanges.mono (commitOutcomes_only ..) (List.Subset.trans (by decide) hw)
  clear_value t
  split
  · exact ht
  · split
    · exact (OnlyChanges.mono (reportCommit_only ..) (List.Subset.trans (by decide) hw)).trans ht
    · exact (OnlyChanges.mono (reportComplete_only ..) (List.Subset.trans (by decide) hw)).trans ht
    · have h2 : OnlyChanges W t (reportWithdraw c t).2 := OnlyChanges.mono (reportWithdraw_only ..) (List.Subset.trans (by decide) hw)
      split <;> rename_i e <;> rw [e] at h2
      · exact (h _ _).trans (h2.trans ht)
      · exact h2.trans ht

theorem startWait_only (x0) (x1) (s) : OnlyChanges [.stw] s (startWait x0 x1 s) := by
  unfold startWait
  repeat (first
    | with_reducible exact OnlyChanges.refl _ _
    | with_reducible assumption
    | (with_reducible refine (tickSeq_only ..).after (by decide) ?_)
    | (with_reducible refine (setCore_only ..).after (by decide) ?_)
    | extract_lets)

theorem silence_only (x0) (x1) (s) : OnlyChanges [.stw] s (silence x0 x1 s) := by
  fun_induction silence x0 x1 s
  all_goals repeat (first
    | with_reducible exact OnlyChanges.refl _ _
    | with_reducible refine OnlyChanges.trans (by with_reducible assumption) ?_
    | with_reducible assumption
    | (with_reducible refine (setCore_only ..).after (by decide) ?_)
    | (extract_lets +onlyGivenNames t1; clear_value t1)
    | extract_lets
    | split
    | with_reducible refine OnlyChanges.ite ?_ ?_)

theorem runCores_only (x0) (x1) (x2) (s) : OnlyChanges [.regs, .stw] s (runCores x0 x1 x2 s) := by
  fun_induction runCores x0 x1 x2 s
  all_goals repeat (first
    | with_reducible exact OnlyChanges.refl _ _
    | with_reducible refine OnlyChanges.trans (by with_reducible assumption) ?_
    | with_reducible assumption
    | (with_reducible refine (setField_only ..).after (by decide) ?_)
    | (with_reducible refine (setCore_only ..).after (by decide) ?_)
    | extract_lets
    | split)

theorem startStop_only (x0) (x1) (x2) (s) : OnlyChanges [.regs, .stw] s (startStop x0 x1 x2 s) := by
  unfold startStop
  repeat (first
    | with_reducible exact OnlyChanges.refl _ _
    | with_reducible assumption
    | (with_reducible refine (setField_only ..).after (by decide) ?_)
    | (extract_lets +onlyGivenNames t1; with_reducible refine OnlyChanges.cut (t := t1) ?_ ?_ <;> [subst t1; (clear_value t1; intro)])
    | (extract_lets +onlyGivenNames t1; clear_value t1)
    | extract_lets
    | with_reducible refine OnlyChanges.foldl_trans (fun _ _ => ?_) ?_ _
    | (fail_if_no_progress (with_reducible apply OnlyChanges.upd <;> first | exact Or.inr (by decide) | exact Or.inl (by with_reducible rfl) | skip)))

theorem startUser_only (x0) (s) : OnlyChanges [.regs, .stw] s (startUser x0 s) := by
  unfold startUser
  repeat (first
    | with_reducible exact OnlyChanges.refl _ _
    | with_reducible assumption
    | (with_reducible refine (runCores_only ..).after (by decide) ?_)
    | (extract_lets +onlyGivenNames t1; clear_value t1)
    | extract_lets
    | split
    | (fail_if_no_progress (with_reducible apply OnlyChanges.upd <;> first | exact Or.inr (by decide) | exact Or.inl (by with_reducible rfl) | skip)))

theorem clearStw_only (s) : OnlyChanges [.stw] s (clearStw s) := by
  unfold clearStw
  repeat (first
    | with_reducible exact OnlyChanges.refl _ _
    | with_reducible assumption
    | (with_reducible refine (setCore_only ..).after (by decide) ?_)
    | (extract_lets +onlyGivenNames t1; with_reducible refine OnlyChanges.cut (t := t1) ?_ ?_ <;> [subst t1; (clear_value t1; intro)])
    | (extract_lets +onlyGivenNames t1; clear_value t1)
    | extract_lets
    | with_reducible refine OnlyChanges.foldl_trans (fun _ _ => ?_) ?_ _
    | (fail_if_no_progress (with_reducible apply OnlyChanges.upd <;> first | exact Or.inr (by decide) | exact Or.inl (by with_reducible rfl) | skip)))

theorem setMp_only (s) (x1) : OnlyChanges [.mp] s (setMp s x1) := by
  unfold setMp
  repeat (first
    | with_reducible exact OnlyChanges.refl _ _
    | with_reducible assumption
    | extract_lets
    | (fail_if_no_progress (with_reducible apply OnlyChanges.upd <;> first | exact Or.inr (by decide) | exact Or.inl (by with_reducible rfl) | skip)))

theorem setRx_only (x0) (x1) (s) : OnlyChanges [.mp] s (setRx x0 x1 s) := by
  unfold setRx
  repeat (first
    | with_reducible exact OnlyChanges.refl _ _
    | with_reducible assumption
    | (with_reducible refine (setMp_only ..).after (by decide) ?_)
    | extract_lets)

theorem handTranches_only (x0) (x1) (s) : OnlyChanges [.regs, .obj] s (handTranches x0 x1 s) := by
  fun_induction handTranches x0 x1 s
  all_goals repeat (first
    | with_reducible exact OnlyChanges.refl _ _
    | with_reducible refine OnlyChanges.trans (by with_reducible assumption) ?_
    | with_reducible assumption
    | (with_reducible refine (placeSample_only ..).after (by decide) ?_)
    | extract_lets
    | split
    | with_reducible refine OnlyChanges.foldl_trans (fun _ _ => ?_) ?_ _)

theorem handStream_only (x0) (s) : OnlyChanges [.regs, .mp, .obj] s (handStream x0 s) := by
  unfold handStream
  repeat (first
    | with_reducible exact OnlyChanges.refl _ _
    | with_reducible assumption
    | (with_reducible refine (setRx_only ..).after (by decide) ?_)
    | (with_reducible refine (handTranches_only ..).after (by decide) ?_)
    | (extract_lets +onlyGivenNames t1; with_reducible refine OnlyChanges.cut (t := t1) ?_ ?_ <;> [subst t1; (clear_value t1; intro)])
    | (extract_lets +onlyGivenNames t1; clear_value t1)
    | extract_lets
    | split
    | with_reducible refine OnlyChanges.ite ?_ ?_)

theorem handAll_only (x0) (s) : OnlyChanges [.regs, .mp, .obj] s (handAll x0 s) := by
  fun_induction handAll x0 s
  all_goals repeat (first
    | with_reducible exact OnlyChanges.refl _ _
    | with_reducible refine OnlyChanges.trans (by with_reducible assumption) ?_
    | with_reducible assumption
    | (with_reducible refine (handStream_only ..).after (by decide) ?_)
    | split)

theorem setPort_only (x0) (x1) (s) : OnlyChanges [.mp] s (setPort x0 x1 s) := by
  unfold setPort
  repeat (first
    | with_reducible exact OnlyChanges.refl _ _
    | with_reducible assumption
    | (with_reducible refine (setMp_only ..).after (by decide) ?_)
    | extract_lets)

theorem portCount_only (x0) (x1) (s) : OnlyChanges [.mp] s (portCount x0 x1 s) := by
  unfold portCount
  repeat (first
    | with_reducible exact OnlyChanges.refl _ _
    | with_reducible assumption
    | (with_reducible refine (setPort_only ..).after (by decide) ?_)
    | extract_lets)

theorem portDown_only (x0) (s) : OnlyChanges [.regs, .lgr, .mp] s (portDown x0 s) := by
  unfold portDown
  repeat (first
    | with_reducible exact OnlyChanges.refl _ _
    | with_reducible assumption
    | (with_reducible refine (portCount_only ..).after (by decide) ?_)
    | (with_reducible refine (setPort_only ..).after (by decide) ?_)
    | (with_reducible refine (ledger_only ..).after (by decide) ?_)
    | (with_reducible refine (evRaise_only ..).after (by decide) ?_)
    | extract_lets)

theorem portUp_only (x0) (s) : OnlyChanges [.regs, .lgr, .mp] s (portUp x0 s) := by
  unfold portUp
  repeat (first
    | with_reducible exact OnlyChanges.refl _ _
    | with_reducible assumption
    | (with_reducible refine (ledger_only ..).after (by decide) ?_)
    | (with_reducible refine (evRaise_only ..).after (by decide) ?_)
    | (with_reducible refine (setPort_only ..).after (by decide) ?_)
    | extract_lets
    | split
    | with_reducible refine OnlyChanges.ite ?_ ?_)

theorem rxCount_only (x0) (x1) (x2) (s) : OnlyChanges [.mp] s (rxCount x0 x1 x2 s) := by
  unfold rxCount
  repeat (first
    | with_reducible exact OnlyChanges.refl _ _
    | with_reducible assumption
    | (with_reducible refine (setRx_only ..).after (by decide) ?_)
    | extract_lets)

theorem rxErr_only (x0) (x1) (s) : OnlyChanges [.regs, .mp] s (rxErr x0 x1 s) := by
  unfold rxErr
  repeat (first
    | with_reducible exact OnlyChanges.refl _ _
    | with_reducible assumption
    | (with_reducible refine (evRaise_only ..).after (by decide) ?_)
    | (with_reducible refine (portCount_only ..).after (by decide) ?_))

theorem macControl_only (x0) (x1) (s) : OnlyChanges [.regs, .mp] s (macControl x0 x1 s) := by
  unfold macControl
  repeat (first
    | with_reducible exact OnlyChanges.refl _ _
    | with_reducible assumption
    | (with_reducible refine (evRaise_only ..).after (by decide) ?_)
    | (with_reducible refine (portCount_only ..).after (by decide) ?_)
    | (with_reducible refine (setPort_only ..).after (by decide) ?_)
    | (with_reducible refine (rxErr_only ..).after (by decide) ?_)
    | (extract_lets +onlyGivenNames t1; with_reducible refine OnlyChanges.cut (t := t1) ?_ ?_ <;> [subst t1; (clear_value t1; intro)])
    | (extract_lets +onlyGivenNames t1; clear_value t1)
    | extract_lets
    | split
    | with_reducible refine OnlyChanges.ite ?_ ?_)

theorem rxDiscard_only (x0) (x1) (x2) (x3) (s) : OnlyChanges [.regs, .obj] s (rxDiscard x0 x1 x2 x3 s) := by
  unfold rxDiscard
  repeat (first
    | with_reducible exact OnlyChanges.refl _ _
    | with_reducible assumption
    | (with_reducible refine (discardFor_only ..).after (by decide) ?_)
    | split
    | with_reducible refine OnlyChanges.ite ?_ ?_)

theorem rxSample_only (x0) (x1) (x2) (x3) (s) : OnlyChanges [.regs, .mp, .obj] s (rxSample x0 x1 x2 x3 s) := by
  unfold rxSample
  repeat (first
    | with_reducible exact OnlyChanges.refl _ _
    | with_reducible assumption
    | (with_reducible refine (rxCount_only ..).after (by decide) ?_)
    | (with_reducible refine (rxDiscard_only ..).after (by decide) ?_)
    | (with_reducible refine (setRx_only ..).after (by decide) ?_)
    | (with_reducible refine (placeSample_only ..).after (by decide) ?_)
    | (extract_lets +onlyGivenNames t1; with_reducible refine OnlyChanges.cut (t := t1) ?_ ?_ <;> [subst t1; (clear_value t1; intro)])
    | (extract_lets +onlyGivenNames t1; clear_value t1)
    | extract_lets
    | split
    | with_reducible refine OnlyChanges.ite ?_ ?_)

theorem rxInstant_only (x0) (x1) (x2) (s) : OnlyChanges [.regs, .mp, .obj] s (rxInstant x0 x1 x2 s) := by
  fun_induction rxInstant x0 x1 x2 s
  all_goals repeat (first
    | with_reducible exact OnlyChanges.refl _ _
    | with_reducible refine OnlyChanges.trans (by with_reducible assumption) ?_
    | with_reducible assumption
    | (with_reducible refine (rxSample_only ..).after (by decide) ?_)
    | split)

theorem rxPayload_only (x0) (x1) (x2) (x3) (x4) (x5) (s) : OnlyChanges [.regs, .mp, .obj] s (rxPayload x0 x1 x2 x3 x4 x5 s) := by
  fun_induction rxPayload x0 x1 x2 x3 x4 x5 s
  all_goals repeat (first
    | with_reducible exact OnlyChanges.refl _ _
    | with_reducible refine OnlyChanges.trans (by with_reducible assumption) ?_
    | with_reducible assumption
    | (with_reducible refine (rxInstant_only ..).after (by decide) ?_)
    | split)

theorem portSlip_only (x0) (x1) (s) : OnlyChanges [.mp] s (portSlip x0 x1 s) := by
  unfold portSlip
  repeat (first
    | with_reducible exact OnlyChanges.refl _ _
    | with_reducible assumption
    | (with_reducible refine (setMp_only ..).after (by decide) ?_)
    | extract_lets)

theorem rxAccept_only (x0) (x1) (x2) (x3) (x4) (s) : OnlyChanges [.regs, .freeCtr, .mp, .obj] s (rxAccept x0 x1 x2 x3 x4 s) := by
  unfold rxAccept
  repeat (first
    | with_reducible exact OnlyChanges.refl _ _
    | with_reducible assumption
    | (with_reducible refine (setRx_only ..).after (by decide) ?_)
    | (with_reducible refine (draw_only ..).after (by decide) ?_)
    | (with_reducible refine (rxCount_only ..).after (by decide) ?_)
    | (with_reducible refine (evRaise_only ..).after (by decide) ?_)
    | (with_reducible refine (objCount_only ..).after (by decide) ?_)
    | (with_reducible refine (rxPayload_only ..).after (by decide) ?_)
    | (with_reducible refine (handStream_only ..).after (by decide) ?_)
    | (extract_lets +onlyGivenNames t1; with_reducible refine OnlyChanges.cut (t := t1) ?_ ?_ <;> [subst t1; (clear_value t1; intro)])
    | (extract_lets +onlyGivenNames t1; clear_value t1)
    | extract_lets
    | split
    | with_reducible refine OnlyChanges.ite ?_ ?_
    | with_reducible refine eachObj_only (fun _ _ => ?_) ?_ _)

theorem rxPacket_only (x0) (x1) (x2) (x3) (x4) (s) : OnlyChanges [.regs, .freeCtr, .mp, .obj] s (rxPacket x0 x1 x2 x3 x4 s) := by
  unfold rxPacket
  repeat (first
    | with_reducible exact OnlyChanges.refl _ _
    | with_reducible assumption
    | (with_reducible refine (rxAccept_only ..).after (by decide) ?_)
    | (with_reducible refine (portSlip_only ..).after (by decide) ?_)
    | (with_reducible refine (rxCount_only ..).after (by decide) ?_)
    | (extract_lets +onlyGivenNames t1; clear_value t1)
    | extract_lets
    | split
    | with_reducible refine OnlyChanges.ite ?_ ?_)

theorem queueTx_only (x0) (x1) (s) : OnlyChanges [.regs, .mp] s (queueTx x0 x1 s) := by
  unfold queueTx
  repeat (first
    | with_reducible exact OnlyChanges.refl _ _
    | with_reducible assumption
    | (with_reducible refine (evIf_only ..).after (by decide) ?_)
    | (with_reducible refine (portCount_only ..).after (by decide) ?_)
    | (with_reducible refine (setPort_only ..).after (by decide) ?_)
    | (extract_lets +onlyGivenNames t1; clear_value t1)
    | extract_lets
    | split
    | with_reducible refine OnlyChanges.ite ?_ ?_)

theorem afinalSend_only (x0) (x1) (x2) (x3) (s) : OnlyChanges [.regs, .freeCtr, .mp] s (afinalSend x0 x1 x2 x3 s) := by
  unfold afinalSend
  repeat (first
    | with_reducible exact OnlyChanges.refl _ _
    | with_reducible assumption
    | (with_reducible refine (queueTx_only ..).after (by decide) ?_)
    | (with_reducible refine (draw_only ..).after (by decide) ?_)
    | extract_lets)

theorem arpAnswer_only (x0) (x1) (s) : OnlyChanges [.regs, .freeCtr, .mp] s (arpAnswer x0 x1 s) := by
  unfold arpAnswer
  repeat (first
    | with_reducible exact OnlyChanges.refl _ _
    | with_reducible assumption
    | (with_reducible refine (afinalSend_only ..).after (by decide) ?_)
    | split
    | with_reducible refine OnlyChanges.ite ?_ ?_)

theorem echoAnswer_only (x0) (x1) (x2) (s) : OnlyChanges [.regs, .freeCtr, .mp] s (echoAnswer x0 x1 x2 s) := by
  unfold echoAnswer
  repeat (first
    | with_reducible exact OnlyChanges.refl _ _
    | with_reducible assumption
    | (with_reducible refine (afinalSend_only ..).after (by decide) ?_)
    | (with_reducible refine (draw_only ..).after (by decide) ?_)
    | (extract_lets +onlyGivenNames t1; clear_value t1)
    | extract_lets
    | split
    | with_reducible refine OnlyChanges.ite ?_ ?_)

theorem igmpReport_only (x0) (x1) (x2) (x3) (s) : OnlyChanges [.regs, .freeCtr, .mp] s (igmpReport x0 x1 x2 x3 s) := by
  unfold igmpReport
  repeat (first
    | with_reducible exact OnlyChanges.refl _ _
    | with_reducible assumption
    | (with_reducible refine (afinalSend_only ..).after (by decide) ?_)
    | (extract_lets +onlyGivenNames t1; clear_value t1)
    | extract_lets
    | split
    | with_reducible refine OnlyChanges.ite ?_ ?_)

theorem igmpAnswer_only (x0) (x1) (s) : OnlyChanges [.regs, .freeCtr, .mp] s (igmpAnswer x0 x1 s) := by
  unfold igmpAnswer
  repeat (first
    | with_reducible exact OnlyChanges.refl _ _
    | with_reducible assumption
    | (with_reducible refine (igmpReport_only ..).after (by decide) ?_)
    | (extract_lets +onlyGivenNames t1; clear_value t1)
    | extract_lets
    | split
    | with_reducible refine OnlyChanges.ite ?_ ?_)

theorem peerDelay_only (x0) (x1) (s) : OnlyChanges [.ptp] s (peerDelay x0 x1 s) := by
  unfold peerDelay
  repeat (first
    | with_reducible exact OnlyChanges.refl _ _
    | with_reducible assumption
    | (extract_lets +onlyGivenNames t1; clear_value t1)
    | extract_lets
    | split
    | with_reducible refine OnlyChanges.ite ?_ ?_
    | (fail_if_no_progress (with_reducible apply OnlyChanges.upd <;> first | exact Or.inr (by decide) | exact Or.inl (by with_reducible rfl) | skip)))

theorem afinalFrame_only (x0) (x1) (x2) (x3) (s) : OnlyChanges [.regs, .freeCtr, .ptp, .mp, .obj, .segUid, .fab] s (afinalFrame x0 x1 x2 x3 s) := by
  unfold afinalFrame
  repeat (first
    | with_reducible exact OnlyChanges.refl _ _
    | with_reducible assumption
    | (with_reducible refine (arpAnswer_only ..).after (by decide) ?_)
    | (with_reducible refine (echoAnswer_only ..).after (by decide) ?_)
    | (with_reducible refine (igmpAnswer_only ..).after (by decide) ?_)
    | (with_reducible refine (metaDatagram_only ..).after (by decide) ?_)
    | (with_reducible refine (peerDelay_only ..).after (by decide) ?_)
    | extract_lets
    | split
    | with_reducible refine OnlyChanges.ite ?_ ?_)

theorem toSteward_only (x0) (x1) (x2) (x3) (s) : OnlyChanges [.regs, .freeCtr, .stw, .lgr, .ptp, .mp, .obj, .segUid, .fab] s (toSteward x0 x1 x2 x3 s) := by
  unfold toSteward
  repeat (first
    | with_reducible exact OnlyChanges.refl _ _
    | with_reducible assumption
    | (with_reducible refine (stewardFrame_only ..).after (by decide) ?_)
    | (with_reducible refine (afinalFrame_only ..).after (by decide) ?_)
    | (extract_lets +onlyGivenNames t1; with_reducible refine OnlyChanges.cut (t := t1) ?_ ?_ <;> [subst t1; (clear_value t1; intro)])
    | (extract_lets +onlyGivenNames t1; clear_value t1)
    | extract_lets
    | split
    | with_reducible refine OnlyChanges.ite ?_ ?_)

theorem classify_only (x0) (x1) (x2) (s) : OnlyChanges [.regs, .freeCtr, .stw, .lgr, .ptp, .mp, .obj, .segUid, .fab] s (classify x0 x1 x2 s) := by
  unfold classify
  repeat (first
    | with_reducible exact OnlyChanges.refl _ _
    | with_reducible assumption
    | (with_reducible refine (rxErr_only ..).after (by decide) ?_)
    | (with_reducible refine (toSteward_only ..).after (by decide) ?_)
    | (with_reducible refine (rxPacket_only ..).after (by decide) ?_)
    | (extract_lets +onlyGivenNames t1; clear_value t1)
    | extract_lets
    | split
    | with_reducible refine OnlyChanges.ite ?_ ?_)

theorem portCorrected_only (x0) (x1) (s) : OnlyChanges [.mp] s (portCorrected x0 x1 s) := by
  unfold portCorrected
  repeat (first
    | with_reducible exact OnlyChanges.refl _ _
    | with_reducible assumption
    | (with_reducible refine (setPort_only ..).after (by decide) ?_)
    | (extract_lets +onlyGivenNames t1; clear_value t1)
    | extract_lets
    | split
    | with_reducible refine OnlyChanges.ite ?_ ?_)

theorem frameTake_only (x0) (x1) (s) : OnlyChanges [.regs, .freeCtr, .stw, .lgr, .ptp, .mp, .obj, .segUid, .fab] s (frameTake x0 x1 s) := by
  unfold frameTake
  repeat (first
    | with_reducible exact OnlyChanges.refl _ _
    | with_reducible assumption
    | (with_reducible refine (portCorrected_only ..).after (by decide) ?_)
    | (with_reducible refine (portCount_only ..).after (by decide) ?_)
    | (with_reducible refine (rxErr_only ..).after (by decide) ?_)
    | (with_reducible refine (macControl_only ..).after (by decide) ?_)
    | (with_reducible refine (classify_only ..).after (by decide) ?_)
    | (extract_lets +onlyGivenNames t1; with_reducible refine OnlyChanges.cut (t := t1) ?_ ?_ <;> [subst t1; (clear_value t1; intro)])
    | (extract_lets +onlyGivenNames t1; clear_value t1)
    | extract_lets
    | split
    | with_reducible refine OnlyChanges.ite ?_ ?_)

theorem applyRxMap_only (x0) (x1) (x2) (x3) (s) : OnlyChanges [.mp] s (applyRxMap x0 x1 x2 x3 s) := by
  unfold applyRxMap
  repeat (first
    | with_reducible exact OnlyChanges.refl _ _
    | with_reducible assumption
    | (with_reducible refine (setMp_only ..).after (by decide) ?_)
    | extract_lets
    | split
    | with_reducible refine OnlyChanges.ite ?_ ?_)

theorem setTx_only (x0) (x1) (s) : OnlyChanges [.mp] s (setTx x0 x1 s) := by
  unfold setTx
  repeat (first
    | with_reducible exact OnlyChanges.refl _ _
    | with_reducible assumption
    | (with_reducible refine (setMp_only ..).after (by decide) ?_)
    | extract_lets)

theorem txCount_only (x0) (x1) (x2) (s) : OnlyChanges [.mp] s (txCount x0 x1 x2 s) := by
  unfold txCount
  repeat (first
    | with_reducible exact OnlyChanges.refl _ _
    | with_reducible assumption
    | (with_reducible refine (setTx_only ..).after (by decide) ?_)
    | extract_lets)

theorem queueOverflow_only (x0) (s) : OnlyChanges [.regs, .lgr, .ptp] s (queueOverflow x0 s) := by
  unfold queueOverflow
  repeat (first
    | with_reducible exact OnlyChanges.refl _ _
    | with_reducible assumption
    | (with_reducible refine (evRaise_only ..).after (by decide) ?_)
    | (with_reducible refine (ledgerLim_only ..).after (by decide) ?_)
    | (extract_lets +onlyGivenNames t1; clear_value t1)
    | extract_lets
    | (fail_if_no_progress (with_reducible apply OnlyChanges.upd <;> first | exact Or.inr (by decide) | exact Or.inl (by with_reducible rfl) | skip)))

theorem pushReport_only (x0) (x1) (s) : OnlyChanges [.regs, .lgr, .ptp] s (pushReport x0 x1 s) := by
  unfold pushReport
  repeat (first
    | with_reducible exact OnlyChanges.refl _ _
    | with_reducible assumption
    | (with_reducible refine (queueOverflow_only ..).after (by decide) ?_)
    | (extract_lets +onlyGivenNames t1; clear_value t1)
    | extract_lets
    | split
    | with_reducible refine OnlyChanges.ite ?_ ?_
    | (fail_if_no_progress (with_reducible apply OnlyChanges.upd <;> first | exact Or.inr (by decide) | exact Or.inl (by with_reducible rfl) | skip)))

theorem departMedia_only (x0) (x1) (x2) (s) : OnlyChanges [.outs, .mp] s (departMedia x0 x1 x2 s) := by
  unfold departMedia
  repeat (first
    | with_reducible exact OnlyChanges.refl _ _
    | with_reducible assumption
    | (with_reducible refine (emit_only ..).after (by decide) ?_)
    | (with_reducible refine (portSlip_only ..).after (by decide) ?_)
    | extract_lets
    | split)

theorem departFrame_only (x0) (x1) (x2) (s) : OnlyChanges [.regs, .outs, .lgr, .ptp, .mp] s (departFrame x0 x1 x2 s) := by
  unfold departFrame
  repeat (first
    | with_reducible exact OnlyChanges.refl _ _
    | with_reducible assumption
    | (with_reducible refine (portCount_only ..).after (by decide) ?_)
    | (with_reducible refine (emit_only ..).after (by decide) ?_)
    | (with_reducible refine (pushReport_only ..).after (by decide) ?_)
    | (with_reducible refine (departMedia_only ..).after (by decide) ?_)
    | (with_reducible refine (txCount_only ..).after (by decide) ?_)
    | (extract_lets +onlyGivenNames t1; with_reducible refine OnlyChanges.cut (t := t1) ?_ ?_ <;> [subst t1; (clear_value t1; intro)])
    | (extract_lets +onlyGivenNames t1; clear_value t1)
    | extract_lets
    | split
    | with_reducible refine OnlyChanges.ite ?_ ?_
    | (fail_if_no_progress (with_reducible apply OnlyChanges.upd <;> first | exact Or.inr (by decide) | exact Or.inl (by with_reducible rfl) | skip)))

theorem formChecks_only (x0) (x1) (x2) (s) : OnlyChanges [.regs, .lgr, .mp] s (formChecks x0 x1 x2 s) := by
  fun_induction formChecks x0 x1 x2 s
  all_goals repeat (first
    | with_reducible exact OnlyChanges.refl _ _
    | with_reducible refine OnlyChanges.trans (by with_reducible assumption) ?_
    | with_reducible assumption
    | (with_reducible refine (txCount_only ..).after (by decide) ?_)
    | (with_reducible refine (ledgerLim_only ..).after (by decide) ?_)
    | (with_reducible refine (evRaise_only ..).after (by decide) ?_)
    | (with_reducible refine (portCount_only ..).after (by decide) ?_)
    | split
    | with_reducible refine OnlyChanges.ite ?_ ?_)

theorem sendCopy_only (x0) (x1) (x2) (x3) (x4) (x5) (s) : OnlyChanges [.regs, .mp] s (sendCopy x0 x1 x2 x3 x4 x5 s) := by
  unfold sendCopy
  repeat (first
    | with_reducible exact OnlyChanges.refl _ _
    | with_reducible assumption
    | (with_reducible refine (txCount_only ..).after (by decide) ?_)
    | (with_reducible refine (portCount_only ..).after (by decide) ?_)
    | (with_reducible refine (evRaise_only ..).after (by decide) ?_)
    | (with_reducible refine (queueTx_only ..).after (by decide) ?_)
    | split
    | with_reducible refine OnlyChanges.ite ?_ ?_)

theorem formPacket_only (x0) (x1) (x2) (s) : OnlyChanges [.regs, .lgr, .mp] s (formPacket x0 x1 x2 s) := by
  unfold formPacket
  repeat (first
    | with_reducible exact OnlyChanges.refl _ _
    | with_reducible assumption
    | (with_reducible refine (formChecks_only ..).after (by decide) ?_)
    | (with_reducible refine (setTx_only ..).after (by decide) ?_)
    | (with_reducible refine (sendCopy_only ..).after (by decide) ?_)
    | (extract_lets +onlyGivenNames t1; with_reducible refine OnlyChanges.cut (t := t1) ?_ ?_ <;> [subst t1; (clear_value t1; intro)])
    | (extract_lets +onlyGivenNames t1; clear_value t1)
    | extract_lets
    | split
    | with_reducible refine OnlyChanges.ite ?_ ?_)

theorem withRxMap_only (x0) (x1) (x2) (x3) (x4) (s) : OnlyChanges [.keyed] s (withRxMap x0 x1 x2 x3 x4 s) := by
  unfold withRxMap
  repeat (first
    | with_reducible exact OnlyChanges.refl _ _
    | with_reducible assumption
    | extract_lets
    | with_reducible refine OnlyChanges.foldl_trans (fun _ _ => ?_) ?_ _
    | (fail_if_no_progress (with_reducible apply OnlyChanges.upd <;> first | exact Or.inr (by decide) | exact Or.inl (by with_reducible rfl) | skip)))

theorem joinPaths_only (x0) (s) : OnlyChanges [.regs, .freeCtr, .mp] s (joinPaths x0 s) := by
  unfold joinPaths
  repeat (first
    | with_reducible exact OnlyChanges.refl _ _
    | with_reducible assumption
    | (with_reducible refine (igmpReport_only ..).after (by decide) ?_)
    | (extract_lets +onlyGivenNames t1; with_reducible refine OnlyChanges.cut (t := t1) ?_ ?_ <;> [subst t1; (clear_value t1; intro)])
    | extract_lets
    | split
    | with_reducible refine OnlyChanges.ite ?_ ?_)

theorem mpClear_only (x0) (x1) (x2) (s) : OnlyChanges [.mp] s (mpClear x0 x1 x2 s) := by
  fun_induction mpClear x0 x1 x2 s
  all_goals repeat (first
    | with_reducible exact OnlyChanges.refl _ _
    | with_reducible refine OnlyChanges.trans (by with_reducible assumption) ?_
    | with_reducible assumption
    | (with_reducible refine (setPort_only ..).after (by decide) ?_)
    | (with_reducible refine (setRx_only ..).after (by decide) ?_)
    | (with_reducible refine (setTx_only ..).after (by decide) ?_)
    | (extract_lets +onlyGivenNames t1; clear_value t1)
    | extract_lets
    | split
    | with_reducible refine OnlyChanges.ite ?_ ?_)

theorem setPtp_only (s) (x1) : OnlyChanges [.ptp] s (setPtp s x1) := by
  unfold setPtp
  repeat (first
    | with_reducible exact OnlyChanges.refl _ _
    | with_reducible assumption
    | extract_lets
    | (fail_if_no_progress (with_reducible apply OnlyChanges.upd <;> first | exact Or.inr (by decide) | exact Or.inl (by with_reducible rfl) | skip)))

theorem gmRecord_only (x0) (s) : OnlyChanges [.regs, .lgr, .ptp] s (gmRecord x0 s) := by
  unfold gmRecord
  repeat (first
    | with_reducible exact OnlyChanges.refl _ _
    | with_reducible assumption
    | (with_reducible refine (ledger_only ..).after (by decide) ?_)
    | (with_reducible refine (setPtp_only ..).after (by decide) ?_)
    | extract_lets
    | split)

theorem gmRecordOpen_only (s) : OnlyChanges [.regs, .freeCtr, .lgr, .ptp] s (gmRecordOpen s) := by
  unfold gmRecordOpen
  repeat (first
    | with_reducible exact OnlyChanges.refl _ _
    | with_reducible assumption
    | (with_reducible refine (gmRecord_only ..).after (by decide) ?_)
    | (with_reducible refine (draw_only ..).after (by decide) ?_)
    | split
    | with_reducible refine OnlyChanges.ite ?_ ?_)

theorem ptpGo_only (x0) (x1) (s) : OnlyChanges [.regs, .freeCtr, .lgr, .clk, .ptp] s (ptpGo x0 x1 s) := by
  unfold ptpGo
  repeat (first
    | with_reducible exact OnlyChanges.refl _ _
    | with_reducible assumption
    | (with_reducible refine (evRaise_only ..).after (by decide) ?_)
    | (with_reducible refine (setPtp_only ..).after (by decide) ?_)
    | (with_reducible refine (ledger_only ..).after (by decide) ?_)
    | (with_reducible refine (ptpSource_only ..).after (by decide) ?_)
    | (extract_lets +onlyGivenNames t1; with_reducible refine OnlyChanges.cut (t := t1) ?_ ?_ <;> [subst t1; (clear_value t1; intro)])
    | (extract_lets +onlyGivenNames t1; clear_value t1)
    | extract_lets
    | split
    | with_reducible refine OnlyChanges.ite ?_ ?_)

theorem ptpDisable_only (s) : OnlyChanges [.regs, .freeCtr, .lgr, .clk, .ptp] s (ptpDisable s) := by
  unfold ptpDisable
  repeat (first
    | with_reducible exact OnlyChanges.refl _ _
    | with_reducible assumption
    | (with_reducible refine (gmRecordOpen_only ..).after (by decide) ?_)
    | (with_reducible refine (setPtp_only ..).after (by decide) ?_)
    | (with_reducible refine (ptpGo_only ..).after (by decide) ?_)
    | (with_reducible refine (draw_only ..).after (by decide) ?_)
    | extract_lets)

theorem latchWords_only (x0) (x1) (s) : OnlyChanges [.latches] s (latchWords x0 x1 s) := by
  fun_induction latchWords x0 x1 s
  all_goals repeat (first
    | with_reducible exact OnlyChanges.refl _ _
    | with_reducible refine OnlyChanges.trans (by with_reducible assumption) ?_
    | with_reducible assumption
    | (with_reducible refine (latch_only ..).after (by decide) ?_)
    | split)

theorem timeReadOp_only (s) : OnlyChanges [.latches, .rdata] s (timeReadOp s) := by
  unfold timeReadOp
  repeat (first
    | with_reducible exact OnlyChanges.refl _ _
    | with_reducible assumption
    | (with_reducible refine (latchWords_only ..).after (by decide) ?_)
    | (extract_lets +onlyGivenNames t1; with_reducible refine OnlyChanges.cut (t := t1) ?_ ?_ <;> [subst t1; (clear_value t1; intro)])
    | (extract_lets +onlyGivenNames t1; clear_value t1)
    | extract_lets
    | (fail_if_no_progress (with_reducible apply OnlyChanges.upd <;> first | exact Or.inr (by decide) | exact Or.inl (by with_reducible rfl) | skip)))

theorem tcapPopOp_only (s) : OnlyChanges [.latches, .rdata, .ptp] s (tcapPopOp s) := by
  unfold tcapPopOp
  repeat (first
    | with_reducible exact OnlyChanges.refl _ _
    | with_reducible assumption
    | (with_reducible refine (latchWords_only ..).after (by decide) ?_)
    | (with_reducible refine (setPtp_only ..).after (by decide) ?_)
    | (extract_lets +onlyGivenNames t1; with_reducible refine OnlyChanges.cut (t := t1) ?_ ?_ <;> [subst t1; (clear_value t1; intro)])
    | (extract_lets +onlyGivenNames t1; clear_value t1)
    | extract_lets
    | split
    | (fail_if_no_progress (with_reducible apply OnlyChanges.upd <;> first | exact Or.inr (by decide) | exact Or.inl (by with_reducible rfl) | skip)))

theorem rptPopOp_only (x0) (s) : OnlyChanges [.latches, .rdata, .ptp] s (rptPopOp x0 s) := by
  unfold rptPopOp
  repeat (first
    | with_reducible exact OnlyChanges.refl _ _
    | with_reducible assumption
    | (with_reducible refine (setPtp_only ..).after (by decide) ?_)
    | (with_reducible refine (latchWords_only ..).after (by decide) ?_)
    | (extract_lets +onlyGivenNames t1; with_reducible refine OnlyChanges.cut (t := t1) ?_ ?_ <;> [subst t1; (clear_value t1; intro)])
    | (extract_lets +onlyGivenNames t1; clear_value t1)
    | extract_lets
    | split
    | (fail_if_no_progress (with_reducible apply OnlyChanges.upd <;> first | exact Or.inr (by decide) | exact Or.inl (by with_reducible rfl) | skip)))

theorem trigBoundary_only (x0) (x1) (s) : OnlyChanges [.outcomes] s (trigBoundary x0 x1 s) := by
  fun_induction trigBoundary x0 x1 s
  all_goals repeat (first
    | with_reducible exact OnlyChanges.refl _ _
    | with_reducible refine OnlyChanges.trans (by with_reducible assumption) ?_
    | with_reducible assumption
    | (with_reducible refine (report_only ..).after (by decide) ?_)
    | split
    | with_reducible refine OnlyChanges.ite ?_ ?_)

theorem freeRun_only (x0) (s) : OnlyChanges [.regs, .freeCtr, .lgr, .clk, .ptp] s (freeRun x0 s) := by
  unfold freeRun
  repeat (first
    | with_reducible exact OnlyChanges.refl _ _
    | with_reducible assumption
    | (with_reducible refine (gmRecordOpen_only ..).after (by decide) ?_)
    | (with_reducible refine (ptpGo_only ..).after (by decide) ?_)
    | (with_reducible refine (setPtp_only ..).after (by decide) ?_)
    | (extract_lets +onlyGivenNames t1; with_reducible refine OnlyChanges.cut (t := t1) ?_ ?_ <;> [subst t1; (clear_value t1; intro)])
    | extract_lets
    | split
    | with_reducible refine OnlyChanges.ite ?_ ?_)

theorem selectMaster_only (s) : OnlyChanges [.regs, .freeCtr, .lgr, .ptp] s (selectMaster s) := by
  unfold selectMaster
  repeat (first
    | with_reducible exact OnlyChanges.refl _ _
    | with_reducible assumption
    | (with_reducible refine (setPtp_only ..).after (by decide) ?_)
    | (with_reducible refine (evRaise_only ..).after (by decide) ?_)
    | (with_reducible refine (gmRecordOpen_only ..).after (by decide) ?_)
    | (extract_lets +onlyGivenNames t1; with_reducible refine OnlyChanges.cut (t := t1) ?_ ?_ <;> [subst t1; (clear_value t1; intro)])
    | extract_lets
    | split
    | with_reducible refine OnlyChanges.ite ?_ ?_)

theorem stepTime_only (x0) (s) : OnlyChanges [.regs, .freeCtr, .lgr, .clk, .ptp] s (stepTime x0 s) := by
  unfold stepTime
  repeat (first
    | with_reducible exact OnlyChanges.refl _ _
    | with_reducible assumption
    | (with_reducible refine (evRaise_only ..).after (by decide) ?_)
    | (with_reducible refine (setPtp_only ..).after (by decide) ?_)
    | (with_reducible refine (ptpGo_only ..).after (by decide) ?_)
    | (with_reducible refine (ledger_only ..).after (by decide) ?_)
    | extract_lets)

theorem acquire_only (x0) (s) : OnlyChanges [.regs, .freeCtr, .lgr, .clk, .ptp] s (acquire x0 s) := by
  unfold acquire
  repeat (first
    | with_reducible exact OnlyChanges.refl _ _
    | with_reducible assumption
    | (with_reducible refine (setPtp_only ..).after (by decide) ?_)
    | (with_reducible refine (ptpGo_only ..).after (by decide) ?_)
    | extract_lets
    | split
    | with_reducible refine OnlyChanges.ite ?_ ?_)

theorem offsetState_only (x0) (s) : OnlyChanges [.regs, .freeCtr, .lgr, .clk, .ptp] s (offsetState x0 s) := by
  unfold offsetState
  repeat (first
    | with_reducible exact OnlyChanges.refl _ _
    | with_reducible assumption
    | (with_reducible refine (acquire_only ..).after (by decide) ?_)
    | (with_reducible refine (stepTime_only ..).after (by decide) ?_)
    | (with_reducible refine (ptpGo_only ..).after (by decide) ?_)
    | (with_reducible refine (setPtp_only ..).after (by decide) ?_)
    | (extract_lets +onlyGivenNames t1; clear_value t1)
    | extract_lets
    | split
    | with_reducible refine OnlyChanges.ite ?_ ?_)

theorem acceptOffset_only (x0) (s) : OnlyChanges [.regs, .freeCtr, .lgr, .clk, .ptp] s (acceptOffset x0 s) := by
  unfold acceptOffset
  repeat (first
    | with_reducible exact OnlyChanges.refl _ _
    | with_reducible assumption
    | (with_reducible refine (gmRecord_only ..).after (by decide) ?_)
    | (with_reducible refine (offsetState_only ..).after (by decide) ?_)
    | (with_reducible refine (setPtp_only ..).after (by decide) ?_)
    | (with_reducible refine (draw_only ..).after (by decide) ?_)
    | extract_lets
    | split
    | with_reducible refine OnlyChanges.ite ?_ ?_)

theorem syncOp_only (x0) (s) : OnlyChanges [.regs, .freeCtr, .lgr, .clk, .ptp] s (syncOp x0 s) := by
  unfold syncOp
  repeat (first
    | with_reducible exact OnlyChanges.refl _ _
    | with_reducible assumption
    | (with_reducible refine (setPtp_only ..).after (by decide) ?_)
    | (with_reducible refine (acceptOffset_only ..).after (by decide) ?_)
    | (with_reducible refine (draw_only ..).after (by decide) ?_)
    | (extract_lets +onlyGivenNames t1; with_reducible refine OnlyChanges.cut (t := t1) ?_ ?_ <;> [subst t1; (clear_value t1; intro)])
    | (extract_lets +onlyGivenNames t1; clear_value t1)
    | extract_lets
    | split
    | with_reducible refine OnlyChanges.ite ?_ ?_)

theorem ptpEnable_only (s) : OnlyChanges [.regs, .freeCtr, .lgr, .clk, .ptp] s (ptpEnable s) := by
  unfold ptpEnable
  repeat (first
    | with_reducible exact OnlyChanges.refl _ _
    | with_reducible assumption
    | (with_reducible refine (ptpGo_only ..).after (by decide) ?_)
    | (with_reducible refine (setPtp_only ..).after (by decide) ?_)
    | extract_lets
    | split
    | with_reducible refine OnlyChanges.ite ?_ ?_)

theorem ptpCtl_only (x0) (s) : OnlyChanges [.outcomes, .ptp] s (ptpCtl x0 s) := by
  unfold ptpCtl
  repeat (first
    | with_reducible exact OnlyChanges.refl _ _
    | with_reducible assumption
    | (with_reducible refine (finish_only ..).after (by decide) ?_)
    | (with_reducible refine (setPtp_only ..).after (by decide) ?_)
    | extract_lets
    | split
    | with_reducible refine checked_only (by decide) ?_ _ _ _)

theorem setPin_only (x0) (x1) (s) : OnlyChanges [.ptp] s (setPin x0 x1 s) := by
  unfold setPin
  repeat (first
    | with_reducible exact OnlyChanges.refl _ _
    | with_reducible assumption
    | (with_reducible refine (setPtp_only ..).after (by decide) ?_)
    | extract_lets
    | split
    | with_reducible refine OnlyChanges.ite ?_ ?_)

theorem dropTrig_only (x0) (s) : OnlyChanges [.outcomes, .ptp] s (dropTrig x0 s) := by
  unfold dropTrig
  repeat (first
    | with_reducible exact OnlyChanges.refl _ _
    | with_reducible assumption
    | (with_reducible refine (setPtp_only ..).after (by decide) ?_)
    | (with_reducible refine (report_only ..).after (by decide) ?_)
    | (extract_lets +onlyGivenNames t1; with_reducible refine OnlyChanges.cut (t := t1) ?_ ?_ <;> [subst t1; (clear_value t1; intro)])
    | extract_lets
    | split
    | with_reducible refine OnlyChanges.ite ?_ ?_)

theorem armTrig_only (x0) (x1) (s) : OnlyChanges [.outcomes, .ptp] s (armTrig x0 x1 s) := by
  unfold armTrig
  repeat (first
    | with_reducible exact OnlyChanges.refl _ _
    | with_reducible assumption
    | (with_reducible refine (dropTrig_only ..).after (by decide) ?_)
    | (with_reducible refine (setPin_only ..).after (by decide) ?_)
    | (with_reducible refine (setPtp_only ..).after (by decide) ?_)
    | (with_reducible refine (finish_only ..).after (by decide) ?_)
    | (extract_lets +onlyGivenNames t1; with_reducible refine OnlyChanges.cut (t := t1) ?_ ?_ <;> [subst t1; (clear_value t1; intro)])
    | (extract_lets +onlyGivenNames t1; clear_value t1)
    | extract_lets
    | split
    | with_reducible refine OnlyChanges.ite ?_ ?_)

theorem disarmTrig_only (x0) (s) : OnlyChanges [.outcomes, .ptp, .lau] s (disarmTrig x0 s) := by
  unfold disarmTrig
  repeat (first
    | with_reducible exact OnlyChanges.refl _ _
    | with_reducible assumption
    | (with_reducible refine (reportAll_only ..).after (by decide) ?_)
    | (with_reducible refine (setLau_only ..).after (by decide) ?_)
    | (with_reducible refine (dropTrig_only ..).after (by decide) ?_)
    | extract_lets
    | split)

theorem withdrawLoad_only (x0) (s) : OnlyChanges [.freeCtr, .sch] s (withdrawLoad x0 s) := by
  unfold withdrawLoad
  repeat (first
    | with_reducible exact OnlyChanges.refl _ _
    | with_reducible assumption
    | (with_reducible refine (setSch_only ..).after (by decide) ?_)
    | (with_reducible refine (draw_only ..).after (by decide) ?_)
    | extract_lets
    | split
    | with_reducible refine OnlyChanges.ite ?_ ?_)

theorem withdrawRest_only (x0) (s) : OnlyChanges [.freeCtr, .clk, .cor, .sch, .fab, .drc] s (withdrawRest x0 s) := by
  unfold withdrawRest
  repeat (first
    | with_reducible exact OnlyChanges.refl _ _
    | with_reducible assumption
    | (with_reducible refine (dropStage_only ..).after (by decide) ?_)
    | (with_reducible refine (withdrawLoad_only ..).after (by decide) ?_)
    | (with_reducible refine (setClk_only ..).after (by decide) ?_)
    | (with_reducible refine (setFab_only ..).after (by decide) ?_)
    | extract_lets
    | with_reducible refine OnlyChanges.foldl_trans (fun _ _ => ?_) ?_ _)

theorem voidLoaded_only (x0) (s) : OnlyChanges [.freeCtr, .pair] s (voidLoaded x0 s) := by
  unfold voidLoaded
  repeat (first
    | with_reducible exact OnlyChanges.refl _ _
    | with_reducible assumption
    | (with_reducible refine (voidInactive_only ..).after (by decide) ?_)
    | split
    | with_reducible refine OnlyChanges.ite ?_ ?_)

theorem withdrawStarts_only (x0) (s) : OnlyChanges [.ptp, .lau] s (withdrawStarts x0 s) := by
  unfold withdrawStarts
  repeat (first
    | with_reducible exact OnlyChanges.refl _ _
    | with_reducible assumption
    | (with_reducible refine (setLau_only ..).after (by decide) ?_)
    | (with_reducible refine (setPtp_only ..).after (by decide) ?_)
    | extract_lets
    | split
    | with_reducible refine OnlyChanges.ite ?_ ?_)

theorem withdrawSwap_only (x0) (s) : OnlyChanges [.sch] s (withdrawSwap x0 s) := by
  unfold withdrawSwap
  repeat (first
    | with_reducible exact OnlyChanges.refl _ _
    | with_reducible assumption
    | (with_reducible refine (setSch_only ..).after (by decide) ?_)
    | extract_lets
    | split
    | with_reducible refine OnlyChanges.ite ?_ ?_)

theorem withdrawArmed_only (x0) (s) : OnlyChanges [.regs, .sch] s (withdrawArmed x0 s) := by
  unfold withdrawArmed
  repeat (first
    | with_reducible exact OnlyChanges.refl _ _
    | with_reducible assumption
    | (with_reducible refine (setRender_only ..).after (by decide) ?_)
    | (with_reducible refine (setSch_only ..).after (by decide) ?_)
    | extract_lets
    | split
    | with_reducible refine OnlyChanges.ite ?_ ?_)

theorem withdrawKeyed_only (x0) (s) : OnlyChanges [.regs, .freeCtr, .ptp, .dpx, .pair, .cor, .sch, .fab, .keyed, .lau] s (withdrawKeyed x0 s) := by
  unfold withdrawKeyed
  repeat (first
    | with_reducible exact OnlyChanges.refl _ _
    | with_reducible assumption
    | (with_reducible refine (voidLoaded_only ..).after (by decide) ?_)
    | (with_reducible refine (setCor_only ..).after (by decide) ?_)
    | (with_reducible refine (setFab_only ..).after (by decide) ?_)
    | (with_reducible refine (setDpx_only ..).after (by decide) ?_)
    | (with_reducible refine (withdrawStarts_only ..).after (by decide) ?_)
    | (with_reducible refine (withdrawSwap_only ..).after (by decide) ?_)
    | (with_reducible refine (withdrawArmed_only ..).after (by decide) ?_)
    | extract_lets
    | (fail_if_no_progress (with_reducible apply OnlyChanges.upd <;> first | exact Or.inr (by decide) | exact Or.inl (by with_reducible rfl) | skip)))

theorem withdrawTok_only (x0) (s) : OnlyChanges [.regs, .freeCtr, .clk, .ptp, .dpx, .pair, .cor, .sch, .fab, .drc, .keyed, .lau] s (withdrawTok x0 s) := by
  unfold withdrawTok
  repeat (first
    | with_reducible exact OnlyChanges.refl _ _
    | with_reducible assumption
    | (with_reducible refine (withdrawRest_only ..).after (by decide) ?_)
    | (with_reducible refine (withdrawKeyed_only ..).after (by decide) ?_))

theorem heartbeatTurn_only (x0) (s) : OnlyChanges [.regs, .outcomes, .freeCtr, .stw, .lgr, .dpx, .fab, .lau] s (heartbeatTurn x0 s) := by
  unfold heartbeatTurn
  repeat (first
    | with_reducible exact OnlyChanges.refl _ _
    | with_reducible assumption
    | (with_reducible refine (heartbeatOp_only ..).after (by decide) ?_)
    | (with_reducible refine (remoteReturns_only ..).after (by decide) ?_)
    | extract_lets)

theorem leaveKeyed_only (x0) (s) : OnlyChanges [.regs, .freeCtr, .ptp, .dpx, .pair, .cor, .sch, .fab, .keyed, .lau] s (leaveKeyed x0 s) := by
  unfold leaveKeyed
  repeat (first
    | with_reducible exact OnlyChanges.refl _ _
    | with_reducible assumption
    | (with_reducible refine (voidLoaded_only ..).after (by decide) ?_)
    | (with_reducible refine (draw_only ..).after (by decide) ?_)
    | (with_reducible refine (withdrawKeyed_only ..).after (by decide) ?_)
    | split
    | with_reducible refine OnlyChanges.ite ?_ ?_)

theorem ownerSilent_only (x0) (s) : OnlyChanges [.regs, .outcomes, .outs, .hostMem, .dueWrites, .freeCtr, .hif, .stw, .lgr, .clk, .ptp, .dpx, .pair, .cor, .sch, .fab, .drc, .keyed, .lau] s (ownerSilent x0 s) := by
  unfold ownerSilent
  repeat (first
    | with_reducible exact OnlyChanges.refl _ _
    | with_reducible assumption
    | (with_reducible refine (commitOutcomes_only ..).after (by decide) ?_)
    | (with_reducible refine (leaveKeyed_only ..).after (by decide) ?_)
    | (with_reducible refine (withdrawRest_only ..).after (by decide) ?_)
    | (with_reducible refine (abortGiveUp_only ..).after (by decide) ?_)
    | (extract_lets +onlyGivenNames t1; with_reducible refine OnlyChanges.cut (t := t1) ?_ ?_ <;> [subst t1; (clear_value t1; intro)])
    | extract_lets
    | split
    | with_reducible refine OnlyChanges.ite ?_ ?_)

theorem loseItem_only (x0) (x1) (s) : OnlyChanges [.regs, .outcomes, .outs, .hostMem, .dueWrites, .freeCtr, .hif, .stw, .lgr, .clk, .ptp, .dpx, .pair, .cor, .sch, .fab, .drc, .keyed, .lau] s (loseItem x0 x1 s) := by
  unfold loseItem
  repeat (first
    | with_reducible exact OnlyChanges.refl _ _
    | with_reducible assumption
    | (with_reducible refine (commitOutcomes_only ..).after (by decide) ?_)
    | (with_reducible refine (freeSlotOf_only ..).after (by decide) ?_)
    | (with_reducible refine (endUncertain_only ..).after (by decide) ?_)
    | (with_reducible refine (leaveKeyed_only ..).after (by decide) ?_)
    | (with_reducible refine (withdrawRest_only ..).after (by decide) ?_)
    | (extract_lets +onlyGivenNames t1; with_reducible refine OnlyChanges.cut (t := t1) ?_ ?_ <;> [subst t1; (clear_value t1; intro)])
    | (extract_lets +onlyGivenNames t1; clear_value t1)
    | extract_lets
    | split
    | with_reducible refine OnlyChanges.ite ?_ ?_
    | (fail_if_no_progress (with_reducible apply OnlyChanges.upd <;> first | exact Or.inr (by decide) | exact Or.inl (by with_reducible rfl) | skip)))

theorem loseItems_only (x0) (s) : OnlyChanges [.regs, .outcomes, .outs, .hostMem, .dueWrites, .freeCtr, .hif, .stw, .lgr, .clk, .ptp, .dpx, .pair, .cor, .sch, .fab, .drc, .keyed, .lau] s (loseItems x0 s) := by
  fun_induction loseItems x0 s
  all_goals repeat (first
    | with_reducible exact OnlyChanges.refl _ _
    | with_reducible refine OnlyChanges.trans (by with_reducible assumption) ?_
    | with_reducible assumption
    | (with_reducible refine (loseItem_only ..).after (by decide) ?_)
    | split)

theorem haltCores_only (x0) (s) : OnlyChanges [.regs, .outcomes, .outs, .hostMem, .dueWrites, .freeCtr, .hif, .stw, .mtx, .lgr, .clk, .ptp, .dpx, .pair, .cor, .sch, .fab, .drc, .keyed, .lau] s (haltCores x0 s) := by
  unfold haltCores
  repeat (first
    | with_reducible exact OnlyChanges.refl _ _
    | with_reducible assumption
    | (with_reducible refine (loseItems_only ..).after (by decide) ?_)
    | (with_reducible refine (setCore_only ..).after (by decide) ?_)
    | (with_reducible refine (resetMasters_only ..).after (by decide) ?_)
    | (with_reducible refine (ledger_only ..).after (by decide) ?_)
    | (with_reducible refine (evRaise_only ..).after (by decide) ?_)
    | (extract_lets +onlyGivenNames t1; with_reducible refine OnlyChanges.cut (t := t1) ?_ ?_ <;> [subst t1; (clear_value t1; intro)])
    | (extract_lets +onlyGivenNames t1; clear_value t1)
    | extract_lets
    | split
    | with_reducible refine OnlyChanges.ite ?_ ?_
    | with_reducible refine OnlyChanges.foldl_trans (fun _ _ => ?_) ?_ _
    | (fail_if_no_progress (with_reducible apply OnlyChanges.upd <;> first | exact Or.inr (by decide) | exact Or.inl (by with_reducible rfl) | skip)))

theorem setMask_only (x0) (x1) (s) : OnlyChanges [.regs] s (setMask x0 x1 s) := by
  unfold setMask
  repeat (first
    | with_reducible exact OnlyChanges.refl _ _
    | with_reducible assumption
    | (with_reducible refine (setField_only ..).after (by decide) ?_)
    | split
    | with_reducible refine OnlyChanges.ite ?_ ?_)

theorem msetOp_only (x0) (x1) (s) : OnlyChanges [.regs] s (msetOp x0 x1 s) := by
  unfold msetOp
  repeat (first
    | with_reducible exact OnlyChanges.refl _ _
    | with_reducible assumption
    | (with_reducible refine (setMask_only ..).after (by decide) ?_)
    | split
    | with_reducible refine OnlyChanges.ite ?_ ?_)

theorem swiClearOp_only (x0) (s) : OnlyChanges [.regs] s (swiClearOp x0 s) := by
  unfold swiClearOp
  repeat (first
    | with_reducible exact OnlyChanges.refl _ _
    | with_reducible assumption
    | (with_reducible refine (setReg_only ..).after (by decide) ?_)
    | split
    | with_reducible refine OnlyChanges.ite ?_ ?_)

theorem swiSetOp_only (x0) (s) : OnlyChanges [.regs] s (swiSetOp x0 s) := by
  unfold swiSetOp
  repeat (first
    | with_reducible exact OnlyChanges.refl _ _
    | with_reducible assumption
    | (with_reducible refine (setReg_only ..).after (by decide) ?_)
    | split
    | with_reducible refine OnlyChanges.ite ?_ ?_)

theorem eoiOp_only (x0) (x1) (s) : OnlyChanges [.regs, .irq, .lgr] s (eoiOp x0 x1 s) := by
  unfold eoiOp
  repeat (first
    | with_reducible exact OnlyChanges.refl _ _
    | with_reducible assumption
    | (with_reducible refine (ledgerLim_only ..).after (by decide) ?_)
    | (extract_lets +onlyGivenNames t1; clear_value t1)
    | extract_lets
    | split
    | with_reducible refine OnlyChanges.ite ?_ ?_
    | (fail_if_no_progress (with_reducible apply OnlyChanges.upd <;> first | exact Or.inr (by decide) | exact Or.inl (by with_reducible rfl) | skip)))

theorem irqStatReadOp_only (s) : OnlyChanges [.rdata, .irq] s (irqStatReadOp s) := by
  unfold irqStatReadOp
  repeat (first
    | with_reducible exact OnlyChanges.refl _ _
    | with_reducible assumption
    | (extract_lets +onlyGivenNames t1; clear_value t1)
    | extract_lets
    | (fail_if_no_progress (with_reducible apply OnlyChanges.upd <;> first | exact Or.inr (by decide) | exact Or.inl (by with_reducible rfl) | skip)))

theorem deliverCore_only (x0) (x1) (s) : OnlyChanges [.regs, .rdata, .stw, .irq] s (deliverCore x0 x1 s) := by
  unfold deliverCore
  repeat (first
    | with_reducible exact OnlyChanges.refl _ _
    | with_reducible assumption
    | (with_reducible refine (nullHandle_only ..).after (by decide) ?_)
    | (extract_lets +onlyGivenNames t1; with_reducible refine OnlyChanges.cut (t := t1) ?_ ?_ <;> [subst t1; (clear_value t1; intro)])
    | (extract_lets +onlyGivenNames t1; clear_value t1)
    | extract_lets
    | split
    | with_reducible refine OnlyChanges.ite ?_ ?_
    | (fail_if_no_progress (with_reducible apply OnlyChanges.upd <;> first | exact Or.inr (by decide) | exact Or.inl (by with_reducible rfl) | skip)))

theorem deliverHost_only (x0) (x1) (s) : OnlyChanges [.outs, .hostMem, .dueWrites, .hif, .irq] s (deliverHost x0 x1 s) := by
  unfold deliverHost
  repeat (first
    | with_reducible exact OnlyChanges.refl _ _
    | with_reducible assumption
    | (with_reducible refine (hostWrite_only ..).after (by decide) ?_)
    | (with_reducible refine (sendVector_only ..).after (by decide) ?_)
    | (with_reducible refine (pmeDue_only ..).after (by decide) ?_)
    | (extract_lets +onlyGivenNames t1; clear_value t1)
    | extract_lets
    | split
    | with_reducible refine OnlyChanges.ite ?_ ?_
    | (fail_if_no_progress (with_reducible apply OnlyChanges.upd <;> first | exact Or.inr (by decide) | exact Or.inl (by with_reducible rfl) | skip)))

theorem noteEvrFull_only (x0) (s) : OnlyChanges [.regs, .hif] s (noteEvrFull x0 s) := by
  unfold noteEvrFull
  repeat (first
    | with_reducible exact OnlyChanges.refl _ _
    | with_reducible assumption
    | (with_reducible refine (evRaise_only ..).after (by decide) ?_)
    | (extract_lets +onlyGivenNames t1; clear_value t1)
    | extract_lets
    | split
    | with_reducible refine OnlyChanges.ite ?_ ?_
    | (fail_if_no_progress (with_reducible apply OnlyChanges.upd <;> first | exact Or.inr (by decide) | exact Or.inl (by with_reducible rfl) | skip)))

theorem ptimeReadOp_only (s) : OnlyChanges [.latches, .rdata] s (ptimeReadOp s) := by
  unfold ptimeReadOp
  repeat (first
    | with_reducible exact OnlyChanges.refl _ _
    | with_reducible assumption
    | (with_reducible refine (latch_only ..).after (by decide) ?_)
    | (extract_lets +onlyGivenNames t1; with_reducible refine OnlyChanges.cut (t := t1) ?_ ?_ <;> [subst t1; (clear_value t1; intro)])
    | extract_lets
    | (fail_if_no_progress (with_reducible apply OnlyChanges.upd <;> first | exact Or.inr (by decide) | exact Or.inl (by with_reducible rfl) | skip)))

theorem recAdvance_only (x0) (s) : OnlyChanges [.regs, .rdata] s (recAdvance x0 s) := by
  unfold recAdvance
  repeat (first
    | with_reducible exact OnlyChanges.refl _ _
    | with_reducible assumption
    | (with_reducible refine (setField_only ..).after (by decide) ?_)
    | (extract_lets +onlyGivenNames t1; with_reducible refine OnlyChanges.cut (t := t1) ?_ ?_ <;> [subst t1; (clear_value t1; intro)])
    | (extract_lets +onlyGivenNames t1; clear_value t1)
    | extract_lets
    | split
    | with_reducible refine OnlyChanges.ite ?_ ?_
    | (fail_if_no_progress (with_reducible apply OnlyChanges.upd <;> first | exact Or.inr (by decide) | exact Or.inl (by with_reducible rfl) | skip)))

theorem eraseDone_only (x0) (x1) (s) : OnlyChanges [.regs, .lgr] s (eraseDone x0 x1 s) := by
  unfold eraseDone
  repeat (first
    | with_reducible exact OnlyChanges.refl _ _
    | with_reducible assumption
    | (with_reducible refine (ledger_only ..).after (by decide) ?_)
    | (with_reducible refine (evIf_only ..).after (by decide) ?_)
    | (with_reducible refine (evRaise_only ..).after (by decide) ?_)
    | (extract_lets +onlyGivenNames t1; clear_value t1)
    | extract_lets
    | split
    | with_reducible refine OnlyChanges.ite ?_ ?_
    | (fail_if_no_progress (with_reducible apply OnlyChanges.upd <;> first | exact Or.inr (by decide) | exact Or.inl (by with_reducible rfl) | skip)))

theorem programDone_only (x0) (s) : OnlyChanges [.regs, .lgr] s (programDone x0 s) := by
  unfold programDone
  repeat (first
    | with_reducible exact OnlyChanges.refl _ _
    | with_reducible assumption
    | (with_reducible refine (evIf_only ..).after (by decide) ?_)
    | (with_reducible refine (evRaise_only ..).after (by decide) ?_)
    | (with_reducible refine (ledger_only ..).after (by decide) ?_)
    | (extract_lets +onlyGivenNames t1; with_reducible refine OnlyChanges.cut (t := t1) ?_ ?_ <;> [subst t1; (clear_value t1; intro)])
    | (extract_lets +onlyGivenNames t1; clear_value t1)
    | extract_lets
    | split
    | with_reducible refine OnlyChanges.ite ?_ ?_
    | (fail_if_no_progress (with_reducible apply OnlyChanges.upd <;> first | exact Or.inr (by decide) | exact Or.inl (by with_reducible rfl) | skip)))

theorem thermReadOp_only (s) : OnlyChanges [.regs, .rdata] s (thermReadOp s) := by
  unfold thermReadOp
  repeat (first
    | with_reducible exact OnlyChanges.refl _ _
    | with_reducible assumption
    | (with_reducible refine (setField_only ..).after (by decide) ?_)
    | extract_lets
    | (fail_if_no_progress (with_reducible apply OnlyChanges.upd <;> first | exact Or.inr (by decide) | exact Or.inl (by with_reducible rfl) | skip)))

theorem readReg_only (x0) (s) : OnlyChanges [.regs, .latches, .rdata, .freeCtr, .irq, .ptp, .drc] s (readReg x0 s) := by
  unfold readReg
  repeat (first
    | with_reducible exact OnlyChanges.refl _ _
    | with_reducible assumption
    | (with_reducible refine (draw_only ..).after (by decide) ?_)
    | (with_reducible refine (thermReadOp_only ..).after (by decide) ?_)
    | (with_reducible refine (irqStatReadOp_only ..).after (by decide) ?_)
    | (with_reducible refine (cisStatReadOp_only ..).after (by decide) ?_)
    | (with_reducible refine (corStatReadOp_only ..).after (by decide) ?_)
    | (with_reducible refine (timeReadOp_only ..).after (by decide) ?_)
    | (with_reducible refine (tcapPopOp_only ..).after (by decide) ?_)
    | (with_reducible refine (splitRead_only ..).after (by decide) ?_)
    | (with_reducible refine (ptimeReadOp_only ..).after (by decide) ?_)
    | (with_reducible refine (recAdvance_only ..).after (by decide) ?_)
    | (with_reducible refine (rptPopOp_only ..).after (by decide) ?_)
    | (with_reducible refine (drcRefReadOp_only ..).after (by decide) ?_)
    | (extract_lets +onlyGivenNames t1; with_reducible refine OnlyChanges.cut (t := t1) ?_ ?_ <;> [subst t1; (clear_value t1; intro)])
    | extract_lets
    | split
    | with_reducible refine OnlyChanges.ite ?_ ?_
    | (fail_if_no_progress (with_reducible apply OnlyChanges.upd <;> first | exact Or.inr (by decide) | exact Or.inl (by with_reducible rfl) | skip)))

theorem readWord_only (x0) (s) : OnlyChanges [.regs, .latches, .rdata, .freeCtr, .irq, .ptp, .drc] s (readWord x0 s).2 := by
  unfold readWord
  repeat (first
    | with_reducible exact OnlyChanges.refl _ _
    | with_reducible assumption
    | (with_reducible refine (readReg_only ..).after (by decide) ?_)
    | (extract_lets +onlyGivenNames t1; with_reducible refine OnlyChanges.cut (t := t1) ?_ ?_ <;> [subst t1; (clear_value t1; intro)])
    | extract_lets
    | (fail_if_no_progress (with_reducible apply OnlyChanges.upd <;> first | exact Or.inr (by decide) | exact Or.inl (by with_reducible rfl) | skip)))

theorem setAon_only (s) (x1) : OnlyChanges [.aon] s (setAon s x1) := by
  unfold setAon
  repeat (first
    | with_reducible exact OnlyChanges.refl _ _
    | with_reducible assumption
    | extract_lets
    | (fail_if_no_progress (with_reducible apply OnlyChanges.upd <;> first | exact Or.inr (by decide) | exact Or.inl (by with_reducible rfl) | skip)))

theorem warmRegs_only (s) : OnlyChanges [.regs, .latches] s (warmRegs s) := by
  unfold warmRegs
  repeat (first
    | with_reducible exact OnlyChanges.refl _ _
    | with_reducible assumption
    | extract_lets
    | (fail_if_no_progress (with_reducible apply OnlyChanges.upd <;> first | exact Or.inr (by decide) | exact Or.inl (by with_reducible rfl) | skip)))

theorem warmInterlock_only (s) : OnlyChanges [.regs, .lgr, .dpx, .lau] s (warmInterlock s) := by
  unfold warmInterlock
  repeat (first
    | with_reducible exact OnlyChanges.refl _ _
    | with_reducible assumption
    | (with_reducible refine (clearArm_only ..).after (by decide) ?_)
    | (with_reducible refine (setDpx_only ..).after (by decide) ?_)
    | extract_lets)

theorem warmTime_only (s) : OnlyChanges [.regs, .freeCtr, .lgr, .clk, .ptp] s (warmTime s) := by
  unfold warmTime
  repeat (first
    | with_reducible exact OnlyChanges.refl _ _
    | with_reducible assumption
    | (with_reducible refine (setPtp_only ..).after (by decide) ?_)
    | (with_reducible refine (ptpSource_only ..).after (by decide) ?_)
    | (with_reducible refine (ptpDisable_only ..).after (by decide) ?_)
    | extract_lets
    | split
    | with_reducible refine OnlyChanges.ite ?_ ?_)

theorem warmControl_only (s) : OnlyChanges [.stw, .irq, .mtx] s (warmControl s) := by
  unfold warmControl
  repeat (first
    | with_reducible exact OnlyChanges.refl _ _
    | with_reducible assumption
    | extract_lets
    | (fail_if_no_progress (with_reducible apply OnlyChanges.upd <;> first | exact Or.inr (by decide) | exact Or.inl (by with_reducible rfl) | skip)))

theorem warmRender_only (s) : OnlyChanges [.mp, .obj, .geo, .pair, .cor, .sch, .fab, .drc, .keyed, .lau] s (warmRender s) := by
  unfold warmRender
  repeat (first
    | with_reducible exact OnlyChanges.refl _ _
    | with_reducible assumption
    | (extract_lets +onlyGivenNames t1; clear_value t1)
    | extract_lets
    | split
    | (fail_if_no_progress (with_reducible apply OnlyChanges.upd <;> first | exact Or.inr (by decide) | exact Or.inl (by with_reducible rfl) | skip)))

theorem dropOps_only (s) : OnlyChanges [.regs, .outcomes, .freeCtr, .hif, .clk, .ptp, .dpx, .pair, .cor, .sch, .fab, .drc, .keyed, .lau] s (dropOps s) := by
  unfold dropOps
  repeat (first
    | with_reducible exact OnlyChanges.refl _ _
    | with_reducible assumption
    | (with_reducible refine (withdrawTok_only ..).after (by decide) ?_)
    | (with_reducible refine (settleAborts_only ..).after (by decide) ?_)
    | (extract_lets +onlyGivenNames t1; with_reducible refine OnlyChanges.cut (t := t1) ?_ ?_ <;> [subst t1; (clear_value t1; intro)])
    | (extract_lets +onlyGivenNames t1; clear_value t1)
    | extract_lets
    | with_reducible refine OnlyChanges.ite ?_ ?_
    | with_reducible refine OnlyChanges.foldl_trans (fun _ _ => ?_) ?_ _
    | (fail_if_no_progress (with_reducible apply OnlyChanges.upd <;> first | exact Or.inr (by decide) | exact Or.inl (by with_reducible rfl) | skip)))

theorem warmAssert_only (x0) (s) : OnlyChanges [.regs, .latches, .outcomes, .dueWrites, .freeCtr, .hif, .stw, .irq, .mtx, .lgr, .aon, .clk, .ptp, .mp, .dpx, .obj, .geo, .pair, .cor, .sch, .fab, .drc, .keyed, .lau] s (warmAssert x0 s) := by
  unfold warmAssert
  repeat (first
    | with_reducible exact OnlyChanges.refl _ _
    | with_reducible assumption
    | (with_reducible refine (ledger_only ..).after (by decide) ?_)
    | (with_reducible refine (evRaise_only ..).after (by decide) ?_)
    | (with_reducible refine (hostReset_only ..).after (by decide) ?_)
    | (with_reducible refine (warmRegs_only ..).after (by decide) ?_)
    | (with_reducible refine (warmInterlock_only ..).after (by decide) ?_)
    | (with_reducible refine (warmTime_only ..).after (by decide) ?_)
    | (with_reducible refine (warmControl_only ..).after (by decide) ?_)
    | (with_reducible refine (warmRender_only ..).after (by decide) ?_)
    | (with_reducible refine (dropOps_only ..).after (by decide) ?_)
    | (with_reducible refine (setField_only ..).after (by decide) ?_)
    | (with_reducible refine (monSettleAll_only ..).after (by decide) ?_)
    | (with_reducible refine (setAon_only ..).after (by decide) ?_)
    | (extract_lets +onlyGivenNames t1; clear_value t1)
    | extract_lets
    | (fail_if_no_progress (with_reducible apply OnlyChanges.upd <;> first | exact Or.inr (by decide) | exact Or.inl (by with_reducible rfl) | skip)))

theorem warmRequest_only (x0) (s) : OnlyChanges [.regs, .latches, .outcomes, .dueWrites, .freeCtr, .hif, .stw, .irq, .mtx, .lgr, .aon, .clk, .ptp, .mp, .dpx, .obj, .geo, .pair, .cor, .sch, .fab, .drc, .keyed, .lau] s (warmRequest x0 s) := by
  unfold warmRequest
  repeat (first
    | with_reducible exact OnlyChanges.refl _ _
    | with_reducible assumption
    | (with_reducible refine (setAon_only ..).after (by decide) ?_)
    | (with_reducible refine (warmAssert_only ..).after (by decide) ?_)
    | extract_lets
    | split
    | with_reducible refine OnlyChanges.ite ?_ ?_)

theorem wrstWrite_only (x0) (x1) (s) : OnlyChanges [.regs, .latches, .outcomes, .dueWrites, .freeCtr, .hif, .stw, .irq, .mtx, .lgr, .aon, .clk, .ptp, .mp, .dpx, .obj, .geo, .pair, .cor, .sch, .fab, .drc, .keyed, .lau] s (wrstWrite x0 x1 s) := by
  unfold wrstWrite
  repeat (first
    | with_reducible exact OnlyChanges.refl _ _
    | with_reducible assumption
    | (with_reducible refine (warmRequest_only ..).after (by decide) ?_)
    | split
    | with_reducible refine OnlyChanges.ite ?_ ?_)

theorem storeTj_only (x0) (s) : OnlyChanges [.regs] s (storeTj x0 s) := by
  unfold storeTj
  repeat (first
    | with_reducible exact OnlyChanges.refl _ _
    | with_reducible assumption
    | (with_reducible refine (setField_only ..).after (by decide) ?_)
    | (extract_lets +onlyGivenNames t1; with_reducible refine OnlyChanges.cut (t := t1) ?_ ?_ <;> [subst t1; (clear_value t1; intro)])
    | (extract_lets +onlyGivenNames t1; clear_value t1)
    | extract_lets
    | split
    | with_reducible refine OnlyChanges.ite ?_ ?_)

theorem alertJudge_only (x0) (s) : OnlyChanges [.regs, .lgr, .aon] s (alertJudge x0 s) := by
  unfold alertJudge
  repeat (first
    | with_reducible exact OnlyChanges.refl _ _
    | with_reducible assumption
    | (with_reducible refine (setAon_only ..).after (by decide) ?_)
    | (with_reducible refine (ledger_only ..).after (by decide) ?_)
    | (with_reducible refine (evRaise_only ..).after (by decide) ?_)
    | extract_lets
    | split
    | with_reducible refine OnlyChanges.ite ?_ ?_)

theorem tripActions_only (x0) (s) : OnlyChanges [.regs, .lgr, .aon, .dpx, .drc, .lau] s (tripActions x0 s) := by
  unfold tripActions
  repeat (first
    | with_reducible exact OnlyChanges.refl _ _
    | with_reducible assumption
    | (with_reducible refine (setAon_only ..).after (by decide) ?_)
    | (with_reducible refine (ledger_only ..).after (by decide) ?_)
    | (with_reducible refine (evRaise_only ..).after (by decide) ?_)
    | (with_reducible refine (monSettleAll_only ..).after (by decide) ?_)
    | (with_reducible refine (deviceFault_only ..).after (by decide) ?_)
    | (extract_lets +onlyGivenNames t1; clear_value t1)
    | extract_lets
    | split
    | with_reducible refine OnlyChanges.ite ?_ ?_
    | (fail_if_no_progress (with_reducible apply OnlyChanges.upd <;> first | exact Or.inr (by decide) | exact Or.inl (by with_reducible rfl) | skip)))

theorem tripJudge_only (x0) (s) : OnlyChanges [.regs, .lgr, .aon, .dpx, .drc, .lau] s (tripJudge x0 s) := by
  unfold tripJudge
  repeat (first
    | with_reducible exact OnlyChanges.refl _ _
    | with_reducible assumption
    | (with_reducible refine (setAon_only ..).after (by decide) ?_)
    | (with_reducible refine (tripActions_only ..).after (by decide) ?_)
    | (extract_lets +onlyGivenNames t1; with_reducible refine OnlyChanges.cut (t := t1) ?_ ?_ <;> [subst t1; (clear_value t1; intro)])
    | (extract_lets +onlyGivenNames t1; clear_value t1)
    | extract_lets
    | split
    | with_reducible refine OnlyChanges.ite ?_ ?_)

theorem runDeferred_only (s) : OnlyChanges [.regs, .latches, .outcomes, .dueWrites, .freeCtr, .hif, .stw, .irq, .mtx, .lgr, .aon, .clk, .ptp, .mp, .dpx, .obj, .geo, .pair, .cor, .sch, .fab, .drc, .keyed, .lau] s (runDeferred s) := by
  unfold runDeferred
  repeat (first
    | with_reducible exact OnlyChanges.refl _ _
    | with_reducible assumption
    | (with_reducible refine (warmAssert_only ..).after (by decide) ?_)
    | extract_lets
    | split
    | with_reducible refine OnlyChanges.ite ?_ ?_)

theorem coreFault_only (x0) (x1) (s) : OnlyChanges [.stw] s (coreFault x0 x1 s) := by
  unfold coreFault
  repeat (first
    | with_reducible exact OnlyChanges.refl _ _
    | with_reducible assumption
    | (with_reducible refine (setCore_only ..).after (by decide) ?_)
    | (extract_lets +onlyGivenNames t1; clear_value t1)
    | extract_lets
    | split
    | with_reducible refine OnlyChanges.ite ?_ ?_)

theorem writeError_only (x0) (x1) (x2) (s) : OnlyChanges [.regs, .stw, .lgr] s (writeError x0 x1 x2 s) := by
  unfold writeError
  repeat (first
    | with_reducible exact OnlyChanges.refl _ _
    | with_reducible assumption
    | (with_reducible refine (coreFault_only ..).after (by decide) ?_)
    | (with_reducible refine (mtxError_only ..).after (by decide) ?_))

theorem plainWrite_only (x0) (x1) (x2) (s) : OnlyChanges [.regs] s (plainWrite x0 x1 x2 s) := by
  unfold plainWrite
  repeat (first
    | with_reducible exact OnlyChanges.refl _ _
    | with_reducible assumption
    | (with_reducible refine (setReg_only ..).after (by decide) ?_)
    | split
    | with_reducible refine OnlyChanges.ite ?_ ?_)

theorem actWrite_only {m a v} {s t} (h : actWrite m a v s = some t) : OnlyChanges [.regs, .latches, .outcomes, .outs, .hostMem, .dueWrites, .freeCtr, .hif, .stw, .irq, .mtx, .lgr, .aon, .clk, .ptp, .mp, .dpx, .obj, .segUid, .geo, .pair, .cor, .sch, .fab, .drc, .keyed, .lau] s t := by
  unfold actWrite at h
  repeat' split at h
  all_goals
    first
    | obtain rfl := Option.some.inj h
    | (rw [Option.map_eq_some_iff] at h
       obtain ⟨n, -, rfl⟩ := h)
    | cases h
  all_goals try split
  all_goals first
    | with_reducible exact OnlyChanges.refl _ _
    | with_reducible exact OnlyChanges.mono (setAddress_only ..) (by decide)
    | with_reducible exact OnlyChanges.mono (abortWrite_only ..) (by decide)
    | with_reducible exact OnlyChanges.mono (wrstWrite_only ..) (by decide)
    | with_reducible exact OnlyChanges.mono (kickOp_only ..) (by decide)
    | with_reducible exact OnlyChanges.mono (bootWrite_only ..) (by decide)
    | with_reducible exact OnlyChanges.mono (evrCfgWrite_only ..) (by decide)
    | with_reducible exact OnlyChanges.mono (drcCtlWrite_only ..) (by decide)
    | with_reducible exact OnlyChanges.mono (armWriteOp_only ..) (by decide)
    | with_reducible exact OnlyChanges.mono (sqCfgWrite_only ..) (by decide)
    | with_reducible exact OnlyChanges.mono (cqCfgWrite_only ..) (by decide)
    | with_reducible exact OnlyChanges.mono (segPushOp_only ..) (by decide)

theorem irqWrite_only {m a v} {s t} (h : irqWrite m a v s = some t) : OnlyChanges [.regs, .irq, .lgr] s t := by
  unfold irqWrite at h
  repeat' split at h
  all_goals
    first
    | obtain rfl := Option.some.inj h
    | (rw [Option.map_eq_some_iff] at h
       obtain ⟨n, -, rfl⟩ := h)
    | cases h
  all_goals try split
  all_goals first
    | exact OnlyChanges.refl _ _
    | exact OnlyChanges.mono (msetOp_only ..) (by decide)
    | exact OnlyChanges.mono (swiClearOp_only ..) (by decide)
    | exact OnlyChanges.mono (swiSetOp_only ..) (by decide)
    | exact OnlyChanges.mono (eoiOp_only ..) (by decide)

theorem stwWrite_only {m a v} {s t} (h : stwWrite m a v s = some t) : OnlyChanges [.regs, .outcomes, .freeCtr, .stw, .lgr, .dpx, .fab, .lau] s t := by
  unfold stwWrite at h
  split at h
  · cases h
    split
    · exact OnlyChanges.ite (OnlyChanges.mono (heartbeatTurn_only ..) (by decide)) (OnlyChanges.refl _ _)
    · exact OnlyChanges.refl _ _
  · repeat' split at h
    · cases h
      exact (settleAlive_only ..).after (by decide) (OnlyChanges.mono (plainWrite_only ..) (by decide))
    all_goals first | (cases h; done) | (cases h; exact OnlyChanges.refl _ _)

theorem blockWrite_only {W : List Part} {f : Bool → Word → State → State} (h : ∀ b v t, OnlyChanges W t (f b v t))
    (hw : [.regs, .latches, .outcomes, .outs, .hostMem, .dueWrites, .freeCtr, .hif, .stw, .irq, .mtx, .lgr, .aon, .clk, .ptp, .mp, .dpx, .obj, .segUid, .geo, .pair, .cor, .sch, .fab, .drc, .keyed, .lau] ⊆ W) (m a v be) (s : State) : OnlyChanges W s (blockWrite f m a v be s) := by
  unfold blockWrite
  refine OnlyChanges.ite (OnlyChanges.refl _ _) ?_
  split
  · exact OnlyChanges.refl _ _
  · refine OnlyChanges.ite (h _ _ _) (OnlyChanges.ite (h _ _ _) ?_)
    split
    · exact OnlyChanges.mono (actWrite_only (by assumption)) (List.Subset.trans (by decide) hw)
    · exact OnlyChanges.mono (irqWrite_only (by assumption)) (List.Subset.trans (by decide) hw)
    · exact OnlyChanges.mono (stwWrite_only (by assumption)) (List.Subset.trans (by decide) hw)
    · exact OnlyChanges.mono (plainWrite_only ..) (List.Subset.trans (by decide) hw)

theorem sramLine_only (x0) (x1) (x2) (x3) (s) : OnlyChanges [.regs, .lgr, .aon] s (sramLine x0 x1 x2 x3 s).2.2 := by
  unfold sramLine
  repeat (first
    | with_reducible exact OnlyChanges.refl _ _
    | with_reducible assumption
    | (with_reducible refine (sramCe_only ..).after (by decide) ?_)
    | (with_reducible refine (sramUe_only ..).after (by decide) ?_)
    | (extract_lets +onlyGivenNames t1; with_reducible refine OnlyChanges.cut (t := t1) ?_ ?_ <;> [subst t1; (clear_value t1; intro)])
    | (extract_lets +onlyGivenNames t1; with_reducible refine OnlyChanges.cut (t := t1.2) ?_ ?_ <;> [subst t1; (clear_value t1; intro)])
    | (extract_lets +onlyGivenNames t1; clear_value t1)
    | extract_lets
    | split
    | (fail_if_no_progress (with_reducible apply OnlyChanges.upd <;> first | exact Or.inr (by decide) | exact Or.inl (by with_reducible rfl) | skip)))

theorem targetRead_only (m a symbols) (s) : OnlyChanges [.regs, .latches, .rdata, .freeCtr, .irq, .lgr, .aon, .ptp, .drc] s (targetRead m a symbols s).2.2 := by
  unfold targetRead
  extract_lets off r1 r2 d r3
  split
  · exact OnlyChanges.mono (readWord_only ..) (by decide)
  · exact OnlyChanges.mono (sramLine_only ..) (by decide)
  · exact OnlyChanges.mono (draw_only ..) (by decide)
  · exact OnlyChanges.refl _ _
  · exact OnlyChanges.mono (sramLine_only ..) (by decide)
  · exact OnlyChanges.mono (bestRead_only ..) (by decide)

theorem targetWrite_only (x0) (x1) (x2) (x3) (x4) (s) : OnlyChanges [.regs, .stw, .lgr, .sch, .drc] s (targetWrite x0 x1 x2 x3 x4 s).2 := by
  unfold targetWrite
  repeat (first
    | with_reducible exact OnlyChanges.refl _ _
    | with_reducible assumption
    | (with_reducible refine (shadowPut_only ..).after (by decide) ?_)
    | (with_reducible refine (sramPut_only ..).after (by decide) ?_)
    | (with_reducible refine (bestWrite_only ..).after (by decide) ?_)
    | (extract_lets +onlyGivenNames t1; clear_value t1)
    | extract_lets
    | split
    | with_reducible refine OnlyChanges.ite ?_ ?_)

theorem targetUe_only (x0) (x1) (s) : OnlyChanges [.regs, .lgr, .drc] s (targetUe x0 x1 s) := by
  unfold targetUe
  repeat (first
    | with_reducible exact OnlyChanges.refl _ _
    | with_reducible assumption
    | (with_reducible refine (sramUe_only ..).after (by decide) ?_)
    | (with_reducible refine (lineRead_only ..).after (by decide) ?_)
    | extract_lets
    | split)

theorem writeNow_only {W : List Part} {f : Bool → Word → State → State} (h : ∀ b v t, OnlyChanges W t (f b v t))
    (hw : [.regs, .latches, .outcomes, .outs, .hostMem, .dueWrites, .freeCtr, .hif, .stw, .irq, .mtx, .lgr, .aon, .clk, .ptp, .mp, .dpx, .obj, .segUid, .geo, .pair, .cor, .sch, .fab, .drc, .keyed, .lau] ⊆ W) (m a v be) (s : State) : OnlyChanges W s (writeNow f m a v be s) := by
  have he : ∀ c m a t, OnlyChanges W t (writeError c m a t) := fun _ _ _ _ => OnlyChanges.mono (writeError_only ..) (List.Subset.trans (by decide) hw)
  have ht : OnlyChanges W s (targetWrite m a v be [] s).2 := OnlyChanges.mono (targetWrite_only ..) (List.Subset.trans (by decide) hw)
  unfold writeNow
  refine OnlyChanges.ite (he ..) (OnlyChanges.ite (he ..) (OnlyChanges.ite ?_ ?_))
  · exact blockWrite_only h (List.Subset.trans (by decide) hw) ..
  · exact OnlyChanges.ite ht ((he ..).trans ht)

theorem portWrite_only (x0) (x1) (x2) (s) : OnlyChanges [.regs, .hif, .stw] s (portWrite x0 x1 x2 s) := by
  unfold portWrite
  repeat (first
    | with_reducible exact OnlyChanges.refl _ _
    | with_reducible assumption
    | (with_reducible refine (dspDone_only ..).after (by decide) ?_)
    | (with_reducible refine (dspFwd_only ..).after (by decide) ?_)
    | (with_reducible refine (dspAdd_only ..).after (by decide) ?_)
    | (with_reducible refine (plainWrite_only ..).after (by decide) ?_)
    | extract_lets
    | split
    | with_reducible refine OnlyChanges.ite ?_ ?_)

theorem cplWrite_only (c off v) (s) : OnlyChanges [.regs, .outcomes, .outs, .hostMem, .dueWrites, .freeCtr, .hif, .stw, .clk, .ptp, .dpx, .pair, .cor, .sch, .fab, .drc, .keyed, .lau] s (cplWrite c off v s) := by
  unfold cplWrite
  split
  · exact cplReport_only (fun _ _ => OnlyChanges.mono (withdrawTok_only ..) (by decide)) (by decide) ..
  · split
    · exact OnlyChanges.mono (plainWrite_only ..) (by decide)
    · exact OnlyChanges.refl _ _

theorem localWrite_only (x0) (x1) (x2) (x3) (s) : OnlyChanges [.regs, .outcomes, .outs, .hostMem, .dueWrites, .freeCtr, .hif, .stw, .clk, .ptp, .dpx, .pair, .cor, .sch, .fab, .drc, .keyed, .lau] s (localWrite x0 x1 x2 x3 s) := by
  unfold localWrite
  repeat (first
    | with_reducible exact OnlyChanges.refl _ _
    | with_reducible assumption
    | (with_reducible refine (portWrite_only ..).after (by decide) ?_)
    | (with_reducible refine (cplWrite_only ..).after (by decide) ?_)
    | (with_reducible refine (coreFault_only ..).after (by decide) ?_)
    | (extract_lets +onlyGivenNames t1; clear_value t1)
    | extract_lets
    | split
    | with_reducible refine OnlyChanges.ite ?_ ?_
    | (fail_if_no_progress (with_reducible apply OnlyChanges.upd <;> first | exact Or.inr (by decide) | exact Or.inl (by with_reducible rfl) | skip)))

theorem regWriteWith_only {W : List Part} {f : Bool → Word → State → State} (h : ∀ b v t, OnlyChanges W t (f b v t))
    (hw : [.regs, .latches, .outcomes, .outs, .hostMem, .dueWrites, .freeCtr, .hif, .stw, .irq, .mtx, .lgr, .aon, .clk, .ptp, .mp, .dpx, .obj, .segUid, .geo, .pair, .cor, .sch, .fab, .drc, .keyed, .lau] ⊆ W) (m a v be) (s : State) : OnlyChanges W s (regWriteWith f m a v be s) := by
  unfold regWriteWith
  split
  · exact OnlyChanges.ite (OnlyChanges.mono (localWrite_only ..) (List.Subset.trans (by decide) hw)) (OnlyChanges.refl _ _)
  · exact OnlyChanges.ite (OnlyChanges.mono (holdReq_only ..) (List.Subset.trans (by decide) hw))
      (writeNow_only h (List.Subset.trans (by decide) hw) ..)

theorem winTarget_only {W : List Part} {w : Master → Nat → Word → State → State} (h : ∀ m a v t, OnlyChanges W t (w m a v t))
    (hw : [.regs, .latches, .rdata, .freeCtr, .stw, .irq, .lgr, .aon, .ptp, .sch, .drc] ⊆ W) (svc tx data symbols) (s : State) : OnlyChanges W s (winTarget w svc tx data symbols s) := by
  have he : ∀ a b c d t, OnlyChanges W t (winEnd a b c d t) := fun _ _ _ _ _ => OnlyChanges.mono (winEnd_only ..) (List.Subset.trans (by decide) hw)
  have hm : ∀ a b t, OnlyChanges W t (mtxError a b t) := fun _ _ _ => OnlyChanges.mono (mtxError_only ..) (List.Subset.trans (by decide) hw)
  have hr : ∀ m a y, OnlyChanges W s (targetRead m a y s).2.2 := fun _ _ _ => OnlyChanges.mono (targetRead_only ..) (List.Subset.trans (by decide) hw)
  have ht : ∀ m a v b y, OnlyChanges W s (targetWrite m a v b y s).2 := fun _ _ _ _ _ => OnlyChanges.mono (targetWrite_only ..) (List.Subset.trans (by decide) hw)
  unfold winTarget
  extract_lets m r q
  refine OnlyChanges.ite (OnlyChanges.ite ((he ..).trans (h ..)) ((he ..).trans ?_)) ((he ..).trans ?_)
  · exact OnlyChanges.ite (ht ..) ((hm ..).trans (ht ..))
  · exact OnlyChanges.ite (hr ..) ((hm ..).trans (hr ..))

theorem winAccess_only {W : List Part} {w : Master → Nat → Word → State → State} (h : ∀ m a v t, OnlyChanges W t (w m a v t))
    (hw : [.regs, .latches, .rdata, .freeCtr, .stw, .irq, .mtx, .lgr, .aon, .ptp, .sch, .drc] ⊆ W) (svc tx data ans) (s : State) : OnlyChanges W s (winAccess w svc tx data ans s) := by
  have he : ∀ a b c d t, OnlyChanges W t (winEnd a b c d t) := fun _ _ _ _ _ => OnlyChanges.mono (winEnd_only ..) (List.Subset.trans (by decide) hw)
  have hm : ∀ a b t, OnlyChanges W t (mtxError a b t) := fun _ _ _ => OnlyChanges.mono (mtxError_only ..) (List.Subset.trans (by decide) hw)
  unfold winAccess
  refine OnlyChanges.ite ((he ..).trans (hm ..)) ?_
  split
  · exact winTarget_only h (List.Subset.trans (by decide) hw) ..
  · exact winTarget_only h (List.Subset.trans (by decide) hw) ..
  · exact (he ..).trans ((hm ..).trans (OnlyChanges.mono (targetUe_only ..) (List.Subset.trans (by decide) hw)))
  · exact OnlyChanges.mono (setMtx_only ..) (List.Subset.trans (by decide) hw)

theorem winGoWith_only {W : List Part} {w : Master → Nat → Word → State → State} (h : ∀ m a v t, OnlyChanges W t (w m a v t))
    (hw : [.regs, .latches, .rdata, .freeCtr, .stw, .irq, .mtx, .lgr, .aon, .ptp, .sch, .drc] ⊆ W) (svc ctl ans) (s : State) : OnlyChanges W s (winGoWith w svc ctl ans s) := by
  unfold winGoWith
  extract_lets a data tx busy
  have hb : OnlyChanges W s busy := OnlyChanges.mono (setReg_only ..) (List.Subset.trans (by decide) hw)
  refine OnlyChanges.ite (OnlyChanges.refl _ _) (OnlyChanges.ite (OnlyChanges.trans ?_ hb) (OnlyChanges.trans ?_ hb))
  · exact OnlyChanges.mono (holdReq_only ..) (List.Subset.trans (by decide) hw)
  · exact winAccess_only h (List.Subset.trans (by decide) hw) ..

theorem blockWriteNone_only (m a v) (s) : OnlyChanges [.regs, .latches, .outcomes, .outs, .hostMem, .dueWrites, .freeCtr, .hif, .stw, .irq, .mtx, .lgr, .aon, .clk, .ptp, .mp, .dpx, .obj, .segUid, .geo, .pair, .cor, .sch, .fab, .drc, .keyed, .lau] s (blockWriteNone m a v s) :=
  blockWrite_only (fun _ _ _ => OnlyChanges.refl _ _) (by decide) m a v 15 s

theorem blockWriteInner_only (m a v) (s) : OnlyChanges [.regs, .latches, .rdata, .outcomes, .outs, .hostMem, .dueWrites, .freeCtr, .hif, .stw, .irq, .mtx, .lgr, .aon, .clk, .ptp, .mp, .dpx, .obj, .segUid, .geo, .pair, .cor, .sch, .fab, .drc, .keyed, .lau] s (blockWriteInner m a v s) :=
  blockWrite_only (fun _ _ _ => winGoWith_only (fun _ _ _ _ => OnlyChanges.mono (blockWriteNone_only ..) (by decide)) (by decide) ..) (by decide) m a v 15 s

theorem winGo_only (svc ctl ans) (s) : OnlyChanges [.regs, .latches, .rdata, .outcomes, .outs, .hostMem, .dueWrites, .freeCtr, .hif, .stw, .irq, .mtx, .lgr, .aon, .clk, .ptp, .mp, .dpx, .obj, .segUid, .geo, .pair, .cor, .sch, .fab, .drc, .keyed, .lau] s (winGo svc ctl ans s) :=
  winGoWith_only (fun _ _ _ _ => OnlyChanges.mono (blockWriteInner_only ..) (by decide)) (by decide) svc ctl ans s

theorem regWrite_only (m a v be) (s) : OnlyChanges [.regs, .latches, .rdata, .outcomes, .outs, .hostMem, .dueWrites, .freeCtr, .hif, .stw, .irq, .mtx, .lgr, .aon, .clk, .ptp, .mp, .dpx, .obj, .segUid, .geo, .pair, .cor, .sch, .fab, .drc, .keyed, .lau] s (regWrite m a v be s) :=
  regWriteWith_only (fun _ _ _ => OnlyChanges.mono (winGo_only ..) (by decide)) (by decide) m a v be s

theorem performHeld_only (h) (s) : OnlyChanges [.regs, .latches, .rdata, .outcomes, .outs, .hostMem, .dueWrites, .freeCtr, .hif, .stw, .irq, .mtx, .lgr, .aon, .clk, .ptp, .mp, .dpx, .obj, .segUid, .geo, .pair, .cor, .sch, .fab, .drc, .keyed, .lau] s (performHeld h s) := by
  unfold performHeld
  split
  · exact OnlyChanges.ite (winAccess_only (fun _ _ _ _ => OnlyChanges.mono (blockWriteInner_only ..) (by decide)) (by decide) ..) (OnlyChanges.refl _ _)
  · exact writeNow_only (fun _ _ _ => OnlyChanges.mono (winGo_only ..) (by decide)) (by decide) ..

theorem releaseList_only (x0) (x1) (s) : OnlyChanges [.regs, .latches, .rdata, .outcomes, .outs, .hostMem, .dueWrites, .freeCtr, .hif, .stw, .irq, .mtx, .lgr, .aon, .clk, .ptp, .mp, .dpx, .obj, .segUid, .geo, .pair, .cor, .sch, .fab, .drc, .keyed, .lau] s (releaseList x0 x1 s) := by
  fun_induction releaseList x0 x1 s
  all_goals repeat (first
    | with_reducible exact OnlyChanges.refl _ _
    | with_reducible refine OnlyChanges.trans (by with_reducible assumption) ?_
    | with_reducible assumption
    | (with_reducible refine (setMtx_only ..).after (by decide) ?_)
    | (with_reducible refine (performHeld_only ..).after (by decide) ?_)
    | extract_lets
    | split
    | with_reducible refine OnlyChanges.ite ?_ ?_)

theorem releaseHeld_only (s) : OnlyChanges [.regs, .latches, .rdata, .outcomes, .outs, .hostMem, .dueWrites, .freeCtr, .hif, .stw, .irq, .mtx, .lgr, .aon, .clk, .ptp, .mp, .dpx, .obj, .segUid, .geo, .pair, .cor, .sch, .fab, .drc, .keyed, .lau] s (releaseHeld s) := by
  unfold releaseHeld
  repeat (first
    | with_reducible exact OnlyChanges.refl _ _
    | with_reducible assumption
    | (with_reducible refine (releaseList_only ..).after (by decide) ?_)
    | (with_reducible refine (setMtx_only ..).after (by decide) ?_)
    | extract_lets)

theorem svcWords_only (n a) (s) : OnlyChanges [.regs, .latches, .rdata, .freeCtr, .irq, .ptp, .drc] s (svcWords n a s).2 := by
  induction n generalizing a s with
  | zero => exact OnlyChanges.refl _ _
  | succ n ih =>
    refine (ih ..).trans ?_
    split
    · exact readWord_only ..
    · exact OnlyChanges.refl _ _

theorem svcStore_only (x0) (x1) (s) : OnlyChanges [.regs, .latches, .rdata, .outcomes, .outs, .hostMem, .dueWrites, .freeCtr, .hif, .stw, .irq, .mtx, .lgr, .aon, .clk, .ptp, .mp, .dpx, .obj, .segUid, .geo, .pair, .cor, .sch, .fab, .drc, .keyed, .lau] s (svcStore x0 x1 s) := by
  fun_induction svcStore x0 x1 s
  all_goals repeat (first
    | with_reducible exact OnlyChanges.refl _ _
    | with_reducible refine OnlyChanges.trans (by with_reducible assumption) ?_
    | with_reducible assumption
    | (with_reducible refine (regWrite_only ..).after (by decide) ?_)
    | split
    | with_reducible refine OnlyChanges.ite ?_ ?_)

theorem applyTable_only (x0) (s) : OnlyChanges [.regs, .lgr, .obj, .prefilter, .geo, .pair] s (applyTable x0 s) := by
  unfold applyTable
  repeat (first
    | with_reducible exact OnlyChanges.refl _ _
    | with_reducible assumption
    | (with_reducible refine (applyMap_only ..).after (by decide) ?_)
    | (with_reducible refine (applyCond_only ..).after (by decide) ?_)
    | (with_reducible refine (applyCtl_only ..).after (by decide) ?_)
    | (with_reducible refine (applyCoarse_only ..).after (by decide) ?_)
    | (with_reducible refine (applyBankSwitch_only ..).after (by decide) ?_)
    | (with_reducible refine (switchSinc_only ..).after (by decide) ?_)
    | (with_reducible refine (applyLaws_only ..).after (by decide) ?_)
    | (extract_lets +onlyGivenNames t1; clear_value t1)
    | extract_lets
    | split
    | (fail_if_no_progress (with_reducible apply OnlyChanges.upd <;> first | exact Or.inr (by decide) | exact Or.inl (by with_reducible rfl) | skip)))

theorem applyStage_only (x0) (s) : OnlyChanges [.mp, .obj, .cor, .drc] s (applyStage x0 s) := by
  unfold applyStage
  repeat (first
    | with_reducible exact OnlyChanges.refl _ _
    | with_reducible assumption
    | (with_reducible refine (applyKernel_only ..).after (by decide) ?_)
    | (with_reducible refine (applySluice_only ..).after (by decide) ?_)
    | (with_reducible refine (applyMeter_only ..).after (by decide) ?_)
    | (with_reducible refine (clearOut_only ..).after (by decide) ?_)
    | (with_reducible refine (applyRxMap_only ..).after (by decide) ?_)
    | extract_lets
    | split
    | with_reducible refine OnlyChanges.foldl_trans (fun _ _ => ?_) ?_ _)

theorem applyAll_only (x0) (s) : OnlyChanges [.regs, .lgr, .mp, .obj, .prefilter, .geo, .pair, .cor, .drc] s (applyAll x0 s) := by
  fun_induction applyAll x0 s
  all_goals repeat (first
    | with_reducible exact OnlyChanges.refl _ _
    | with_reducible refine OnlyChanges.trans (by with_reducible assumption) ?_
    | with_reducible assumption
    | (with_reducible refine (applyStage_only ..).after (by decide) ?_)
    | (with_reducible refine (applyTable_only ..).after (by decide) ?_)
    | split)

theorem takeStage_only (x0) (x1) (s) : OnlyChanges [.regs, .lgr, .mp, .obj, .prefilter, .geo, .pair, .cor, .drc, .keyed] s (takeStage x0 x1 s) := by
  unfold takeStage
  repeat (first
    | with_reducible exact OnlyChanges.refl _ _
    | with_reducible assumption
    | (with_reducible refine (dropKeyed_only ..).after (by decide) ?_)
    | (with_reducible refine (applyAll_only ..).after (by decide) ?_))

theorem clearAll_only (x0) (s) : OnlyChanges [.obj] s (clearAll x0 s) := by
  fun_induction clearAll x0 s
  all_goals repeat (first
    | with_reducible exact OnlyChanges.refl _ _
    | with_reducible refine OnlyChanges.trans (by with_reducible assumption) ?_
    | with_reducible assumption
    | (with_reducible refine (clearSegs_only ..).after (by decide) ?_)
    | extract_lets
    | split
    | with_reducible refine OnlyChanges.foldl_trans (fun _ _ => ?_) ?_ _)

theorem cutoff_only (x0) (s) : OnlyChanges [.regs, .outcomes, .lgr, .clk, .mp, .obj, .prefilter, .geo, .pair, .cor, .drc, .keyed] s (cutoff x0 s) := by
  unfold cutoff
  repeat (first
    | with_reducible exact OnlyChanges.refl _ _
    | with_reducible assumption
    | (with_reducible refine (commitKeyed_only ..).after (by decide) ?_)
    | (with_reducible refine (issueEnd_only ..).after (by decide) ?_)
    | (with_reducible refine (clearAll_only ..).after (by decide) ?_)
    | (with_reducible refine (cutoffSegs_only ..).after (by decide) ?_)
    | (with_reducible refine (takeStage_only ..).after (by decide) ?_)
    | (with_reducible refine (takeSnap_only ..).after (by decide) ?_)
    | (with_reducible refine (setClk_only ..).after (by decide) ?_)
    | extract_lets)

theorem cutoffOnce_only (s) : OnlyChanges [.regs, .outcomes, .lgr, .clk, .mp, .obj, .prefilter, .geo, .pair, .cor, .drc, .keyed] s (cutoffOnce s) := by
  unfold cutoffOnce
  repeat (first
    | with_reducible exact OnlyChanges.refl _ _
    | with_reducible assumption
    | (with_reducible refine (cutoff_only ..).after (by decide) ?_)
    | split
    | with_reducible refine OnlyChanges.ite ?_ ?_)

theorem sendTicks_only (x0) (x1) (s) : OnlyChanges [.outs, .freeCtr] s (sendTicks x0 x1 s) := by
  fun_induction sendTicks x0 x1 s
  all_goals repeat (first
    | with_reducible exact OnlyChanges.refl _ _
    | with_reducible refine OnlyChanges.trans (by with_reducible assumption) ?_
    | with_reducible assumption
    | (with_reducible refine (emit_only ..).after (by decide) ?_)
    | (with_reducible refine (draw_only ..).after (by decide) ?_)
    | split
    | with_reducible refine OnlyChanges.ite ?_ ?_)

theorem meterTurn_only (x0) (s) : OnlyChanges [.regs, .cor] s (meterTurn x0 s) := by
  unfold meterTurn
  repeat (first
    | with_reducible exact OnlyChanges.refl _ _
    | with_reducible assumption
    | (with_reducible refine (meterBoundary_only ..).after (by decide) ?_)
    | split
    | with_reducible refine OnlyChanges.ite ?_ ?_)

theorem lanesBoundary_only (s) : OnlyChanges [.cor, .drc] s (lanesBoundary s) := by
  unfold lanesBoundary
  repeat (first
    | with_reducible exact OnlyChanges.refl _ _
    | with_reducible assumption
    | (with_reducible refine (assignLanes_only ..).after (by decide) ?_))

theorem keyedTurn_only (x0) (s) : OnlyChanges [.regs, .outcomes, .lgr, .ptp, .mp, .obj, .prefilter, .geo, .pair, .cor, .sch, .fab, .drc, .keyed, .lau] s (keyedTurn x0 s) := by
  unfold keyedTurn
  repeat (first
    | with_reducible exact OnlyChanges.refl _ _
    | with_reducible assumption
    | (with_reducible refine (lanesBoundary_only ..).after (by decide) ?_)
    | (with_reducible refine (switchBoundary_only ..).after (by decide) ?_)
    | (with_reducible refine (epochBoundary_only ..).after (by decide) ?_)
    | (with_reducible refine (armedBoundary_only ..).after (by decide) ?_)
    | (with_reducible refine (swapBoundary_only ..).after (by decide) ?_)
    | (with_reducible refine (takeStage_only ..).after (by decide) ?_)
    | (with_reducible refine (commitKeyed_only ..).after (by decide) ?_)
    | extract_lets
    | split
    | with_reducible refine OnlyChanges.ite ?_ ?_)

theorem closeTurn_only (x0) (s) : OnlyChanges [.regs, .lgr, .obj, .fab] s (closeTurn x0 s) := by
  unfold closeTurn
  repeat (first
    | with_reducible exact OnlyChanges.refl _ _
    | with_reducible assumption
    | (with_reducible refine (fabricClose_only ..).after (by decide) ?_)
    | (with_reducible refine (closeTranche_only ..).after (by decide) ?_)
    | split
    | with_reducible refine OnlyChanges.ite ?_ ?_)

theorem passTurn_only (x0) (s) : OnlyChanges [.regs, .geo, .sch] s (passTurn x0 s) := by
  unfold passTurn
  repeat (first
    | with_reducible exact OnlyChanges.refl _ _
    | with_reducible assumption
    | (with_reducible refine (startPass_only ..).after (by decide) ?_)
    | (with_reducible refine (endPass_only ..).after (by decide) ?_)
    | split
    | with_reducible refine OnlyChanges.ite ?_ ?_)

theorem renderTurn_only (x0) (s) : OnlyChanges [.regs, .lgr, .obj, .geo, .pair, .cor, .sch, .drc] s (renderTurn x0 s) := by
  unfold renderTurn
  repeat (first
    | with_reducible exact OnlyChanges.refl _ _
    | with_reducible assumption
    | (with_reducible refine (newReservations_only ..).after (by decide) ?_)
    | (with_reducible refine (silenceBoundary_only ..).after (by decide) ?_)
    | (with_reducible refine (passTurn_only ..).after (by decide) ?_)
    | (with_reducible refine (pairBoundary_only ..).after (by decide) ?_)
    | (with_reducible refine (setPair_only ..).after (by decide) ?_)
    | (with_reducible refine (tailBoundary_only ..).after (by decide) ?_)
    | (with_reducible refine (cisternBoundary_only ..).after (by decide) ?_)
    | extract_lets)

theorem outerTurn_only (x0) (s) : OnlyChanges [.regs, .outcomes, .outs, .hostMem, .dueWrites, .freeCtr, .stw, .lgr, .clk, .mp, .dpx, .obj, .fab, .drc, .lau] s (outerTurn x0 s) := by
  unfold outerTurn
  repeat (first
    | with_reducible exact OnlyChanges.refl _ _
    | with_reducible assumption
    | (with_reducible refine (quietBoundary_only ..).after (by decide) ?_)
    | (with_reducible refine (sendTicks_only ..).after (by decide) ?_)
    | (with_reducible refine (handAll_only ..).after (by decide) ?_)
    | (with_reducible refine (remoteReturns_only ..).after (by decide) ?_)
    | (with_reducible refine (audioBoundary_only ..).after (by decide) ?_)
    | (with_reducible refine (trigBoundary_only ..).after (by decide) ?_)
    | (with_reducible refine (mapCapture_only ..).after (by decide) ?_)
    | (with_reducible refine (setDpx_only ..).after (by decide) ?_)
    | (with_reducible refine (sendDpx_only ..).after (by decide) ?_)
    | (with_reducible refine (strobeBoundary_only ..).after (by decide) ?_)
    | (with_reducible refine (dpxBoundary_only ..).after (by decide) ?_)
    | (extract_lets +onlyGivenNames t1; with_reducible refine OnlyChanges.cut (t := t1) ?_ ?_ <;> [subst t1; (clear_value t1; intro)])
    | extract_lets
    | (with_reducible refine OnlyChanges.trans (digestBoundary_only (fun _ _ => OnlyChanges.mono (sendDpx_only ..) (by decide)) (by decide) _) ?_))

theorem commitDeadlines_only (s) : OnlyChanges [.regs, .outcomes, .hif] s (commitDeadlines s) := by
  unfold commitDeadlines
  repeat (first
    | with_reducible exact OnlyChanges.refl _ _
    | with_reducible assumption
    | (with_reducible refine (commitToks_only ..).after (by decide) ?_))

theorem boundary_only (x0) (x1) (s) : OnlyChanges [.regs, .outcomes, .outs, .hostMem, .dueWrites, .freeCtr, .hif, .stw, .lgr, .clk, .ptp, .mp, .dpx, .obj, .prefilter, .geo, .pair, .cor, .sch, .fab, .drc, .keyed, .lau] s (boundary x0 x1 s) := by
  unfold boundary
  repeat (first
    | with_reducible exact OnlyChanges.refl _ _
    | with_reducible assumption
    | (with_reducible refine (cutoffOnce_only ..).after (by decide) ?_)
    | (with_reducible refine (settleMerge_only ..).after (by decide) ?_)
    | (with_reducible refine (meterTurn_only ..).after (by decide) ?_)
    | (with_reducible refine (guardFaults_only ..).after (by decide) ?_)
    | (with_reducible refine (commitDeadlines_only ..).after (by decide) ?_)
    | (with_reducible refine (keyedTurn_only ..).after (by decide) ?_)
    | (with_reducible refine (setClk_only ..).after (by decide) ?_)
    | (with_reducible refine (outerTurn_only ..).after (by decide) ?_)
    | (with_reducible refine (renderTurn_only ..).after (by decide) ?_)
    | (with_reducible refine (closeTurn_only ..).after (by decide) ?_)
    | extract_lets)

theorem monSlips_only (x0) (s) : OnlyChanges [.regs, .lau] s (monSlips x0 s) := by
  fun_induction monSlips x0 s
  all_goals repeat (first
    | with_reducible exact OnlyChanges.refl _ _
    | with_reducible refine OnlyChanges.trans (by with_reducible assumption) ?_
    | with_reducible assumption
    | (with_reducible refine (evRaise_only ..).after (by decide) ?_)
    | (with_reducible refine (busCount_only ..).after (by decide) ?_)
    | split)

theorem tcmErrs_only (x0) (s) : OnlyChanges [.regs, .stw, .lgr] s (tcmErrs x0 s) := by
  fun_induction tcmErrs x0 s
  all_goals repeat (first
    | with_reducible exact OnlyChanges.refl _ _
    | with_reducible refine OnlyChanges.trans (by with_reducible assumption) ?_
    | with_reducible assumption
    | (with_reducible refine (sramUe_only ..).after (by decide) ?_)
    | (with_reducible refine (setCore_only ..).after (by decide) ?_)
    | (with_reducible refine (ledger_only ..).after (by decide) ?_)
    | (extract_lets +onlyGivenNames t1; clear_value t1)
    | extract_lets
    | split
    | with_reducible refine OnlyChanges.ite ?_ ?_)

theorem lostLines_only (x0) (s) : OnlyChanges [.regs, .lgr, .dpx, .lau] s (lostLines x0 s) := by
  fun_induction lostLines x0 s
  all_goals repeat (first
    | with_reducible exact OnlyChanges.refl _ _
    | with_reducible refine OnlyChanges.trans (by with_reducible assumption) ?_
    | with_reducible assumption
    | (with_reducible refine (deviceFault_only ..).after (by decide) ?_)
    | (with_reducible refine (sramUe_only ..).after (by decide) ?_)
    | split
    | with_reducible refine OnlyChanges.ite ?_ ?_)

theorem observe_only (x0) (s) : OnlyChanges [.regs, .stw, .lgr, .aon, .dpx, .drc, .lau] s (observe x0 s) := by
  unfold observe
  repeat (first
    | with_reducible exact OnlyChanges.refl _ _
    | with_reducible assumption
    | (with_reducible refine (lostLines_only ..).after (by decide) ?_)
    | (with_reducible refine (tcmErrs_only ..).after (by decide) ?_)
    | (with_reducible refine (refillErrs_only ..).after (by decide) ?_)
    | (with_reducible refine (monSlips_only ..).after (by decide) ?_)
    | (with_reducible refine (sramCes_only ..).after (by decide) ?_))

theorem idle_only (s) : OnlyChanges [.lgr, .ptp, .drc] s (idle s) := by
  unfold idle
  repeat (first
    | with_reducible exact OnlyChanges.refl _ _
    | with_reducible assumption
    | (extract_lets +onlyGivenNames t1; clear_value t1)
    | extract_lets
    | split
    | with_reducible refine OnlyChanges.ite ?_ ?_
    | (fail_if_no_progress (with_reducible apply OnlyChanges.upd <;> first | exact Or.inr (by decide) | exact Or.inl (by with_reducible rfl) | skip)))

theorem bankWrite_only {W : List Part} {f : Nat → State → State} (h : ∀ e t, OnlyChanges W t (f e t)) (hw : [.outcomes] ⊆ W) (d) (s : State) :
    OnlyChanges W s (bankWrite d s f) := by
  unfold bankWrite
  exact OnlyChanges.ite (OnlyChanges.mono (finish_only ..) hw) (OnlyChanges.ite (OnlyChanges.mono (finish_only ..) hw) ((OnlyChanges.mono (finish_only ..) hw).trans (h ..)))

theorem cancelArmed_only {W : List Part} {f : Armed → State → State} (h : ∀ e t, OnlyChanges W t (f e t)) (hw : [.outcomes] ⊆ W) (d k) (s : State) :
    OnlyChanges W s (cancelArmed d k f s) := by
  unfold cancelArmed
  split
  · exact OnlyChanges.mono (finish_only ..) hw
  · exact OnlyChanges.ite ((OnlyChanges.mono (finish_only ..) hw).trans (h ..)) (OnlyChanges.mono (finish_only ..) hw)

theorem loadTable_only {W : List Part} {f : List (List Byte) → State → State} (h : ∀ e t, OnlyChanges W t (f e t)) (hw : [.regs, .outcomes] ⊆ W) (d a b c ok) (s : State) :
    OnlyChanges W s (loadTable d a b c ok f s) := by
  have hf : ∀ x t, OnlyChanges W t (finish d x t) := fun _ _ => OnlyChanges.mono (V := [.regs, .outcomes]) (OnlyChanges.mono (finish_only ..) (by decide)) hw
  unfold loadTable
  split
  · exact OnlyChanges.mono (badBlock_only ..) hw
  · extract_lets
    exact OnlyChanges.ite (OnlyChanges.mono (V := [.regs, .outcomes]) (OnlyChanges.mono (badField_only ..) (by decide)) hw) (OnlyChanges.ite (hf ..) ((hf ..).trans (h ..)))


theorem darkState_only (s : State) : OnlyChanges [.regs, .latches, .dueWrites, .hif, .stw, .irq, .mtx, .lgr, .aon, .clk, .ptp, .mp, .dpx, .obj, .prefilter, .segUid, .alignSet, .geo, .pair, .cor, .sch, .fab, .drc, .keyed, .keySeq, .lau] s (darkState s) := ⟨fun p hp => by cases p <;> first | rfl | exact absurd (by decide) hp⟩


theorem voidMoved_only (was o) (s) : OnlyChanges [.obj] s (voidMoved was o s) := by
  unfold voidMoved
  exact setObj_only ..

end Sys2Proof.Machine
end

