-- ==== Sys2Proof/Laws/Operands.lean ====
section
/-! SUPPORT. The payload checks: a payload whose unused bytes are zero and whose fields are within their limits is not refused. -/

namespace Sys2Proof.Machine

theorem firstReserved_none {d : Desc} {used : List (Nat × Nat)} (h : Unused d used) : firstReserved used d.payload = none := by
  unfold firstReserved
  rw [Option.map_eq_none_iff, List.find?_eq_none]
  intro e he
  have hx := List.mem_zipIdx' he
  have hlt : e.2 < d.payload.length := by simpa using hx.1
  have hv : d.payload.getD e.2 0 = e.1 := by
    rw [List.getD_eq_getElem _ _ hlt]; exact hx.2.symm
  rcases h e.2 hlt with h0 | ⟨u, hu, h1, h2⟩
  · rw [hv] at h0; simp [h0]
  · simp only [Bool.and_eq_true, decide_eq_true_eq, Bool.not_eq_true', not_and, Bool.not_eq_false, List.any_eq_true]
    intro _
    exact ⟨u, hu, h1, h2⟩

theorem firstBad_none {d : Desc} {used : List (Nat × Nat)} {limits : List (Nat × Bool)} (h : Unused d used)
    (hl : limits.all (fun l => l.2) = true) : firstBad d used limits = none := by
  have : limits.filter (fun l => !l.2) = [] := by
    rw [List.filter_eq_nil_iff]
    intro l hm
    simp [List.all_eq_true.mp hl l hm]
  simp [firstBad, this, firstReserved_none h, minOf]

/-- A legal payload runs the command. -/
theorem checked_legal {d : Desc} {used : List (Nat × Nat)} {limits : List (Nat × Bool)} {s k : State} (h : Unused d used)
    (hl : limits.all (fun l => l.2) = true) : checked d used limits s k = k := by
  simp [checked, firstBad_none h hl]

theorem minOf_some (l : List Nat) (h : l ≠ []) : ∃ x ∈ l, minOf l = some x ∧ ∀ y ∈ l, x ≤ y := by
  induction l with
  | nil => exact absurd rfl h
  | cons a l ih =>
    cases l with
    | nil => exact ⟨a, by simp, by simp [minOf], by simp⟩
    | cons b l =>
      obtain ⟨x, hx, hm, hle⟩ := ih (by simp)
      refine ⟨min a x, ?_, ?_, ?_⟩
      · rcases Nat.le_total a x with hax | hax
        · rw [Nat.min_eq_left hax]; exact List.mem_cons_self
        · rw [Nat.min_eq_right hax]; exact List.mem_cons_of_mem _ hx
      · rw [minOf, hm]
      · intro y hy
        rcases List.mem_cons.mp hy with hy | hy
        · subst hy; exact Nat.min_le_left _ _
        · exact le_trans (Nat.min_le_right _ _) (hle y hy)

/-- A field out of its limit is refused with BAD_DESCRIPTOR, at an offset no higher than the field's, and nothing else happens. -/
theorem checked_refuses {d : Desc} {used : List (Nat × Nat)} {limits : List (Nat × Bool)} {s k : State} {off : Nat}
    (h : (off, false) ∈ limits) : ∃ x ≤ off, checked d used limits s k = badField d x s := by
  have hm : off ∈ ((limits.filter (fun l => !l.2)).map Prod.fst) ++ (firstReserved used d.payload).toList := by
    simp only [List.mem_append, List.mem_map, List.mem_filter]
    exact Or.inl ⟨(off, false), ⟨h, by simp⟩, rfl⟩
  obtain ⟨x, _, hx, hle⟩ := minOf_some _ (List.ne_nil_of_mem hm)
  exact ⟨x, hle off hm, by simp [checked, firstBad, hx]⟩

/-- A write to host memory, or its wait, as one statement. -/
theorem hostWrite_writes (a : Nat) (bs : List Byte) (s : State) : WritesHost a bs s (hostWrite a bs s) := by
  constructor <;> intro h <;> simp [hostWrite, h]

end Sys2Proof.Machine
end

