-- ==== Sys2Proof/Laws/Sparse.lean ====
section
/-! SUPPORT. The sparse stores: reads after writes, and every store operation keeps the canonical form. -/

namespace Sys2Proof.Machine

variable {α : Type}

/-! ## Order -/

theorem smSorted_mono {lo lo' : Nat} {m : SMap α} (h : smSorted lo' m = true) (hl : lo ≤ lo') : smSorted lo m = true := by
  cases m with
  | nil => rfl
  | cons e m =>
    simp only [smSorted, Bool.and_eq_true, decide_eq_true_eq] at h ⊢
    exact ⟨by omega, h.2⟩

theorem smFind_below {lo k : Nat} {m : SMap α} (h : smSorted lo m = true) (hk : k < lo) : smFind m k = none := by
  cases m with
  | nil => rfl
  | cons e m =>
    simp only [smSorted, Bool.and_eq_true, decide_eq_true_eq] at h
    simp only [smFind]
    rw [if_neg (by omega), if_pos (by omega)]

theorem smSorted_put {lo k : Nat} {m : SMap α} (v : α) (h : smSorted lo m = true) (hk : lo ≤ k) : smSorted lo (smPut m k v) = true := by
  induction m generalizing lo with
  | nil => simp [smPut, smSorted, hk]
  | cons e m ih =>
    simp only [smSorted, Bool.and_eq_true, decide_eq_true_eq] at h
    simp only [smPut]
    split
    · next he => subst he; simp [smSorted, hk, h.2]
    · split
      · simp only [smSorted, Bool.and_eq_true, decide_eq_true_eq]; exact ⟨hk, by omega, h.2⟩
      · simp only [smSorted, Bool.and_eq_true, decide_eq_true_eq]; exact ⟨h.1, ih h.2 (by omega)⟩

theorem smSorted_drop {lo k : Nat} {m : SMap α} (h : smSorted lo m = true) : smSorted lo (smDrop m k) = true := by
  induction m generalizing lo with
  | nil => rfl
  | cons e m ih =>
    simp only [smSorted, Bool.and_eq_true, decide_eq_true_eq] at h
    simp only [smDrop]
    split
    · exact smSorted_mono h.2 (by omega)
    · split
      · simp [smSorted, h.1, h.2]
      · simp [smSorted, h.1, ih h.2]

theorem smSorted_filter {lo : Nat} {m : SMap α} (p : Nat × α → Bool) (h : smSorted lo m = true) : smSorted lo (m.filter p) = true := by
  induction m generalizing lo with
  | nil => rfl
  | cons e m ih =>
    simp only [smSorted, Bool.and_eq_true, decide_eq_true_eq] at h
    simp only [List.filter]
    split
    · simp [smSorted, h.1, ih h.2]
    · exact smSorted_mono (ih h.2) (by omega)

/-! ## Reads after writes -/

@[simp] theorem smFind_put_self (m : SMap α) (k : Nat) (v : α) : smFind (smPut m k v) k = some v := by
  induction m with
  | nil => simp [smPut, smFind]
  | cons e m ih =>
    simp only [smPut]
    split
    · simp [smFind]
    · split
      · simp [smFind]
      · next h1 h2 => simp [smFind, h1, h2, ih]

theorem smFind_put_ne (m : SMap α) {j k : Nat} (v : α) (h : j ≠ k) : smFind (smPut m k v) j = smFind m j := by
  induction m with
  | nil => simp [smPut, smFind, h]
  | cons e m ih =>
    simp only [smPut]
    split
    · next he => subst he; simp [smFind, h]
    · split
      · next h1 h2 =>
        simp only [smFind, h, if_false]
        split
        · rw [if_neg (by omega), if_pos (by omega)]
        · rfl
      · simp [smFind, ih]

theorem smFind_drop_self {lo k : Nat} {m : SMap α} (h : smSorted lo m = true) : smFind (smDrop m k) k = none := by
  induction m generalizing lo with
  | nil => rfl
  | cons e m ih =>
    simp only [smSorted, Bool.and_eq_true, decide_eq_true_eq] at h
    simp only [smDrop]
    split
    · exact smFind_below h.2 (by omega)
    · split
      · next h1 h2 => simp [smFind, h1, h2]
      · next h1 h2 => simp [smFind, h1, h2, ih h.2]

theorem smFind_drop_ne {lo j k : Nat} {m : SMap α} (h : smSorted lo m = true) (hj : j ≠ k) : smFind (smDrop m k) j = smFind m j := by
  induction m generalizing lo with
  | nil => rfl
  | cons e m ih =>
    simp only [smSorted, Bool.and_eq_true, decide_eq_true_eq] at h
    simp only [smDrop]
    split
    · next he =>
      subst he
      simp only [smFind, hj, if_false]
      split
      · exact smFind_below h.2 (by omega)
      · rfl
    · split
      · rfl
      · simp [smFind, ih h.2]

theorem smGet_set_self [DecidableEq α] {d : α} {m : SMap α} (h : smSorted 0 m = true) (k : Nat) (v : α) : smGet d (smSet d m k v) k = v := by
  unfold smGet smSet
  split
  · next hv => simp [smFind_drop_self h, hv]
  · simp

theorem smGet_set_ne [DecidableEq α] {d : α} {m : SMap α} (h : smSorted 0 m = true) {j k : Nat} (v : α) (hj : j ≠ k) :
    smGet d (smSet d m k v) j = smGet d m j := by
  unfold smGet smSet
  split
  · rw [smFind_drop_ne h hj]
  · rw [smFind_put_ne m v hj]

/-! ## The canonical form is kept -/

theorem mem_smPut {m : SMap α} {k : Nat} {v : α} {e : Nat × α} (h : e ∈ smPut m k v) : e = (k, v) ∨ e ∈ m := by
  induction m with
  | nil => simp [smPut] at h; exact Or.inl h
  | cons x m ih =>
    simp only [smPut] at h
    split at h
    · simp only [List.mem_cons] at h ⊢; tauto
    · split at h
      · simp only [List.mem_cons] at h ⊢; tauto
      · simp only [List.mem_cons] at h ⊢
        rcases h with h | h
        · exact Or.inr (Or.inl h)
        · rcases ih h with h | h <;> tauto

theorem mem_smDrop {m : SMap α} {k : Nat} {e : Nat × α} (h : e ∈ smDrop m k) : e ∈ m := by
  induction m with
  | nil => simpa [smDrop] using h
  | cons x m ih =>
    simp only [smDrop] at h
    split at h
    · exact List.mem_cons_of_mem _ h
    · split at h
      · exact h
      · simp only [List.mem_cons] at h ⊢
        rcases h with h | h
        · exact Or.inl h
        · exact Or.inr (ih h)

theorem smWf_set [DecidableEq α] {d : α} {m : SMap α} (h : smWf d m = true) (k : Nat) (v : α) : smWf d (smSet d m k v) = true := by
  simp only [smWf, Bool.and_eq_true, List.all_eq_true, decide_eq_true_eq] at h ⊢
  unfold smSet
  split
  · exact ⟨smSorted_drop h.1, fun e he => h.2 e (mem_smDrop he)⟩
  · next hv =>
    refine ⟨smSorted_put v h.1 (Nat.zero_le k), fun e he => ?_⟩
    rcases mem_smPut he with he | he
    · subst he; exact hv
    · exact h.2 e he

theorem smWf_mod [DecidableEq α] {d : α} {m : SMap α} (h : smWf d m = true) (k : Nat) (f : α → α) : smWf d (smMod d m k f) = true :=
  smWf_set h k _

theorem smWf_modAll [DecidableEq α] {d : α} (ks : List Nat) (f : Nat → α → α) {m : SMap α} (h : smWf d m = true) :
    smWf d (smModAll d m ks f) = true := by
  induction ks generalizing m with
  | nil => exact h
  | cons k ks ih => exact ih (smWf_mod h k (f k))

theorem smWf_filter [DecidableEq α] {d : α} {m : SMap α} (p : Nat × α → Bool) (h : smWf d m = true) : smWf d (m.filter p) = true := by
  simp only [smWf, Bool.and_eq_true, List.all_eq_true, decide_eq_true_eq] at h ⊢
  exact ⟨smSorted_filter p h.1, fun e he => h.2 e (List.mem_filter.mp he).1⟩

theorem smWf_clearRange [DecidableEq α] {d : α} {m : SMap α} (a n : Nat) (h : smWf d m = true) : smWf d (smClearRange m a n) = true :=
  smWf_filter _ h

theorem smSorted_append {lo mid : Nat} {m n : SMap α} (h : smSorted lo m = true) (hb : ∀ e ∈ m, e.1 < mid) (hm : lo ≤ mid)
    (h2 : smSorted mid n = true) : smSorted lo (m ++ n) = true := by
  induction m generalizing lo with
  | nil => exact smSorted_mono h2 hm
  | cons e m ih =>
    simp only [smSorted, Bool.and_eq_true, decide_eq_true_eq, List.cons_append] at h ⊢
    have he : e.1 < mid := hb e List.mem_cons_self
    exact ⟨h.1, ih h.2 (fun x hx => hb x (List.mem_cons_of_mem _ hx)) (by omega)⟩

theorem smUpTo_spec {lo k : Nat} {m : SMap α} (h : smSorted lo m = true) :
    smSorted lo (smUpTo m k) = true ∧ (∀ e ∈ smUpTo m k, e.1 < k ∧ e ∈ m) := by
  induction m generalizing lo with
  | nil => simp [smUpTo, smSorted]
  | cons e m ih =>
    simp only [smSorted, Bool.and_eq_true, decide_eq_true_eq] at h
    simp only [smUpTo]
    split
    · next hk =>
      obtain ⟨h1, h2⟩ := ih h.2
      refine ⟨by simp [smSorted, h.1, h1], fun x hx => ?_⟩
      simp only [List.mem_cons] at hx
      rcases hx with hx | hx
      · subst hx; exact ⟨hk, by simp⟩
      · exact ⟨(h2 x hx).1, List.mem_cons_of_mem _ (h2 x hx).2⟩
    · simp [smSorted]

theorem smFrom_spec {lo k : Nat} {m : SMap α} (h : smSorted lo m = true) :
    smSorted k (smFrom m k) = true ∧ (∀ e ∈ smFrom m k, e ∈ m) := by
  induction m generalizing lo with
  | nil => simp [smFrom, smSorted]
  | cons e m ih =>
    simp only [smSorted, Bool.and_eq_true, decide_eq_true_eq] at h
    simp only [smFrom]
    split
    · obtain ⟨h1, h2⟩ := ih h.2
      exact ⟨h1, fun x hx => List.mem_cons_of_mem _ (h2 x hx)⟩
    · next hk => exact ⟨by simp only [smSorted, Bool.and_eq_true, decide_eq_true_eq]; exact ⟨by omega, h.2⟩, fun x hx => hx⟩

theorem smListBytes_spec (a : Nat) (bs : List Byte) :
    smSorted a (smListBytes a bs) = true ∧ (∀ e ∈ smListBytes a bs, e.1 < a + bs.length ∧ e.2 ≠ 0) := by
  induction bs generalizing a with
  | nil => simp [smListBytes, smSorted]
  | cons b bs ih =>
    obtain ⟨h1, h2⟩ := ih (a + 1)
    simp only [smListBytes]
    split
    · refine ⟨smSorted_mono h1 (by omega), fun e he => ⟨?_, (h2 e he).2⟩⟩
      have := (h2 e he).1
      simp only [List.length_cons]; omega
    · next hb =>
      refine ⟨by simp [smSorted, h1], fun e he => ?_⟩
      simp only [List.mem_cons] at he
      rcases he with he | he
      · subst he; exact ⟨by simp, hb⟩
      · refine ⟨?_, (h2 e he).2⟩
        have := (h2 e he).1
        simp only [List.length_cons]; omega

theorem smWf_writeBytes {m : SMap Byte} (h : smWf 0 m = true) (a : Nat) (bs : List Byte) : smWf 0 (smWriteBytes m a bs) = true := by
  simp only [smWf, Bool.and_eq_true, List.all_eq_true, decide_eq_true_eq] at h ⊢
  obtain ⟨u1, u2⟩ := smUpTo_spec (k := a) h.1
  obtain ⟨f1, f2⟩ := smFrom_spec (k := a + bs.length) h.1
  obtain ⟨l1, l2⟩ := smListBytes_spec a bs
  constructor
  · unfold smWriteBytes
    rw [List.append_assoc]
    refine smSorted_append u1 (fun e he => (u2 e he).1) (Nat.zero_le a) ?_
    exact smSorted_append l1 (fun e he => (l2 e he).1) (by omega) f1
  · intro e he
    simp only [smWriteBytes, List.mem_append] at he
    rcases he with (he | he) | he
    · exact h.2 e (u2 e he).2
    · exact (l2 e he).2
    · exact h.2 e (f2 e he)

end Sys2Proof.Machine
end

