-- ==== Sys2Proof/Laws/Sound.lean ====
section
/-! SUPPORT. A state is sound when its mode fields are legal and its byte memories canonical; what keeps that. -/

namespace Sys2Proof.Machine

/-- The mode fields are legal and the byte memories canonical. -/
def Sound (s : State) : Prop := ModesLegal s ∧ MemoriesWf s

theorem Sound.cut {s t u : State} (h1 : Sound s) (h : Sound s → Sound t) (h2 : Sound t → Sound u) : Sound u := h2 (h h1)

theorem Sound.ite {s t : State} {c : Prop} [Decidable c] (h1 : Sound s) (h2 : Sound t) : Sound (if c then s else t) := by split <;> assumption

theorem Sound.foldl {α : Type} {f : State → α → State} (h : ∀ t a, Sound t → Sound (f t a)) {s : State} (h1 : Sound s) (l : List α) :
    Sound (l.foldl f s) := by
  induction l generalizing s with
  | nil => exact h1
  | cons a l ih => exact ih (h s a h1)

theorem Sound.eachObj {f : Nat → State → State} (h : ∀ o t, Sound t → Sound (f o t)) {s : State} (h1 : Sound s) (l : List Nat) :
    Sound (eachObj f l s) := by
  induction l generalizing s with
  | nil => exact h1
  | cons o l ih => exact ih (h o s h1)

/-- A change of other parts keeps it. -/
theorem OnlyChanges.sound {W : List Part} {s t : State} (h : OnlyChanges W s t)
    (hw : ∀ p ∈ [Part.sch, .dpx, .aon, .drc, .stw], p ∉ W) (hs : Sound s) : Sound t := by
  have a : t.sch = s.sch := h.same .sch (hw _ (by decide))
  have b : t.dpx = s.dpx := h.same .dpx (hw _ (by decide))
  have c : t.aon = s.aon := h.same .aon (hw _ (by decide))
  have d : t.drc = s.drc := h.same .drc (hw _ (by decide))
  have e : t.stw = s.stw := h.same .stw (hw _ (by decide))
  simpa only [Sound, ModesLegal, MemoriesWf, a, b, c, d, e] using hs

/-- A record update of a state `t` keeps it where each field concerned is kept or right. -/
theorem Sound.upd {t : State} {v_regs} {v_latches} {v_rdata} {v_outcomes} {v_outs} {v_hostMem} {v_dueWrites} {v_freeCtr} {v_hif} {v_stw} {v_irq} {v_mtx} {v_lgr} {v_aon} {v_clk} {v_ptp} {v_mp} {v_dpx} {v_obj} {v_prefilter} {v_segUid} {v_alignSet} {v_geo} {v_pair} {v_cor} {v_sch} {v_fab} {v_drc} {v_keyed} {v_keySeq} {v_lau}
    (h : Sound t)
    (h1 : v_sch.st = t.sch.st ∨ v_sch.st ≤ 4)
    (h0 : v_sch.armed = t.sch.armed ∨ ∀ a ∈ v_sch.armed, a.origin ≤ 4)
    (h2 : v_dpx.st = t.dpx.st ∨ v_dpx.st ≤ 2)
    (h3 : v_aon.bootSrc = t.aon.bootSrc ∨ v_aon.bootSrc ≤ 3)
    (h4 : v_aon.bootState = t.aon.bootState ∨ v_aon.bootState ≤ 3)
    (h6 : v_drc.mem = t.drc.mem ∨ smWf 0 v_drc.mem = true)
    (h7 : v_stw.itcm = t.stw.itcm ∨ smWf 0 v_stw.itcm = true)
    (h8 : v_stw.dtcm = t.stw.dtcm ∨ smWf 0 v_stw.dtcm = true)
    (h9 : v_stw.sram = t.stw.sram ∨ smWf 0 v_stw.sram = true) :
    Sound (State.mk t.pending v_regs v_latches v_rdata v_outcomes v_outs v_hostMem v_dueWrites v_freeCtr v_hif v_stw v_irq v_mtx v_lgr v_aon v_clk v_ptp v_mp v_dpx v_obj v_prefilter v_segUid v_alignSet v_geo v_pair v_cor v_sch v_fab v_drc v_keyed v_keySeq v_lau) := by
  obtain ⟨⟨a1, a0, a2, a3, a4⟩, b2, b3, b4, b5⟩ := h
  refine ⟨⟨?_, ?_, ?_, ?_, ?_⟩, ?_, ?_, ?_, ?_⟩
  · exact h1.elim (fun e => e ▸ a1) id
  · exact h0.elim (fun e => e ▸ a0) id
  · exact h2.elim (fun e => e ▸ a2) id
  · exact h3.elim (fun e => e ▸ a3) id
  · exact h4.elim (fun e => e ▸ a4) id
  · exact h6.elim (fun e => e ▸ b2) id
  · exact h7.elim (fun e => e ▸ b3) id
  · exact h8.elim (fun e => e ▸ b4) id
  · exact h9.elim (fun e => e ▸ b5) id

theorem setSch_sound {s : State} {f : Sch → Sch} (h : Sound s) (hf : (f s.sch).st = s.sch.st ∨ (f s.sch).st ≤ 4)
    (ha : (f s.sch).armed = s.sch.armed ∨ ∀ a ∈ (f s.sch).armed, a.origin ≤ 4) : Sound (setSch s f) :=
  Sound.upd h hf ha (.inl rfl) (.inl rfl) (.inl rfl) (.inl rfl) (.inl rfl) (.inl rfl) (.inl rfl)

theorem setDpx_sound {s : State} {f : Dpx → Dpx} (h : Sound s) (hf : (f s.dpx).st = s.dpx.st ∨ (f s.dpx).st ≤ 2) : Sound (setDpx s f) :=
  Sound.upd h (.inl rfl) (.inl rfl) hf (.inl rfl) (.inl rfl) (.inl rfl) (.inl rfl) (.inl rfl) (.inl rfl)

theorem setAon_sound {s : State} {f : Aon → Aon} (h : Sound s) (h1 : (f s.aon).bootSrc = s.aon.bootSrc ∨ (f s.aon).bootSrc ≤ 3)
    (h2 : (f s.aon).bootState = s.aon.bootState ∨ (f s.aon).bootState ≤ 3) : Sound (setAon s f) :=
  Sound.upd h (.inl rfl) (.inl rfl) (.inl rfl) h1 h2 (.inl rfl) (.inl rfl) (.inl rfl) (.inl rfl)

theorem setDrc_sound {s : State} {f : Drc → Drc} (h : Sound s) (hf : (f s.drc).mem = s.drc.mem ∨ smWf 0 (f s.drc).mem = true) :
    Sound (setDrc s f) :=
  Sound.upd h (.inl rfl) (.inl rfl) (.inl rfl) (.inl rfl) (.inl rfl) hf (.inl rfl) (.inl rfl) (.inl rfl)

end Sys2Proof.Machine
end

