-- ==== Sys2Proof/Laws/SoundOps.lean ====
section
/-! SUPPORT. Every operation that writes a mode field or a byte memory keeps a sound state sound.
The operations that write neither keep it by their frames (`OnlyChanges.sound`). -/

namespace Sys2Proof.Machine

theorem checked_sound {s k : State} (h : Sound s) (hk : Sound k) (d : Desc) (used : List (Nat × Nat)) (limits : List (Nat × Bool)) :
    Sound (checked d used limits s k) := by
  unfold checked
  split
  · exact (badField_only ..).sound (by decide) h
  · exact hk

theorem setCore_sound (s) (x1) (x2) (h : Sound s) : Sound (setCore s x1 x2) := by
  unfold setCore
  repeat (first
    | with_reducible assumption
    | (extract_lets +onlyGivenNames t1; with_reducible refine Sound.cut ‹_› (t := t1) ?_ ?_ <;> [(subst t1; intro); (clear_value t1; intro)])
    | (extract_lets +onlyGivenNames t1; with_reducible refine Sound.cut ‹_› (t := t1.2) ?_ ?_ <;> [(subst t1; intro); (clear_value t1; intro)])
    | (extract_lets +onlyGivenNames t1; subst t1)
    | (fail_if_no_progress (with_reducible apply Sound.upd <;> first | exact Or.inl rfl | exact Or.inr (Nat.le_of_ble_eq_true rfl) | exact Or.inr (by simp; done) | skip)))

theorem coreFault_sound (x0) (x1) (s) (h : Sound s) : Sound (coreFault x0 x1 s) := by
  unfold coreFault
  repeat (first
    | with_reducible assumption
    | (with_reducible refine setCore_sound (h := ?_) ..)
    | (extract_lets +onlyGivenNames t1; subst t1)
    | split
    | with_reducible refine Sound.ite ?_ ?_)

theorem writeError_sound (x0) (x1) (x2) (s) (h : Sound s) : Sound (writeError x0 x1 x2 s) := by
  unfold writeError
  repeat (first
    | with_reducible assumption
    | (with_reducible refine coreFault_sound (h := ?_) ..)
    | (with_reducible refine (mtxError_only ..).sound (by decide) ?_))

theorem sramPut_sound (x0) (x1) (s) (h : Sound s) : Sound (sramPut x0 x1 s) :=
  Sound.upd h (.inl rfl) (.inl rfl) (.inl rfl) (.inl rfl) (.inl rfl) (.inl rfl) (.inl rfl) (.inl rfl) (.inr (smWf_writeBytes h.2.2.2.2 ..))

theorem tickSeq_sound (s) (h : Sound s) : Sound (tickSeq s) := by
  unfold tickSeq
  repeat (first
    | with_reducible assumption
    | (extract_lets +onlyGivenNames t1; with_reducible refine Sound.cut ‹_› (t := t1) ?_ ?_ <;> [(subst t1; intro); (clear_value t1; intro)])
    | (extract_lets +onlyGivenNames t1; with_reducible refine Sound.cut ‹_› (t := t1.2) ?_ ?_ <;> [(subst t1; intro); (clear_value t1; intro)])
    | (extract_lets +onlyGivenNames t1; subst t1)
    | (fail_if_no_progress (with_reducible apply Sound.upd <;> first | exact Or.inl rfl | exact Or.inr (Nat.le_of_ble_eq_true rfl) | exact Or.inr (by simp; done) | skip)))

theorem putItem_sound (s) (x1) (x2) (h : Sound s) : Sound (putItem s x1 x2) := by
  unfold putItem
  repeat (first
    | with_reducible assumption
    | (extract_lets +onlyGivenNames t1; with_reducible refine Sound.cut ‹_› (t := t1) ?_ ?_ <;> [(subst t1; intro); (clear_value t1; intro)])
    | (extract_lets +onlyGivenNames t1; with_reducible refine Sound.cut ‹_› (t := t1.2) ?_ ?_ <;> [(subst t1; intro); (clear_value t1; intro)])
    | (extract_lets +onlyGivenNames t1; subst t1)
    | (fail_if_no_progress (with_reducible apply Sound.upd <;> first | exact Or.inl rfl | exact Or.inr (Nat.le_of_ble_eq_true rfl) | exact Or.inr (by simp; done) | skip)))

theorem makeReady_sound (x0) (s) (h : Sound s) : Sound (makeReady x0 s) := by
  unfold makeReady
  repeat (first
    | with_reducible assumption
    | (with_reducible refine tickSeq_sound (h := ?_) ..)
    | (with_reducible refine putItem_sound (h := ?_) ..)
    | split
    | with_reducible refine Sound.ite ?_ ?_)

theorem advanceFlow_sound (x0) (s) (h : Sound s) : Sound (advanceFlow x0 s) := by
  unfold advanceFlow
  repeat (first
    | with_reducible assumption
    | (with_reducible refine makeReady_sound (h := ?_) ..)
    | split
    | with_reducible refine Sound.ite ?_ ?_)

theorem addAt_sound (x0) (x1) (s) (h : Sound s) : Sound (addAt x0 x1 s) := by
  unfold addAt
  repeat (first
    | with_reducible assumption
    | (with_reducible refine tickSeq_sound (h := ?_) ..)
    | (with_reducible refine putItem_sound (h := ?_) ..)
    | (with_reducible refine (evIf_only ..).sound (by decide) ?_)
    | (with_reducible refine advanceFlow_sound (h := ?_) ..))

theorem addOps_sound (sq e l) (s) (h : Sound s) : Sound (addOps sq e l s) := by
  induction l generalizing e s with
  | nil => rw [addOps]; exact h
  | cons o os ih =>
    rw [addOps]
    refine Sound.ite (ih _ _ h) (Sound.ite ?_ (ih _ _ h))
    split
    · exact ih _ _ (Sound.upd (sramPut_sound _ _ _ (addAt_sound _ _ _ h)) (.inl rfl) (.inl rfl) (.inl rfl) (.inl rfl) (.inl rfl) (.inl rfl) (.inl rfl) (.inl rfl) (.inl rfl))
    · exact h

theorem releaseFences_sound (x0) (s) (h : Sound s) : Sound (releaseFences x0 s) := by
  unfold releaseFences
  repeat (first
    | with_reducible assumption
    | (with_reducible refine addOps_sound (h := ?_) ..))

theorem endOp_sound (x0) (x1) (x2) (x3) (x4) (s) (h : Sound s) : Sound (endOp x0 x1 x2 x3 x4 s) := by
  unfold endOp
  repeat (first
    | with_reducible assumption
    | (with_reducible refine releaseFences_sound (h := ?_) ..)
    | (with_reducible refine (postCpl_only ..).sound (by decide) ?_))

theorem releaseAll_sound (x0) (s) (h : Sound s) : Sound (releaseAll x0 s) := by
  fun_induction releaseAll x0 s
  all_goals repeat (first
    | with_reducible assumption
    | (with_reducible apply_assumption)
    | (with_reducible refine releaseFences_sound (h := ?_) ..)
    | split)

theorem freeItem_sound (x0) (s) (h : Sound s) : Sound (freeItem x0 s) := by
  unfold freeItem
  repeat (first
    | with_reducible assumption
    | (with_reducible refine advanceFlow_sound (h := ?_) ..)
    | (extract_lets +onlyGivenNames t1; with_reducible refine Sound.cut ‹_› (t := t1) ?_ ?_ <;> [(subst t1; intro); (clear_value t1; intro)])
    | (extract_lets +onlyGivenNames t1; with_reducible refine Sound.cut ‹_› (t := t1.2) ?_ ?_ <;> [(subst t1; intro); (clear_value t1; intro)])
    | (extract_lets +onlyGivenNames t1; subst t1)
    | split
    | with_reducible refine Sound.ite ?_ ?_
    | (fail_if_no_progress (with_reducible apply Sound.upd <;> first | exact Or.inl rfl | exact Or.inr (Nat.le_of_ble_eq_true rfl) | exact Or.inr (by simp; done) | skip)))

theorem freeSlotOf_sound (x0) (s) (h : Sound s) : Sound (freeSlotOf x0 s) := by
  unfold freeSlotOf
  repeat (first
    | with_reducible assumption
    | (with_reducible refine releaseAll_sound (h := ?_) ..)
    | (with_reducible refine freeItem_sound (h := ?_) ..))

theorem dropOpItem_sound (x0) (s) (h : Sound s) : Sound (dropOpItem x0 s) := by
  unfold dropOpItem
  repeat (first
    | with_reducible assumption
    | (with_reducible refine freeSlotOf_sound (h := ?_) ..)
    | split)

theorem abortQueued_sound (x0) (s) (h : Sound s) : Sound (abortQueued x0 s) := by
  unfold abortQueued
  repeat (first
    | with_reducible assumption
    | (with_reducible refine endOp_sound (h := ?_) ..)
    | (with_reducible refine dropOpItem_sound (h := ?_) ..))

theorem abortOne_sound (x0) (s) (h : Sound s) : Sound (abortOne x0 s).2.2 := by
  unfold abortOne
  repeat (first
    | with_reducible assumption
    | (with_reducible refine abortQueued_sound (h := ?_) ..)
    | (with_reducible refine (giveNotice_only ..).sound (by decide) ?_)
    | split
    | with_reducible refine Sound.ite ?_ ?_)

theorem abortList_sound (x0) (x1) (x2) (s) (h : Sound s) : Sound (abortList x0 x1 x2 s).2.2 := by
  fun_induction abortList x0 x1 x2 s
  all_goals repeat (first
    | with_reducible assumption
    | (with_reducible apply_assumption)
    | (with_reducible refine abortOne_sound (h := ?_) ..)
    | split)

theorem startAbort_sound (x0) (x1) (x2) (x3) (s) (h : Sound s) : Sound (startAbort x0 x1 x2 x3 s) := by
  unfold startAbort
  repeat (first
    | with_reducible assumption
    | (with_reducible refine (commitOutcomes_only ..).sound (by decide) ?_)
    | (with_reducible refine abortList_sound (h := ?_) ..)
    | (with_reducible refine (resetMasters_only ..).sound (by decide) ?_)
    | (with_reducible refine (settleAborts_only ..).sound (by decide) ?_)
    | (extract_lets +onlyGivenNames t1; with_reducible refine Sound.cut ‹_› (t := t1) ?_ ?_ <;> [(subst t1; intro); (clear_value t1; intro)])
    | (extract_lets +onlyGivenNames t1; with_reducible refine Sound.cut ‹_› (t := t1.2) ?_ ?_ <;> [(subst t1; intro); (clear_value t1; intro)])
    | (extract_lets +onlyGivenNames t1; subst t1)
    | with_reducible refine Sound.ite ?_ ?_
    | (fail_if_no_progress (with_reducible apply Sound.upd <;> first | exact Or.inl rfl | exact Or.inr (Nat.le_of_ble_eq_true rfl) | exact Or.inr (by simp; done) | skip)))

theorem abortWrite_sound (x0) (s) (h : Sound s) : Sound (abortWrite x0 s) := by
  unfold abortWrite
  repeat (first
    | with_reducible assumption
    | (with_reducible refine startAbort_sound (h := ?_) ..)
    | split
    | with_reducible refine Sound.ite ?_ ?_)

theorem resetOps_sound (l) (s) (h : Sound s) : Sound (resetOps l s) := by
  induction l generalizing s with
  | nil => exact h
  | cons o os ih =>
    rw [resetOps]
    refine ih _ (Sound.ite ?_ (Sound.ite ?_ ?_))
    · exact (dropOp_only ..).sound (by decide) h
    · exact (dropOp_only ..).sound (by decide) (dropOpItem_sound _ _ h)
    · exact (orphanOp_only ..).sound (by decide) h

theorem hostReset_sound (x0) (x1) (s) (h : Sound s) : Sound (hostReset x0 x1 s) := by
  unfold hostReset
  repeat (first
    | with_reducible assumption
    | (with_reducible refine resetOps_sound (h := ?_) ..)
    | (with_reducible refine (clearEn_only ..).sound (by decide) ?_)
    | (with_reducible refine (setField_only ..).sound (by decide) ?_)
    | (with_reducible refine (setReg_only ..).sound (by decide) ?_)
    | (with_reducible refine (ledger_only ..).sound (by decide) ?_)
    | (with_reducible refine (evRaise_only ..).sound (by decide) ?_)
    | (with_reducible refine (resetMasters_only ..).sound (by decide) ?_)
    | (extract_lets +onlyGivenNames t1; with_reducible refine Sound.cut ‹_› (t := t1) ?_ ?_ <;> [(subst t1; intro); (clear_value t1; intro)])
    | (extract_lets +onlyGivenNames t1; with_reducible refine Sound.cut ‹_› (t := t1.2) ?_ ?_ <;> [(subst t1; intro); (clear_value t1; intro)])
    | (extract_lets +onlyGivenNames t1; subst t1)
    | split
    | with_reducible refine Sound.ite ?_ ?_
    | (fail_if_no_progress (with_reducible apply Sound.upd <;> first | exact Or.inl rfl | exact Or.inr (Nat.le_of_ble_eq_true rfl) | exact Or.inr (by simp; done) | skip)))

theorem stopDriving_sound (x0) (s) (h : Sound s) : Sound (stopDriving x0 s) := by
  unfold stopDriving
  repeat (first
    | with_reducible assumption
    | (with_reducible refine (monSettleAll_only ..).sound (by decide) ?_)
    | (with_reducible refine (ledger_only ..).sound (by decide) ?_)
    | (with_reducible refine (evRaise_only ..).sound (by decide) ?_)
    | with_reducible refine setDpx_sound ?_ (by first | exact Or.inl rfl | exact Or.inr (Nat.le_of_ble_eq_true rfl))
    | split)

theorem disarmed_sound (x0) (s) (h : Sound s) : Sound (disarmed x0 s) := by
  unfold disarmed
  repeat (first
    | with_reducible assumption
    | (with_reducible refine stopDriving_sound (h := ?_) ..)
    | with_reducible refine setDpx_sound ?_ (by first | exact Or.inl rfl | exact Or.inr (Nat.le_of_ble_eq_true rfl))
    | split
    | with_reducible refine Sound.ite ?_ ?_)

theorem clearArm_sound (x0) (s) (h : Sound s) : Sound (clearArm x0 s) := by
  unfold clearArm
  repeat (first
    | with_reducible assumption
    | (with_reducible refine disarmed_sound (h := ?_) ..)
    | (with_reducible refine (setField_only ..).sound (by decide) ?_))

theorem warmInterlock_sound (s) (h : Sound s) : Sound (warmInterlock s) := by
  unfold warmInterlock
  repeat (first
    | with_reducible assumption
    | (with_reducible refine clearArm_sound (h := ?_) ..)
    | with_reducible refine setDpx_sound ?_ (by first | exact Or.inl rfl | exact Or.inr (Nat.le_of_ble_eq_true rfl))
    | (extract_lets +onlyGivenNames t1; with_reducible refine Sound.cut ‹_› (t := t1) ?_ ?_ <;> [(subst t1; intro); (clear_value t1; intro)])
    | (extract_lets +onlyGivenNames t1; with_reducible refine Sound.cut ‹_› (t := t1.2) ?_ ?_ <;> [(subst t1; intro); (clear_value t1; intro)])
    | (extract_lets +onlyGivenNames t1; subst t1)
    | (fail_if_no_progress (with_reducible apply Sound.upd <;> first | exact Or.inl rfl | exact Or.inr (Nat.le_of_ble_eq_true rfl) | exact Or.inr (by simp; done) | skip)))

theorem warmControl_sound (s) (h : Sound s) : Sound (warmControl s) := by
  unfold warmControl
  repeat (first
    | with_reducible assumption
    | (extract_lets +onlyGivenNames t1; with_reducible refine Sound.cut ‹_› (t := t1) ?_ ?_ <;> [(subst t1; intro); (clear_value t1; intro)])
    | (extract_lets +onlyGivenNames t1; with_reducible refine Sound.cut ‹_› (t := t1.2) ?_ ?_ <;> [(subst t1; intro); (clear_value t1; intro)])
    | (extract_lets +onlyGivenNames t1; subst t1)
    | (fail_if_no_progress (with_reducible apply Sound.upd <;> first | exact Or.inl rfl | exact Or.inr (Nat.le_of_ble_eq_true rfl) | exact Or.inr (by simp; done) | skip)))

theorem warmRender_sound (s) (h : Sound s) : Sound (warmRender s) := by
  unfold warmRender
  repeat (first
    | with_reducible assumption
    | (extract_lets +onlyGivenNames t1; subst t1)
    | split
    | (fail_if_no_progress (with_reducible apply Sound.upd <;> first | exact Or.inl rfl | exact Or.inr (Nat.le_of_ble_eq_true rfl) | exact Or.inr (by simp; done) | skip)))

theorem dramPut_sound (x0) (x1) (s) (h : Sound s) : Sound (dramPut x0 x1 s) := by
  exact setDrc_sound h (.inr (smWf_writeBytes h.2.1 ..))

theorem dropStage_sound (x0) (s) (h : Sound s) : Sound (dropStage x0 s) := by
  unfold dropStage
  repeat (first
    | with_reducible assumption
    | (with_reducible refine (setCor_only ..).sound (by decide) ?_)
    | (with_reducible refine dramPut_sound (h := ?_) ..)
    | (with_reducible refine (draw_only ..).sound (by decide) ?_)
    | (extract_lets +onlyGivenNames t1; with_reducible refine Sound.cut ‹_› (t := t1) ?_ ?_ <;> [(subst t1; intro); (clear_value t1; intro)])
    | (extract_lets +onlyGivenNames t1; with_reducible refine Sound.cut ‹_› (t := t1.2) ?_ ?_ <;> [(subst t1; intro); (clear_value t1; intro)])
    | (extract_lets +onlyGivenNames t1; subst t1)
    | split
    | with_reducible refine Sound.ite ?_ ?_
    | (fail_if_no_progress (with_reducible apply Sound.upd <;> first | exact Or.inl rfl | exact Or.inr (Nat.le_of_ble_eq_true rfl) | exact Or.inr (by simp; done) | skip)))

theorem withdrawLoad_sound (x0) (s) (h : Sound s) : Sound (withdrawLoad x0 s) := by
  unfold withdrawLoad
  repeat (first
    | with_reducible assumption
    | (with_reducible refine (draw_only ..).sound (by decide) ?_)
    | with_reducible refine setSch_sound ?_ (by first | exact Or.inl rfl | exact Or.inr (Nat.le_of_ble_eq_true rfl)) (by first | exact Or.inl rfl | exact Or.inr (by simp; done))
    | (extract_lets +onlyGivenNames t1; with_reducible refine Sound.cut ‹_› (t := t1) ?_ ?_ <;> [(subst t1; intro); (clear_value t1; intro)])
    | (extract_lets +onlyGivenNames t1; with_reducible refine Sound.cut ‹_› (t := t1.2) ?_ ?_ <;> [(subst t1; intro); (clear_value t1; intro)])
    | (extract_lets +onlyGivenNames t1; subst t1)
    | split
    | with_reducible refine Sound.ite ?_ ?_
    | (fail_if_no_progress (with_reducible apply Sound.upd <;> first | exact Or.inl rfl | exact Or.inr (Nat.le_of_ble_eq_true rfl) | exact Or.inr (by simp; done) | skip)))

theorem withdrawRest_sound (x0) (s) (h : Sound s) : Sound (withdrawRest x0 s) := by
  unfold withdrawRest
  repeat (first
    | with_reducible assumption
    | (with_reducible refine dropStage_sound (h := ?_) ..)
    | (with_reducible refine withdrawLoad_sound (h := ?_) ..)
    | (with_reducible refine (setClk_only ..).sound (by decide) ?_)
    | (with_reducible refine (setFab_only ..).sound (by decide) ?_)
    | with_reducible refine Sound.foldl (fun _ _ _ => ?_) ?_ _)

theorem withdrawSwap_sound (x0) (s) (h : Sound s) : Sound (withdrawSwap x0 s) := by
  unfold withdrawSwap
  repeat (first
    | with_reducible assumption
    | with_reducible refine setSch_sound ?_ (by first | exact Or.inl rfl | exact Or.inr (Nat.le_of_ble_eq_true rfl)) (by first | exact Or.inl rfl | exact Or.inr (by simp; done))
    | (extract_lets +onlyGivenNames t1; with_reducible refine Sound.cut ‹_› (t := t1) ?_ ?_ <;> [(subst t1; intro); (clear_value t1; intro)])
    | (extract_lets +onlyGivenNames t1; with_reducible refine Sound.cut ‹_› (t := t1.2) ?_ ?_ <;> [(subst t1; intro); (clear_value t1; intro)])
    | (extract_lets +onlyGivenNames t1; subst t1)
    | split
    | with_reducible refine Sound.ite ?_ ?_
    | (fail_if_no_progress (with_reducible apply Sound.upd <;> first | exact Or.inl rfl | exact Or.inr (Nat.le_of_ble_eq_true rfl) | exact Or.inr (by simp; done) | skip)))

theorem setRender_sound {x : Nat} {s : State} (h : Sound s) (hx : x ≤ 4) : Sound (setRender x s) := by
  unfold setRender
  exact Sound.ite h ((evRaise_only ..).sound (by decide) (setSch_sound h (.inr hx) (.inl rfl)))

theorem withdrawArmed_sound (x0) (s) (h : Sound s) : Sound (withdrawArmed x0 s) := by
  have hc : ∀ f : Sch → Sch, (f s.sch).st = s.sch.st → (f s.sch).armed = none → Sound (setSch s f) :=
    fun f h1 h2 => setSch_sound h (.inl h1) (.inr (by rw [h2]; exact nofun))
  unfold withdrawArmed
  split
  · rename_i a e
    have ha : a.origin ≤ 4 := h.1.2.1 a (by rw [e]; rfl)
    refine Sound.ite ?_ h
    split
    · exact setRender_sound (hc _ rfl rfl) (by decide)
    · exact setRender_sound (hc _ rfl rfl) ha
    · exact hc _ rfl rfl
  · exact h

theorem withdrawKeyed_sound (x0) (s) (h : Sound s) : Sound (withdrawKeyed x0 s) := by
  unfold withdrawKeyed
  repeat (first
    | with_reducible assumption
    | (with_reducible refine (voidLoaded_only ..).sound (by decide) ?_)
    | (with_reducible refine (setCor_only ..).sound (by decide) ?_)
    | (with_reducible refine (setFab_only ..).sound (by decide) ?_)
    | (with_reducible refine (withdrawStarts_only ..).sound (by decide) ?_)
    | (with_reducible refine withdrawSwap_sound (h := ?_) ..)
    | (with_reducible refine withdrawArmed_sound (h := ?_) ..)
    | with_reducible refine setDpx_sound ?_ (by first | exact Or.inl rfl | exact Or.inr (Nat.le_of_ble_eq_true rfl))
    | (extract_lets +onlyGivenNames t1; with_reducible refine Sound.cut ‹_› (t := t1) ?_ ?_ <;> [(subst t1; intro); (clear_value t1; intro)])
    | (extract_lets +onlyGivenNames t1; with_reducible refine Sound.cut ‹_› (t := t1.2) ?_ ?_ <;> [(subst t1; intro); (clear_value t1; intro)])
    | (extract_lets +onlyGivenNames t1; subst t1)
    | (fail_if_no_progress (with_reducible apply Sound.upd <;> first | exact Or.inl rfl | exact Or.inr (Nat.le_of_ble_eq_true rfl) | exact Or.inr (by simp; done) | skip)))

theorem withdrawTok_sound (x0) (s) (h : Sound s) : Sound (withdrawTok x0 s) := by
  unfold withdrawTok
  repeat (first
    | with_reducible assumption
    | (with_reducible refine withdrawRest_sound (h := ?_) ..)
    | (with_reducible refine withdrawKeyed_sound (h := ?_) ..))

theorem dropOps_sound (s) (h : Sound s) : Sound (dropOps s) := by
  unfold dropOps
  repeat (first
    | with_reducible assumption
    | (with_reducible refine withdrawTok_sound (h := ?_) ..)
    | (with_reducible refine (settleAborts_only ..).sound (by decide) ?_)
    | (extract_lets +onlyGivenNames t1; with_reducible refine Sound.cut ‹_› (t := t1) ?_ ?_ <;> [(subst t1; intro); (clear_value t1; intro)])
    | (extract_lets +onlyGivenNames t1; with_reducible refine Sound.cut ‹_› (t := t1.2) ?_ ?_ <;> [(subst t1; intro); (clear_value t1; intro)])
    | (extract_lets +onlyGivenNames t1; subst t1)
    | with_reducible refine Sound.ite ?_ ?_
    | with_reducible refine Sound.foldl (fun _ _ _ => ?_) ?_ _
    | (fail_if_no_progress (with_reducible apply Sound.upd <;> first | exact Or.inl rfl | exact Or.inr (Nat.le_of_ble_eq_true rfl) | exact Or.inr (by simp; done) | skip)))

theorem warmAssert_sound (x0) (s) (h : Sound s) : Sound (warmAssert x0 s) := by
  have h1 : ∀ g, Sound (ledger 0x0002 3 x0 g 0 (evRaise aTopEvt 4 s)) := fun g =>
    (ledger_only ..).sound (by decide) ((evRaise_only ..).sound (by decide) h)
  have h2 : ∀ t, Sound t → Sound (hostReset 5 false (warmRegs t)) := fun t h => hostReset_sound _ _ _ ((warmRegs_only ..).sound (by decide) h)
  have h3 : ∀ t, Sound t → Sound (warmInterlock (warmTime (warmControl (warmRender (dropOps t))))) := fun t h =>
    warmInterlock_sound _ ((warmTime_only ..).sound (by decide) (warmControl_sound _ (warmRender_sound _ (dropOps_sound _ h))))
  unfold warmAssert
  extract_lets g s1 s2 s3 s4
  have h4 : Sound s4 := (setField_only ..).sound (by decide) (h3 _ (h2 _ (h1 g)))
  clear_value s4
  exact (monSettleAll_only ..).sound (by decide) (setAon_sound (Sound.upd h4 (.inl rfl) (.inl rfl) (.inl rfl) (.inl rfl) (.inl rfl) (.inl rfl) (.inl rfl) (.inl rfl) (.inl rfl)) (.inl rfl) (.inr (Nat.zero_le _)))

theorem warmRequest_sound (x0) (s) (h : Sound s) : Sound (warmRequest x0 s) := by
  unfold warmRequest
  repeat (first
    | with_reducible assumption
    | (with_reducible refine warmAssert_sound (h := ?_) ..)
    | with_reducible refine setAon_sound ?_ (by first | exact Or.inl rfl | exact Or.inr (Nat.le_of_ble_eq_true rfl)) (by first | exact Or.inl rfl | exact Or.inr (Nat.le_of_ble_eq_true rfl))
    | (extract_lets +onlyGivenNames t1; with_reducible refine Sound.cut ‹_› (t := t1) ?_ ?_ <;> [(subst t1; intro); (clear_value t1; intro)])
    | (extract_lets +onlyGivenNames t1; with_reducible refine Sound.cut ‹_› (t := t1.2) ?_ ?_ <;> [(subst t1; intro); (clear_value t1; intro)])
    | (extract_lets +onlyGivenNames t1; subst t1)
    | split
    | with_reducible refine Sound.ite ?_ ?_
    | (fail_if_no_progress (with_reducible apply Sound.upd <;> first | exact Or.inl rfl | exact Or.inr (Nat.le_of_ble_eq_true rfl) | exact Or.inr (by simp; done) | skip)))

theorem wrstWrite_sound (x0) (x1) (s) (h : Sound s) : Sound (wrstWrite x0 x1 s) := by
  unfold wrstWrite
  repeat (first
    | with_reducible assumption
    | (with_reducible refine warmRequest_sound (h := ?_) ..)
    | split
    | with_reducible refine Sound.ite ?_ ?_)

theorem bootWrite_sound (x0) (x1) (s) (h : Sound s) : Sound (bootWrite x0 x1 s) := by
  unfold bootWrite
  repeat (first
    | with_reducible assumption
    | (with_reducible refine (setField_only ..).sound (by decide) ?_)
    | (extract_lets +onlyGivenNames t1; with_reducible refine Sound.cut ‹_› (t := t1) ?_ ?_ <;> [(subst t1; intro); (clear_value t1; intro)])
    | (extract_lets +onlyGivenNames t1; with_reducible refine Sound.cut ‹_› (t := t1.2) ?_ ?_ <;> [(subst t1; intro); (clear_value t1; intro)])
    | (extract_lets +onlyGivenNames t1; subst t1)
    | split
    | with_reducible refine Sound.ite ?_ ?_
    | (fail_if_no_progress (with_reducible apply Sound.upd <;> first | exact Or.inl rfl | exact Or.inr (Nat.le_of_ble_eq_true rfl) | exact Or.inr (by simp; done) | skip)))

theorem drcCtlWrite_sound (x0) (s) (h : Sound s) : Sound (drcCtlWrite x0 s) := by
  unfold drcCtlWrite
  repeat (first
    | with_reducible assumption
    | (with_reducible refine (setField_only ..).sound (by decide) ?_)
    | with_reducible refine setDrc_sound ?_ (by first | exact Or.inl rfl | exact Or.inr (Nat.le_of_ble_eq_true rfl))
    | (extract_lets +onlyGivenNames t1; with_reducible refine Sound.cut ‹_› (t := t1) ?_ ?_ <;> [(subst t1; intro); (clear_value t1; intro)])
    | split
    | with_reducible refine Sound.ite ?_ ?_)

theorem dpxCount_sound (x0) (s) (h : Sound s) : Sound (dpxCount x0 s) := by
  unfold dpxCount
  repeat (first
    | with_reducible assumption
    | with_reducible refine setDpx_sound ?_ (by first | exact Or.inl rfl | exact Or.inr (Nat.le_of_ble_eq_true rfl))
    | (extract_lets +onlyGivenNames t1; with_reducible refine Sound.cut ‹_› (t := t1) ?_ ?_ <;> [(subst t1; intro); (clear_value t1; intro)])
    | (extract_lets +onlyGivenNames t1; with_reducible refine Sound.cut ‹_› (t := t1.2) ?_ ?_ <;> [(subst t1; intro); (clear_value t1; intro)])
    | (extract_lets +onlyGivenNames t1; subst t1)
    | (fail_if_no_progress (with_reducible apply Sound.upd <;> first | exact Or.inl rfl | exact Or.inr (Nat.le_of_ble_eq_true rfl) | exact Or.inr (by simp; done) | skip)))

theorem startDriving_sound (x0) (s) (h : Sound s) : Sound (startDriving x0 s) := by
  unfold startDriving
  repeat (first
    | with_reducible assumption
    | (with_reducible refine (draw_only ..).sound (by decide) ?_)
    | (with_reducible refine (monSettleAll_only ..).sound (by decide) ?_)
    | (with_reducible refine (ledger_only ..).sound (by decide) ?_)
    | (with_reducible refine (evRaise_only ..).sound (by decide) ?_)
    | (with_reducible refine dpxCount_sound (h := ?_) ..)
    | with_reducible refine setDpx_sound ?_ (by first | exact Or.inl rfl | exact Or.inr (Nat.le_of_ble_eq_true rfl))
    | split
    | with_reducible refine Sound.ite ?_ ?_)

theorem tryClaim_sound (s) (h : Sound s) : Sound (tryClaim s) := by
  unfold tryClaim
  repeat (first
    | with_reducible assumption
    | (with_reducible refine startDriving_sound (h := ?_) ..)
    | with_reducible refine setDpx_sound ?_ (by first | exact Or.inl rfl | exact Or.inr (Nat.le_of_ble_eq_true rfl))
    | split
    | with_reducible refine Sound.ite ?_ ?_)

theorem armOp_sound (x0) (s) (h : Sound s) : Sound (armOp x0 s) := by
  unfold armOp
  repeat (first
    | with_reducible assumption
    | (with_reducible refine (setField_only ..).sound (by decide) ?_)
    | (with_reducible refine tryClaim_sound (h := ?_) ..)
    | (with_reducible refine clearArm_sound (h := ?_) ..)
    | with_reducible refine setDpx_sound ?_ (by first | exact Or.inl rfl | exact Or.inr (Nat.le_of_ble_eq_true rfl))
    | (extract_lets +onlyGivenNames t1; with_reducible refine Sound.cut ‹_› (t := t1) ?_ ?_ <;> [(subst t1; intro); (clear_value t1; intro)])
    | split
    | with_reducible refine Sound.ite ?_ ?_)

theorem armWriteOp_sound (x0) (s) (h : Sound s) : Sound (armWriteOp x0 s) := by
  unfold armWriteOp
  repeat (first
    | with_reducible assumption
    | (with_reducible refine armOp_sound (h := ?_) ..)
    | split
    | with_reducible refine Sound.ite ?_ ?_)

theorem flushQueued_sound (x0) (s) (h : Sound s) : Sound (flushQueued x0 s) := by
  fun_induction flushQueued x0 s
  all_goals repeat (first
    | with_reducible assumption
    | (with_reducible apply_assumption)
    | (with_reducible refine endOp_sound (h := ?_) ..)
    | (with_reducible refine dropOpItem_sound (h := ?_) ..)
    | split
    | with_reducible refine Sound.ite ?_ ?_)

theorem sqDisableStart_sound (x0) (x1) (s) (h : Sound s) : Sound (sqDisableStart x0 x1 s) := by
  unfold sqDisableStart
  repeat (first
    | with_reducible assumption
    | (with_reducible refine (setSq_only ..).sound (by decide) ?_)
    | (with_reducible refine (sqDisableEnd_only ..).sound (by decide) ?_)
    | (with_reducible refine flushQueued_sound (h := ?_) ..)
    | (with_reducible refine (report_only ..).sound (by decide) ?_)
    | (extract_lets +onlyGivenNames t1; with_reducible refine Sound.cut ‹_› (t := t1) ?_ ?_ <;> [(subst t1; intro); (clear_value t1; intro)])
    | (extract_lets +onlyGivenNames t1; subst t1)
    | split
    | with_reducible refine Sound.ite ?_ ?_)

theorem sqCfgWrite_sound (x0) (x1) (s) (h : Sound s) : Sound (sqCfgWrite x0 x1 s) := by
  unfold sqCfgWrite
  repeat (first
    | with_reducible assumption
    | (with_reducible refine sqDisableStart_sound (h := ?_) ..)
    | (with_reducible refine (setReg_only ..).sound (by decide) ?_)
    | (with_reducible refine (setSq_only ..).sound (by decide) ?_)
    | (with_reducible refine (discardHeld_only ..).sound (by decide) ?_)
    | (extract_lets +onlyGivenNames t1; subst t1)
    | split
    | with_reducible refine Sound.ite ?_ ?_)

theorem drainCq_sound (n q) (s) (h : Sound s) : Sound (drainCq n q s) := by
  induction n generalizing s with
  | zero => exact h
  | succ n ih =>
    rw [drainCq]
    split
    · exact Sound.ite (ih _ (releaseFences_sound _ _ ((writeCpl_only ..).sound (by decide) ((setCq_only ..).sound (by decide) h)))) ((noteFull_only ..).sound (by decide) h)
    · exact h

theorem drainAll_sound (x0) (s) (h : Sound s) : Sound (drainAll x0 s) := by
  fun_induction drainAll x0 s
  all_goals repeat (first
    | with_reducible assumption
    | (with_reducible apply_assumption)
    | (with_reducible refine drainCq_sound (h := ?_) ..)
    | split)

theorem cqCfgWrite_sound (x0) (x1) (s) (h : Sound s) : Sound (cqCfgWrite x0 x1 s) := by
  unfold cqCfgWrite
  repeat (first
    | with_reducible assumption
    | (with_reducible refine drainAll_sound (h := ?_) ..)
    | (with_reducible refine (setCq_only ..).sound (by decide) ?_)
    | (with_reducible refine (setReg_only ..).sound (by decide) ?_)
    | (with_reducible refine (settleCqs_only ..).sound (by decide) ?_)
    | (extract_lets +onlyGivenNames t1; subst t1)
    | split
    | with_reducible refine Sound.ite ?_ ?_)

theorem actWrite_sound {m a v} {s t} (e : actWrite m a v s = some t) (h : Sound s) : Sound t := by
  unfold actWrite at e
  repeat' split at e
  all_goals
    first
    | obtain rfl := Option.some.inj e
    | (rw [Option.map_eq_some_iff] at e
       obtain ⟨n, -, rfl⟩ := e)
    | cases e
  all_goals try split
  all_goals first
    | exact h
    | exact abortWrite_sound _ _ h
    | exact wrstWrite_sound _ _ _ h
    | exact (kickOp_only ..).sound (by decide) h
    | exact bootWrite_sound _ _ _ h
    | exact (evrCfgWrite_only ..).sound (by decide) h
    | exact drcCtlWrite_sound _ _ h
    | exact armWriteOp_sound _ _ h
    | exact sqCfgWrite_sound _ _ _ h
    | exact cqCfgWrite_sound _ _ _ h
    | exact (segPushOp_only ..).sound (by decide) h
    | exact (setAddress_only ..).sound (by decide) h

theorem deviceFault_sound (x0) (s) (h : Sound s) : Sound (deviceFault x0 s) := by
  unfold deviceFault
  repeat (first
    | with_reducible assumption
    | (with_reducible refine (ledger_only ..).sound (by decide) ?_)
    | (with_reducible refine (evRaise_only ..).sound (by decide) ?_)
    | (with_reducible refine clearArm_sound (h := ?_) ..)
    | with_reducible refine setDpx_sound ?_ (by first | exact Or.inl rfl | exact Or.inr (Nat.le_of_ble_eq_true rfl))
    | (extract_lets +onlyGivenNames t1; with_reducible refine Sound.cut ‹_› (t := t1) ?_ ?_ <;> [(subst t1; intro); (clear_value t1; intro)])
    | split
    | with_reducible refine Sound.ite ?_ ?_)

theorem settleAlive_sound (s) (h : Sound s) : Sound (settleAlive s) := by
  unfold settleAlive
  repeat (first
    | with_reducible assumption
    | (with_reducible refine (ledger_only ..).sound (by decide) ?_)
    | (with_reducible refine (evRaise_only ..).sound (by decide) ?_)
    | (with_reducible refine deviceFault_sound (h := ?_) ..)
    | (extract_lets +onlyGivenNames t1; with_reducible refine Sound.cut ‹_› (t := t1) ?_ ?_ <;> [(subst t1; intro); (clear_value t1; intro)])
    | (extract_lets +onlyGivenNames t1; with_reducible refine Sound.cut ‹_› (t := t1.2) ?_ ?_ <;> [(subst t1; intro); (clear_value t1; intro)])
    | (extract_lets +onlyGivenNames t1; subst t1)
    | split
    | with_reducible refine Sound.ite ?_ ?_
    | (fail_if_no_progress (with_reducible apply Sound.upd <;> first | exact Or.inl rfl | exact Or.inr (Nat.le_of_ble_eq_true rfl) | exact Or.inr (by simp; done) | skip)))

theorem heartbeatOp_sound (x0) (s) (h : Sound s) : Sound (heartbeatOp x0 s) := by
  unfold heartbeatOp
  repeat (first
    | with_reducible assumption
    | (with_reducible refine setCore_sound (h := ?_) ..)
    | (with_reducible refine settleAlive_sound (h := ?_) ..)
    | (extract_lets +onlyGivenNames t1; with_reducible refine Sound.cut ‹_› (t := t1) ?_ ?_ <;> [(subst t1; intro); (clear_value t1; intro)])
    | (extract_lets +onlyGivenNames t1; with_reducible refine Sound.cut ‹_› (t := t1.2) ?_ ?_ <;> [(subst t1; intro); (clear_value t1; intro)])
    | (extract_lets +onlyGivenNames t1; subst t1)
    | (fail_if_no_progress (with_reducible apply Sound.upd <;> first | exact Or.inl rfl | exact Or.inr (Nat.le_of_ble_eq_true rfl) | exact Or.inr (by simp; done) | skip)))

theorem heartbeatTurn_sound (x0) (s) (h : Sound s) : Sound (heartbeatTurn x0 s) := by
  unfold heartbeatTurn
  repeat (first
    | with_reducible assumption
    | (with_reducible refine heartbeatOp_sound (h := ?_) ..)
    | (with_reducible refine (remoteReturns_only ..).sound (by decide) ?_))

theorem stwWrite_sound {m a v} {s t} (e : stwWrite m a v s = some t) (h : Sound s) : Sound t := by
  unfold stwWrite at e
  split at e
  · cases e
    split
    · exact Sound.ite (heartbeatTurn_sound _ _ h) h
    · exact h
  · repeat' split at e
    · cases e
      exact settleAlive_sound _ ((plainWrite_only ..).sound (by decide) h)
    all_goals first | (cases e; done) | (cases e; exact h)

theorem blockWrite_sound {f : Bool → Word → State → State} (hf : ∀ b v t, Sound t → Sound (f b v t)) (m a v be) (s : State) (h : Sound s) :
    Sound (blockWrite f m a v be s) := by
  unfold blockWrite
  refine Sound.ite h ?_
  split
  · exact h
  · refine Sound.ite (hf _ _ _ h) (Sound.ite (hf _ _ _ h) ?_)
    split
    · exact actWrite_sound (by assumption) h
    · exact (irqWrite_only (by assumption)).sound (by decide) h
    · exact stwWrite_sound (by assumption) h
    · exact (plainWrite_only ..).sound (by decide) h

theorem sramCe_sound (x) (s) (h : Sound s) : Sound (sramCe x s) := by
  unfold sramCe
  extract_lets n u v s1 s2 s3
  have hu : Sound u := (setReg_only ..).sound (by decide) h
  have h1 : Sound s1 := Sound.upd hu (.inl rfl) (.inl rfl) (.inl rfl) (.inl rfl) (.inl rfl) (.inl rfl) (.inl rfl) (.inl rfl) (.inl rfl)
  have h2 : Sound s2 := Sound.ite h1 ((setReg_only ..).sound (by decide) ((setReg_only ..).sound (by decide) h1))
  have h3 : Sound s3 := (evRaise_only ..).sound (by decide) h2
  exact Sound.ite ((ledger_only ..).sound (by decide) h3) h3

theorem sramLine_sound (x0) (x1) (x2) (x3) (s) (h : Sound s) : Sound (sramLine x0 x1 x2 x3 s).2.2 := by
  unfold sramLine
  repeat (first
    | with_reducible assumption
    | (with_reducible refine sramCe_sound (h := ?_) ..)
    | (with_reducible refine (sramUe_only ..).sound (by decide) ?_)
    | (extract_lets +onlyGivenNames t1; with_reducible refine Sound.cut ‹_› (t := t1) ?_ ?_ <;> [(subst t1; intro); (clear_value t1; intro)])
    | (extract_lets +onlyGivenNames t1; with_reducible refine Sound.cut ‹_› (t := t1.2) ?_ ?_ <;> [(subst t1; intro); (clear_value t1; intro)])
    | (extract_lets +onlyGivenNames t1; subst t1)
    | split
    | (fail_if_no_progress (with_reducible apply Sound.upd <;> first | exact Or.inl rfl | exact Or.inr (Nat.le_of_ble_eq_true rfl) | exact Or.inr (by simp; done) | skip)))

theorem drcRefReadOp_sound (x0) (s) (h : Sound s) : Sound (drcRefReadOp x0 s) := by
  unfold drcRefReadOp
  repeat (first
    | with_reducible assumption
    | with_reducible refine setDrc_sound ?_ (by first | exact Or.inl rfl | exact Or.inr (Nat.le_of_ble_eq_true rfl))
    | (extract_lets +onlyGivenNames t1; with_reducible refine Sound.cut ‹_› (t := t1) ?_ ?_ <;> [(subst t1; intro); (clear_value t1; intro)])
    | (extract_lets +onlyGivenNames t1; with_reducible refine Sound.cut ‹_› (t := t1.2) ?_ ?_ <;> [(subst t1; intro); (clear_value t1; intro)])
    | (extract_lets +onlyGivenNames t1; subst t1)
    | (fail_if_no_progress (with_reducible apply Sound.upd <;> first | exact Or.inl rfl | exact Or.inr (Nat.le_of_ble_eq_true rfl) | exact Or.inr (by simp; done) | skip)))

theorem readReg_sound (x0) (s) (h : Sound s) : Sound (readReg x0 s) := by
  unfold readReg
  repeat (first
    | with_reducible assumption
    | (with_reducible refine (draw_only ..).sound (by decide) ?_)
    | (with_reducible refine (thermReadOp_only ..).sound (by decide) ?_)
    | (with_reducible refine (irqStatReadOp_only ..).sound (by decide) ?_)
    | (with_reducible refine (cisStatReadOp_only ..).sound (by decide) ?_)
    | (with_reducible refine (corStatReadOp_only ..).sound (by decide) ?_)
    | (with_reducible refine (timeReadOp_only ..).sound (by decide) ?_)
    | (with_reducible refine (tcapPopOp_only ..).sound (by decide) ?_)
    | (with_reducible refine (splitRead_only ..).sound (by decide) ?_)
    | (with_reducible refine (ptimeReadOp_only ..).sound (by decide) ?_)
    | (with_reducible refine (recAdvance_only ..).sound (by decide) ?_)
    | (with_reducible refine (rptPopOp_only ..).sound (by decide) ?_)
    | (with_reducible refine drcRefReadOp_sound (h := ?_) ..)
    | (extract_lets +onlyGivenNames t1; with_reducible refine Sound.cut ‹_› (t := t1) ?_ ?_ <;> [(subst t1; intro); (clear_value t1; intro)])
    | (extract_lets +onlyGivenNames t1; with_reducible refine Sound.cut ‹_› (t := t1.2) ?_ ?_ <;> [(subst t1; intro); (clear_value t1; intro)])
    | (extract_lets +onlyGivenNames t1; subst t1)
    | split
    | with_reducible refine Sound.ite ?_ ?_
    | (fail_if_no_progress (with_reducible apply Sound.upd <;> first | exact Or.inl rfl | exact Or.inr (Nat.le_of_ble_eq_true rfl) | exact Or.inr (by simp; done) | skip)))

theorem readWord_sound (x0) (s) (h : Sound s) : Sound (readWord x0 s).2 := by
  unfold readWord
  repeat (first
    | with_reducible assumption
    | (with_reducible refine readReg_sound (h := ?_) ..)
    | (extract_lets +onlyGivenNames t1; with_reducible refine Sound.cut ‹_› (t := t1) ?_ ?_ <;> [(subst t1; intro); (clear_value t1; intro)])
    | (extract_lets +onlyGivenNames t1; with_reducible refine Sound.cut ‹_› (t := t1.2) ?_ ?_ <;> [(subst t1; intro); (clear_value t1; intro)])
    | (extract_lets +onlyGivenNames t1; subst t1)
    | (fail_if_no_progress (with_reducible apply Sound.upd <;> first | exact Or.inl rfl | exact Or.inr (Nat.le_of_ble_eq_true rfl) | exact Or.inr (by simp; done) | skip)))

theorem lineRead_sound (x0) (x1) (x2) (s) (h : Sound s) : Sound (lineRead x0 x1 x2 s) := by
  unfold lineRead
  repeat (first
    | with_reducible assumption
    | (with_reducible refine (holdLine_only ..).sound (by decide) ?_)
    | (with_reducible refine (countCe_only ..).sound (by decide) ?_)
    | (with_reducible refine (setReg_only ..).sound (by decide) ?_)
    | (with_reducible refine (ledgerLim_only ..).sound (by decide) ?_)
    | (with_reducible refine (evRaise_only ..).sound (by decide) ?_)
    | with_reducible refine setDrc_sound ?_ (by first | exact Or.inl rfl | exact Or.inr (Nat.le_of_ble_eq_true rfl))
    | (extract_lets +onlyGivenNames t1; with_reducible refine Sound.cut ‹_› (t := t1) ?_ ?_ <;> [(subst t1; intro); (clear_value t1; intro)])
    | split
    | with_reducible refine Sound.ite ?_ ?_)

theorem readErrs_sound (x0) (x1) (s) (h : Sound s) : Sound (readErrs x0 x1 s) := by
  fun_induction readErrs x0 x1 s
  all_goals repeat (first
    | with_reducible assumption
    | (with_reducible apply_assumption)
    | (with_reducible refine lineRead_sound (h := ?_) ..)
    | split)

theorem readRuns_sound (port runs errs) (s) (h : Sound s) : Sound (readRuns port runs errs s).1 := by
  unfold readRuns
  exact readErrs_sound _ _ _ h

theorem bestRead_sound (a n errs) (s) (h : Sound s) : Sound (bestRead a n errs s).2.2 := by
  unfold bestRead
  extract_lets r
  have hr : Sound r.1 := readRuns_sound _ _ _ _ h
  repeat' split
  · exact h
  · exact hr
  · exact hr

theorem targetRead_sound (m a symbols) (s) (h : Sound s) : Sound (targetRead m a symbols s).2.2 := by
  unfold targetRead
  extract_lets off r1 r2 d r3
  split
  · exact readWord_sound _ _ h
  · exact sramLine_sound _ _ _ _ _ h
  · exact (draw_only ..).sound (by decide) h
  · exact h
  · exact sramLine_sound _ _ _ _ _ h
  · exact bestRead_sound _ _ _ _ h

theorem shadowPut_sound (x0) (x1) (s) (h : Sound s) : Sound (shadowPut x0 x1 s) := by
  unfold shadowPut
  repeat (first
    | with_reducible assumption
    | with_reducible refine setSch_sound ?_ (by first | exact Or.inl rfl | exact Or.inr (Nat.le_of_ble_eq_true rfl)) (by first | exact Or.inl rfl | exact Or.inr (by simp; done))
    | (extract_lets +onlyGivenNames t1; with_reducible refine Sound.cut ‹_› (t := t1) ?_ ?_ <;> [(subst t1; intro); (clear_value t1; intro)])
    | (extract_lets +onlyGivenNames t1; with_reducible refine Sound.cut ‹_› (t := t1.2) ?_ ?_ <;> [(subst t1; intro); (clear_value t1; intro)])
    | (extract_lets +onlyGivenNames t1; subst t1)
    | split
    | with_reducible refine Sound.ite ?_ ?_
    | (fail_if_no_progress (with_reducible apply Sound.upd <;> first | exact Or.inl rfl | exact Or.inr (Nat.le_of_ble_eq_true rfl) | exact Or.inr (by simp; done) | skip)))

theorem putPiece_sound (x0) (x1) (s) (h : Sound s) : Sound (putPiece x0 x1 s).2 := by
  unfold putPiece
  repeat (first
    | with_reducible assumption
    | (with_reducible refine dramPut_sound (h := ?_) ..)
    | (with_reducible refine lineRead_sound (h := ?_) ..)
    | (extract_lets +onlyGivenNames t1; subst t1)
    | split
    | with_reducible refine Sound.ite ?_ ?_)

theorem putPieces_sound (x0) (x1) (s) (h : Sound s) : Sound (putPieces x0 x1 s).2 := by
  fun_induction putPieces x0 x1 s
  all_goals repeat (first
    | with_reducible assumption
    | (with_reducible apply_assumption)
    | (with_reducible refine putPiece_sound (h := ?_) ..)
    | split)

theorem bestWrite_sound (x0) (x1) (x2) (s) (h : Sound s) : Sound (bestWrite x0 x1 x2 s).2 := by
  unfold bestWrite
  repeat (first
    | with_reducible assumption
    | (with_reducible refine putPieces_sound (h := ?_) ..)
    | (extract_lets +onlyGivenNames t1; with_reducible refine Sound.cut ‹_› (t := t1.2) ?_ ?_ <;> [(subst t1; intro); (clear_value t1; intro)])
    | split
    | with_reducible refine Sound.ite ?_ ?_)

theorem targetWrite_sound (m a v be symbols) (s : State) (h : Sound s) : Sound (targetWrite m a v be symbols s).2 := by
  unfold targetWrite
  extract_lets off d
  split
  · exact Sound.ite h (shadowPut_sound _ _ _ h)
  · exact sramPut_sound _ _ _ h
  · exact bestWrite_sound _ _ _ _ h
  · exact h

theorem targetUe_sound (x0) (x1) (s) (h : Sound s) : Sound (targetUe x0 x1 s) := by
  unfold targetUe
  repeat (first
    | with_reducible assumption
    | (with_reducible refine (sramUe_only ..).sound (by decide) ?_)
    | (with_reducible refine lineRead_sound (h := ?_) ..)
    | split)

theorem writeNow_sound {f : Bool → Word → State → State} (hf : ∀ b v t, Sound t → Sound (f b v t)) (m a v be) (s : State) (h : Sound s) :
    Sound (writeNow f m a v be s) := by
  have he : ∀ c m a t, Sound t → Sound (writeError c m a t) := fun _ _ _ _ h => writeError_sound _ _ _ _ h
  have ht : Sound (targetWrite m a v be [] s).2 := targetWrite_sound _ _ _ _ _ _ h
  unfold writeNow
  exact Sound.ite (he _ _ _ _ h) (Sound.ite (he _ _ _ _ h) (Sound.ite (blockWrite_sound hf _ _ _ _ _ h) (Sound.ite ht (he _ _ _ _ ht))))

theorem rememberCore_sound (x0) (x1) (s) (h : Sound s) : Sound (rememberCore x0 x1 s) := by
  unfold rememberCore
  repeat (first
    | with_reducible assumption
    | (extract_lets +onlyGivenNames t1; with_reducible refine Sound.cut ‹_› (t := t1) ?_ ?_ <;> [(subst t1; intro); (clear_value t1; intro)])
    | (extract_lets +onlyGivenNames t1; with_reducible refine Sound.cut ‹_› (t := t1.2) ?_ ?_ <;> [(subst t1; intro); (clear_value t1; intro)])
    | (extract_lets +onlyGivenNames t1; subst t1)
    | (fail_if_no_progress (with_reducible apply Sound.upd <;> first | exact Or.inl rfl | exact Or.inr (Nat.le_of_ble_eq_true rfl) | exact Or.inr (by simp; done) | skip)))

theorem badHandleAt_sound (s) (h : Sound s) : Sound (badHandleAt s) := by
  unfold badHandleAt
  repeat (first
    | with_reducible assumption
    | (with_reducible refine (evRaise_only ..).sound (by decide) ?_)
    | (extract_lets +onlyGivenNames t1; with_reducible refine Sound.cut ‹_› (t := t1) ?_ ?_ <;> [(subst t1; intro); (clear_value t1; intro)])
    | (extract_lets +onlyGivenNames t1; with_reducible refine Sound.cut ‹_› (t := t1.2) ?_ ?_ <;> [(subst t1; intro); (clear_value t1; intro)])
    | (extract_lets +onlyGivenNames t1; subst t1)
    | (fail_if_no_progress (with_reducible apply Sound.upd <;> first | exact Or.inl rfl | exact Or.inr (Nat.le_of_ble_eq_true rfl) | exact Or.inr (by simp; done) | skip)))

theorem dspDone_sound (x0) (x1) (s) (h : Sound s) : Sound (dspDone x0 x1 s) := by
  unfold dspDone
  repeat (first
    | with_reducible assumption
    | (with_reducible refine freeSlotOf_sound (h := ?_) ..)
    | (with_reducible refine rememberCore_sound (h := ?_) ..)
    | (with_reducible refine badHandleAt_sound (h := ?_) ..)
    | (extract_lets +onlyGivenNames t1; subst t1)
    | split
    | with_reducible refine Sound.ite ?_ ?_)

theorem forwardItem_sound (x0) (x1) (x2) (x3) (s) (h : Sound s) : Sound (forwardItem x0 x1 x2 x3 s) := by
  unfold forwardItem
  repeat (first
    | with_reducible assumption
    | (with_reducible refine advanceFlow_sound (h := ?_) ..)
    | (with_reducible refine addAt_sound (h := ?_) ..)
    | (with_reducible refine rememberCore_sound (h := ?_) ..))

theorem dspFwd_sound (x0) (x1) (s) (h : Sound s) : Sound (dspFwd x0 x1 s) := by
  unfold dspFwd
  repeat (first
    | with_reducible assumption
    | (with_reducible refine forwardItem_sound (h := ?_) ..)
    | (with_reducible refine badHandleAt_sound (h := ?_) ..)
    | (extract_lets +onlyGivenNames t1; subst t1)
    | split)

theorem dspAdd_sound (x0) (x1) (s) (h : Sound s) : Sound (dspAdd x0 x1 s) := by
  unfold dspAdd
  repeat (first
    | with_reducible assumption
    | (with_reducible refine (addResult_only ..).sound (by decide) ?_)
    | (with_reducible refine addAt_sound (h := ?_) ..)
    | (extract_lets +onlyGivenNames t1; subst t1)
    | split
    | with_reducible refine Sound.ite ?_ ?_)

theorem portWrite_sound (x0) (x1) (x2) (s) (h : Sound s) : Sound (portWrite x0 x1 x2 s) := by
  unfold portWrite
  repeat (first
    | with_reducible assumption
    | (with_reducible refine dspDone_sound (h := ?_) ..)
    | (with_reducible refine dspFwd_sound (h := ?_) ..)
    | (with_reducible refine dspAdd_sound (h := ?_) ..)
    | (with_reducible refine (plainWrite_only ..).sound (by decide) ?_)
    | split
    | with_reducible refine Sound.ite ?_ ?_)

theorem reportComplete_sound (x0) (x1) (x2) (s) (h : Sound s) : Sound (reportComplete x0 x1 x2 s) := by
  unfold reportComplete
  repeat (first
    | with_reducible assumption
    | (with_reducible refine endOp_sound (h := ?_) ..)
    | (with_reducible refine (cplAnswer_only ..).sound (by decide) ?_)
    | (with_reducible refine (tellAborts_only ..).sound (by decide) ?_)
    | (with_reducible refine (refuseReport_only ..).sound (by decide) ?_)
    | split)

theorem reportWithdraw_sound (x0) (s) (h : Sound s) : Sound (reportWithdraw x0 s).2 := by
  unfold reportWithdraw
  repeat (first
    | with_reducible assumption
    | (with_reducible refine endOp_sound (h := ?_) ..)
    | (with_reducible refine (cplAnswer_only ..).sound (by decide) ?_)
    | (with_reducible refine (tellAborts_only ..).sound (by decide) ?_)
    | (with_reducible refine (refuseReport_only ..).sound (by decide) ?_)
    | (extract_lets +onlyGivenNames t1; with_reducible refine Sound.cut ‹_› (t := t1) ?_ ?_ <;> [(subst t1; intro); (clear_value t1; intro)])
    | split
    | with_reducible refine Sound.ite ?_ ?_)

theorem cplReport_sound {f : Nat → State → State} (hf : ∀ c t, Sound t → Sound (f c t)) (c : Nat) (v : Word) (s : State) (h : Sound s) :
    Sound (cplReport f c v s) := by
  unfold cplReport
  extract_lets t
  have ht : Sound t := (commitOutcomes_only ..).sound (by decide) h
  clear_value t
  split
  · exact ht
  · split
    · exact (reportCommit_only ..).sound (by decide) ht
    · exact reportComplete_sound _ _ _ _ ht
    · have h2 := reportWithdraw_sound c t ht
      split <;> rename_i e <;> rw [e] at h2
      · exact hf _ _ h2
      · exact h2

theorem cplWrite_sound (c off v) (s) (h : Sound s) : Sound (cplWrite c off v s) := by
  unfold cplWrite
  split
  · exact cplReport_sound (fun _ _ h => withdrawTok_sound _ _ h) _ _ _ h
  · split
    · exact (plainWrite_only ..).sound (by decide) h
    · exact h

theorem localWrite_sound (c a v be) (s) (h : Sound s) : Sound (localWrite c a v be s) := by
  have ht : ∀ {m : SMap Byte}, smWf 0 m = true → ∀ k, smWf 0 (tcmPut c k v be m) = true := fun hm _ => by
    unfold tcmPut
    exact smWf_writeBytes hm ..
  unfold localWrite
  refine Sound.ite ?_ (Sound.ite ?_ (Sound.ite (Sound.ite (portWrite_sound _ _ _ _ h) h) (Sound.ite (Sound.ite (cplWrite_sound _ _ _ _ h) h) ?_)))
  · exact Sound.upd h (.inl rfl) (.inl rfl) (.inl rfl) (.inl rfl) (.inl rfl) (.inl rfl) (.inr (ht h.2.2.1 _)) (.inl rfl) (.inl rfl)
  · exact Sound.upd h (.inl rfl) (.inl rfl) (.inl rfl) (.inl rfl) (.inl rfl) (.inl rfl) (.inl rfl) (.inr (ht h.2.2.2.1 _)) (.inl rfl)
  · exact coreFault_sound _ _ _ h

theorem regWriteWith_sound {f : Bool → Word → State → State} (hf : ∀ b v t, Sound t → Sound (f b v t)) (m a v be) (s : State) (h : Sound s) :
    Sound (regWriteWith f m a v be s) := by
  unfold regWriteWith
  split
  · exact Sound.ite (localWrite_sound _ _ _ _ _ h) h
  · exact Sound.ite ((holdReq_only ..).sound (by decide) h) (writeNow_sound hf _ _ _ _ _ h)

theorem winTarget_sound {w : Master → Nat → Word → State → State} (hf : ∀ m a v t, Sound t → Sound (w m a v t)) (svc tx data symbols)
    (s : State) (h : Sound s) : Sound (winTarget w svc tx data symbols s) := by
  have he : ∀ a b c d t, Sound t → Sound (winEnd a b c d t) := fun _ _ _ _ _ h => (winEnd_only ..).sound (by decide) h
  have hm : ∀ a b t, Sound t → Sound (mtxError a b t) := fun _ _ _ h => (mtxError_only ..).sound (by decide) h
  have hr : ∀ m a y, Sound (targetRead m a y s).2.2 := fun _ _ _ => targetRead_sound _ _ _ _ h
  have ht : ∀ m a v b y, Sound (targetWrite m a v b y s).2 := fun _ _ _ _ _ => targetWrite_sound _ _ _ _ _ _ h
  unfold winTarget
  extract_lets m r q
  exact Sound.ite (Sound.ite (he _ _ _ _ _ (hf _ _ _ _ h)) (he _ _ _ _ _ (Sound.ite (ht ..) (hm _ _ _ (ht ..)))))
    (he _ _ _ _ _ (Sound.ite (hr ..) (hm _ _ _ (hr ..))))

theorem winAccess_sound {w : Master → Nat → Word → State → State} (hf : ∀ m a v t, Sound t → Sound (w m a v t)) (svc tx data ans)
    (s : State) (h : Sound s) : Sound (winAccess w svc tx data ans s) := by
  have he : ∀ a b c d t, Sound t → Sound (winEnd a b c d t) := fun _ _ _ _ _ h => (winEnd_only ..).sound (by decide) h
  have hm : ∀ a b t, Sound t → Sound (mtxError a b t) := fun _ _ _ h => (mtxError_only ..).sound (by decide) h
  unfold winAccess
  refine Sound.ite (he _ _ _ _ _ (hm _ _ _ h)) ?_
  split
  · exact winTarget_sound hf _ _ _ _ _ h
  · exact winTarget_sound hf _ _ _ _ _ h
  · exact he _ _ _ _ _ (hm _ _ _ (targetUe_sound _ _ _ h))
  · exact (setMtx_only ..).sound (by decide) h

theorem winGoWith_sound {w : Master → Nat → Word → State → State} (hf : ∀ m a v t, Sound t → Sound (w m a v t))
    (svc ctl ans) (s : State) (h : Sound s) : Sound (winGoWith w svc ctl ans s) := by
  unfold winGoWith
  extract_lets a data tx busy
  have hb : Sound busy := (setReg_only ..).sound (by decide) h
  exact Sound.ite h (Sound.ite ((holdReq_only ..).sound (by decide) hb) (winAccess_sound hf _ _ _ _ _ hb))

theorem blockWriteNone_sound (m a v) (s) (h : Sound s) : Sound (blockWriteNone m a v s) :=
  blockWrite_sound (fun _ _ _ h => h) m a v 15 s h

theorem blockWriteInner_sound (m a v) (s) (h : Sound s) : Sound (blockWriteInner m a v s) :=
  blockWrite_sound (fun _ _ _ h => winGoWith_sound (fun _ _ _ _ h => blockWriteNone_sound _ _ _ _ h) _ _ _ _ h) m a v 15 s h

theorem winGo_sound (svc ctl ans) (s) (h : Sound s) : Sound (winGo svc ctl ans s) :=
  winGoWith_sound (fun _ _ _ _ h => blockWriteInner_sound _ _ _ _ h) svc ctl ans s h

theorem regWrite_sound (m a v be) (s) (h : Sound s) : Sound (regWrite m a v be s) :=
  regWriteWith_sound (fun _ _ _ h => winGo_sound _ _ _ _ h) m a v be s h

theorem performHeld_sound (x) (s) (h : Sound s) : Sound (performHeld x s) := by
  unfold performHeld
  split
  · exact Sound.ite (winAccess_sound (fun _ _ _ _ h => blockWriteInner_sound _ _ _ _ h) _ _ _ _ _ h) h
  · exact writeNow_sound (fun _ _ _ h => winGo_sound _ _ _ _ h) _ _ _ _ _ h

theorem releaseList_sound (l k) (s) (h : Sound s) : Sound (releaseList l k s) := by
  induction l generalizing k s with
  | nil => exact (setMtx_only ..).sound (by decide) h
  | cons x xs ih =>
    rw [releaseList]
    exact Sound.ite (ih _ _ h) (ih _ _ (performHeld_sound _ _ h))

theorem releaseHeld_sound (s) (h : Sound s) : Sound (releaseHeld s) := by
  unfold releaseHeld
  repeat (first
    | with_reducible assumption
    | (with_reducible refine releaseList_sound (h := ?_) ..)
    | (with_reducible refine (setMtx_only ..).sound (by decide) ?_))

theorem svcWords_sound (n a) (s) (h : Sound s) : Sound (svcWords n a s).2 := by
  induction n generalizing a s with
  | zero => exact h
  | succ n ih =>
    refine ih _ _ ?_
    split
    · exact readWord_sound _ _ h
    · exact h

theorem svcStore_sound (x0) (x1) (s) (h : Sound s) : Sound (svcStore x0 x1 s) := by
  fun_induction svcStore x0 x1 s
  all_goals repeat (first
    | with_reducible assumption
    | (with_reducible apply_assumption)
    | (with_reducible refine regWrite_sound (h := ?_) ..)
    | split
    | with_reducible refine Sound.ite ?_ ?_)

theorem dramZero_sound (x0) (x1) (s) (h : Sound s) : Sound (dramZero x0 x1 s) := by
  exact setDrc_sound h (.inr (smWf_clearRange _ _ h.2.1))

theorem zeroTail_sound (x0) (x1) (s) (h : Sound s) : Sound (zeroTail x0 x1 s) := by
  unfold zeroTail
  repeat (first
    | with_reducible assumption
    | (with_reducible refine (setCor_only ..).sound (by decide) ?_)
    | (with_reducible refine (setOut_only ..).sound (by decide) ?_)
    | (with_reducible refine dramZero_sound (h := ?_) ..)
    | (extract_lets +onlyGivenNames t1; with_reducible refine Sound.cut ‹_› (t := t1) ?_ ?_ <;> [(subst t1; intro); (clear_value t1; intro)])
    | (extract_lets +onlyGivenNames t1; subst t1)
    | split
    | with_reducible refine Sound.ite ?_ ?_)

theorem clearOut_sound (x0) (x1) (s) (h : Sound s) : Sound (clearOut x0 x1 s) := by
  unfold clearOut
  repeat (first
    | with_reducible assumption
    | (with_reducible refine zeroTail_sound (h := ?_) ..)
    | (with_reducible refine (setCor_only ..).sound (by decide) ?_)
    | (with_reducible refine (setOut_only ..).sound (by decide) ?_))

theorem applyStage_sound (x0) (s) (h : Sound s) : Sound (applyStage x0 s) := by
  unfold applyStage
  repeat (first
    | with_reducible assumption
    | (with_reducible refine (applyKernel_only ..).sound (by decide) ?_)
    | (with_reducible refine (applySluice_only ..).sound (by decide) ?_)
    | (with_reducible refine (applyMeter_only ..).sound (by decide) ?_)
    | (with_reducible refine clearOut_sound (h := ?_) ..)
    | (with_reducible refine (applyRxMap_only ..).sound (by decide) ?_)
    | split
    | with_reducible refine Sound.foldl (fun _ _ _ => ?_) ?_ _)

theorem applyAll_sound (x0) (s) (h : Sound s) : Sound (applyAll x0 s) := by
  fun_induction applyAll x0 s
  all_goals repeat (first
    | with_reducible assumption
    | (with_reducible apply_assumption)
    | (with_reducible refine applyStage_sound (h := ?_) ..)
    | (with_reducible refine (applyTable_only ..).sound (by decide) ?_)
    | split)

theorem takeStage_sound (x0) (x1) (s) (h : Sound s) : Sound (takeStage x0 x1 s) := by
  unfold takeStage
  repeat (first
    | with_reducible assumption
    | (with_reducible refine (dropKeyed_only ..).sound (by decide) ?_)
    | (with_reducible refine applyAll_sound (h := ?_) ..))

theorem cutoff_sound (x0) (s) (h : Sound s) : Sound (cutoff x0 s) := by
  unfold cutoff
  repeat (first
    | with_reducible assumption
    | (with_reducible refine (commitKeyed_only ..).sound (by decide) ?_)
    | (with_reducible refine (issueEnd_only ..).sound (by decide) ?_)
    | (with_reducible refine (clearAll_only ..).sound (by decide) ?_)
    | (with_reducible refine (cutoffSegs_only ..).sound (by decide) ?_)
    | (with_reducible refine takeStage_sound (h := ?_) ..)
    | (with_reducible refine (takeSnap_only ..).sound (by decide) ?_)
    | (with_reducible refine (setClk_only ..).sound (by decide) ?_))

theorem cutoffOnce_sound (s) (h : Sound s) : Sound (cutoffOnce s) := by
  unfold cutoffOnce
  repeat (first
    | with_reducible assumption
    | (with_reducible refine cutoff_sound (h := ?_) ..)
    | split
    | with_reducible refine Sound.ite ?_ ?_)

theorem moveLane_sound (x0) (x1) (s) (h : Sound s) : Sound (moveLane x0 x1 s) := by
  unfold moveLane
  repeat (first
    | with_reducible assumption
    | (with_reducible refine (setCor_only ..).sound (by decide) ?_)
    | (with_reducible refine dramPut_sound (h := ?_) ..)
    | (extract_lets +onlyGivenNames t1; with_reducible refine Sound.cut ‹_› (t := t1) ?_ ?_ <;> [(subst t1; intro); (clear_value t1; intro)])
    | split
    | with_reducible refine Sound.ite ?_ ?_)

theorem assignLanes_sound (l) (s) (h : Sound s) : Sound (assignLanes l s) := by
  induction l generalizing s with
  | nil => exact h
  | cons x xs ih =>
    rw [assignLanes]
    exact ih _ (Sound.ite h (moveLane_sound _ _ _ h))

theorem lanesBoundary_sound (s) (h : Sound s) : Sound (lanesBoundary s) := by
  unfold lanesBoundary
  repeat (first
    | with_reducible assumption
    | (with_reducible refine assignLanes_sound (h := ?_) ..))

theorem swapSpectra_sound (x0) (x1) (s) (h : Sound s) : Sound (swapSpectra x0 x1 s) := by
  unfold swapSpectra
  repeat (first
    | with_reducible assumption
    | (with_reducible refine dramPut_sound (h := ?_) ..)
    | (extract_lets +onlyGivenNames t1; subst t1)
    | split
    | with_reducible refine Sound.ite ?_ ?_)

theorem endXf_sound (x0) (s) (h : Sound s) : Sound (endXf x0 s) := by
  unfold endXf
  repeat (first
    | with_reducible assumption
    | (with_reducible refine swapSpectra_sound (h := ?_) ..)
    | (with_reducible refine (setOut_only ..).sound (by decide) ?_)
    | (with_reducible refine (setCor_only ..).sound (by decide) ?_)
    | (with_reducible refine (ledger_only ..).sound (by decide) ?_)
    | (with_reducible refine (evRaise_only ..).sound (by decide) ?_)
    | (with_reducible refine (setXf_only ..).sound (by decide) ?_)
    | split
    | with_reducible refine Sound.ite ?_ ?_)

theorem endXfs_sound (x0) (s) (h : Sound s) : Sound (endXfs x0 s) := by
  fun_induction endXfs x0 s
  all_goals repeat (first
    | with_reducible assumption
    | (with_reducible apply_assumption)
    | (with_reducible refine endXf_sound (h := ?_) ..)
    | split)

theorem switchBoundary_sound (x0) (s) (h : Sound s) : Sound (switchBoundary x0 s) := by
  unfold switchBoundary
  repeat (first
    | with_reducible assumption
    | (with_reducible refine (commitSwitches_only ..).sound (by decide) ?_)
    | (with_reducible refine endXfs_sound (h := ?_) ..)
    | (with_reducible refine (setCor_only ..).sound (by decide) ?_))

theorem exchange_sound (x0) (s) (h : Sound s) : Sound (exchange x0 s) := by
  unfold exchange
  repeat (first
    | with_reducible assumption
    | with_reducible refine setSch_sound ?_ (by first | exact Or.inl rfl | exact Or.inr (Nat.le_of_ble_eq_true rfl)) (by first | exact Or.inl rfl | exact Or.inr (by simp; done))
    | (extract_lets +onlyGivenNames t1; with_reducible refine Sound.cut ‹_› (t := t1) ?_ ?_ <;> [(subst t1; intro); (clear_value t1; intro)])
    | (extract_lets +onlyGivenNames t1; with_reducible refine Sound.cut ‹_› (t := t1.2) ?_ ?_ <;> [(subst t1; intro); (clear_value t1; intro)])
    | (extract_lets +onlyGivenNames t1; subst t1)
    | (fail_if_no_progress (with_reducible apply Sound.upd <;> first | exact Or.inl rfl | exact Or.inr (Nat.le_of_ble_eq_true rfl) | exact Or.inr (by simp; done) | skip)))

theorem zeroOut_sound (x0) (s) (h : Sound s) : Sound (zeroOut x0 s) := by
  unfold zeroOut
  repeat (first
    | with_reducible assumption
    | (with_reducible refine (setOut_only ..).sound (by decide) ?_)
    | (with_reducible refine dramZero_sound (h := ?_) ..)
    | (extract_lets +onlyGivenNames t1; with_reducible refine Sound.cut ‹_› (t := t1) ?_ ?_ <;> [(subst t1; intro); (clear_value t1; intro)])
    | (extract_lets +onlyGivenNames t1; subst t1)
    | split
    | with_reducible refine Sound.ite ?_ ?_)

theorem zeroChains_sound (s) (h : Sound s) : Sound (zeroChains s) := by
  unfold zeroChains
  repeat (first
    | with_reducible assumption
    | (with_reducible refine zeroOut_sound (h := ?_) ..)
    | (with_reducible refine (setCor_only ..).sound (by decide) ?_)
    | (with_reducible refine dramZero_sound (h := ?_) ..)
    | (extract_lets +onlyGivenNames t1; with_reducible refine Sound.cut ‹_› (t := t1) ?_ ?_ <;> [(subst t1; intro); (clear_value t1; intro)])
    | (extract_lets +onlyGivenNames t1; with_reducible refine Sound.cut ‹_› (t := t1.2) ?_ ?_ <;> [(subst t1; intro); (clear_value t1; intro)])
    | (extract_lets +onlyGivenNames t1; subst t1)
    | split
    | with_reducible refine Sound.ite ?_ ?_
    | with_reducible refine Sound.eachObj (fun _ _ _ => ?_) ?_ _
    | (fail_if_no_progress (with_reducible apply Sound.upd <;> first | exact Or.inl rfl | exact Or.inr (Nat.le_of_ble_eq_true rfl) | exact Or.inr (by simp; done) | skip)))

theorem becomeActive_sound (x0) (s) (h : Sound s) : Sound (becomeActive x0 s) := by
  unfold becomeActive
  repeat (first
    | with_reducible assumption
    | (with_reducible refine (ledger_only ..).sound (by decide) ?_)
    | with_reducible refine setSch_sound ?_ (by first | exact Or.inl rfl | exact Or.inr (Nat.le_of_ble_eq_true rfl)) (by first | exact Or.inl rfl | exact Or.inr (by simp; done))
    | (extract_lets +onlyGivenNames t1; with_reducible refine Sound.cut ‹_› (t := t1) ?_ ?_ <;> [(subst t1; intro); (clear_value t1; intro)])
    | (extract_lets +onlyGivenNames t1; with_reducible refine Sound.cut ‹_› (t := t1.2) ?_ ?_ <;> [(subst t1; intro); (clear_value t1; intro)])
    | (extract_lets +onlyGivenNames t1; subst t1)
    | (fail_if_no_progress (with_reducible apply Sound.upd <;> first | exact Or.inl rfl | exact Or.inr (Nat.le_of_ble_eq_true rfl) | exact Or.inr (by simp; done) | skip)))

theorem newRun_sound (s) (h : Sound s) : Sound (newRun s) := by
  unfold newRun
  repeat (first
    | with_reducible assumption
    | (with_reducible refine (setReg_only ..).sound (by decide) ?_)
    | with_reducible refine setSch_sound ?_ (by first | exact Or.inl rfl | exact Or.inr (Nat.le_of_ble_eq_true rfl)) (by first | exact Or.inl rfl | exact Or.inr (by simp; done))
    | (extract_lets +onlyGivenNames t1; with_reducible refine Sound.cut ‹_› (t := t1) ?_ ?_ <;> [(subst t1; intro); (clear_value t1; intro)])
    | (extract_lets +onlyGivenNames t1; with_reducible refine Sound.cut ‹_› (t := t1.2) ?_ ?_ <;> [(subst t1; intro); (clear_value t1; intro)])
    | (extract_lets +onlyGivenNames t1; subst t1)
    | (fail_if_no_progress (with_reducible apply Sound.upd <;> first | exact Or.inl rfl | exact Or.inr (Nat.le_of_ble_eq_true rfl) | exact Or.inr (by simp; done) | skip)))

theorem startActivate_sound (x0) (s) (h : Sound s) : Sound (startActivate x0 s) := by
  have hs : ∀ n t, Sound t → Sound (setSch t (fun h => { h with armed := none, startN := n, stopN := none, old := none })) :=
    fun _ _ h => setSch_sound h (.inl rfl) (.inr (by simp))
  unfold startActivate
  extract_lets was s1 s2
  refine Sound.cut h (t := s1) ?_ ?_
  · intro h
    subst s1
    with_reducible refine exchange_sound (h := ?_) ..
    with_reducible refine zeroChains_sound (h := ?_) ..
    with_reducible exact (zeroPair_only ..).sound (by decide) h
  · clear_value s1 was
    intro h1
    refine Sound.cut h1 (t := s2) ?_ ?_
    · intro h1
      subst s2
      with_reducible exact hs _ _ h1
    · clear_value s2
      intro h2
      exact (report_only ..).sound (by decide) (becomeActive_sound _ _ (setRender_sound ((newFades_only ..).sound (by decide) (newRun_sound _ h2)) (by decide)))

theorem flushSwap_sound (s) (h : Sound s) : Sound (flushSwap s) := by
  unfold flushSwap
  repeat (first
    | with_reducible assumption
    | (with_reducible refine (report_only ..).sound (by decide) ?_)
    | with_reducible refine setSch_sound ?_ (by first | exact Or.inl rfl | exact Or.inr (Nat.le_of_ble_eq_true rfl)) (by first | exact Or.inl rfl | exact Or.inr (by simp; done))
    | (extract_lets +onlyGivenNames t1; with_reducible refine Sound.cut ‹_› (t := t1) ?_ ?_ <;> [(subst t1; intro); (clear_value t1; intro)])
    | (extract_lets +onlyGivenNames t1; with_reducible refine Sound.cut ‹_› (t := t1.2) ?_ ?_ <;> [(subst t1; intro); (clear_value t1; intro)])
    | (extract_lets +onlyGivenNames t1; subst t1)
    | split
    | with_reducible refine Sound.ite ?_ ?_
    | (fail_if_no_progress (with_reducible apply Sound.upd <;> first | exact Or.inl rfl | exact Or.inr (Nat.le_of_ble_eq_true rfl) | exact Or.inr (by simp; done) | skip)))

theorem flushRender_sound (s) (h : Sound s) : Sound (flushRender s) := by
  unfold flushRender
  repeat (first
    | with_reducible assumption
    | (with_reducible refine (flushSegments_only ..).sound (by decide) ?_)
    | (with_reducible refine (flushTrigs_only ..).sound (by decide) ?_)
    | (with_reducible refine (flushStarts_only ..).sound (by decide) ?_)
    | (with_reducible refine (flushEpoch_only ..).sound (by decide) ?_)
    | (with_reducible refine flushSwap_sound (h := ?_) ..)
    | (with_reducible refine (flushSwitches_only ..).sound (by decide) ?_)
    | (with_reducible refine (flushKeyed_only ..).sound (by decide) ?_))

theorem stopComplete_sound (x0) (s) (h : Sound s) : Sound (stopComplete x0 s) := by
  unfold stopComplete
  repeat (first
    | with_reducible assumption
    | with_reducible refine setRender_sound ?_ (by decide)
    | (with_reducible refine (report_only ..).sound (by decide) ?_)
    | (with_reducible refine (ledger_only ..).sound (by decide) ?_)
    | (with_reducible refine flushRender_sound (h := ?_) ..)
    | with_reducible refine setSch_sound ?_ (by first | exact Or.inl rfl | exact Or.inr (Nat.le_of_ble_eq_true rfl)) (by first | exact Or.inl rfl | exact Or.inr (by simp; done))
    | (extract_lets +onlyGivenNames t1; with_reducible refine Sound.cut ‹_› (t := t1) ?_ ?_ <;> [(subst t1; intro); (clear_value t1; intro)])
    | (extract_lets +onlyGivenNames t1; with_reducible refine Sound.cut ‹_› (t := t1.2) ?_ ?_ <;> [(subst t1; intro); (clear_value t1; intro)])
    | (extract_lets +onlyGivenNames t1; subst t1)
    | (fail_if_no_progress (with_reducible apply Sound.upd <;> first | exact Or.inl rfl | exact Or.inr (Nat.le_of_ble_eq_true rfl) | exact Or.inr (by simp; done) | skip)))

theorem restartDone_sound (x0) (s) (h : Sound s) : Sound (restartDone x0 s) := by
  unfold restartDone
  repeat (first
    | with_reducible assumption
    | with_reducible refine setRender_sound ?_ (by decide)
    | (with_reducible refine newRun_sound (h := ?_) ..)
    | (with_reducible refine (report_only ..).sound (by decide) ?_)
    | (with_reducible refine (ledger_only ..).sound (by decide) ?_)
    | with_reducible refine setSch_sound ?_ (by first | exact Or.inl rfl | exact Or.inr (Nat.le_of_ble_eq_true rfl)) (by first | exact Or.inl rfl | exact Or.inr (by simp; done))
    | (extract_lets +onlyGivenNames t1; with_reducible refine Sound.cut ‹_› (t := t1) ?_ ?_ <;> [(subst t1; intro); (clear_value t1; intro)])
    | (extract_lets +onlyGivenNames t1; with_reducible refine Sound.cut ‹_› (t := t1.2) ?_ ?_ <;> [(subst t1; intro); (clear_value t1; intro)])
    | (extract_lets +onlyGivenNames t1; subst t1)
    | split
    | with_reducible refine Sound.ite ?_ ?_
    | (fail_if_no_progress (with_reducible apply Sound.upd <;> first | exact Or.inl rfl | exact Or.inr (Nat.le_of_ble_eq_true rfl) | exact Or.inr (by simp; done) | skip)))

theorem swapDone_sound (x0) (s) (h : Sound s) : Sound (swapDone x0 s) := by
  unfold swapDone
  repeat (first
    | with_reducible assumption
    | (with_reducible refine (report_only ..).sound (by decide) ?_)
    | (with_reducible refine becomeActive_sound (h := ?_) ..)
    | (with_reducible refine (evRaise_only ..).sound (by decide) ?_)
    | with_reducible refine setSch_sound ?_ (by first | exact Or.inl rfl | exact Or.inr (Nat.le_of_ble_eq_true rfl)) (by first | exact Or.inl rfl | exact Or.inr (by simp; done))
    | (extract_lets +onlyGivenNames t1; with_reducible refine Sound.cut ‹_› (t := t1) ?_ ?_ <;> [(subst t1; intro); (clear_value t1; intro)])
    | (extract_lets +onlyGivenNames t1; with_reducible refine Sound.cut ‹_› (t := t1.2) ?_ ?_ <;> [(subst t1; intro); (clear_value t1; intro)])
    | (extract_lets +onlyGivenNames t1; subst t1)
    | split
    | with_reducible refine Sound.ite ?_ ?_
    | (fail_if_no_progress (with_reducible apply Sound.upd <;> first | exact Or.inl rfl | exact Or.inr (Nat.le_of_ble_eq_true rfl) | exact Or.inr (by simp; done) | skip)))

theorem countDrops_sound (x0) (x1) (s) (h : Sound s) : Sound (countDrops x0 x1 s) := by
  unfold countDrops
  repeat (first
    | with_reducible assumption
    | (with_reducible refine (ledger_only ..).sound (by decide) ?_)
    | (with_reducible refine (evRaise_only ..).sound (by decide) ?_)
    | with_reducible refine setSch_sound ?_ (by first | exact Or.inl rfl | exact Or.inr (Nat.le_of_ble_eq_true rfl)) (by first | exact Or.inl rfl | exact Or.inr (by simp; done))
    | (extract_lets +onlyGivenNames t1; with_reducible refine Sound.cut ‹_› (t := t1) ?_ ?_ <;> [(subst t1; intro); (clear_value t1; intro)])
    | (extract_lets +onlyGivenNames t1; with_reducible refine Sound.cut ‹_› (t := t1.2) ?_ ?_ <;> [(subst t1; intro); (clear_value t1; intro)])
    | (extract_lets +onlyGivenNames t1; subst t1)
    | split
    | (fail_if_no_progress (with_reducible apply Sound.upd <;> first | exact Or.inl rfl | exact Or.inr (Nat.le_of_ble_eq_true rfl) | exact Or.inr (by simp; done) | skip)))

theorem switchImages_sound (x0) (s) (h : Sound s) : Sound (switchImages x0 s) := by
  unfold switchImages
  repeat (first
    | with_reducible assumption
    | (with_reducible refine (newFades_only ..).sound (by decide) ?_)
    | (with_reducible refine countDrops_sound (h := ?_) ..)
    | (with_reducible refine exchange_sound (h := ?_) ..)
    | split)

theorem restartActivate_sound (x0) (s) (h : Sound s) : Sound (restartActivate x0 s) := by
  unfold restartActivate
  repeat (first
    | with_reducible assumption
    | (with_reducible refine restartDone_sound (h := ?_) ..)
    | (with_reducible refine swapDone_sound (h := ?_) ..)
    | (with_reducible refine switchImages_sound (h := ?_) ..)
    | (with_reducible refine becomeActive_sound (h := ?_) ..)
    | (with_reducible refine (report_only ..).sound (by decide) ?_)
    | with_reducible refine setSch_sound ?_ (by first | exact Or.inl rfl | exact Or.inr (Nat.le_of_ble_eq_true rfl)) (by first | exact Or.inl rfl | exact Or.inr (by simp; done))
    | (extract_lets +onlyGivenNames t1; with_reducible refine Sound.cut ‹_› (t := t1) ?_ ?_ <;> [(subst t1; intro); (clear_value t1; intro)])
    | (extract_lets +onlyGivenNames t1; with_reducible refine Sound.cut ‹_› (t := t1.2) ?_ ?_ <;> [(subst t1; intro); (clear_value t1; intro)])
    | (extract_lets +onlyGivenNames t1; subst t1)
    | split
    | with_reducible refine Sound.ite ?_ ?_
    | (fail_if_no_progress (with_reducible apply Sound.upd <;> first | exact Or.inl rfl | exact Or.inr (Nat.le_of_ble_eq_true rfl) | exact Or.inr (by simp; done) | skip)))

theorem armedBoundary_sound (x0) (s) (h : Sound s) : Sound (armedBoundary x0 s) := by
  unfold armedBoundary
  repeat (first
    | with_reducible assumption
    | (with_reducible refine startActivate_sound (h := ?_) ..)
    | (with_reducible refine stopComplete_sound (h := ?_) ..)
    | (with_reducible refine restartActivate_sound (h := ?_) ..)
    | split
    | with_reducible refine Sound.ite ?_ ?_)

theorem swapBoundary_sound (x0) (s) (h : Sound s) : Sound (swapBoundary x0 s) := by
  unfold swapBoundary
  repeat (first
    | with_reducible assumption
    | (with_reducible refine switchImages_sound (h := ?_) ..)
    | (with_reducible refine swapDone_sound (h := ?_) ..)
    | with_reducible refine setSch_sound ?_ (by first | exact Or.inl rfl | exact Or.inr (Nat.le_of_ble_eq_true rfl)) (by first | exact Or.inl rfl | exact Or.inr (by simp; done))
    | (extract_lets +onlyGivenNames t1; with_reducible refine Sound.cut ‹_› (t := t1) ?_ ?_ <;> [(subst t1; intro); (clear_value t1; intro)])
    | (extract_lets +onlyGivenNames t1; with_reducible refine Sound.cut ‹_› (t := t1.2) ?_ ?_ <;> [(subst t1; intro); (clear_value t1; intro)])
    | (extract_lets +onlyGivenNames t1; subst t1)
    | split
    | with_reducible refine Sound.ite ?_ ?_
    | (fail_if_no_progress (with_reducible apply Sound.upd <;> first | exact Or.inl rfl | exact Or.inr (Nat.le_of_ble_eq_true rfl) | exact Or.inr (by simp; done) | skip)))

theorem keyedTurn_sound (x0) (s) (h : Sound s) : Sound (keyedTurn x0 s) := by
  unfold keyedTurn
  repeat (first
    | with_reducible assumption
    | (with_reducible refine lanesBoundary_sound (h := ?_) ..)
    | (with_reducible refine switchBoundary_sound (h := ?_) ..)
    | (with_reducible refine (epochBoundary_only ..).sound (by decide) ?_)
    | (with_reducible refine armedBoundary_sound (h := ?_) ..)
    | (with_reducible refine swapBoundary_sound (h := ?_) ..)
    | (with_reducible refine takeStage_sound (h := ?_) ..)
    | (with_reducible refine (commitKeyed_only ..).sound (by decide) ?_)
    | split
    | with_reducible refine Sound.ite ?_ ?_)

theorem endPass_sound (x0) (s) (h : Sound s) : Sound (endPass x0 s) := by
  unfold endPass
  repeat (first
    | with_reducible assumption
    | (with_reducible refine (setGeo_only ..).sound (by decide) ?_)
    | (with_reducible refine (setReg_only ..).sound (by decide) ?_)
    | (extract_lets +onlyGivenNames t1; with_reducible refine Sound.cut ‹_› (t := t1) ?_ ?_ <;> [(subst t1; intro); (clear_value t1; intro)])
    | (extract_lets +onlyGivenNames t1; with_reducible refine Sound.cut ‹_› (t := t1.2) ?_ ?_ <;> [(subst t1; intro); (clear_value t1; intro)])
    | (extract_lets +onlyGivenNames t1; subst t1)
    | split
    | (fail_if_no_progress (with_reducible apply Sound.upd <;> first | exact Or.inl rfl | exact Or.inr (Nat.le_of_ble_eq_true rfl) | exact Or.inr (by simp; done) | skip)))

theorem passTurn_sound (x0) (s) (h : Sound s) : Sound (passTurn x0 s) := by
  unfold passTurn
  repeat (first
    | with_reducible assumption
    | (with_reducible refine (startPass_only ..).sound (by decide) ?_)
    | (with_reducible refine endPass_sound (h := ?_) ..)
    | split
    | with_reducible refine Sound.ite ?_ ?_)

theorem startTails_sound (x0) (x1) (x2) (s) (h : Sound s) : Sound (startTails x0 x1 x2 s) := by
  unfold startTails
  repeat (first
    | with_reducible assumption
    | (with_reducible refine zeroTail_sound (h := ?_) ..)
    | split
    | with_reducible refine Sound.ite ?_ ?_
    | with_reducible refine Sound.eachObj (fun _ _ _ => ?_) ?_ _)

theorem newReservations_sound (x0) (s) (h : Sound s) : Sound (newReservations x0 s) := by
  unfold newReservations
  repeat (first
    | with_reducible assumption
    | (with_reducible refine startTails_sound (h := ?_) ..)
    | split
    | with_reducible refine Sound.ite ?_ ?_)

theorem writeInGroups_sound (x0) (s) (h : Sound s) : Sound (writeInGroups x0 s) := by
  unfold writeInGroups
  repeat (first
    | with_reducible assumption
    | (with_reducible refine dramPut_sound (h := ?_) ..)
    | split
    | with_reducible refine Sound.ite ?_ ?_
    | with_reducible refine Sound.eachObj (fun _ _ _ => ?_) ?_ _)

theorem panicTail_sound (x0) (s) (h : Sound s) : Sound (panicTail x0 s) := by
  unfold panicTail
  repeat (first
    | with_reducible assumption
    | (with_reducible refine (evIf_only ..).sound (by decide) ?_)
    | with_reducible refine setDrc_sound ?_ (by first | exact Or.inl rfl | exact Or.inr (Nat.le_of_ble_eq_true rfl))
    | (extract_lets +onlyGivenNames t1; with_reducible refine Sound.cut ‹_› (t := t1) ?_ ?_ <;> [(subst t1; intro); (clear_value t1; intro)])
    | (extract_lets +onlyGivenNames t1; with_reducible refine Sound.cut ‹_› (t := t1.2) ?_ ?_ <;> [(subst t1; intro); (clear_value t1; intro)])
    | (extract_lets +onlyGivenNames t1; subst t1)
    | (fail_if_no_progress (with_reducible apply Sound.upd <;> first | exact Or.inl rfl | exact Or.inr (Nat.le_of_ble_eq_true rfl) | exact Or.inr (by simp; done) | skip)))

theorem settleTail_sound (s) (h : Sound s) : Sound (settleTail s) := by
  unfold settleTail
  repeat (first
    | with_reducible assumption
    | (with_reducible refine panicTail_sound (h := ?_) ..)
    | split)

theorem tailBoundary_sound (x0) (s) (h : Sound s) : Sound (tailBoundary x0 s) := by
  unfold tailBoundary
  repeat (first
    | with_reducible assumption
    | (with_reducible refine (setCor_only ..).sound (by decide) ?_)
    | (with_reducible refine writeInGroups_sound (h := ?_) ..)
    | (with_reducible refine (issueTail_only ..).sound (by decide) ?_)
    | (with_reducible refine settleTail_sound (h := ?_) ..)
    | (extract_lets +onlyGivenNames t1; with_reducible refine Sound.cut ‹_› (t := t1) ?_ ?_ <;> [(subst t1; intro); (clear_value t1; intro)])
    | split
    | with_reducible refine Sound.ite ?_ ?_)

theorem writeGroups_sound (x0) (x1) (s) (h : Sound s) : Sound (writeGroups x0 x1 s) := by
  fun_induction writeGroups x0 x1 s
  all_goals repeat (first
    | with_reducible assumption
    | (with_reducible apply_assumption)
    | (with_reducible refine dramPut_sound (h := ?_) ..)
    | split)

theorem panicCis_sound (x0) (s) (h : Sound s) : Sound (panicCis x0 s) := by
  unfold panicCis
  repeat (first
    | with_reducible assumption
    | (with_reducible refine (evIf_only ..).sound (by decide) ?_)
    | with_reducible refine setDrc_sound ?_ (by first | exact Or.inl rfl | exact Or.inr (Nat.le_of_ble_eq_true rfl))
    | (extract_lets +onlyGivenNames t1; with_reducible refine Sound.cut ‹_› (t := t1) ?_ ?_ <;> [(subst t1; intro); (clear_value t1; intro)])
    | (extract_lets +onlyGivenNames t1; with_reducible refine Sound.cut ‹_› (t := t1.2) ?_ ?_ <;> [(subst t1; intro); (clear_value t1; intro)])
    | (extract_lets +onlyGivenNames t1; subst t1)
    | (fail_if_no_progress (with_reducible apply Sound.upd <;> first | exact Or.inl rfl | exact Or.inr (Nat.le_of_ble_eq_true rfl) | exact Or.inr (by simp; done) | skip)))

theorem settlePanic_sound (s) (h : Sound s) : Sound (settlePanic s) := by
  unfold settlePanic
  repeat (first
    | with_reducible assumption
    | (with_reducible refine panicCis_sound (h := ?_) ..))

theorem refillBlock_sound (c b o) (s) (h : Sound s) : Sound (refillBlock c b o s) := by
  unfold refillBlock
  extract_lets ue s1
  have h1 : Sound s1 := (supplyBlock_only ..).sound (by decide) h
  clear_value ue
  split
  · exact (ledgerLim_only ..).sound (by decide) ((evRaise_only ..).sound (by decide) ((pairCount_only ..).sound (by decide) (readRuns_sound _ _ _ _ h1)))
  · exact h1

theorem refillObj_sound (x0) (x1) (s) (h : Sound s) : Sound (refillObj x0 x1 s) := by
  unfold refillObj
  repeat (first
    | with_reducible assumption
    | (with_reducible refine refillBlock_sound (h := ?_) ..)
    | split
    | with_reducible refine Sound.ite ?_ ?_
    | with_reducible refine Sound.foldl (fun _ _ _ => ?_) ?_ _)

theorem cisternTurn_sound (x0) (x1) (s) (h : Sound s) : Sound (cisternTurn x0 x1 s) := by
  unfold cisternTurn
  repeat (first
    | with_reducible assumption
    | (with_reducible refine writeGroups_sound (h := ?_) ..)
    | (with_reducible refine settlePanic_sound (h := ?_) ..)
    | (with_reducible refine (setPair_only ..).sound (by decide) ?_)
    | (with_reducible refine (issueFor_only ..).sound (by decide) ?_)
    | (with_reducible refine (retireFetches_only ..).sound (by decide) ?_)
    | (with_reducible refine refillObj_sound (h := ?_) ..)
    | (with_reducible refine (supplyObj_only ..).sound (by decide) ?_)
    | (extract_lets +onlyGivenNames t1; with_reducible refine Sound.cut ‹_› (t := t1) ?_ ?_ <;> [(subst t1; intro); (clear_value t1; intro)])
    | split
    | with_reducible refine Sound.ite ?_ ?_
    | with_reducible refine Sound.eachObj (fun _ _ _ => ?_) ?_ _)

theorem cisternBoundary_sound (x0) (s) (h : Sound s) : Sound (cisternBoundary x0 s) := by
  unfold cisternBoundary
  repeat (first
    | with_reducible assumption
    | (with_reducible refine cisternTurn_sound (h := ?_) ..)
    | (with_reducible refine (endTrans_only ..).sound (by decide) ?_)
    | with_reducible refine Sound.eachObj (fun _ _ _ => ?_) ?_ _)

theorem renderTurn_sound (x0) (s) (h : Sound s) : Sound (renderTurn x0 s) := by
  unfold renderTurn
  repeat (first
    | with_reducible assumption
    | (with_reducible refine newReservations_sound (h := ?_) ..)
    | (with_reducible refine (silenceBoundary_only ..).sound (by decide) ?_)
    | (with_reducible refine passTurn_sound (h := ?_) ..)
    | (with_reducible refine (pairBoundary_only ..).sound (by decide) ?_)
    | (with_reducible refine (setPair_only ..).sound (by decide) ?_)
    | (with_reducible refine tailBoundary_sound (h := ?_) ..)
    | (with_reducible refine cisternBoundary_sound (h := ?_) ..))

theorem captureWrite_sound (x0) (x1) (x2) (s) (h : Sound s) : Sound (captureWrite x0 x1 x2 s) := by
  have hm : ∀ a b t, Sound t → Sound (mtxError a b t) := fun _ _ _ h => (mtxError_only ..).sound (by decide) h
  unfold captureWrite
  extract_lets t r0 q
  have hr : Sound q.2 := bestWrite_sound _ _ _ _ h
  split
  · refine Sound.ite ?_ (hm _ _ _ h)
    exact Sound.upd h (.inl rfl) (.inl rfl) (.inl rfl) (.inl rfl) (.inl rfl) (.inl rfl) (.inl rfl) (.inl rfl) (.inr (smWf_writeBytes h.2.2.2.2 ..))
  · exact Sound.ite hr (hm _ _ _ hr)
  · exact (hostWrite_only ..).sound (by decide) h

theorem captureWrites_sound (x0) (x1) (s) (h : Sound s) : Sound (captureWrites x0 x1 s) := by
  fun_induction captureWrites x0 x1 s
  all_goals repeat (first
    | with_reducible assumption
    | (with_reducible apply_assumption)
    | (with_reducible refine captureWrite_sound (h := ?_) ..)
    | split)

theorem captureFlush_sound (x0) (s) (h : Sound s) : Sound (captureFlush x0 s) := by
  fun_induction captureFlush x0 s
  all_goals repeat (first
    | with_reducible assumption
    | (with_reducible apply_assumption)
    | (with_reducible refine (setLau_only ..).sound (by decide) ?_)
    | (with_reducible refine captureWrites_sound (h := ?_) ..)
    | split
    | with_reducible refine Sound.ite ?_ ?_)

theorem captureTranche_sound (x0) (s) (h : Sound s) : Sound (captureTranche x0 s) := by
  unfold captureTranche
  repeat (first
    | with_reducible assumption
    | (with_reducible refine (captureDrop_only ..).sound (by decide) ?_)
    | (with_reducible refine (setLau_only ..).sound (by decide) ?_)
    | (with_reducible refine captureWrites_sound (h := ?_) ..)
    | (with_reducible refine (captureEnd_only ..).sound (by decide) ?_)
    | (extract_lets +onlyGivenNames t1; with_reducible refine Sound.cut ‹_› (t := t1) ?_ ?_ <;> [(subst t1; intro); (clear_value t1; intro)])
    | (extract_lets +onlyGivenNames t1; subst t1)
    | split
    | with_reducible refine Sound.ite ?_ ?_)

theorem captureBoundary_sound (x0) (s) (h : Sound s) : Sound (captureBoundary x0 s) := by
  unfold captureBoundary
  repeat (first
    | with_reducible assumption
    | (with_reducible refine captureFlush_sound (h := ?_) ..)
    | (with_reducible refine (capUpTo_only ..).sound (by decide) ?_)
    | (with_reducible refine captureTranche_sound (h := ?_) ..)
    | (with_reducible refine (setLau_only ..).sound (by decide) ?_)
    | (with_reducible refine (evRaise_only ..).sound (by decide) ?_)
    | (with_reducible refine (reportAll_only ..).sound (by decide) ?_)
    | (extract_lets +onlyGivenNames t1; with_reducible refine Sound.cut ‹_› (t := t1) ?_ ?_ <;> [(subst t1; intro); (clear_value t1; intro)])
    | split
    | with_reducible refine Sound.ite ?_ ?_)

theorem audioBoundary_sound (x0) (s) (h : Sound s) : Sound (audioBoundary x0 s) := by
  unfold audioBoundary
  repeat (first
    | with_reducible assumption
    | (with_reducible refine (busAll_only ..).sound (by decide) ?_)
    | (with_reducible refine (stimBoundary_only ..).sound (by decide) ?_)
    | (with_reducible refine captureBoundary_sound (h := ?_) ..)
    | (with_reducible refine (monTick_only ..).sound (by decide) ?_)
    | (with_reducible refine (setLau_only ..).sound (by decide) ?_)
    | split
    | with_reducible refine Sound.ite ?_ ?_)

theorem judge_sound (x0) (s) (h : Sound s) : Sound (judge x0 s) := by
  unfold judge
  repeat (first
    | with_reducible assumption
    | (with_reducible refine dpxCount_sound (h := ?_) ..)
    | (with_reducible refine (ledger_only ..).sound (by decide) ?_)
    | (with_reducible refine (evRaise_only ..).sound (by decide) ?_)
    | (with_reducible refine (setReg_only ..).sound (by decide) ?_)
    | with_reducible refine setDpx_sound ?_ (by first | exact Or.inl rfl | exact Or.inr (Nat.le_of_ble_eq_true rfl))
    | (extract_lets +onlyGivenNames t1; with_reducible refine Sound.cut ‹_› (t := t1) ?_ ?_ <;> [(subst t1; intro); (clear_value t1; intro)])
    | (extract_lets +onlyGivenNames t1; subst t1)
    | split
    | with_reducible refine Sound.ite ?_ ?_)

theorem judgeAt_sound (x0) (s) (h : Sound s) : Sound (judgeAt x0 s) := by
  unfold judgeAt
  repeat (first
    | with_reducible assumption
    | (with_reducible refine judge_sound (h := ?_) ..)
    | split
    | with_reducible refine Sound.ite ?_ ?_)

theorem digestBoundary_sound {f : List Byte → State → State} (hf : ∀ b t, Sound t → Sound (f b t)) {s : State} (h : Sound s) :
    Sound (digestBoundary f s) := by
  have hd : ∀ t g, Sound t → (∀ d, (g d).st = d.st) → Sound (setDpx t g) := fun _ _ h hg => setDpx_sound h (.inl (hg _))
  unfold digestBoundary
  extract_lets n od di g s1
  have h1 : Sound s1 := hd _ _ h (fun _ => rfl)
  refine Sound.ite (Sound.ite ?_ h1) h
  exact judgeAt_sound _ _ (hd _ _ (hf _ _ h1) (fun _ => rfl))

theorem syncTurn_sound (s) (h : Sound s) : Sound (syncTurn s) := by
  unfold syncTurn
  repeat (first
    | with_reducible assumption
    | with_reducible refine setDpx_sound ?_ (by first | exact Or.inl rfl | exact Or.inr (Nat.le_of_ble_eq_true rfl))
    | (extract_lets +onlyGivenNames t1; with_reducible refine Sound.cut ‹_› (t := t1) ?_ ?_ <;> [(subst t1; intro); (clear_value t1; intro)])
    | (extract_lets +onlyGivenNames t1; with_reducible refine Sound.cut ‹_› (t := t1.2) ?_ ?_ <;> [(subst t1; intro); (clear_value t1; intro)])
    | (extract_lets +onlyGivenNames t1; subst t1)
    | split
    | (fail_if_no_progress (with_reducible apply Sound.upd <;> first | exact Or.inl rfl | exact Or.inr (Nat.le_of_ble_eq_true rfl) | exact Or.inr (by simp; done) | skip)))

theorem syncFault_sound (x0) (s) (h : Sound s) : Sound (syncFault x0 s) := by
  unfold syncFault
  repeat (first
    | with_reducible assumption
    | (with_reducible refine dpxCount_sound (h := ?_) ..)
    | (with_reducible refine (evRaise_only ..).sound (by decide) ?_)
    | (with_reducible refine (ledger_only ..).sound (by decide) ?_)
    | with_reducible refine setDpx_sound ?_ (by first | exact Or.inl rfl | exact Or.inr (Nat.le_of_ble_eq_true rfl))
    | (extract_lets +onlyGivenNames t1; with_reducible refine Sound.cut ‹_› (t := t1) ?_ ?_ <;> [(subst t1; intro); (clear_value t1; intro)])
    | split
    | with_reducible refine Sound.ite ?_ ?_)

theorem strobeBoundary_sound (s) (h : Sound s) : Sound (strobeBoundary s) := by
  unfold strobeBoundary
  repeat (first
    | with_reducible assumption
    | (with_reducible refine syncTurn_sound (h := ?_) ..)
    | (with_reducible refine (emit_only ..).sound (by decide) ?_)
    | (with_reducible refine syncFault_sound (h := ?_) ..)
    | with_reducible refine setDpx_sound ?_ (by first | exact Or.inl rfl | exact Or.inr (Nat.le_of_ble_eq_true rfl))
    | (extract_lets +onlyGivenNames t1; with_reducible refine Sound.cut ‹_› (t := t1) ?_ ?_ <;> [(subst t1; intro); (clear_value t1; intro)])
    | split
    | with_reducible refine Sound.ite ?_ ?_)

theorem dpxBoundary_sound (s) (h : Sound s) : Sound (dpxBoundary s) := by
  unfold dpxBoundary
  repeat (first
    | with_reducible assumption
    | (with_reducible refine (report_only ..).sound (by decide) ?_)
    | with_reducible refine setDpx_sound ?_ (by first | exact Or.inl rfl | exact Or.inr (Nat.le_of_ble_eq_true rfl))
    | (extract_lets +onlyGivenNames t1; with_reducible refine Sound.cut ‹_› (t := t1) ?_ ?_ <;> [(subst t1; intro); (clear_value t1; intro)])
    | split
    | with_reducible refine Sound.ite ?_ ?_)

theorem outerTurn_sound (x0) (s) (h : Sound s) : Sound (outerTurn x0 s) := by
  unfold outerTurn
  repeat (first
    | with_reducible assumption
    | (with_reducible refine (quietBoundary_only ..).sound (by decide) ?_)
    | (with_reducible refine (sendTicks_only ..).sound (by decide) ?_)
    | (with_reducible refine (handAll_only ..).sound (by decide) ?_)
    | (with_reducible refine (remoteReturns_only ..).sound (by decide) ?_)
    | (with_reducible refine audioBoundary_sound (h := ?_) ..)
    | (with_reducible refine (trigBoundary_only ..).sound (by decide) ?_)
    | (with_reducible refine (mapCapture_only ..).sound (by decide) ?_)
    | (with_reducible refine (sendDpx_only ..).sound (by decide) ?_)
    | (with_reducible refine strobeBoundary_sound (h := ?_) ..)
    | (with_reducible refine dpxBoundary_sound (h := ?_) ..)
    | with_reducible refine setDpx_sound ?_ (by first | exact Or.inl rfl | exact Or.inr (Nat.le_of_ble_eq_true rfl))
    | (extract_lets +onlyGivenNames t1; with_reducible refine Sound.cut ‹_› (t := t1) ?_ ?_ <;> [(subst t1; intro); (clear_value t1; intro)])
    | with_reducible refine digestBoundary_sound (fun _ _ h => (sendDpx_only ..).sound (by decide) h) ?_)

theorem dropStart_sound (s) (h : Sound s) : Sound (dropStart s) := by
  unfold dropStart
  repeat (first
    | with_reducible assumption
    | with_reducible refine setRender_sound ?_ (by decide)
    | (with_reducible refine (report_only ..).sound (by decide) ?_)
    | with_reducible refine setSch_sound ?_ (by first | exact Or.inl rfl | exact Or.inr (Nat.le_of_ble_eq_true rfl)) (by first | exact Or.inl rfl | exact Or.inr (by simp; done))
    | (extract_lets +onlyGivenNames t1; with_reducible refine Sound.cut ‹_› (t := t1) ?_ ?_ <;> [(subst t1; intro); (clear_value t1; intro)])
    | (extract_lets +onlyGivenNames t1; with_reducible refine Sound.cut ‹_› (t := t1.2) ?_ ?_ <;> [(subst t1; intro); (clear_value t1; intro)])
    | (extract_lets +onlyGivenNames t1; subst t1)
    | split
    | (fail_if_no_progress (with_reducible apply Sound.upd <;> first | exact Or.inl rfl | exact Or.inr (Nat.le_of_ble_eq_true rfl) | exact Or.inr (by simp; done) | skip)))

theorem guardActions_sound (x0) (s) (h : Sound s) : Sound (guardActions x0 s) := by
  unfold guardActions
  repeat (first
    | with_reducible assumption
    | (with_reducible refine deviceFault_sound (h := ?_) ..)
    | (with_reducible refine flushRender_sound (h := ?_) ..)
    | (with_reducible refine (guardRecord_only ..).sound (by decide) ?_)
    | with_reducible refine setSch_sound ?_ (by first | exact Or.inl rfl | exact Or.inr (Nat.le_of_ble_eq_true rfl)) (by first | exact Or.inl rfl | exact Or.inr (by simp; done))
    | (extract_lets +onlyGivenNames t1; with_reducible refine Sound.cut ‹_› (t := t1) ?_ ?_ <;> [(subst t1; intro); (clear_value t1; intro)])
    | (extract_lets +onlyGivenNames t1; with_reducible refine Sound.cut ‹_› (t := t1.2) ?_ ?_ <;> [(subst t1; intro); (clear_value t1; intro)])
    | (extract_lets +onlyGivenNames t1; subst t1)
    | (fail_if_no_progress (with_reducible apply Sound.upd <;> first | exact Or.inl rfl | exact Or.inr (Nat.le_of_ble_eq_true rfl) | exact Or.inr (by simp; done) | skip)))

theorem dropStop_sound (s) (h : Sound s) : Sound (dropStop s) := by
  unfold dropStop
  repeat (first
    | with_reducible assumption
    | with_reducible refine setRender_sound ?_ (by decide)
    | (with_reducible refine (report_only ..).sound (by decide) ?_)
    | with_reducible refine setSch_sound ?_ (by first | exact Or.inl rfl | exact Or.inr (Nat.le_of_ble_eq_true rfl)) (by first | exact Or.inl rfl | exact Or.inr (by simp; done))
    | (extract_lets +onlyGivenNames t1; with_reducible refine Sound.cut ‹_› (t := t1) ?_ ?_ <;> [(subst t1; intro); (clear_value t1; intro)])
    | (extract_lets +onlyGivenNames t1; with_reducible refine Sound.cut ‹_› (t := t1.2) ?_ ?_ <;> [(subst t1; intro); (clear_value t1; intro)])
    | (extract_lets +onlyGivenNames t1; subst t1)
    | split
    | (fail_if_no_progress (with_reducible apply Sound.upd <;> first | exact Or.inl rfl | exact Or.inr (Nat.le_of_ble_eq_true rfl) | exact Or.inr (by simp; done) | skip)))

theorem guardFault_sound (x0) (s) (h : Sound s) : Sound (guardFault x0 s) := by
  unfold guardFault
  repeat (first
    | with_reducible assumption
    | with_reducible refine setRender_sound ?_ (by decide)
    | (with_reducible refine (guardRecord_only ..).sound (by decide) ?_)
    | (with_reducible refine dropStart_sound (h := ?_) ..)
    | (with_reducible refine guardActions_sound (h := ?_) ..)
    | (with_reducible refine (countGuard_only ..).sound (by decide) ?_)
    | (with_reducible refine dropStop_sound (h := ?_) ..)
    | (extract_lets +onlyGivenNames t1; with_reducible refine Sound.cut ‹_› (t := t1) ?_ ?_ <;> [(subst t1; intro); (clear_value t1; intro)])
    | split
    | with_reducible refine Sound.ite ?_ ?_)

theorem guardFaults_sound (x0) (s) (h : Sound s) : Sound (guardFaults x0 s) := by
  fun_induction guardFaults x0 s
  all_goals repeat (first
    | with_reducible assumption
    | (with_reducible apply_assumption)
    | (with_reducible refine guardFault_sound (h := ?_) ..)
    | split)

theorem boundary_sound (x0) (x1) (s) (h : Sound s) : Sound (boundary x0 x1 s) := by
  unfold boundary
  repeat (first
    | with_reducible assumption
    | (with_reducible refine cutoffOnce_sound (h := ?_) ..)
    | (with_reducible refine (settleMerge_only ..).sound (by decide) ?_)
    | (with_reducible refine (meterTurn_only ..).sound (by decide) ?_)
    | (with_reducible refine guardFaults_sound (h := ?_) ..)
    | (with_reducible refine (commitDeadlines_only ..).sound (by decide) ?_)
    | (with_reducible refine keyedTurn_sound (h := ?_) ..)
    | (with_reducible refine (setClk_only ..).sound (by decide) ?_)
    | (with_reducible refine outerTurn_sound (h := ?_) ..)
    | (with_reducible refine renderTurn_sound (h := ?_) ..)
    | (with_reducible refine (closeTurn_only ..).sound (by decide) ?_))

theorem tcmErrs_sound (x0) (s) (h : Sound s) : Sound (tcmErrs x0 s) := by
  fun_induction tcmErrs x0 s
  all_goals repeat (first
    | with_reducible assumption
    | (with_reducible apply_assumption)
    | (with_reducible refine (sramUe_only ..).sound (by decide) ?_)
    | (with_reducible refine setCore_sound (h := ?_) ..)
    | (with_reducible refine (ledger_only ..).sound (by decide) ?_)
    | (extract_lets +onlyGivenNames t1; subst t1)
    | split
    | with_reducible refine Sound.ite ?_ ?_)

theorem lostLines_sound (l) (s) (h : Sound s) : Sound (lostLines l s) := by
  induction l generalizing s with
  | nil => exact h
  | cons x xs ih =>
    rw [lostLines]
    exact ih _ (Sound.ite (deviceFault_sound _ _ ((sramUe_only ..).sound (by decide) h)) ((sramUe_only ..).sound (by decide) h))

theorem refillErrs_sound (l) (s) (h : Sound s) : Sound (refillErrs l s) := by
  induction l generalizing s with
  | nil => exact h
  | cons e es ih =>
    rw [refillErrs]
    refine ih _ ?_
    split
    · exact setDrc_sound h (.inl rfl)
    · exact lineRead_sound _ _ _ _ h

theorem sramCes_sound (x0) (s) (h : Sound s) : Sound (sramCes x0 s) := by
  fun_induction sramCes x0 s
  all_goals repeat (first
    | with_reducible assumption
    | (with_reducible apply_assumption)
    | (with_reducible refine sramCe_sound (h := ?_) ..)
    | split)

theorem observe_sound (x0) (s) (h : Sound s) : Sound (observe x0 s) := by
  unfold observe
  repeat (first
    | with_reducible assumption
    | (with_reducible refine lostLines_sound (h := ?_) ..)
    | (with_reducible refine tcmErrs_sound (h := ?_) ..)
    | (with_reducible refine refillErrs_sound (h := ?_) ..)
    | (with_reducible refine (monSlips_only ..).sound (by decide) ?_)
    | (with_reducible refine sramCes_sound (h := ?_) ..))

theorem stewardFrame_sound (x0) (x1) (x2) (x3) (x4) (x5) (x6) (s) (h : Sound s) : Sound (stewardFrame x0 x1 x2 x3 x4 x5 x6 s) := by
  unfold stewardFrame
  repeat (first
    | with_reducible assumption
    | (with_reducible refine (ledgerLim_only ..).sound (by decide) ?_)
    | (with_reducible refine (evRaise_only ..).sound (by decide) ?_)
    | (with_reducible refine (draw_only ..).sound (by decide) ?_)
    | (with_reducible refine addAt_sound (h := ?_) ..)
    | (with_reducible refine sramPut_sound (h := ?_) ..)
    | (extract_lets +onlyGivenNames t1; with_reducible refine Sound.cut ‹_› (t := t1) ?_ ?_ <;> [(subst t1; intro); (clear_value t1; intro)])
    | (extract_lets +onlyGivenNames t1; with_reducible refine Sound.cut ‹_› (t := t1.2) ?_ ?_ <;> [(subst t1; intro); (clear_value t1; intro)])
    | (extract_lets +onlyGivenNames t1; subst t1)
    | split
    | with_reducible refine Sound.ite ?_ ?_
    | (fail_if_no_progress (with_reducible apply Sound.upd <;> first | exact Or.inl rfl | exact Or.inr (Nat.le_of_ble_eq_true rfl) | exact Or.inr (by simp; done) | skip)))

theorem fabricFrame_sound (x0) (x1) (x2) (s) (h : Sound s) : Sound (fabricFrame x0 x1 x2 s).2 := by
  unfold fabricFrame
  repeat (first
    | with_reducible assumption
    | (with_reducible refine stewardFrame_sound (h := ?_) ..)
    | split
    | with_reducible refine Sound.ite ?_ ?_)

theorem deliverMgmt_sound (x0) (x1) (x2) (s) (h : Sound s) : Sound (deliverMgmt x0 x1 x2 s) := by
  unfold deliverMgmt
  repeat (first
    | with_reducible assumption
    | (with_reducible refine fabricFrame_sound (h := ?_) ..)
    | (with_reducible refine (mgmtTake_only ..).sound (by decide) ?_)
    | (extract_lets +onlyGivenNames t1; with_reducible refine Sound.cut ‹_› (t := t1.2) ?_ ?_ <;> [(subst t1; intro); (clear_value t1; intro)])
    | split
    | with_reducible refine Sound.ite ?_ ?_)

theorem deliver_sound (x0) (x1) (x2) (x3) (x4) (s) (h : Sound s) : Sound (deliver x0 x1 x2 x3 x4 s) := by
  unfold deliver
  repeat (first
    | with_reducible assumption
    | (with_reducible refine (importObj_only ..).sound (by decide) ?_)
    | (with_reducible refine (importPsum_only ..).sound (by decide) ?_)
    | (with_reducible refine (importOut_only ..).sound (by decide) ?_)
    | (with_reducible refine deliverMgmt_sound (h := ?_) ..)
    | (extract_lets +onlyGivenNames t1; subst t1)
    | split
    | with_reducible refine Sound.ite ?_ ?_)

theorem deliverQueue_sound (x0) (x1) (x2) (x3) (x4) (x5) (s) (h : Sound s) : Sound (deliverQueue x0 x1 x2 x3 x4 x5 s) := by
  unfold deliverQueue
  repeat (first
    | with_reducible assumption
    | (with_reducible refine deliver_sound (h := ?_) ..)
    | (with_reducible refine (linkSlip_only ..).sound (by decide) ?_)
    | split
    | with_reducible refine Sound.ite ?_ ?_)

theorem routeCaravan_sound (x0) (x1) (x2) (x3) (x4) (x5) (s) (h : Sound s) : Sound (routeCaravan x0 x1 x2 x3 x4 x5 s) := by
  unfold routeCaravan
  repeat (first
    | with_reducible assumption
    | (with_reducible refine (dropCaravan_only ..).sound (by decide) ?_)
    | (with_reducible refine (linkCount_only ..).sound (by decide) ?_)
    | (with_reducible refine (forwardOn_only ..).sound (by decide) ?_)
    | (with_reducible refine deliverQueue_sound (h := ?_) ..)
    | (extract_lets +onlyGivenNames t1; with_reducible refine Sound.cut ‹_› (t := t1) ?_ ?_ <;> [(subst t1; intro); (clear_value t1; intro)])
    | (extract_lets +onlyGivenNames t1; subst t1)
    | split
    | with_reducible refine Sound.ite ?_ ?_)

theorem discReceive_sound (x0) (x1) (x2) (s) (h : Sound s) : Sound (discReceive x0 x1 x2 s) := by
  unfold discReceive
  repeat (first
    | with_reducible assumption
    | (with_reducible refine fabricFrame_sound (h := ?_) ..)
    | (with_reducible refine (discTarget_only ..).sound (by decide) ?_)
    | (with_reducible refine (forwardTo_only ..).sound (by decide) ?_)
    | (with_reducible refine (dropCaravan_only ..).sound (by decide) ?_)
    | (extract_lets +onlyGivenNames t1; with_reducible refine Sound.cut ‹_› (t := t1.2) ?_ ?_ <;> [(subst t1; intro); (clear_value t1; intro)])
    | (extract_lets +onlyGivenNames t1; subst t1)
    | split
    | with_reducible refine Sound.ite ?_ ?_)

theorem strapConflict_sound (x0) (s) (h : Sound s) : Sound (strapConflict x0 s) := by
  unfold strapConflict
  repeat (first
    | with_reducible assumption
    | (with_reducible refine (ledger_only ..).sound (by decide) ?_)
    | (with_reducible refine (evRaise_only ..).sound (by decide) ?_)
    | with_reducible refine setDpx_sound ?_ (by first | exact Or.inl rfl | exact Or.inr (Nat.le_of_ble_eq_true rfl))
    | (extract_lets +onlyGivenNames t1; with_reducible refine Sound.cut ‹_› (t := t1) ?_ ?_ <;> [(subst t1; intro); (clear_value t1; intro)])
    | (extract_lets +onlyGivenNames t1; with_reducible refine Sound.cut ‹_› (t := t1.2) ?_ ?_ <;> [(subst t1; intro); (clear_value t1; intro)])
    | (extract_lets +onlyGivenNames t1; subst t1)
    | (fail_if_no_progress (with_reducible apply Sound.upd <;> first | exact Or.inl rfl | exact Or.inr (Nat.le_of_ble_eq_true rfl) | exact Or.inr (by simp; done) | skip)))

theorem dpxFrameReceive_sound (x0) (s) (h : Sound s) : Sound (dpxFrameReceive x0 s) := by
  unfold dpxFrameReceive
  repeat (first
    | with_reducible assumption
    | (with_reducible refine syncFault_sound (h := ?_) ..)
    | (with_reducible refine strapConflict_sound (h := ?_) ..)
    | (with_reducible refine dpxCount_sound (h := ?_) ..)
    | with_reducible refine setDpx_sound ?_ (by first | exact Or.inl rfl | exact Or.inr (Nat.le_of_ble_eq_true rfl))
    | (extract_lets +onlyGivenNames t1; with_reducible refine Sound.cut ‹_› (t := t1) ?_ ?_ <;> [(subst t1; intro); (clear_value t1; intro)])
    | (extract_lets +onlyGivenNames t1; subst t1)
    | split
    | with_reducible refine Sound.ite ?_ ?_)

theorem takeCaravan_sound (x0) (x1) (x2) (x3) (x4) (x5) (s) (h : Sound s) : Sound (takeCaravan x0 x1 x2 x3 x4 x5 s) := by
  unfold takeCaravan
  repeat (first
    | with_reducible assumption
    | (with_reducible refine (hearFrame_only ..).sound (by decide) ?_)
    | (with_reducible refine (dropCaravan_only ..).sound (by decide) ?_)
    | (with_reducible refine dpxFrameReceive_sound (h := ?_) ..)
    | (with_reducible refine discReceive_sound (h := ?_) ..)
    | (with_reducible refine routeCaravan_sound (h := ?_) ..)
    | (extract_lets +onlyGivenNames t1; with_reducible refine Sound.cut ‹_› (t := t1) ?_ ?_ <;> [(subst t1; intro); (clear_value t1; intro)])
    | split
    | with_reducible refine Sound.ite ?_ ?_)

theorem residueFault_sound (x0) (s) (h : Sound s) : Sound (residueFault x0 s) := by
  unfold residueFault
  repeat (first
    | with_reducible assumption
    | (with_reducible refine deviceFault_sound (h := ?_) ..)
    | split
    | with_reducible refine Sound.ite ?_ ?_)

theorem handoverOp_sound (x0) (x1) (s) (h : Sound s) : Sound (handoverOp x0 x1 s) := by
  unfold handoverOp
  repeat (first
    | with_reducible assumption
    | (with_reducible refine (mergeOuts_only ..).sound (by decide) ?_)
    | (with_reducible refine (auditEnd_only ..).sound (by decide) ?_)
    | (with_reducible refine residueFault_sound (h := ?_) ..)
    | (with_reducible refine (residues_only ..).sound (by decide) ?_)
    | (with_reducible refine (setPair_only ..).sound (by decide) ?_))

theorem handoffCheck_sound (x0) (x1) (s) (h : Sound s) : Sound (handoffCheck x0 x1 s) := by
  unfold handoffCheck
  repeat (first
    | with_reducible assumption
    | (with_reducible refine (evRaise_only ..).sound (by decide) ?_)
    | (with_reducible refine dpxCount_sound (h := ?_) ..)
    | (with_reducible refine (ledgerLim_only ..).sound (by decide) ?_))

theorem launchChecks_sound (x0) (s) (h : Sound s) : Sound (launchChecks x0 s) := by
  fun_induction launchChecks x0 s
  all_goals repeat (first
    | with_reducible assumption
    | (with_reducible apply_assumption)
    | (with_reducible refine handoffCheck_sound (h := ?_) ..)
    | split
    | with_reducible refine Sound.ite ?_ ?_)

theorem launchOp_sound (x0) (x1) (x2) (s) (h : Sound s) : Sound (launchOp x0 x1 x2 s) := by
  unfold launchOp
  repeat (first
    | with_reducible assumption
    | (with_reducible refine launchChecks_sound (h := ?_) ..)
    | (with_reducible refine (hearEpoch_only ..).sound (by decide) ?_)
    | (with_reducible refine (queueFrame_only ..).sound (by decide) ?_)
    | (extract_lets +onlyGivenNames t1; with_reducible refine Sound.cut ‹_› (t := t1) ?_ ?_ <;> [(subst t1; intro); (clear_value t1; intro)])
    | (extract_lets +onlyGivenNames t1; subst t1)
    | split
    | with_reducible refine Sound.ite ?_ ?_)

theorem storeParts_sound (x0) (x1) (x2) (s) (h : Sound s) : Sound (storeParts x0 x1 x2 s) := by
  fun_induction storeParts x0 x1 x2 s
  all_goals repeat (first
    | with_reducible assumption
    | (with_reducible apply_assumption)
    | (with_reducible refine dramPut_sound (h := ?_) ..)
    | split)

theorem stageOp_sound (x0) (x1) (x2) (x3) (s) (h : Sound s) : Sound (stageOp x0 x1 x2 x3 s) := by
  unfold stageOp
  repeat (first
    | with_reducible assumption
    | (with_reducible refine storeParts_sound (h := ?_) ..)
    | (with_reducible refine (setCor_only ..).sound (by decide) ?_)
    | split
    | with_reducible refine Sound.ite ?_ ?_)

theorem nullHandle_sound (x0) (x1) (s) (h : Sound s) : Sound (nullHandle x0 x1 s) := by
  unfold nullHandle
  repeat (first
    | with_reducible assumption
    | (with_reducible refine (setGwStat_only ..).sound (by decide) ?_)
    | (with_reducible refine setCore_sound (h := ?_) ..)
    | (extract_lets +onlyGivenNames t1; with_reducible refine Sound.cut ‹_› (t := t1) ?_ ?_ <;> [(subst t1; intro); (clear_value t1; intro)])
    | (extract_lets +onlyGivenNames t1; with_reducible refine Sound.cut ‹_› (t := t1.2) ?_ ?_ <;> [(subst t1; intro); (clear_value t1; intro)])
    | (extract_lets +onlyGivenNames t1; subst t1)
    | (fail_if_no_progress (with_reducible apply Sound.upd <;> first | exact Or.inl rfl | exact Or.inr (Nat.le_of_ble_eq_true rfl) | exact Or.inr (by simp; done) | skip)))

theorem grantTo_sound (x0) (x1) (x2) (s) (h : Sound s) : Sound (grantTo x0 x1 x2 s) := by
  unfold grantTo
  repeat (first
    | with_reducible assumption
    | (with_reducible refine putItem_sound (h := ?_) ..)
    | (with_reducible refine setCore_sound (h := ?_) ..)
    | (with_reducible refine (setReg_only ..).sound (by decide) ?_)
    | (with_reducible refine (setGwStat_only ..).sound (by decide) ?_)
    | (extract_lets +onlyGivenNames t1; with_reducible refine Sound.cut ‹_› (t := t1) ?_ ?_ <;> [(subst t1; intro); (clear_value t1; intro)])
    | (extract_lets +onlyGivenNames t1; with_reducible refine Sound.cut ‹_› (t := t1.2) ?_ ?_ <;> [(subst t1; intro); (clear_value t1; intro)])
    | (extract_lets +onlyGivenNames t1; subst t1)
    | split
    | with_reducible refine Sound.ite ?_ ?_
    | (fail_if_no_progress (with_reducible apply Sound.upd <;> first | exact Or.inl rfl | exact Or.inr (Nat.le_of_ble_eq_true rfl) | exact Or.inr (by simp; done) | skip)))

theorem payExcess_sound (x0) (x1) (s) (h : Sound s) : Sound (payExcess x0 x1 s) := by
  unfold payExcess
  repeat (first
    | with_reducible assumption
    | with_reducible refine setDrc_sound ?_ (by first | exact Or.inl rfl | exact Or.inr (Nat.le_of_ble_eq_true rfl))
    | (extract_lets +onlyGivenNames t1; with_reducible refine Sound.cut ‹_› (t := t1) ?_ ?_ <;> [(subst t1; intro); (clear_value t1; intro)])
    | (extract_lets +onlyGivenNames t1; with_reducible refine Sound.cut ‹_› (t := t1.2) ?_ ?_ <;> [(subst t1; intro); (clear_value t1; intro)])
    | (extract_lets +onlyGivenNames t1; subst t1)
    | with_reducible refine Sound.foldl (fun _ _ _ => ?_) ?_ _
    | (fail_if_no_progress (with_reducible apply Sound.upd <;> first | exact Or.inl rfl | exact Or.inr (Nat.le_of_ble_eq_true rfl) | exact Or.inr (by simp; done) | skip)))

theorem payIdle_sound (x0) (x1) (s) (h : Sound s) : Sound (payIdle x0 x1 s) := by
  unfold payIdle
  repeat (first
    | with_reducible assumption
    | with_reducible refine setDrc_sound ?_ (by first | exact Or.inl rfl | exact Or.inr (Nat.le_of_ble_eq_true rfl))
    | (extract_lets +onlyGivenNames t1; with_reducible refine Sound.cut ‹_› (t := t1) ?_ ?_ <;> [(subst t1; intro); (clear_value t1; intro)])
    | (extract_lets +onlyGivenNames t1; with_reducible refine Sound.cut ‹_› (t := t1.2) ?_ ?_ <;> [(subst t1; intro); (clear_value t1; intro)])
    | (extract_lets +onlyGivenNames t1; subst t1)
    | (fail_if_no_progress (with_reducible apply Sound.upd <;> first | exact Or.inl rfl | exact Or.inr (Nat.le_of_ble_eq_true rfl) | exact Or.inr (by simp; done) | skip)))

theorem enterNoDram_sound (x0) (s) (h : Sound s) : Sound (enterNoDram x0 s) := by
  unfold enterNoDram
  repeat (first
    | with_reducible assumption
    | (with_reducible refine (ledger_only ..).sound (by decide) ?_)
    | (with_reducible refine (evRaise_only ..).sound (by decide) ?_)
    | (with_reducible refine panicTail_sound (h := ?_) ..)
    | (with_reducible refine panicCis_sound (h := ?_) ..)
    | with_reducible refine setDrc_sound ?_ (by first | exact Or.inl rfl | exact Or.inr (Nat.le_of_ble_eq_true rfl))
    | (extract_lets +onlyGivenNames t1; with_reducible refine Sound.cut ‹_› (t := t1) ?_ ?_ <;> [(subst t1; intro); (clear_value t1; intro)])
    | (extract_lets +onlyGivenNames t1; with_reducible refine Sound.cut ‹_› (t := t1.2) ?_ ?_ <;> [(subst t1; intro); (clear_value t1; intro)])
    | (extract_lets +onlyGivenNames t1; subst t1)
    | (fail_if_no_progress (with_reducible apply Sound.upd <;> first | exact Or.inl rfl | exact Or.inr (Nat.le_of_ble_eq_true rfl) | exact Or.inr (by simp; done) | skip)))

theorem yieldClaim_sound (s) (h : Sound s) : Sound (yieldClaim s) := by
  unfold yieldClaim
  repeat (first
    | with_reducible assumption
    | (with_reducible refine (draw_only ..).sound (by decide) ?_)
    | (with_reducible refine (evRaise_only ..).sound (by decide) ?_)
    | (with_reducible refine strapConflict_sound (h := ?_) ..)
    | (with_reducible refine clearArm_sound (h := ?_) ..)
    | with_reducible refine setDpx_sound ?_ (by first | exact Or.inl rfl | exact Or.inr (Nat.le_of_ble_eq_true rfl))
    | (extract_lets +onlyGivenNames t1; with_reducible refine Sound.cut ‹_› (t := t1) ?_ ?_ <;> [(subst t1; intro); (clear_value t1; intro)])
    | (extract_lets +onlyGivenNames t1; subst t1)
    | split
    | with_reducible refine Sound.ite ?_ ?_)

theorem endUncertain_sound (x0) (s) (h : Sound s) : Sound (endUncertain x0 s) := by
  unfold endUncertain
  repeat (first
    | with_reducible assumption
    | (with_reducible refine endOp_sound (h := ?_) ..)
    | (with_reducible refine (tellAborts_only ..).sound (by decide) ?_)
    | (with_reducible refine (ledger_only ..).sound (by decide) ?_)
    | (with_reducible refine (evRaise_only ..).sound (by decide) ?_)
    | (extract_lets +onlyGivenNames t1; with_reducible refine Sound.cut ‹_› (t := t1) ?_ ?_ <;> [(subst t1; intro); (clear_value t1; intro)])
    | (extract_lets +onlyGivenNames t1; with_reducible refine Sound.cut ‹_› (t := t1.2) ?_ ?_ <;> [(subst t1; intro); (clear_value t1; intro)])
    | (extract_lets +onlyGivenNames t1; subst t1)
    | with_reducible refine Sound.ite ?_ ?_
    | (fail_if_no_progress (with_reducible apply Sound.upd <;> first | exact Or.inl rfl | exact Or.inr (Nat.le_of_ble_eq_true rfl) | exact Or.inr (by simp; done) | skip)))

theorem abortGiveUp_sound (x0) (s) (h : Sound s) : Sound (abortGiveUp x0 s) := by
  unfold abortGiveUp
  repeat (first
    | with_reducible assumption
    | (with_reducible refine endUncertain_sound (h := ?_) ..)
    | split
    | with_reducible refine Sound.ite ?_ ?_)

theorem resumeHost_sound (x0) (s) (h : Sound s) : Sound (resumeHost x0 s) := by
  unfold resumeHost
  repeat (first
    | with_reducible assumption
    | (with_reducible refine drainAll_sound (h := ?_) ..)
    | (with_reducible refine (flushDue_only ..).sound (by decide) ?_)
    | (with_reducible refine (sendAll_only ..).sound (by decide) ?_)
    | (extract_lets +onlyGivenNames t1; with_reducible refine Sound.cut ‹_› (t := t1) ?_ ?_ <;> [(subst t1; intro); (clear_value t1; intro)])
    | (extract_lets +onlyGivenNames t1; with_reducible refine Sound.cut ‹_› (t := t1.2) ?_ ?_ <;> [(subst t1; intro); (clear_value t1; intro)])
    | (extract_lets +onlyGivenNames t1; subst t1)
    | split
    | with_reducible refine Sound.ite ?_ ?_
    | (fail_if_no_progress (with_reducible apply Sound.upd <;> first | exact Or.inl rfl | exact Or.inr (Nat.le_of_ble_eq_true rfl) | exact Or.inr (by simp; done) | skip)))

theorem leaveL1_sound (s) (h : Sound s) : Sound (leaveL1 s) := by
  unfold leaveL1
  repeat (first
    | with_reducible assumption
    | (with_reducible refine resumeHost_sound (h := ?_) ..)
    | (extract_lets +onlyGivenNames t1; with_reducible refine Sound.cut ‹_› (t := t1) ?_ ?_ <;> [(subst t1; intro); (clear_value t1; intro)])
    | (extract_lets +onlyGivenNames t1; with_reducible refine Sound.cut ‹_› (t := t1.2) ?_ ?_ <;> [(subst t1; intro); (clear_value t1; intro)])
    | (extract_lets +onlyGivenNames t1; subst t1)
    | with_reducible refine Sound.ite ?_ ?_
    | (fail_if_no_progress (with_reducible apply Sound.upd <;> first | exact Or.inl rfl | exact Or.inr (Nat.le_of_ble_eq_true rfl) | exact Or.inr (by simp; done) | skip)))

theorem pollCq_sound (x0) (x1) (s) (h : Sound s) : Sound (pollCq x0 x1 s) := by
  unfold pollCq
  repeat (first
    | with_reducible assumption
    | (with_reducible refine (ringErr_only ..).sound (by decide) ?_)
    | (with_reducible refine (setCq_only ..).sound (by decide) ?_)
    | (with_reducible refine drainCq_sound (h := ?_) ..)
    | (extract_lets +onlyGivenNames t1; subst t1)
    | split
    | with_reducible refine Sound.ite ?_ ?_)

theorem pollCqs_sound (x0) (x1) (s) (h : Sound s) : Sound (pollCqs x0 x1 s) := by
  fun_induction pollCqs x0 x1 s
  all_goals repeat (first
    | with_reducible assumption
    | (with_reducible apply_assumption)
    | (with_reducible refine pollCq_sound (h := ?_) ..)
    | split)

theorem fetchOne_sound (x0) (x1) (s) (h : Sound s) : Sound (fetchOne x0 x1 s) := by
  unfold fetchOne
  repeat (first
    | with_reducible assumption
    | (with_reducible refine (setSq_only ..).sound (by decide) ?_)
    | (with_reducible refine endOp_sound (h := ?_) ..)
    | (with_reducible refine releaseFences_sound (h := ?_) ..)
    | (extract_lets +onlyGivenNames t1; with_reducible refine Sound.cut ‹_› (t := t1) ?_ ?_ <;> [(subst t1; intro); (clear_value t1; intro)])
    | (extract_lets +onlyGivenNames t1; with_reducible refine Sound.cut ‹_› (t := t1.2) ?_ ?_ <;> [(subst t1; intro); (clear_value t1; intro)])
    | (extract_lets +onlyGivenNames t1; subst t1)
    | split
    | with_reducible refine Sound.ite ?_ ?_
    | (fail_if_no_progress (with_reducible apply Sound.upd <;> first | exact Or.inl rfl | exact Or.inr (Nat.le_of_ble_eq_true rfl) | exact Or.inr (by simp; done) | skip)))

theorem fetchAll_sound (l cur) (s) (h : Sound s) : Sound (fetchAll l cur s) := by
  induction l generalizing cur s with
  | nil => rw [fetchAll]; exact h
  | cons e es ih =>
    unfold fetchAll
    cases e with
    | none => exact (evRaise_only ..).sound (by decide) h
    | some e =>
      dsimp only
      split
      · refine Sound.ite h (ih _ _ (fetchOne_sound _ _ _ (Sound.upd h (.inl rfl) (.inl rfl) (.inl rfl) (.inl rfl) (.inl rfl) (.inl rfl) (.inl rfl) (.inl rfl) (.inl rfl))))
      · exact h

theorem deliverCore_sound (x0) (x1) (s) (h : Sound s) : Sound (deliverCore x0 x1 s) := by
  unfold deliverCore
  repeat (first
    | with_reducible assumption
    | (with_reducible refine nullHandle_sound (h := ?_) ..)
    | (extract_lets +onlyGivenNames t1; with_reducible refine Sound.cut ‹_› (t := t1) ?_ ?_ <;> [(subst t1; intro); (clear_value t1; intro)])
    | (extract_lets +onlyGivenNames t1; with_reducible refine Sound.cut ‹_› (t := t1.2) ?_ ?_ <;> [(subst t1; intro); (clear_value t1; intro)])
    | (extract_lets +onlyGivenNames t1; subst t1)
    | split
    | with_reducible refine Sound.ite ?_ ?_
    | (fail_if_no_progress (with_reducible apply Sound.upd <;> first | exact Or.inl rfl | exact Or.inr (Nat.le_of_ble_eq_true rfl) | exact Or.inr (by simp; done) | skip)))

theorem toSteward_sound (x0) (x1) (x2) (x3) (s) (h : Sound s) : Sound (toSteward x0 x1 x2 x3 s) := by
  unfold toSteward
  repeat (first
    | with_reducible assumption
    | (with_reducible refine stewardFrame_sound (h := ?_) ..)
    | (with_reducible refine (afinalFrame_only ..).sound (by decide) ?_)
    | (extract_lets +onlyGivenNames t1; with_reducible refine Sound.cut ‹_› (t := t1) ?_ ?_ <;> [(subst t1; intro); (clear_value t1; intro)])
    | (extract_lets +onlyGivenNames t1; subst t1)
    | split
    | with_reducible refine Sound.ite ?_ ?_)

theorem classify_sound (x0) (x1) (x2) (s) (h : Sound s) : Sound (classify x0 x1 x2 s) := by
  unfold classify
  repeat (first
    | with_reducible assumption
    | (with_reducible refine (rxErr_only ..).sound (by decide) ?_)
    | (with_reducible refine toSteward_sound (h := ?_) ..)
    | (with_reducible refine (rxPacket_only ..).sound (by decide) ?_)
    | (extract_lets +onlyGivenNames t1; subst t1)
    | split
    | with_reducible refine Sound.ite ?_ ?_)

theorem frameTake_sound (x0) (x1) (s) (h : Sound s) : Sound (frameTake x0 x1 s) := by
  unfold frameTake
  repeat (first
    | with_reducible assumption
    | (with_reducible refine (portCorrected_only ..).sound (by decide) ?_)
    | (with_reducible refine (portCount_only ..).sound (by decide) ?_)
    | (with_reducible refine (rxErr_only ..).sound (by decide) ?_)
    | (with_reducible refine (macControl_only ..).sound (by decide) ?_)
    | (with_reducible refine classify_sound (h := ?_) ..)
    | (extract_lets +onlyGivenNames t1; with_reducible refine Sound.cut ‹_› (t := t1) ?_ ?_ <;> [(subst t1; intro); (clear_value t1; intro)])
    | (extract_lets +onlyGivenNames t1; subst t1)
    | split
    | with_reducible refine Sound.ite ?_ ?_)

theorem monClr_sound (x0) (s) (h : Sound s) : Sound (monClr x0 s) := by
  unfold monClr
  repeat (first
    | with_reducible assumption
    | (with_reducible refine (monSettleAll_only ..).sound (by decide) ?_)
    | (with_reducible refine (ledger_only ..).sound (by decide) ?_)
    | (with_reducible refine (evRaise_only ..).sound (by decide) ?_)
    | (extract_lets +onlyGivenNames t1; with_reducible refine Sound.cut ‹_› (t := t1) ?_ ?_ <;> [(subst t1; intro); (clear_value t1; intro)])
    | (extract_lets +onlyGivenNames t1; with_reducible refine Sound.cut ‹_› (t := t1.2) ?_ ?_ <;> [(subst t1; intro); (clear_value t1; intro)])
    | (extract_lets +onlyGivenNames t1; subst t1)
    | split
    | with_reducible refine Sound.ite ?_ ?_
    | (fail_if_no_progress (with_reducible apply Sound.upd <;> first | exact Or.inl rfl | exact Or.inr (Nat.le_of_ble_eq_true rfl) | exact Or.inr (by simp; done) | skip)))

theorem leaveKeyed_sound (x0) (s) (h : Sound s) : Sound (leaveKeyed x0 s) := by
  unfold leaveKeyed
  repeat (first
    | with_reducible assumption
    | (with_reducible refine (voidLoaded_only ..).sound (by decide) ?_)
    | (with_reducible refine (draw_only ..).sound (by decide) ?_)
    | (with_reducible refine withdrawKeyed_sound (h := ?_) ..)
    | split
    | with_reducible refine Sound.ite ?_ ?_)

theorem ownerSilent_sound (x0) (s) (h : Sound s) : Sound (ownerSilent x0 s) := by
  unfold ownerSilent
  repeat (first
    | with_reducible assumption
    | (with_reducible refine (commitOutcomes_only ..).sound (by decide) ?_)
    | (with_reducible refine leaveKeyed_sound (h := ?_) ..)
    | (with_reducible refine withdrawRest_sound (h := ?_) ..)
    | (with_reducible refine abortGiveUp_sound (h := ?_) ..)
    | (extract_lets +onlyGivenNames t1; with_reducible refine Sound.cut ‹_› (t := t1) ?_ ?_ <;> [(subst t1; intro); (clear_value t1; intro)])
    | split
    | with_reducible refine Sound.ite ?_ ?_)

theorem loseItem_sound (x0) (x1) (s) (h : Sound s) : Sound (loseItem x0 x1 s) := by
  unfold loseItem
  repeat (first
    | with_reducible assumption
    | (with_reducible refine (commitOutcomes_only ..).sound (by decide) ?_)
    | (with_reducible refine freeSlotOf_sound (h := ?_) ..)
    | (with_reducible refine endUncertain_sound (h := ?_) ..)
    | (with_reducible refine leaveKeyed_sound (h := ?_) ..)
    | (with_reducible refine withdrawRest_sound (h := ?_) ..)
    | (extract_lets +onlyGivenNames t1; with_reducible refine Sound.cut ‹_› (t := t1) ?_ ?_ <;> [(subst t1; intro); (clear_value t1; intro)])
    | (extract_lets +onlyGivenNames t1; with_reducible refine Sound.cut ‹_› (t := t1.2) ?_ ?_ <;> [(subst t1; intro); (clear_value t1; intro)])
    | (extract_lets +onlyGivenNames t1; subst t1)
    | split
    | with_reducible refine Sound.ite ?_ ?_
    | (fail_if_no_progress (with_reducible apply Sound.upd <;> first | exact Or.inl rfl | exact Or.inr (Nat.le_of_ble_eq_true rfl) | exact Or.inr (by simp; done) | skip)))

theorem loseItems_sound (x0) (s) (h : Sound s) : Sound (loseItems x0 s) := by
  fun_induction loseItems x0 s
  all_goals repeat (first
    | with_reducible assumption
    | (with_reducible apply_assumption)
    | (with_reducible refine loseItem_sound (h := ?_) ..)
    | split)

theorem haltCores_sound (x0) (s) (h : Sound s) : Sound (haltCores x0 s) := by
  unfold haltCores
  repeat (first
    | with_reducible assumption
    | (with_reducible refine loseItems_sound (h := ?_) ..)
    | (with_reducible refine setCore_sound (h := ?_) ..)
    | (with_reducible refine (resetMasters_only ..).sound (by decide) ?_)
    | (with_reducible refine (ledger_only ..).sound (by decide) ?_)
    | (with_reducible refine (evRaise_only ..).sound (by decide) ?_)
    | (extract_lets +onlyGivenNames t1; with_reducible refine Sound.cut ‹_› (t := t1) ?_ ?_ <;> [(subst t1; intro); (clear_value t1; intro)])
    | (extract_lets +onlyGivenNames t1; with_reducible refine Sound.cut ‹_› (t := t1.2) ?_ ?_ <;> [(subst t1; intro); (clear_value t1; intro)])
    | (extract_lets +onlyGivenNames t1; subst t1)
    | split
    | with_reducible refine Sound.ite ?_ ?_
    | with_reducible refine Sound.foldl (fun _ _ _ => ?_) ?_ _
    | (fail_if_no_progress (with_reducible apply Sound.upd <;> first | exact Or.inl rfl | exact Or.inr (Nat.le_of_ble_eq_true rfl) | exact Or.inr (by simp; done) | skip)))

theorem auditSlot_sound (x0) (x1) (x2) (x3) (s) (h : Sound s) : Sound (auditSlot x0 x1 x2 x3 s) := by
  unfold auditSlot
  repeat (first
    | with_reducible assumption
    | (with_reducible refine (setPair_only ..).sound (by decide) ?_)
    | (with_reducible refine (setReg_only ..).sound (by decide) ?_)
    | (with_reducible refine (evRaise_only ..).sound (by decide) ?_)
    | (with_reducible refine deviceFault_sound (h := ?_) ..)
    | (extract_lets +onlyGivenNames t1; with_reducible refine Sound.cut ‹_› (t := t1) ?_ ?_ <;> [(subst t1; intro); (clear_value t1; intro)])
    | (extract_lets +onlyGivenNames t1; subst t1)
    | split
    | with_reducible refine Sound.ite ?_ ?_)

theorem guardSlot_sound (x0) (s) (h : Sound s) : Sound (guardSlot x0 s) := by
  unfold guardSlot
  repeat (first
    | with_reducible assumption
    | (with_reducible refine guardFault_sound (h := ?_) ..)
    | split)

theorem alertJudge_sound (x0) (s) (h : Sound s) : Sound (alertJudge x0 s) := by
  unfold alertJudge
  repeat (first
    | with_reducible assumption
    | (with_reducible refine (ledger_only ..).sound (by decide) ?_)
    | (with_reducible refine (evRaise_only ..).sound (by decide) ?_)
    | with_reducible refine setAon_sound ?_ (by first | exact Or.inl rfl | exact Or.inr (Nat.le_of_ble_eq_true rfl)) (by first | exact Or.inl rfl | exact Or.inr (Nat.le_of_ble_eq_true rfl))
    | (extract_lets +onlyGivenNames t1; with_reducible refine Sound.cut ‹_› (t := t1) ?_ ?_ <;> [(subst t1; intro); (clear_value t1; intro)])
    | (extract_lets +onlyGivenNames t1; with_reducible refine Sound.cut ‹_› (t := t1.2) ?_ ?_ <;> [(subst t1; intro); (clear_value t1; intro)])
    | (extract_lets +onlyGivenNames t1; subst t1)
    | split
    | with_reducible refine Sound.ite ?_ ?_
    | (fail_if_no_progress (with_reducible apply Sound.upd <;> first | exact Or.inl rfl | exact Or.inr (Nat.le_of_ble_eq_true rfl) | exact Or.inr (by simp; done) | skip)))

theorem tripActions_sound (x0) (s) (h : Sound s) : Sound (tripActions x0 s) := by
  unfold tripActions
  repeat (first
    | with_reducible assumption
    | (with_reducible refine (ledger_only ..).sound (by decide) ?_)
    | (with_reducible refine (evRaise_only ..).sound (by decide) ?_)
    | (with_reducible refine (monSettleAll_only ..).sound (by decide) ?_)
    | (with_reducible refine deviceFault_sound (h := ?_) ..)
    | with_reducible refine setAon_sound ?_ (by first | exact Or.inl rfl | exact Or.inr (Nat.le_of_ble_eq_true rfl)) (by first | exact Or.inl rfl | exact Or.inr (Nat.le_of_ble_eq_true rfl))
    | (extract_lets +onlyGivenNames t1; with_reducible refine Sound.cut ‹_› (t := t1) ?_ ?_ <;> [(subst t1; intro); (clear_value t1; intro)])
    | (extract_lets +onlyGivenNames t1; with_reducible refine Sound.cut ‹_› (t := t1.2) ?_ ?_ <;> [(subst t1; intro); (clear_value t1; intro)])
    | (extract_lets +onlyGivenNames t1; subst t1)
    | split
    | with_reducible refine Sound.ite ?_ ?_
    | (fail_if_no_progress (with_reducible apply Sound.upd <;> first | exact Or.inl rfl | exact Or.inr (Nat.le_of_ble_eq_true rfl) | exact Or.inr (by simp; done) | skip)))

theorem tripJudge_sound (x0) (s) (h : Sound s) : Sound (tripJudge x0 s) := by
  unfold tripJudge
  repeat (first
    | with_reducible assumption
    | (with_reducible refine tripActions_sound (h := ?_) ..)
    | with_reducible refine setAon_sound ?_ (by first | exact Or.inl rfl | exact Or.inr (Nat.le_of_ble_eq_true rfl)) (by first | exact Or.inl rfl | exact Or.inr (Nat.le_of_ble_eq_true rfl))
    | (extract_lets +onlyGivenNames t1; with_reducible refine Sound.cut ‹_› (t := t1) ?_ ?_ <;> [(subst t1; intro); (clear_value t1; intro)])
    | (extract_lets +onlyGivenNames t1; with_reducible refine Sound.cut ‹_› (t := t1.2) ?_ ?_ <;> [(subst t1; intro); (clear_value t1; intro)])
    | (extract_lets +onlyGivenNames t1; subst t1)
    | split
    | with_reducible refine Sound.ite ?_ ?_
    | (fail_if_no_progress (with_reducible apply Sound.upd <;> first | exact Or.inl rfl | exact Or.inr (Nat.le_of_ble_eq_true rfl) | exact Or.inr (by simp; done) | skip)))

theorem runDeferred_sound (s) (h : Sound s) : Sound (runDeferred s) := by
  unfold runDeferred
  repeat (first
    | with_reducible assumption
    | (with_reducible refine warmAssert_sound (h := ?_) ..)
    | split
    | with_reducible refine Sound.ite ?_ ?_)

theorem sapCheck_sound (x0) (x1) (x2) (x3) (s) (h : Sound s) : Sound (sapCheck x0 x1 x2 x3 s) := by
  unfold sapCheck
  repeat (first
    | with_reducible assumption
    | (with_reducible refine handoffCheck_sound (h := ?_) ..)
    | split
    | with_reducible refine Sound.ite ?_ ?_)

theorem sendFrame_sound (x0) (x1) (s) (h : Sound s) : Sound (sendFrame x0 x1 s) := by
  unfold sendFrame
  repeat (first
    | with_reducible assumption
    | (with_reducible refine sapCheck_sound (h := ?_) ..)
    | (with_reducible refine (feedBus_only ..).sound (by decide) ?_)
    | (with_reducible refine (emit_only ..).sound (by decide) ?_)
    | (with_reducible refine (sapCount_only ..).sound (by decide) ?_)
    | (extract_lets +onlyGivenNames t1; with_reducible refine Sound.cut ‹_› (t := t1) ?_ ?_ <;> [(subst t1; intro); (clear_value t1; intro)])
    | (extract_lets +onlyGivenNames t1; subst t1)
    | split
    | with_reducible refine Sound.ite ?_ ?_)

theorem sapFrame_sound (x0) (x1) (x2) (s) (h : Sound s) : Sound (sapFrame x0 x1 x2 s) := by
  unfold sapFrame
  repeat (first
    | with_reducible assumption
    | (with_reducible refine sendFrame_sound (h := ?_) ..)
    | (with_reducible refine (takeInput_only ..).sound (by decide) ?_)
    | (with_reducible refine (sideTones_only ..).sound (by decide) ?_)
    | (with_reducible refine (setSap_only ..).sound (by decide) ?_)
    | split
    | with_reducible refine Sound.ite ?_ ?_)

theorem loadDone_sound (s) (h : Sound s) : Sound (loadDone s) := by
  unfold loadDone
  repeat (first
    | with_reducible assumption
    | (with_reducible refine (report_only ..).sound (by decide) ?_)
    | (with_reducible refine (evRaise_only ..).sound (by decide) ?_)
    | (with_reducible refine (loadStat_only ..).sound (by decide) ?_)
    | (with_reducible refine (ledger_only ..).sound (by decide) ?_)
    | with_reducible refine setSch_sound ?_ (by first | exact Or.inl rfl | exact Or.inr (Nat.le_of_ble_eq_true rfl)) (by first | exact Or.inl rfl | exact Or.inr (by simp; done))
    | (extract_lets +onlyGivenNames t1; with_reducible refine Sound.cut ‹_› (t := t1) ?_ ?_ <;> [(subst t1; intro); (clear_value t1; intro)])
    | (extract_lets +onlyGivenNames t1; with_reducible refine Sound.cut ‹_› (t := t1.2) ?_ ?_ <;> [(subst t1; intro); (clear_value t1; intro)])
    | (extract_lets +onlyGivenNames t1; subst t1)
    | split
    | with_reducible refine Sound.ite ?_ ?_
    | (fail_if_no_progress (with_reducible apply Sound.upd <;> first | exact Or.inl rfl | exact Or.inr (Nat.le_of_ble_eq_true rfl) | exact Or.inr (by simp; done) | skip)))

theorem loadBegin_sound (x0) (x1) (s) (h : Sound s) : Sound (loadBegin x0 x1 s) := by
  unfold loadBegin
  repeat (first
    | with_reducible assumption
    | (with_reducible refine loadDone_sound (h := ?_) ..)
    | with_reducible refine setSch_sound ?_ (by first | exact Or.inl rfl | exact Or.inr (Nat.le_of_ble_eq_true rfl)) (by first | exact Or.inl rfl | exact Or.inr (by simp; done))
    | (extract_lets +onlyGivenNames t1; with_reducible refine Sound.cut ‹_› (t := t1) ?_ ?_ <;> [(subst t1; intro); (clear_value t1; intro)])
    | (extract_lets +onlyGivenNames t1; with_reducible refine Sound.cut ‹_› (t := t1.2) ?_ ?_ <;> [(subst t1; intro); (clear_value t1; intro)])
    | (extract_lets +onlyGivenNames t1; subst t1)
    | split
    | (fail_if_no_progress (with_reducible apply Sound.upd <;> first | exact Or.inl rfl | exact Or.inr (Nat.le_of_ble_eq_true rfl) | exact Or.inr (by simp; done) | skip)))

theorem arm_sound (k n tok sh) (s) (h : Sound s) : Sound (arm k n tok sh s) := by
  refine setSch_sound h (.inl rfl) (.inr ?_)
  simpa using h.1.1

theorem cancelStop_sound {a : Armed} (ha : a.origin ≤ 4) {s : State} (h : Sound s) : Sound (cancelStop a s) :=
  (report_only ..).sound (by decide) (setRender_sound (setSch_sound h (.inl rfl) (.inr nofun)) ha)

theorem cancelSwap_sound (x0) (s) (h : Sound s) : Sound (cancelSwap x0 s) := by
  unfold cancelSwap
  repeat (first
    | with_reducible assumption
    | (with_reducible refine (report_only ..).sound (by decide) ?_)
    | with_reducible refine setSch_sound ?_ (by first | exact Or.inl rfl | exact Or.inr (Nat.le_of_ble_eq_true rfl)) (by first | exact Or.inl rfl | exact Or.inr (by simp; done))
    | (extract_lets +onlyGivenNames t1; with_reducible refine Sound.cut ‹_› (t := t1) ?_ ?_ <;> [(subst t1; intro); (clear_value t1; intro)])
    | (extract_lets +onlyGivenNames t1; with_reducible refine Sound.cut ‹_› (t := t1.2) ?_ ?_ <;> [(subst t1; intro); (clear_value t1; intro)])
    | (extract_lets +onlyGivenNames t1; subst t1)
    | (fail_if_no_progress (with_reducible apply Sound.upd <;> first | exact Or.inl rfl | exact Or.inr (Nat.le_of_ble_eq_true rfl) | exact Or.inr (by simp; done) | skip)))

theorem startWait_sound (x0) (x1) (s) (h : Sound s) : Sound (startWait x0 x1 s) := by
  unfold startWait
  repeat (first
    | with_reducible assumption
    | (with_reducible refine tickSeq_sound (h := ?_) ..)
    | (with_reducible refine setCore_sound (h := ?_) ..))

theorem silence_sound (x0) (x1) (s) (h : Sound s) : Sound (silence x0 x1 s) := by
  fun_induction silence x0 x1 s
  all_goals repeat (first
    | with_reducible assumption
    | (with_reducible apply_assumption)
    | (with_reducible refine setCore_sound (h := ?_) ..)
    | (extract_lets +onlyGivenNames t1; subst t1)
    | split
    | with_reducible refine Sound.ite ?_ ?_)

theorem runCores_sound (x0) (x1) (x2) (s) (h : Sound s) : Sound (runCores x0 x1 x2 s) := by
  fun_induction runCores x0 x1 x2 s
  all_goals repeat (first
    | with_reducible assumption
    | (with_reducible apply_assumption)
    | (with_reducible refine setCore_sound (h := ?_) ..)
    | split)

theorem startStop_sound (x0) (x1) (x2) (s) (h : Sound s) : Sound (startStop x0 x1 x2 s) := by
  unfold startStop
  repeat (first
    | with_reducible assumption
    | (with_reducible refine (setField_only ..).sound (by decide) ?_)
    | (extract_lets +onlyGivenNames t1; with_reducible refine Sound.cut ‹_› (t := t1) ?_ ?_ <;> [(subst t1; intro); (clear_value t1; intro)])
    | (extract_lets +onlyGivenNames t1; with_reducible refine Sound.cut ‹_› (t := t1.2) ?_ ?_ <;> [(subst t1; intro); (clear_value t1; intro)])
    | (extract_lets +onlyGivenNames t1; subst t1)
    | with_reducible refine Sound.foldl (fun _ _ _ => ?_) ?_ _
    | (fail_if_no_progress (with_reducible apply Sound.upd <;> first | exact Or.inl rfl | exact Or.inr (Nat.le_of_ble_eq_true rfl) | exact Or.inr (by simp; done) | skip)))

theorem loadCores_wf (b : List Byte) (cs : List Nat) {w : Stw} (h : smWf 0 w.itcm = true ∧ smWf 0 w.dtcm = true ∧ smWf 0 w.sram = true) :
    smWf 0 (loadCores b cs w).itcm = true ∧ smWf 0 (loadCores b cs w).dtcm = true ∧ smWf 0 (loadCores b cs w).sram = true := by
  have h1 : ∀ x c (w : Stw), smWf 0 w.itcm = true ∧ smWf 0 w.dtcm = true ∧ smWf 0 w.sram = true →
      smWf 0 (loadSection c b x w).itcm = true ∧ smWf 0 (loadSection c b x w).dtcm = true ∧ smWf 0 (loadSection c b x w).sram = true := by
    intro x c w h
    unfold loadSection
    extract_lets
    split
    · exact ⟨smWf_writeBytes h.1 .., h.2⟩
    · exact ⟨h.1, smWf_writeBytes h.2.1 .., h.2.2⟩
    · exact ⟨h.1, h.2.1, smWf_writeBytes h.2.2 ..⟩
  have h2 : ∀ (l : List FwSec) c (w : Stw), smWf 0 w.itcm = true ∧ smWf 0 w.dtcm = true ∧ smWf 0 w.sram = true →
      smWf 0 (l.foldl (fun w x => loadSection c b x w) w).itcm = true ∧ smWf 0 (l.foldl (fun w x => loadSection c b x w) w).dtcm = true ∧
      smWf 0 (l.foldl (fun w x => loadSection c b x w) w).sram = true := by
    intro l c
    induction l with
    | nil => exact fun _ h => h
    | cons x l ih => exact fun w h => ih _ (h1 x c w h)
  unfold loadCores
  induction cs generalizing w with
  | nil => exact h
  | cons c cs ih => exact ih (h2 _ c w h)

theorem startUser_sound (x0) (s) (h : Sound s) : Sound (startUser x0 s) := by
  unfold startUser
  split
  · rename_i f e
    have hl := loadCores_wf f.bytes x0 h.2.2
    exact runCores_sound _ _ _ _ (Sound.upd h (.inl rfl) (.inl rfl) (.inl rfl) (.inl rfl) (.inl rfl) (.inl rfl) (.inr hl.1) (.inr hl.2.1) (.inr hl.2.2))
  · exact h

theorem clearStw_sound (s) (h : Sound s) : Sound (clearStw s) := by
  unfold clearStw
  repeat (first
    | with_reducible assumption
    | (with_reducible refine setCore_sound (h := ?_) ..)
    | (extract_lets +onlyGivenNames t1; with_reducible refine Sound.cut ‹_› (t := t1) ?_ ?_ <;> [(subst t1; intro); (clear_value t1; intro)])
    | (extract_lets +onlyGivenNames t1; with_reducible refine Sound.cut ‹_› (t := t1.2) ?_ ?_ <;> [(subst t1; intro); (clear_value t1; intro)])
    | (extract_lets +onlyGivenNames t1; subst t1)
    | with_reducible refine Sound.foldl (fun _ _ _ => ?_) ?_ _
    | (fail_if_no_progress (with_reducible apply Sound.upd <;> first | exact Or.inl rfl | exact Or.inr (Nat.le_of_ble_eq_true rfl) | exact Or.inr (by simp; done) | skip)))

theorem chainOp_sound (o b tm c addr outA own obs) (s) (h : Sound s) : Sound (chainOp o b tm c addr outA own obs s) := by
  unfold chainOp
  extract_lets rd v f r xb late z t miss s1 s2
  have h1 : Sound rd.1 := readRuns_sound _ _ _ _ h
  have h2 : Sound s1 := (frameErrs_only ..).sound (by decide) (Sound.ite (dramPut_sound _ _ _ h1) h1)
  have h3 : Sound s2 := (corClip_only ..).sound (by decide) (dramPut_sound _ _ _ h2)
  exact Sound.ite ((tailMiss_only ..).sound (by decide) h3) h3

theorem chainPanic_sound (x0) (x1) (s) (h : Sound s) : Sound (chainPanic x0 x1 s) := by
  unfold chainPanic
  repeat (first
    | with_reducible assumption
    | (with_reducible refine settleTail_sound (h := ?_) ..)
    | (with_reducible refine (setCor_only ..).sound (by decide) ?_)
    | split
    | with_reducible refine Sound.ite ?_ ?_)

theorem tailUnit_sound (x0) (x1) (x2) (x3) (x4) (s) (h : Sound s) : Sound (tailUnit x0 x1 x2 x3 x4 s) := by
  unfold tailUnit
  repeat (first
    | with_reducible assumption
    | (with_reducible refine chainOp_sound (h := ?_) ..)
    | split
    | with_reducible refine Sound.ite ?_ ?_)

theorem idle_sound (s) (h : Sound s) : Sound (idle s) := by
  unfold idle
  repeat (first
    | with_reducible assumption
    | (extract_lets +onlyGivenNames t1; with_reducible refine Sound.cut ‹_› (t := t1) ?_ ?_ <;> [(subst t1; intro); (clear_value t1; intro)])
    | (extract_lets +onlyGivenNames t1; with_reducible refine Sound.cut ‹_› (t := t1.2) ?_ ?_ <;> [(subst t1; intro); (clear_value t1; intro)])
    | (extract_lets +onlyGivenNames t1; subst t1)
    | split
    | with_reducible refine Sound.ite ?_ ?_
    | (fail_if_no_progress (with_reducible apply Sound.upd <;> first | exact Or.inl rfl | exact Or.inr (Nat.le_of_ble_eq_true rfl) | exact Or.inr (by simp; done) | skip)))

end Sys2Proof.Machine
end

