-- ==== Sys2Proof/Machine/Pins.lean ====
section
/-! DEFINITION. The levels of output pins that follow the state: open-drain lines, selector state, time pins, monitor currents (R261, R262, R297,
R429, R439, R470, R474, R483, R502, R509). -/

namespace Sys2Proof.Machine

/-- Output pins. An open-drain pin is given as driven low. `time` are TTRIG[3:0] and PPS_OUT, high, or `none` at high impedance; a monitor
current is in units of 8 mA / 2^24. -/
structure Pins where
  ownLow : Bool
  alertLow : Bool
  thermLow : Bool
  refAlarmLow : Bool
  refState : Nat
  refActive : Nat
  time : Option (List Bool)
  monIop : List Int
  monIon : List Int
  deriving DecidableEq, Repr

/-- SVC_ALERT_N is driven low (R474): a condition holds that its mask enables. -/
def svcAlert (s : State) : Bool :=
  let m := getReg s aSvcMask
  (Word.bit m 22 && !s.stw.alive) || (Word.bit m 21 && refAlarm s) ||
    decide (Word.bits m 20 13 &&& Word.bits (getReg s aDpxEvt) 7 0 ≠ 0) || decide (Word.bits m 12 8 &&& Word.bits (getReg s aLgrEvt) 4 0 ≠ 0) ||
    decide (Word.bits m 5 0 &&& Word.bits (getReg s aTopEvt) 5 0 ≠ 0)

/-- DPX_OWN_N is driven low (R439): in CLAIMING and DRIVING, or as EXTEST has it (R509). -/
def ownLow (s : State) : Bool := s.aon.extestOwn.getD (decide (s.dpx.st = 1) || decide (s.dpx.st = 2))

/-- The code that a monitor output converts (R429). -/
def monOut (s : State) (k : Nat) : Int := if (monAt s k).clear then signed 24 (getReg s aMonClear).toNat else (monAt s k).mod

/-- The pins. While PORST_N is low they are as R483 holds them. Current I of R427 is code × 16 in the unit; I_IOP and I_ION are 8 mA ± I/2. -/
def pins (s : State) : Pins :=
  let low := s.aon.porstLow || !s.aon.powered
  let code := fun (k : Nat) => if low then 0 else monOut s k
  { ownLow := !low && ownLow s, alertLow := !low && svcAlert s, thermLow := !low && s.aon.alert, refAlarmLow := !low && refAlarm s,
    refState := if low then 0 else s.clk.st % 8,
    refActive := if low then 0 else s.clk.active % 8,
    time := if low then none else some ((List.range 5).map (fun p => decide (p ∈ s.ptp.pinHigh))),
    monIop := (List.range 8).map (fun k => 16777216 + code k),
    monIon := (List.range 8).map (fun k => 16777216 - code k) }

end Sys2Proof.Machine
end

