-- ==== Sys2Proof/WellFormed.lean ====
section
/-! DEFINITION. Well-formed commands: every operand lies in the range that the part has places for. The meanings are total and
give ill-formed commands no effect of their own; the decoder of the host's descriptors is the payload check of each meaning (R52). -/

namespace Sys2Proof

/-- A descriptor has the 48 payload bytes of a submission entry (R313). -/
def Desc.wf (d : Desc) : Bool := decide (d.payload.length = 48)

/-- A byte address of the register map, word-aligned (R9, R512). -/
def addrOk (a : Nat) : Bool := decide (a < 2 ^ 32) && decide (a % 4 = 0)

/-- A geometry item names one of the 1,024 objects, one of 5 directions or 2,048 pair slots (R176, R187). -/
def GeomItem.wf : GeomItem → Bool
  | .pre o => decide (o < 1024)
  | .dir o k => decide (o < 1024) && decide (k < 5)
  | .mrg o => decide (o < 1024)
  | .slt o j => decide (o < 1024) && decide (j < 2048)

/-- A correction unit: one of 1,024 outputs or 64 crossfade lanes (R179). -/
def CorrUnit.wf : CorrUnit → Bool
  | .out o => decide (o < 1024)
  | .lane x => decide (x < 64)

/-- A master and a target of the matrix (R380). -/
def Txn.wf (t : Txn) : Bool := decide (t.master < 8) && decide (t.target < 7)

/-- A steward core as a bus master (R341). -/
def Master.wf : Master → Bool
  | .core n => decide (n < 16)
  | _ => true

/-- A byte read has at least one byte enable set (R9). -/
def beOk (be : BitVec 4) : Bool := be != 0#4

/-- Symbols in error name one of the 72 symbols of a line each, with a difference that is not 0 (R8). -/
def symbolsOk (symbols : List (Nat × Byte)) : Bool := symbols.all (fun x => decide (x.1 < 72) && x.2 != 0#8)

/-- A line of DRAM that is read with errors (R8). -/
def LineErr.wf (e : LineErr) : Bool := symbolsOk e.symbols

/-- An answer to a window access (R335). -/
def Answer.wf : Answer → Bool
  | .damaged symbols => symbolsOk symbols
  | _ => true

/-- What a tail chain meets (R145): errors of lines. -/
def ChainObs.wf (c : ChainObs) : Bool := c.errs.all (·.wf)

/-- A line of a steward core's tightly coupled memory (R340). -/
def TcmErr.wf (e : TcmErr) : Bool := decide (e.core < 16)

/-- What a period reports: lines, one of the 8 monitor outputs a slip (R426, R427). -/
def PeriodObs.wf (o : PeriodObs) : Bool := o.refill.all (·.wf) && o.monSlips.all (· < 8) && o.tcm.all (·.wf)

/-- The result of training: the fit of each of the 8 channels, one delay and eye per byte lane, and of a failed step its channel, lane (or
0xFF) and step (R390, R405). -/
def TrainResult.wf (r : TrainResult) : Bool :=
  decide (r.fit.length = 8) && decide (r.lanes.length = 16) && r.lanes.all (fun l => decide (l.rdDly < 256) && decide (l.wrDly < 256)) &&
    r.failed.all (fun (c, lane, _) => decide (c < 8) && (decide (lane < 2) || decide (lane = 0xFF)))

/-- What the tail port reads: an output's, or a lane's, data (R144). -/
def TailRead.wf : TailRead → Bool
  | .output o _ errs => decide (o < 1088) && errs.all (·.wf)
  | .chain o => decide (o < 1088)

/-- The doorbell page as it is read, in words, and each fetched entry of 64 bytes (R310, R313). -/
def pageWf (page : Option (List Word)) (entries : List (Option (List Byte))) : Bool :=
  page.all (fun w => decide (w.length = 48)) && entries.all (fun e => e.all (fun b => decide (b.length = 64)))

/-- The settings that the function supports (R306). -/
def pciWf (c : PciCfg) : Bool :=
  c.masked.all (· < 64) && decide (c.mps ∈ [128, 256, 512]) && decide (c.mrrs ∈ [128, 256, 512, 1024, 2048, 4096])

/-- A command whose operands lie in their ranges. -/
def Instr.wf : Instr → Bool
  | .hifNop a => a.wf
  | .hifAbort a => a.wf
  | .hifSqDisable a => a.wf
  | .hifStatus a => a.wf
  | .hifIdentify a => a.wf
  | .schLoad a => a.wf
  | .schLoadDone => true
  | .schStart a => a.wf
  | .schSwap a => a.wf
  | .schCancel a => a.wf
  | .schStop a => a.wf
  | .schRestart a => a.wf
  | .schStatus a => a.wf
  | .schInfo a => a.wf
  | .objMap a => a.wf
  | .objCond a => a.wf
  | .objSegment a => a.wf
  | .objSegBatch a => a.wf
  | .objCtl a => a.wf
  | .objAlignSet a => a.wf
  | .objStatus a => a.wf
  | .objPrefilter a => a.wf
  | .objCoarse a => a.wf
  | .objKernel a => a.wf
  | .pairKtbl a => a.wf
  | .pairStatus a => a.wf
  | .geoSpkLoad a => a.wf
  | .geoZoneLoad a => a.wf
  | .geoTriLoad a => a.wf
  | .geoCubeLoad a => a.wf
  | .geoAirLoad a => a.wf
  | .geoBankSwitch a => a.wf
  | .geoBankSync a => a.wf
  | .geoObjLaw a => a.wf
  | .geoGlobal a => a.wf
  | .geoStatus a => a.wf
  | .geoPairRead a => a.wf
  | .corrStage a => a.wf
  | .corrStageDone a => decide (a < 64)
  | .corrSwitch a => a.wf
  | .corrSetRead a e => a.wf && e.all (·.wf)
  | .sluiceSet a => a.wf
  | .meterCfg a => a.wf
  | .meterRead a => a.wf
  | .corrStatus a => a.wf
  | .corrClearState a => a.wf
  | .fabLinkCtl a => a.wf
  | .fabIdent a => a.wf
  | .fabWbLoad a => a.wf
  | .fabGrpLoad a => a.wf
  | .fabEpochSwitch a => a.wf
  | .fabBankSync a => a.wf
  | .fabDisc a => a.wf
  | .fabMgmtSend a => a.wf
  | .fabStatus a => a.wf
  | .fabRemote a => a.wf
  | .clkRate a => a.wf
  | .clkRefCfg a => a.wf
  | .clkSelCfg a => a.wf
  | .clkSelect a => a.wf
  | .clkStatus a => a.wf
  | .ptpCfg a => a.wf
  | .ptpStepArm a => a.wf
  | .ptpClearGmChange a => a.wf
  | .ptpStatus a => a.wf
  | .timeTrig a => a.wf
  | .timeCapCfg a => a.wf
  | .timeCapRead a => a.wf
  | .mpPortCfg a => a.wf
  | .mpRxStream a => a.wf
  | .mpRxMap a => a.wf
  | .mpTxStream a => a.wf
  | .mpStatus a => a.wf
  | .sapCfg a => a.wf
  | .mixBus a => a.wf
  | .mixInput a => a.wf
  | .monTaps a => a.wf
  | .sidetone a => a.wf
  | .capCfg a => a.wf
  | .capCoef a => a.wf
  | .capDest a => a.wf
  | .capStart a => a.wf
  | .capStop a => a.wf
  | .stimLoad a => a.wf
  | .stimStart a => a.wf
  | .stimStop a => a.wf
  | .lauStatus a => a.wf
  | .dpxCfg a => a.wf
  | .dpxSwitch a => a.wf
  | .dpxArm a => a.wf
  | .dpxStatus a => a.wf
  | .lgrRead a => a.wf
  | .lgrInfo a => a.wf
  | .lgrAnnotate a => a.wf
  | .lgrNonce a => a.wf
  | .lgrClear a => a.wf
  | .lgrClearDone => true
  | .stwFwLoad a => a.wf
  | .stwFwStart a => a.wf
  | .stwFwStop a => a.wf
  | .fwStopHalt => true
  | .dspFlowCfg a => a.wf
  | .stwStatus a => a.wf
  | .dspLimits a => a.wf
  | .userOpcode a b => decide (0xB8 ≤ a) && decide (a ≤ 0xBF) && b.wf
  | .abortRequest _ => true
  | .abortOwnerTimeout _ => true
  | .opTimeout _ => true
  | .rwinRead _ a => a.wf
  | .rwinWrite _ a => a.wf
  | .rwinTimeout _ => true
  | .svcRwinRead _ a => a.wf
  | .svcRwinWrite _ a => a.wf
  | .warmResetRequest _ _ => true
  | .wrstNAssert => true
  | .warmResetRelease => true
  | .coldReset a _ => decide (a < 4)
  | .powerFail => true
  | .dbKick _ => true
  | .lgrRecRead be => beOk be
  | .svcLgrRecRead be => beOk be
  | .bootGo _ _ => true
  | .coresReleased _ => true
  | .segmentPush a _ => decide (a < 16)
  | .getWork a be => decide (a < 16) && beOk be
  | .dspGrant => true
  | .getWorkTimeout a => decide (a < 16)
  | .affinityExpiry a => decide (a < 8192)
  | .dspDone a _ => decide (a < 16)
  | .dspFwd a _ => decide (a < 16)
  | .dspAdd a _ => decide (a < 16)
  | .cplCommit a _ => decide (a < 16)
  | .cplComplete a _ => decide (a < 16)
  | .cplWithdraw a _ => decide (a < 16)
  | .heartbeat a => decide (a < 16)
  | .hbLost a => decide (a < 65536)
  | .svcLimit a => decide (a < 8192)
  | .irqDeliver => true
  | .irqClaim a be => decide (a < 16) && beOk be
  | .irqEoi a _ => decide (a < 16)
  | .irqMset _ => true
  | .irqMclr _ => true
  | .irqSwiSet _ => true
  | .irqSwiClear _ => true
  | .irqStatRead be => beOk be
  | .cisStatRead be => beOk be
  | .corStatRead be => beOk be
  | .drcRefRead a be => decide (a < 8) && beOk be
  | .topThermRead be => beOk be
  | .ptpRptPop a be => decide (a < 4) && beOk be
  | .ptpTcapPop be => beOk be
  | .ptpTimeRead be => beOk be
  | .clkTidxRead be => beOk be
  | .clkMapRead be => beOk be
  | .lgrPtimeRead be => beOk be
  | .dramRetrain _ => true
  | .sqEnable a _ => decide (a < 16)
  | .sqDisableWrite a _ => decide (a < 16)
  | .sqDrainEnd a => decide (a < 16)
  | .cqEnable a _ => decide (a < 16)
  | .cqDisable a _ => decide (a < 16)
  | .evrEnable _ => true
  | .evrDisable _ => true
  | .armWrite _ => true
  | .registerWrite a b _ _ => a.wf && addrOk b
  | .svcStatus => true
  | .svcRead a b => addrOk a && decide (1 ≤ b)
  | .svcWrite a b => addrOk a && decide (1 ≤ b.length)
  | .svcFrameEnd => true
  | .hostIfReset a => decide (1 ≤ a) && decide (a ≤ 4)
  | .d3hotEntry _ => true
  | .d0Return => true
  | .busMasterChange _ c => pciWf c
  | .msixUnmask a b c => decide (a < 64) && decide (b < 2 ^ 64) && decide (b % 4 = 0) && decide (c < 2 ^ 32)
  | .inboundTimeout _ => true
  | .doorbellPoll a b => pageWf a b
  | .cqModTimer a => decide (a < 16)
  | .matrixTimeout a => a.wf
  | .masterResetDrain a _ _ => decide (a < 8)
  | .trancheBoundary _ _ o => o.wf
  | .segmentCutoff => true
  | .furrowPhaseStart _ => true
  | .handoverPhaseStart a => a.all (fun x => decide (x.2 < 1024))
  | .cond a => decide (a < 1024)
  | .geomItem a => a.wf
  | .furrowSlot a b _ _ _ => decide (a < 128) && decide (b < 8192)
  | .bq a => a.wf
  | .head a _ => a.wf
  | .slu a => a.wf
  | .tailChain a _ o => a.wf && o.wf
  | .launch a _ => decide (a < 16)
  | .form a _ => decide (a < 4)
  | .cisternFetchDone a _ _ e => decide (a < 1024) && e.all (·.wf)
  | .cisternPanic a _ => decide (a < 1024)
  | .dpxStrobeReceive _ _ => true
  | .linkLock a => decide (a < 16)
  | .linkLockTimeout a => decide (a < 16)
  | .linkLockLoss a => decide (a < 16)
  | .fecWindow a _ _ => decide (a < 16)
  | .helloSend a => decide (a < 16)
  | .helloReceive a _ => decide (a < 16)
  | .helloTimeout a => decide (a < 16)
  | .helloLost a => decide (a < 16)
  | .tickReceive a m b d _ => decide (a < 16) && decide (m < 256) && decide (b < 2 ^ 24) && decide (d < 2 ^ 16)
  | .caravanReceive a _ _ _ _ => decide (a < 16)
  | .egressFrameStart a _ _ => decide (a < 16)
  | .fabDiscTimeout _ => true
  | .remoteRetransmit _ => true
  | .refEdge a _ => decide (2 ≤ a) && decide (a ≤ 6)
  | .refMissing a => decide (2 ≤ a) && decide (a ≤ 6)
  | .freqWindow a _ => decide (2 ≤ a) && decide (a ≤ 6)
  | .driftEval _ => true
  | .qualTimer a => decide (1 ≤ a) && decide (a ≤ 7)
  | .wtrExpiry a => decide (1 ≤ a) && decide (a ≤ 7)
  | .refSwitchDone _ => true
  | .bleedTick => true
  | .pllUnlock _ => true
  | .pllLock => true
  | .tidxSet a => decide (a < 2 ^ 24)
  | .mpLockLoss a => decide (a < 4)
  | .mpUpTimer a => decide (a < 4)
  | .mpFrameReceive a f => decide (a < 4) && decide (f.cycle < 393216)
  | .pauseExpiry a => decide (a < 4)
  | .pathDown a _ => decide (a < 128)
  | .txLateDrop a => decide (a < 4)
  | .mpFrameDepart a _ => decide (a < 4)
  | .ptpSync _ => true
  | .ptpDelayResp q _ _ => decide (q < 65536)
  | .ptpAnnounce _ => true
  | .ptpDelayReqSend _ _ => true
  | .syncTimeout => true
  | .announceTimeout => true
  | .trigFire a => decide (a < 4)
  | .ppsOutPulse => true
  | .tcapEdge a _ _ => decide (a < 4)
  | .sapFrame a _ _ => decide (a < 16)
  | .sapWsEdge a _ _ => decide (a < 16)
  | .sapLost a => decide (a < 16)
  | .silNChange _ => true
  | .monClrAssert => true
  | .monClrRelease => true
  | .monComplyTimer a b _ => decide (a < 8) && decide (b < 2)
  | .peerAssert => true
  | .peerReleased => true
  | .claimTimeout => true
  | .commandedRelease => true
  | .takebackHold => true
  | .flashOpDone a _ => a.all (· < 1029)
  | .journalPlace => true
  | .checkpointSave => true
  | .ledgerScanDone => true
  | .dramTrainDone a => a.wf
  | .mr4Poll a b => decide (a < 8) && decide (b < 256)
  | .refreshAccrual a b _ d => decide (a < 8) && decide (b < 16) && d.all (· < 16)
  | .scrubRead _ b => symbolsOk b
  | .thermSample a => decide (-128 ≤ a) && decide (a ≤ 127)
  | .porstNAssert => true
  | .mpLockGain a => decide (a < 4)
  | .lowPowerIdleReceive a => decide (a < 4)
  | .clkRateTimeout => true
  | .tailReadDone a => a.wf
  | .matrixLateResponse a => a.wf
  | .shadowStoreWrite a b => decide (0x02000000 ≤ a) && decide (a + b.length ≤ 0x03000000)
  | .trigPulseEnd a => decide (a < 5)
  | .peerLowHeld => true
  | .l1Exit => true
  | .dramSelfRefreshExit => true
  | .jtagTapOperation _ => true

end Sys2Proof
end

