-- ==== Sys2Proof/Tests/Slice0.lean ====
section
/-! SUPPORT. Tests: for every statement with hypotheses a state and operands that meet them, clause by clause; an ill-formed operand for every
check of WellFormed, which the check refuses; and single commands with results worked out by hand from the rules that the comments name. -/

namespace Slice0Tests

open Sys2Proof Sys2Proof.Machine

set_option Elab.async false

/-! ## Witnesses: one for each clause that has hypotheses, at the ends of the operands' ranges -/

/-- A descriptor with some bytes of its 48-byte payload set, and host blocks. -/
def wdb (l : List (Nat × Byte)) (bs : List (List Byte)) : Desc :=
  { tok := 0, payload := (List.range 48).map (fun i => (l.lookup i).getD 0), blocks := bs.map some }

/-- A descriptor without host blocks. -/
def wd (l : List (Nat × Byte)) : Desc := wdb l []

/-- An image without entries. -/
def wImg : Img :=
  { rate := 1, id := 0, f := 1, cmax := 0, coarsePar := 0, xfPar := 0, slotTotal := 0, pTyp := 0, pMax := 0, obj := [], aset := [],
    hgt := [], geo := [], fur := [], cor := [], lanes := [], tail := [], tailUniform := false, launches := [], imports := [],
    txs := [], forms := [], outImp := [], slots := [] }

/-- An image that gives every output the head of the reset set and every equaliser section. -/
def wImgC : Img :=
  { wImg with cor := List.replicate 1024 { headMax := 16, tailMax := 0, dp := 0, bq := 16, head := 0, slu := 0 } }

/-- The reset state with another schedule, and period 1 in progress. -/
def wSch (h : Sch) : State := { State.reset with sch := h, clk := { tidxValid := true, tidx := 1, rateSet := true } }

/-- The reset state with one media port. -/
def wPort (p : MpPort) : State := { State.reset with mp := { port := [(0, p)] } }

/-- The reset state with another time unit. -/
def wPtp (p : Ptp) : State := { State.reset with ptp := p }

/-- The reset state with one serial port. -/
def wSap (p : SapPort) : State := { State.reset with lau := { sap := [(0, p)] } }

/-- The reset state with another interlock. -/
def wDpx (d : Dpx) : State := { State.reset with dpx := d }

/-- The reset state with another ledger. -/
def wLgr (g : Lgr) : State := { State.reset with lgr := g }

/-- The bytes of a store that hold no more than a total length of 80 and the digest over it. -/
def wDigest : List Byte := (zeros 16 ++ [80] ++ zeros 31) ++ imageDigest 48 (zeros 16 ++ [80] ++ zeros 63)

/-- A descriptor whose host blocks hold zeros, of these lengths. -/
def wdz (l : List (Nat × Byte)) (ns : List Nat) : Desc := wdb l (ns.map zeros)

theorem none_all {α : Type} {P : α → Prop} {x : Option α} (h : x = none) : ∀ g, x = some g → P g := by
  intro g e; rw [h] at e; exact nomatch e

theorem chunks_zeros (n k m : Nat) (h : n * k ≤ m) : ∀ r ∈ chunks n k (zeros m), r = zeros n := by
  induction k generalizing m with
  | zero => intro r hr; exact nomatch hr
  | succ k ih =>
    intro r hr
    rcases List.mem_cons.mp hr with hr | hr
    · rw [hr]; simp only [zeros, List.take_replicate]; rw [Nat.min_eq_left (by nlinarith [Nat.zero_le (n * k)])]
    · refine ih (m - n) (by rw [Nat.mul_succ] at h; omega) r ?_
      simpa [zeros, List.drop_replicate] using hr

theorem wdz_block (l : List (Nat × Byte)) (n : Nat) : hostBlock (wdz l [n]) 0 n = some (zeros n) := by
  simp [hostBlock, wdz, wdb, zeros]

/-- A law record with SPREAD_K, RMIN and RREF at their least. -/
def wLaw : List Byte :=
  [0, 0, 0, 0, 0, 0, 1, 0] ++ zeros 4 ++ [0x0A, 0xD7, 0x23, 0x3C, 0x0A, 0xD7, 0x23, 0x3C] ++ zeros 108

theorem chunks_flatten (k : Nat) (r : List Byte) : chunks r.length k (List.replicate k r).flatten = List.replicate k r := by
  induction k with
  | zero => rfl
  | succ k ih => simp [chunks, List.replicate_succ, ih]

/-- The cells of a cube with one candidate each. -/
def wCells : List Byte := (List.replicate 6144 [0, 0, 1, 0]).flatten

theorem wCells_ok : ∀ c ∈ cubeCells wCells, c = 0x00010000 := by
  intro c hc
  obtain ⟨r, hr, rfl⟩ := List.mem_map.mp hc
  rw [show chunks 4 6144 wCells = List.replicate 6144 [0, 0, 1, 0] from chunks_flatten 6144 [0, 0, 1, 0]] at hr
  rw [(List.mem_replicate.mp hr).2]
  decide

theorem wCells_length : wCells.length = 6144 * 4 := by
  rw [wCells, List.length_flatten, List.map_replicate, List.sum_replicate]; rfl

/-- An operation of ring 0 with token 7 in a state. -/
def wOp (st : OpState) (notice : Bool) (ms : Nat) : Op :=
  { tok := 7, sq := 0, cid := 0, opcode := 0, fence := false, timeoutMs := ms, entry := [], st := st, owner := 0, notice := notice, tmo := false,
    added := true, done := false, orphan := false }

/-- An item of flow 0; kind 1 carries a host operation, `param` is its token. -/
def wItem (kind param : Nat) (st : ItemSt) : Item :=
  { flow := 0, prio := 0, kind := kind, source := 0, param := param, ptr := 0, len := 0, tag := 0, seq := 0, rseq := 0, st := st, resv := none,
    long := false }

/-- The reset state with one item in slot 5, and one operation that core 3 reports on. -/
def wWork (i : Item) (o : Op) : State :=
  setReg { State.reset with stw := { items := [(5, i)] }, hif := { ops := [o] } } (aCpl 3 0) 7

/-- The reset state with one submission and one completion ring. -/
def wRing (a : SqRing) (b : CqRing) : State := { State.reset with hif := { sq := [(15, a)], cq := [(15, b)], bme := true } }

/-- An image with a tail, one lane and one entry in each section. -/
def wImgX : Img :=
  { wImg with
    obj := [{ dirs := 1, merge := 1 }], fur := [[{ obj := 0, slot := 0, cycle := 0, aset := 0 }]],
    cor := List.replicate 1024 { headMax := 16, tailMax := 1, dp := 0, bq := 16, head := 0, slu := 0 },
    lanes := [{ headMax := 16, tailMax := 1, dp := 0, bq := 16, head := 0, slu := 0 }],
    tail := [[(1023, 0), (0x8000, 0)]], tailUniform := true,
    launches := [[{ cycle := 0, dest := 0, b4 := 3, stream := 0, hadd := 0, ttl := 16, srcs := [0] }]] }

/-- A crossfade of output 1,023 in lane 0. -/
def wXf (n : Nat) : Xf := { n := n, f := 16, out := 1023, slot := 63, lane := 0, tok := none, bz := [], done := false }

/-- Period 300 under that image, with a crossfade. -/
def wRun (n : Nat) : State :=
  { State.reset with sch := { st := 2, activeImg := some wImgX }, clk := { tidxValid := true, tidx := 300, rateSet := true }, cor := { xfs := [wXf n] } }

/-- The reset state with link 0 in a state, its queue, and a fabric address. -/
def wLink (st : Nat) (q : List EFrame) : State :=
  setReg { State.reset with fab := { link := [(0, { st := st, queue := q })] }, clk := { tidxValid := true } } aFabAddr 0x10003

/-- The reset state with reference 6 in a state. -/
def wRef (r : RefSt) : State := { State.reset with clk := { refs := [(6, r)] } }

/-- The reservation that every output has in `wImgC`. -/
def wCorEnt : CEnt := { headMax := 16, tailMax := 0, dp := 0, bq := 16, head := 0, slu := 0 }

theorem wCor_get (o : Nat) (ho : o < 1024) : wImgC.cor[o]? = some wCorEnt := by
  have : wImgC.cor = List.replicate 1024 wCorEnt := rfl
  rw [this, List.getElem?_replicate, if_pos ho]

theorem wFits (h : Sch) : setsFit (wSch h) wImgC = true := by
  unfold setsFit
  rw [Bool.and_eq_true]
  refine ⟨List.all_eq_true.mpr fun o ho => ?_, rfl⟩
  unfold fitsImg
  rw [wCor_get o (List.mem_range.mp ho)]
  exact show setFits ({} : Out).set wCorEnt = true by decide +kernel

theorem witness_HostInterfaceDescriptorsComplete :
    (∃ (d : Desc), Unused d []) ∧
    (∃ (d : Desc), Unused d [(0, 8)]) ∧
    (∃ (d : Desc), Unused d [(0, 8)]) ∧
    (∃ (d : Desc), Unused d [(0, 4)] ∧ pl d 0 1 ≤ 2 ∧ (pl d 0 1 = 2 ∨ pl d 1 1 ≤ 15)) ∧
    (∃ (d : Desc) (s : State), Unused d [(0, 1)] ∧ pl d 0 1 ≤ 15 ∧ (∀ o, findOp s d.tok = some o → o.sq ≠ pl d 0 1)) :=
  ⟨⟨wd [], by unfold Unused; decide +kernel⟩,
   ⟨wd [], by unfold Unused; decide +kernel⟩,
   ⟨wd [], by unfold Unused; decide +kernel⟩,
   ⟨wd [], by unfold Unused; decide +kernel⟩,
   ⟨wd [], State.reset, by unfold Unused; decide +kernel⟩⟩

theorem witness_ScheduleCommandsArm :
    (∃ (d : Desc) (s : State), Unused d [(0, 13)] ∧ pl d 12 1 = 1 ∧ swapArmed s = false ∧ armedKind s 1 = none) ∧
    (∃ (d : Desc) (s : State) (b : _), Unused d [(0, 13)] ∧ pl d 12 1 = 0 ∧ 1 ≤ pl d 8 4 ∧ pl d 8 4 ≤ 16777216 ∧
      hostBlock d 0 (pl d 8 4) = some b ∧ swapArmed s = false ∧ armedKind s 1 = none) ∧
    (∃ (d : Desc) (s : State) (i : _) (n : _), Unused d [(0, 9)] ∧ pl d 8 1 ≤ 1 ∧ n = keyN d (leastBefore s 1) ∧
      beforeH s ((n : Int) - 1) = true ∧ validShadow s = some i ∧ stopped s = true ∧ s.clk.rateSet = true ∧ i.rate = s.clk.rate ∧
      suitsStart s i n = true) ∧
    (∃ (d : Desc) (s : State) (i : _) (a : _) (n : _), Unused d [(0, 9)] ∧ pl d 8 1 ≤ 1 ∧ validShadow s = some i ∧ s.sch.activeImg = some a ∧
      n = keyN d (upTo (leastBefore s (tailQ s - 1)) (Nat.lcm i.f a.f)) ∧ n % i.f = 0 ∧ n % a.f = 0 ∧
      beforeH s ((n : Int) - tailQ s + 1) = true ∧ s.sch.st = 2 ∧ s.sch.swap = none ∧ s.sch.armed = none ∧ compatible s i n = true) ∧
    (∃ (d : Desc) (s : State) (n : _), Unused d [(0, 9)] ∧ pl d 8 1 ≤ 1 ∧ n = keyN d (leastBefore s 1) ∧ beforeH s ((n : Int) - 1) = true ∧
      (s.sch.st = 2 ∨ s.sch.st = 4) ∧ s.sch.armed = none ∧ swapArmed s = false) ∧
    (∃ (d : Desc) (s : State) (n : _), Unused d [(0, 9)] ∧ pl d 8 1 ≤ 1 ∧ n = keyN d (leastBefore s 1) ∧ beforeH s ((n : Int) - 1) = true ∧
      s.sch.st = 4 ∧ s.sch.armed = none ∧ digestGood 48 (imgBody s.sch.active) = true) :=
  ⟨⟨wd [(12, 1)], State.reset, by unfold Unused; decide +kernel⟩,
   ⟨wdb [(8, 1)] [[7]], State.reset, (hostBlock (wdb [(8, 1)] [[7]]) 0 (pl (wdb [(8, 1)] [[7]]) 8 4)).getD [],
     by unfold Unused; decide +kernel⟩,
   ⟨wd [(8, 1)], wSch { shadowValid := true, shadowImg := some wImgC }, wImgC,
     keyN (wd [(8, 1)]) (leastBefore (wSch { shadowValid := true, shadowImg := some wImgC }) 1), by unfold Unused; decide +kernel,
     by decide +kernel, by decide +kernel, by decide +kernel, by decide +kernel, by decide +kernel, by decide +kernel, by decide +kernel,
     by unfold suitsStart; rw [wFits]; decide +kernel⟩,
   ⟨wd [(8, 1)], wSch { st := 2, shadowValid := true, shadowImg := some wImgC, activeImg := some wImg }, wImgC, wImg,
     keyN (wd [(8, 1)]) (upTo (leastBefore (wSch { st := 2, shadowValid := true, shadowImg := some wImgC, activeImg := some wImg }) (tailQ (wSch { st := 2, shadowValid := true, shadowImg := some wImgC, activeImg := some wImg }) - 1)) (Nat.lcm (wImgC).f (wImg).f)),
     by unfold Unused; decide +kernel, by decide +kernel, by decide +kernel, by decide +kernel, by decide +kernel, by decide +kernel,
     by decide +kernel, by decide +kernel, by decide +kernel, by decide +kernel, by decide +kernel,
     by unfold compatible; rw [wFits]; decide +kernel⟩,
   ⟨wd [(8, 1)], wSch { st := 2 }, keyN (wd [(8, 1)]) (leastBefore (wSch { st := 2 }) 1), by unfold Unused; decide +kernel⟩,
   ⟨wd [(8, 1)], wSch { st := 4, active := wDigest }, keyN (wd [(8, 1)]) (leastBefore (wSch { st := 4, active := wDigest }) 1),
     by unfold Unused; decide +kernel⟩⟩

theorem witness_ScheduleCancelAndStatusComplete :
    (∃ (d : Desc) (s : State) (a : Armed), Unused d [(0, 1)] ∧ pl d 0 1 = 1 ∧ armedKind s 1 = some a ∧ armedPending s a = true) ∧
    (∃ (d : Desc) (s : State) (w : SwapSt), Unused d [(0, 1)] ∧ pl d 0 1 = 2 ∧ s.sch.swap = some w ∧ w.byRestart = false ∧
      swapPending s w = true) ∧
    (∃ (d : Desc) (s : State) (a : Armed), Unused d [(0, 1)] ∧ pl d 0 1 = 3 ∧ armedKind s 3 = some a ∧ armedPending s a = true) ∧
    (∃ (d : Desc) (s : State) (a : Armed), Unused d [(0, 1)] ∧ pl d 0 1 = 4 ∧ armedKind s 4 = some a ∧ armedPending s a = true) ∧
    (∃ (d : Desc), Unused d [(0, 9)] ∧ pl d 8 1 ≤ 1) ∧
    (∃ (d : Desc), Unused d [(0, 9)] ∧ pl d 8 1 ≤ 1) :=
  ⟨⟨wd [(0, 1)], wSch { st := 1, armed := some { kind := 1, n := 5, tok := 3, shadow := false, origin := 2 } },
     { kind := 1, n := 5, tok := 3, shadow := false, origin := 2 }, by unfold Unused; decide +kernel⟩,
   ⟨wd [(0, 2)], wSch { st := 2, swap := some { n := 200, tok := 3, switched := false, byRestart := false } },
     { n := 200, tok := 3, switched := false, byRestart := false }, by unfold Unused; decide +kernel⟩,
   ⟨wd [(0, 3)], wSch { st := 3, armed := some { kind := 3, n := 5, tok := 3, shadow := false, origin := 2 } },
     { kind := 3, n := 5, tok := 3, shadow := false, origin := 2 }, by unfold Unused; decide +kernel⟩,
   ⟨wd [(0, 4)], wSch { st := 4, armed := some { kind := 4, n := 5, tok := 3, shadow := false, origin := 2 } },
     { kind := 4, n := 5, tok := 3, shadow := false, origin := 2 }, by unfold Unused; decide +kernel⟩,
   ⟨wd [], by unfold Unused; decide +kernel⟩,
   ⟨wd [], by unfold Unused; decide +kernel⟩⟩

theorem witness_MediaCommandsComplete :
    (∃ (n : _) (s : State), n < 4 ∧ (portAt s n).up = true) ∧
    (∃ (n : _), n < 4) ∧
    (∃ (n : _) (s : State), n < 4 ∧ (portAt s n).enabled = true ∧ (portAt s n).locked = true ∧ (portAt s n).up = false) ∧
    (∃ (n : _) (s : State), n < 4 ∧ (portAt s n).up = true) ∧
    (∃ (n : _), n < 4) ∧
    (∃ (x : _) (s : State), (rxAt s x).enabled = true ∧ (rxAt s x).a.down = false) ∧
    (∃ (x : _) (s : State), (rxAt s x).enabled = true ∧ (rxAt s x).pathBEn = true ∧ (rxAt s x).b.down = false) ∧
    (∃ (n : _) (s : State) (i : _) (f : TxFrame), n < 4 ∧ (portAt s n).queue.findIdx? (fun g => decide (g.cls = 1)) = some i ∧
      (portAt s n).queue[i]? = some f) ∧
    (∃ (n : _) (s : State) (i : _) (f : TxFrame), n < 4 ∧ (portAt s n).up = true ∧ (portAt s n).paused = false ∧ s.aon.trip = false ∧
      nextTx (portAt s n).queue = some i ∧ (portAt s n).queue[i]? = some f) ∧
    (∃ (n : _), n < 4) ∧
    (∃ (n : _) (e : _) (s : State) (i : Img) (f : FormEnt) (x : TxEnt), e < 65536 ∧ s.sch.activeImg = some i ∧
      (i.forms.getD n [])[e]? = some f ∧ formStream i f = some x ∧ s.clk.tidx % i.f = f.phase ∧ 0 ≤ 16 * (s.clk.tidx : Int) + f.dofs ∧
      formServes s e (16 * (s.clk.tidx : Int) + f.dofs).toNat (packetP i.rate x.pcode) = true ∧ (txAt s x.stream).enabled = true) :=
  ⟨⟨0, wPort { up := true }, by decide +kernel⟩,
   ⟨0, by decide +kernel⟩,
   ⟨0, wPort { enabled := true, locked := true }, by decide +kernel⟩,
   ⟨0, wPort { up := true }, by decide +kernel⟩,
   ⟨0, by decide +kernel⟩,
   ⟨127, { State.reset with mp := { rx := [(127, { enabled := true, pathBEn := true })] } }, by decide +kernel⟩,
   ⟨127, { State.reset with mp := { rx := [(127, { enabled := true, pathBEn := true })] } }, by decide +kernel⟩,
   ⟨0, wPort { up := true, queue := [{ cls := 1, stream := 0, bytes := [], seqId := 0, report := false }] }, 0,
     { cls := 1, stream := 0, bytes := [], seqId := 0, report := false }, by decide +kernel⟩,
   ⟨0, wPort { up := true, queue := [{ cls := 1, stream := 0, bytes := [], seqId := 0, report := false }] }, 0,
     { cls := 1, stream := 0, bytes := [], seqId := 0, report := false }, by decide +kernel⟩,
   ⟨0, by decide +kernel⟩,
   ⟨0, 0,
     { wSch { st := 2, activeImg := some ({ wImg with txs := [{ stream := 0, portA := 0, portB := 1, pcode := 0, channels := 1, stg := [0] }], forms := [[{ phase := 0, stream := 0, cycle := 0, dofs := 64 }]] }) } with mp := { tx := [(0, { enabled := true })] } },
     ({ wImg with txs := [{ stream := 0, portA := 0, portB := 1, pcode := 0, channels := 1, stg := [0] }], forms := [[{ phase := 0, stream := 0, cycle := 0, dofs := 64 }]] } : Img),
     { phase := 0, stream := 0, cycle := 0, dofs := 64 }, { stream := 0, portA := 0, portB := 1, pcode := 0, channels := 1, stg := [0] },
     by decide +kernel⟩⟩

theorem witness_PtpCommandsComplete :
    (∃ (m : SyncMsg) (s : State), s.ptp.st ≠ 0 ∧ s.ptp.masters ≠ [] ∧ m.master = s.ptp.gm ∧ m.portB = s.ptp.viaB) ∧
    (∃ (q : _) (t3 : Nat) (s : State) (a : _) (b : _), s.ptp.lastSync = some (a, b) ∧ s.ptp.sent = some (q, t3) ∧ s.ptp.st ≠ 0) ∧
    (∃ (m : AnnounceMsg) (s : State), s.ptp.st ≠ 0 ∧ (m.portB = false ∨ s.ptp.portB ≠ 255)) ∧
    (∃ (s : State), s.ptp.st ≠ 0 ∧ s.ptp.masters ≠ [] ∧ ptpPort s < 4 ∧ s.ptp.hybrid = false) ∧
    (∃ (s : State), s.ptp.st ≠ 0) ∧
    (∃ (s : State), s.ptp.st ≠ 0) ∧
    (∃ (p : _) (s : State) (t : Trig), smFind s.ptp.trig p = some t ∧ t.mode = 0 ∧ t.n ≤ s.clk.tidx + 1 ∧ s.clk.tidxValid = true) ∧
    (∃ (p : _) (s : State) (t : Trig), smFind s.ptp.trig p = some t ∧ t.mode ≠ 0 ∧ t.mode ≠ 2 ∧ s.ptp.valid = true) ∧
    (∃ (p : _) (s : State) (t : Trig), smFind s.ptp.trig p = some t ∧ t.mode = 2 ∧ s.ptp.valid = true) ∧
    (∃ (s : State), s.ptp.ppsEn = true ∧ s.ptp.valid = true) ∧
    (∃ (p : _), p < 4) ∧
    (∃ (p : _) (e : Nat) (r : Bool) (s : State), p < 4 ∧ e = (if r then 1 else 2) ∧ s.ptp.tcapMask / 2 ^ p % 2 = 1 ∧
      s.ptp.tcapEdges / 4 ^ p % 4 / e % 2 = 1 ∧ s.ptp.tcapQ.length < 64) :=
  ⟨⟨{ t1 := 0, t2 := 0, master := 9, portB := false },
     wPtp { st := 1, gm := 9, masters := [{ identity := 9, priority1 := 0, clockClass := 0, accuracy := 0, variance := 0, priority2 := 0, stepsRemoved := 0, portB := false }] },
     by decide +kernel⟩,
   ⟨0, 5, wPtp { st := 2, lastSync := some (3, 4), sent := some (0, 5) }, 3, 4, by decide +kernel⟩,
   ⟨{ identity := 9, priority1 := 0, clockClass := 0, accuracy := 0, variance := 0, priority2 := 0, stepsRemoved := 0, portB := false },
     wPtp { st := 1, gm := 9, masters := [{ identity := 9, priority1 := 0, clockClass := 0, accuracy := 0, variance := 0, priority2 := 0, stepsRemoved := 0, portB := false }] },
     by decide +kernel⟩,
   ⟨wPtp { st := 1, gm := 9, masters := [{ identity := 9, priority1 := 0, clockClass := 0, accuracy := 0, variance := 0, priority2 := 0, stepsRemoved := 0, portB := false }] },
     by decide +kernel⟩,
   ⟨wPtp { st := 1, gm := 9, masters := [{ identity := 9, priority1 := 0, clockClass := 0, accuracy := 0, variance := 0, priority2 := 0, stepsRemoved := 0, portB := false }] },
     by decide +kernel⟩,
   ⟨wPtp { st := 1, gm := 9, masters := [{ identity := 9, priority1 := 0, clockClass := 0, accuracy := 0, variance := 0, priority2 := 0, stepsRemoved := 0, portB := false }] },
     by decide +kernel⟩,
   ⟨3, { wSch {} with ptp := { trig := [(3, { tok := 0, mode := 0, pol := true, n := 1, time := 0, period := 0, width := 0 })] } },
     { tok := 0, mode := 0, pol := true, n := 1, time := 0, period := 0, width := 0 }, by decide +kernel⟩,
   ⟨3, wPtp { valid := true, trig := [(3, { tok := 0, mode := 1, pol := true, n := 1, time := 0, period := 0, width := 0 })] },
     { tok := 0, mode := 1, pol := true, n := 1, time := 0, period := 0, width := 0 }, by decide +kernel⟩,
   ⟨3, wPtp { valid := true, trig := [(3, { tok := 0, mode := 2, pol := true, n := 1, time := 0, period := 0, width := 0 })] },
     { tok := 0, mode := 2, pol := true, n := 1, time := 0, period := 0, width := 0 }, by decide +kernel⟩,
   ⟨wPtp { ppsEn := true, valid := true }, by decide +kernel⟩,
   ⟨0, by decide +kernel⟩,
   ⟨3, 1, true, wPtp { tcapMask := 8, tcapEdges := 64 }, by decide +kernel⟩⟩

theorem witness_AudioCommandsComplete :
    (∃ (p : _) (s : State), s.aon.trip = false ∧ p < 16 ∧ (sapAt s p).enabled = true ∧ (sapAt s p).lost = false ∧
      ((sapAt s p).master = true ∨ (sapAt s p).last ≠ none)) ∧
    (∃ (p : _) (s : State), p < 16 ∧ (sapAt s p).enabled = true ∧ (sapAt s p).master = false) ∧
    (∃ (p : _) (s : State), p < 16 ∧ (sapAt s p).enabled = true ∧ (sapAt s p).master = false ∧ (sapAt s p).lost = false) ∧
    (∃ (s : State), s.aon.monClrLow = false) ∧
    (∃ (s : State), s.aon.monClrLow = true) ∧
    (∃ (k : _) (p : _) (s : State), p ∉ (monAt s k).comply) :=
  ⟨⟨0, wSap { enabled := true, master := true }, by decide +kernel⟩,
   ⟨0, wSap { enabled := true }, by decide +kernel⟩,
   ⟨0, wSap { enabled := true }, by decide +kernel⟩,
   ⟨State.reset, by decide +kernel⟩,
   ⟨{ State.reset with aon := { monClrLow := true } }, by decide +kernel⟩,
   ⟨0, 0, State.reset, by decide +kernel⟩⟩

theorem witness_InterlockCommandsComplete :
    (∃ (s : State), s.dpx.st = 0) ∧
    (∃ (s : State), s.dpx.st = 1) ∧
    (∃ (s : State), s.dpx.st ≠ 1) ∧
    (∃ (s : State), s.dpx.st = 1 ∧ s.aon.primary = true ∧ s.dpx.peerLow = true) ∧
    (∃ (s : State) (tok : _), s.dpx.st = 2 ∧ s.dpx.armedN = some (s.clk.tidx + 1, tok) ∧ peerReady s = true) ∧
    (∃ (s : State) (tok : _), s.dpx.st = 2 ∧ s.dpx.armedN = some (s.clk.tidx + 1, tok) ∧ peerReady s = false) ∧
    (∃ (s : State) (f : DpxFrame), xlinkUp s = true ∧ s.dpx.takeback = true ∧ s.aon.primary = true ∧ dpxArm s = true ∧ s.sch.st = 2 ∧
      s.dpx.faultSinceArm = false ∧ s.dpx.st = 0 ∧ s.dpx.peer = some f ∧ f.state % 4 = 2) ∧
    (∃ (s : State), s.dpx.peerLow = true ∧ s.aon.primary = false) ∧
    (∃ (v : Word), v.toNat ≤ 1) ∧
    (∃ (k : Int) (w : Bool) (s : State), standbyOn s = true ∧ k.natAbs ≤ 10 * s.dpx.skewLim ∧
      w = decide ((if k < 0 then s.clk.tidx + 1 else s.clk.tidx) % 1024 = 0)) :=
  ⟨⟨State.reset, by decide +kernel⟩,
   ⟨wDpx { st := 1 }, by decide +kernel⟩,
   ⟨State.reset, by decide +kernel⟩,
   ⟨wDpx { st := 1, peerLow := true }, by decide +kernel⟩,
   ⟨wDpx { st := 2, armedN := some (1, 7), peer := some { n := 0, outDg := 0, inDg := 0, state := 4, cause := 0, armedN := 0, imageId := 0, seq := 0 } },
     7, by decide +kernel⟩,
   ⟨wDpx { st := 2, armedN := some (1, 7) }, 7, by decide +kernel⟩,
   ⟨{ wSch { st := 2 } with dpx := { en := true, takeback := true, peer := some { n := 0, outDg := 0, inDg := 0, state := 2, cause := 0, armedN := 0, imageId := 0, seq := 0 } }, fab := { link := [(15, { st := 3 })] } },
     { n := 0, outDg := 0, inDg := 0, state := 2, cause := 0, armedN := 0, imageId := 0, seq := 0 }, by decide +kernel⟩,
   ⟨{ State.reset with dpx := { peerLow := true }, aon := { primary := false } }, by decide +kernel⟩,
   ⟨0, by decide +kernel⟩,
   ⟨-1, false, { State.reset with dpx := { en := true }, aon := { primary := false } }, by decide +kernel⟩⟩

theorem witness_FlashDramAndBoardCommandsComplete :
    (∃ (s : State) (g : _), s.lgr.ready = true ∧ s.lgr.queue ≠ [] ∧ g = programQueue { s.lgr with retry := false }) ∧
    (∃ (s : State), s.lgr.ready = true ∧ s.lgr.queue ≠ []) ∧
    (∃ (s : State), s.lgr.ready = true) ∧
    (∃ (s : State), s.lgr.ready = true) ∧
    (∃ (s : State) (g : Lgr), s.lgr.ready = false ∧ g = saveCkpt (reclaimAll 256 (scanNext s.lgr))) ∧
    (∃ (r : TrainResult) (n : Nat), trainFault r = none ∧ fitSize r.fit = some n) ∧
    (∃ (r : TrainResult) (s : State) (f : _), trainFault r = some f ∧ s.drc.noDram = false) ∧
    (∃ (c : Nat) (v : Nat) (s : State) (r : Nat) (t : State) (u : State), r = Config.mr4Rate v % 4 ∧
      t = setDrc s (fun d => { d with rate := smSet 0 d.rate c r }) ∧
      u = (if min (smGet 0 s.drc.rate c) 2 = min r 2 then t else ledger 0x0F05 2 c r ((excess t c (limitOf t c)).foldl max 0) (evRaise aDrcEvt 6 (payExcess c (limitOf t c) t)))) ∧
    (∃ (c : Nat) (ds : List Nat) (s : State) (t : State), s.drc.noDram = false ∧ t = payIdle c (ds.filter (fun k => decide (k < 16))) s) ∧
    (∃ (c : _) (b : _) (s : State), s.drc.noDram = false ∧ smGet 0 s.drc.debt (c * 16 + b) < limitOf s c) ∧
    (∃ (l : Nat) (r : List (Nat × Byte)) (s : State) (b : List Byte) (n : Nat), Word.bit (getReg s aDrcCtl) 1 = true ∧ s.drc.ready = true ∧
      l * 64 < dataEnd s.drc.size ∧ decodeLine s { line := l, symbols := r } = some (b, n)) ∧
    (∃ (l : Nat) (r : List (Nat × Byte)) (s : State), Word.bit (getReg s aDrcCtl) 1 = true ∧ s.drc.ready = true ∧
      l * 64 < dataEnd s.drc.size ∧ decodeLine s { line := l, symbols := r } = none) ∧
    (∃ (s : State), s.drc.selfRef = true) ∧
    (∃ (v : Word) (s : State), v.toNat &&& 0xFFFFFFFC = 0 ∧ Word.bit v 0 = true ∧ stopped s = true ∧ s.drc.ready = true ∧
      s.drc.retraining = false) :=
  ⟨⟨wLgr { ready := true, queue := [mkRec {} 1 1 false 0 0 0] },
     programQueue { (wLgr { ready := true, queue := [mkRec {} 1 1 false 0 0 0] }).lgr with retry := false }, by decide +kernel,
     by decide +kernel, rfl⟩,
   ⟨wLgr { ready := true, queue := [mkRec {} 1 1 false 0 0 0] }, by decide +kernel⟩,
   ⟨wLgr { ready := true }, by decide +kernel⟩,
   ⟨wLgr { ready := true }, by decide +kernel⟩,
   ⟨State.reset, _, rfl, rfl⟩,
   ⟨{ fit := List.replicate 8 (8, 16), lanes := List.replicate 16 { rdDly := 0, wrDly := 0, rdEye := 46900, wrEye := 46900 }, failed := none },
     1, by decide +kernel⟩,
   ⟨{ fit := List.replicate 8 (8, 16), lanes := List.replicate 16 { rdDly := 0, wrDly := 0, rdEye := 46900, wrEye := 46900 }, failed := some (3, 4, 5) },
     State.reset, (3, 4, 5), by decide +kernel⟩,
   ⟨0, 0, State.reset, Config.mr4Rate (0) % 4,
     setDrc (State.reset) (fun d => { d with rate := smSet 0 d.rate (0) (Config.mr4Rate (0) % 4) }),
     (if min (smGet 0 (State.reset).drc.rate (0)) 2 = min (Config.mr4Rate (0) % 4) 2 then (setDrc (State.reset) (fun d => { d with rate := smSet 0 d.rate (0) (Config.mr4Rate (0) % 4) })) else ledger 0x0F05 2 (0) (Config.mr4Rate (0) % 4) ((excess (setDrc (State.reset) (fun d => { d with rate := smSet 0 d.rate (0) (Config.mr4Rate (0) % 4) })) (0) (limitOf (setDrc (State.reset) (fun d => { d with rate := smSet 0 d.rate (0) (Config.mr4Rate (0) % 4) })) (0))).foldl max 0) (evRaise aDrcEvt 6 (payExcess (0) (limitOf (setDrc (State.reset) (fun d => { d with rate := smSet 0 d.rate (0) (Config.mr4Rate (0) % 4) })) (0)) (setDrc (State.reset) (fun d => { d with rate := smSet 0 d.rate (0) (Config.mr4Rate (0) % 4) }))))),
     rfl, rfl, rfl⟩,
   ⟨0, [], State.reset, payIdle (0) (([]).filter (fun k => decide (k < 16))) (State.reset), by decide +kernel, rfl⟩,
   ⟨0, 0, State.reset, by decide +kernel⟩,
   ⟨0, [], setReg { State.reset with drc := { ready := true, size := 1 } } aDrcCtl 2, zeros 64, 0, by decide +kernel⟩,
   ⟨0, [], setReg { State.reset with drc := { ready := true, size := 1, lost := [0] } } aDrcCtl 2, by decide +kernel⟩,
   ⟨{ State.reset with drc := { selfRef := true } }, by decide +kernel⟩,
   ⟨1, { State.reset with drc := { ready := true } }, by decide +kernel⟩⟩

theorem witness_StepRunsTheFrontCommand :
    (∃ (c : Instr) (cs : _) (s : State), s.pending = c :: cs) :=
  ⟨.svcStatus, [], { State.reset with pending := [.svcStatus] }, by decide +kernel⟩

theorem witness_StepWithNothingWaitingIsPoweredTime :
    (∃ (s : State), s.pending = [] ∧ s.aon.powered = true ∧ s.aon.porstLow = false) ∧
    (∃ (s : State), s.pending = [] ∧ (s.aon.powered = false ∨ s.aon.porstLow = true)) :=
  ⟨⟨State.reset, by decide +kernel⟩,
   ⟨{ State.reset with aon := { powered := false } }, by decide +kernel⟩⟩

theorem witness_StepTakesExactlyTheFrontCommand :
    (∃ (c : Instr) (cs : _) (s : State), s.pending = c :: cs) :=
  ⟨.svcStatus, [], { State.reset with pending := [.svcStatus] }, by decide +kernel⟩

theorem witness_EveryStepKeepsModesLegal :
    (∃ (s t : State), ModesLegal s ∧ step s = .next t) :=
  ⟨State.reset, _, by unfold ModesLegal; decide +kernel, rfl⟩

theorem witness_EveryStepKeepsMemoriesCanonical :
    (∃ (s t : State), MemoriesWf s ∧ step s = .next t) :=
  ⟨State.reset, _, by unfold MemoriesWf; decide +kernel, rfl⟩

theorem witness_StrapsChangeOnlyAtColdReset :
    (∃ (c : Instr) (s t : State), (∀ b p, c ≠ .coldReset b p) ∧ c ≠ .powerFail ∧ c ≠ .porstNAssert ∧ exec c s = .next t) :=
  ⟨.svcStatus, State.reset, _, by intro b p; exact nofun, nofun, nofun, rfl⟩

theorem witness_FieldWritesFollowTheirAccessType :
    (∃ (f : Fld), f.lsb ≤ f.msb ∧ f.msb ≤ 31) :=
  ⟨fld 31 31 .rw 0, by decide +kernel⟩

theorem witness_IllegalWritesAreDiscarded :
    (∃ (fs : List Fld) (v : Word) (i : Nat), i < 32 ∧ Word.bit v i = true ∧ (∀ f ∈ fs, i < f.lsb ∨ f.msb < i) ∧
      (∀ f ∈ fs, f.lsb ≤ f.msb ∧ f.msb ≤ 31)) ∧
    (∃ (fs : List Fld) (v : Word) (f : Fld), f ∈ fs ∧ f.checked = true ∧ (Word.bits v f.msb f.lsb < f.lo ∨ f.hi < Word.bits v f.msb f.lsb)) :=
  ⟨⟨[fld 30 0 .rw 0], 0x80000000, 31, by decide +kernel⟩,
   ⟨[fldIn 31 0 .rw 0 1 4095], 0, fldIn 31 0 .rw 0 1 4095, by decide +kernel⟩⟩

theorem witness_BlockMoveTakesTheSmallestExponent :
    (∃ (xs : List Int) (r : _), r = moveBlk xs) :=
  ⟨[2147483647, -8388608], moveBlk ([2147483647, -8388608]), rfl⟩

theorem witness_LedgerQueueHoldsSixtyFour :
    (∃ (g : Lgr), g.queue.length < 64) ∧
    (∃ (g : Lgr), g.queue.length = 64) ∧
    (∃ (g : Lgr) (r : LRec), g.queue.length = 64 ∧ r.sev < 5) ∧
    (∃ (g : Lgr) (r : LRec) (a : List LRec) (x : LRec) (b : List LRec), g.queue.length = 64 ∧ 5 ≤ r.sev ∧ g.queue = a ++ x :: b ∧
      x.sev < r.sev ∧ (∀ y ∈ b, r.sev ≤ y.sev)) ∧
    (∃ (g : Lgr) (r : LRec), g.queue.length = 64 ∧ 5 ≤ r.sev ∧ (∀ y ∈ g.queue, r.sev ≤ y.sev)) :=
  ⟨⟨{ queue := List.replicate 63 (mkRec {} 1 1 false 0 0 0) }, by decide +kernel⟩,
   ⟨{ queue := List.replicate 64 (mkRec {} 1 1 false 0 0 0) }, by decide +kernel⟩,
   ⟨{ queue := List.replicate 64 (mkRec {} 1 1 false 0 0 0) }, mkRec {} 1 4 false 0 0 0, by decide +kernel⟩,
   ⟨{ queue := List.replicate 64 (mkRec {} 1 1 false 0 0 0) }, mkRec {} 1 5 false 0 0 0, List.replicate 63 (mkRec {} 1 1 false 0 0 0),
     mkRec {} 1 1 false 0 0 0, [], by decide +kernel⟩,
   ⟨{ queue := List.replicate 64 (mkRec {} 1 5 false 0 0 0) }, mkRec {} 1 5 false 0 0 0, by decide +kernel⟩⟩

theorem witness_RateLimitedRecordsComeOncePerWindow :
    (∃ (code : Nat) (subj : Nat) (s : State), (smGet {} s.lgr.lim (code * 2 ^ 20 + subj)).win = some (ledgerWindow s)) ∧
    (∃ (code : _) (subj : _) (s : State), (smGet {} s.lgr.lim (code * 2 ^ 20 + subj)).win ≠ some (ledgerWindow s) ∧ s.lgr.queue.length < 64) :=
  ⟨⟨1, 0, wLgr { lim := [(2 ^ 20, { win := some 0 })] }, by decide +kernel⟩,
   ⟨0, 0, State.reset, by decide +kernel⟩⟩

theorem witness_LateKeyedDescriptorsArmNothing :
    (∃ (d : Desc) (s : State), Unused d [(0, 9), (10, 8)] ∧ pl d 8 1 = 0 ∧ 1 ≤ pl d 12 2 ∧ pl d 10 2 + pl d 12 2 ≤ 1024 ∧ pl d 14 1 ≤ 1 ∧
      pl d 15 1 ≤ 1 ∧ 1 ≤ pl d 16 1 ∧ pl d 16 1 ≤ 64 ∧ pl d 17 1 ≤ 1 ∧ pl d 0 8 < mTranche s) ∧
    (∃ (d : Desc) (s : State), Unused d [(0, 9), (10, 5)] ∧ pl d 8 1 = 0 ∧ 1 ≤ pl d 12 2 ∧ pl d 10 2 + pl d 12 2 ≤ 1024 ∧ pl d 14 1 ≤ 3 ∧
      pl d 0 8 < mTranche s) ∧
    (∃ (d : Desc) (s : State) (t : _), finish d stLate s = t) :=
  ⟨⟨wd [(10, 255), (11, 3), (12, 1), (16, 64)], { State.reset with clk := { tidxValid := true, tidx := 9 } },
     by unfold Unused; decide +kernel⟩,
   ⟨wd [(10, 255), (11, 3), (12, 1)], { State.reset with clk := { tidxValid := true, tidx := 9 } }, by unfold Unused; decide +kernel⟩,
   ⟨wd [], State.reset, finish (wd []) stLate State.reset, rfl⟩⟩

theorem witness_UnusedPayloadBytesMustBeZero :
    (∃ (errs : List LineErr) (l : (Desc → Instr) × List (Nat × Nat)) (d : Desc) (i : Nat), l ∈ descriptorLayouts errs ∧ i < d.payload.length ∧
      d.payload.getD i 0 ≠ 0 ∧ (∀ u ∈ l.2, i < u.1 ∨ u.1 + u.2 ≤ i)) :=
  ⟨[], (.hifAbort, [(0, 4)]), wd [(4, 1)], 4, by simp [descriptorLayouts], by decide +kernel, by decide +kernel, by decide +kernel⟩

theorem witness_BadObjectRangesChangeNothing :
    (∃ (d : Desc), 1024 < pl d 10 2 + pl d 12 2) ∧
    (∃ (d : Desc), 1023 < pl d 10 2) ∧
    (∃ (d : Desc), plBit d 8 2 = true ∧ hostBlock d 0 80 = none) :=
  ⟨⟨wd [(10, 255), (11, 3), (12, 2)], by decide +kernel⟩,
   ⟨wd [(11, 4)], by decide +kernel⟩,
   ⟨{ tok := 0, payload := (wd [(8, 4)]).payload, blocks := [none] }, by decide +kernel⟩⟩

theorem witness_LongItemsAreReportedOnce :
    (∃ (slot : Nat) (i : Item) (c : Nat) (s : State), smFind s.stw.items slot = some i ∧ i.st = .inService c ∧ i.long = false ∧
      getReg s aSvcLim ≠ 0) ∧
    (∃ (slot : Nat) (i : Item) (s : State), smFind s.stw.items slot = some i ∧ (i.long = true ∨ getReg s aSvcLim = 0)) :=
  ⟨⟨8191,
     { flow := 0, prio := 0, kind := 0x10, source := 0, param := 0, ptr := 0, len := 0, tag := 0, seq := 0, rseq := 0, st := .inService 3, resv := none, long := false },
     3,
     { State.reset with stw := { items := [(8191, { flow := 0, prio := 0, kind := 0x10, source := 0, param := 0, ptr := 0, len := 0, tag := 0, seq := 0, rseq := 0, st := .inService 3, resv := none, long := false })] } },
     by decide +kernel⟩,
   ⟨8191,
     { flow := 0, prio := 0, kind := 0x10, source := 0, param := 0, ptr := 0, len := 0, tag := 0, seq := 0, rseq := 0, st := .inService 3, resv := none, long := true },
     { State.reset with stw := { items := [(8191, { flow := 0, prio := 0, kind := 0x10, source := 0, param := 0, ptr := 0, len := 0, tag := 0, seq := 0, rseq := 0, st := .inService 3, resv := none, long := true })] } },
     by decide +kernel⟩⟩

theorem witness_ObjectDescriptorsArm :
    (∃ (d : Desc) (s : State) (n : _), Unused d [(0, 17)] ∧ pl d 8 1 ≤ 1 ∧ pl d 9 1 ≤ 3 ∧ pl d 10 2 ≤ 1023 ∧ 1 ≤ pl d 12 2 ∧
      pl d 10 2 + pl d 12 2 ≤ 1024 ∧ (∀ l ∈ sourceOk s (pl d 9 1) (pl d 14 2) (pl d 16 1) (pl d 12 2), l.2 = true) ∧
      n = keyN d (mTranche s) ∧ mTranche s ≤ n) ∧
    (∃ (d : Desc) (s : State) (n : _), Unused d [(0, 9), (10, 14)] ∧ pl d 8 1 ≤ 15 ∧ plBit d 8 2 = false ∧ pl d 10 2 ≤ 1023 ∧
      n = keyN d (mTranche s) ∧ mTranche s ≤ n) ∧
    (∃ (d : Desc) (s : State) (n : _) (b : List Byte), Unused d [(0, 9), (10, 14)] ∧ pl d 8 1 ≤ 15 ∧ plBit d 8 2 = true ∧
      hostBlock d 0 80 = some b ∧ pl d 10 2 ≤ 1023 ∧ n = keyN d (mTranche s) ∧ mTranche s ≤ n) ∧
    (∃ (d : Desc) (s : State) (n : _), Unused d [(0, 9), (10, 8)] ∧ pl d 8 1 ≤ 1 ∧ pl d 10 2 ≤ 1023 ∧ 1 ≤ pl d 12 2 ∧
      pl d 10 2 + pl d 12 2 ≤ 1024 ∧ pl d 14 1 ≤ 1 ∧ pl d 15 1 ≤ 1 ∧ 1 ≤ pl d 16 1 ∧ pl d 16 1 ≤ 64 ∧ pl d 17 1 ≤ 1 ∧
      n = keyN d (mTranche s) ∧ mTranche s ≤ n ∧ (pl d 14 1 = 1 → enableBreaksSwap s n (span (pl d 10 2) (pl d 12 2)) = false)) ∧
    (∃ (d : Desc) (s : State) (n : _) (b : List Byte), Unused d [(0, 9), (16, 8)] ∧ pl d 8 1 ≤ 1 ∧ hostBlock d 0 40 = some b ∧
      n = keyN d (mTranche s) ∧ mTranche s ≤ n) ∧
    (∃ (d : Desc) (s : State) (n : _), Unused d [(0, 9), (10, 5)] ∧ pl d 8 1 ≤ 1 ∧ pl d 10 2 ≤ 1023 ∧ 1 ≤ pl d 12 2 ∧
      pl d 10 2 + pl d 12 2 ≤ 1024 ∧ pl d 14 1 ≤ 3 ∧ n = keyN d (mTranche s) ∧ mTranche s ≤ n) ∧
    (∃ (d : Desc) (s : State) (n : _), Unused d [(0, 9), (10, 4), (16, 4)] ∧ pl d 8 1 ≤ 1 ∧ pl d 10 2 ≤ 1023 ∧ 1 ≤ pl d 12 2 ∧
      pl d 10 2 + pl d 12 2 ≤ 1024 ∧ (pl d 16 4 = 0 ∨ (1024 ≤ pl d 16 4 ∧ pl d 16 4 ≤ 524287)) ∧ (pl d 16 4 = 0 ∨ s.drc.noDram = false) ∧
      govImg s n = none ∧ n = keyN d (mTranche s) ∧ mTranche s ≤ n ∧ (∃ o ∈ span (pl d 10 2) (pl d 12 2), coarseGov s o n ≠ pl d 16 4)) :=
  ⟨⟨wd [(8, 1), (10, 255), (11, 3), (12, 1)], State.reset, keyN (wd [(8, 1), (10, 255), (11, 3), (12, 1)]) (mTranche (State.reset)),
     by unfold Unused; decide +kernel⟩,
   ⟨wd [], State.reset, keyN (wd []) (mTranche (State.reset)), by unfold Unused; decide +kernel⟩,
   ⟨wdz [(8, 5), (10, 255), (11, 3)] [80], State.reset, keyN (wdz [(8, 5), (10, 255), (11, 3)] [80]) (mTranche (State.reset)), zeros 80,
     by unfold Unused; decide +kernel⟩,
   ⟨wd [(8, 1), (16, 64), (10, 255), (11, 3), (12, 1)], State.reset,
     keyN (wd [(8, 1), (16, 64), (10, 255), (11, 3), (12, 1)]) (mTranche (State.reset)), by unfold Unused; decide +kernel⟩,
   ⟨wdz [(8, 1)] [40], State.reset, keyN (wdz [(8, 1)] [40]) (mTranche (State.reset)), zeros 40, by unfold Unused; decide +kernel⟩,
   ⟨wd [(8, 1), (14, 3), (10, 255), (11, 3), (12, 1)], State.reset,
     keyN (wd [(8, 1), (14, 3), (10, 255), (11, 3), (12, 1)]) (mTranche (State.reset)), by unfold Unused; decide +kernel⟩,
   ⟨wd [(8, 1), (17, 4), (10, 255), (11, 3), (12, 1)], State.reset,
     keyN (wd [(8, 1), (17, 4), (10, 255), (11, 3), (12, 1)]) (mTranche (State.reset)), by unfold Unused; decide +kernel⟩⟩

theorem witness_SegmentAndObjectServicesComplete :
    (∃ (d : Desc) (s : State), segBad d.payload = none ∧ (acceptSeg (field d.payload 10 2) (segOf d.payload s.segUid) s).1 ≤ 1) ∧
    (∃ (d : Desc) (s : State) (b : _), Unused d [(0, 12)] ∧ 1 ≤ pl d 8 4 ∧ pl d 8 4 ≤ 4096 ∧ hostBlock d 0 (48 * pl d 8 4) = some b ∧
      (takeSegs (chunks 48 (pl d 8 4) b) stOk s).1 = stOk) ∧
    (∃ (n : Nat) (s : State) (rec : List Byte), rec = (List.range 12).flatMap (fun i => leBytes 4 (getReg s (aGeoSeg n (4 * i))).toNat) ∧
      segBad rec = none) ∧
    (∃ (d : Desc) (s : State) (ms : _), ms = (List.range (pl d 1 1)).map (fun i => pl d (8 + i) 1) ∧ Unused d [(0, 2), (8, pl d 1 1)] ∧
      pl d 0 1 ≤ 127 ∧ pl d 1 1 ≤ 32 ∧ (∀ x ∈ ms, x ≤ 127) ∧ ms.Nodup ∧
      (∀ x ∈ ms, x ∈ smGet [] s.alignSet (pl d 0 1) ∨ (rxAt s x).conf = false ∨ rxSamples s (rxAt s x) ≤ (smGet {} s.mp.setMap (pl d 0 1)).rxd) ∧
      storeFits { s with alignSet := setMembers (pl d 0 1) ms s.alignSet } = true) ∧
    (∃ (d : Desc), Unused d [(0, 13)] ∧ pl d 8 2 ≤ 1023 ∧ 1 ≤ pl d 10 2 ∧ pl d 8 2 + pl d 10 2 ≤ 1024 ∧ pl d 12 1 ≤ 1) ∧
    (∃ (d : Desc) (s : State) (n : _), Unused d [(0, 9), (16, 8)] ∧ (pl d 8 1 = 4 ∨ pl d 8 1 = 5) ∧ n = keyN d (mTranche s) ∧ mTranche s ≤ n) ∧
    (∃ (d : Desc) (s : State) (b : List Byte), Unused d [(0, 9), (16, 8)] ∧ pl d 8 1 = 2 ∧ hostBlock d 0 32800 = some b ∧
      (∀ x ∈ sincEntries b, satS 20 x = x) ∧ ktblPending s = false) ∧
    (∃ (d : Desc) (s : State), Unused d [(0, 9), (16, 8)] ∧ pl d 8 1 = 8 ∧ ktblPending s = false) ∧
    (∃ (d : Desc), Unused d [(0, 9), (10, 5)] ∧ pl d 8 1 ≤ 1 ∧ pl d 10 2 ≤ 1023 ∧ 1 ≤ pl d 12 2 ∧ pl d 10 2 + pl d 12 2 ≤ 1024 ∧
      pl d 14 1 ≤ 1) :=
  ⟨⟨wd [(8, 1), (10, 255), (11, 3)], State.reset, by decide +kernel⟩,
   ⟨wdb [(8, 1)] [(wd [(8, 1)]).payload], State.reset,
     (hostBlock (wdb [(8, 1)] [(wd [(8, 1)]).payload]) 0 (48 * pl (wdb [(8, 1)] [(wd [(8, 1)]).payload]) 8 4)).getD [],
     by unfold Unused; decide +kernel⟩,
   ⟨0, setReg State.reset (aGeoSeg 0 8) 1,
     (List.range 12).flatMap (fun i => leBytes 4 (getReg (setReg State.reset (aGeoSeg 0 8) 1) (aGeoSeg 0 (4 * i))).toNat), rfl,
     by decide +kernel⟩,
   ⟨wd [], State.reset, (List.range (pl (wd []) 1 1)).map (fun i => pl (wd []) (8 + i) 1), rfl, by unfold Unused; decide +kernel,
     by decide +kernel⟩,
   ⟨wd [(8, 255), (9, 3), (10, 1), (12, 1)], by unfold Unused; decide +kernel⟩,
   ⟨wd [(8, 5)], State.reset, keyN (wd [(8, 5)]) (mTranche (State.reset)), by unfold Unused; decide +kernel⟩,
   ⟨wdz [(8, 2)] [32800], State.reset, zeros 32800, by unfold Unused; decide +kernel, by decide +kernel, wdz_block ..,
     by intro x hx; obtain ⟨r, hr, rfl⟩ := List.mem_map.mp hx; rw [chunks_zeros 4 8200 32800 (by decide) r hr]; decide, by decide +kernel⟩,
   ⟨wd [(8, 8)], State.reset, by unfold Unused; decide +kernel⟩,
   ⟨wd [(8, 1), (10, 255), (11, 3), (12, 1), (14, 1)], by unfold Unused; decide +kernel⟩⟩

theorem witness_VenueLoadsComplete :
    (∃ (d : Desc) (s : State) (b : _), Unused d [(0, 12)] ∧ pl d 8 2 ≤ 1023 ∧ 1 ≤ pl d 10 2 ∧ pl d 8 2 + pl d 10 2 ≤ 1024 ∧
      hostBlock d 0 (64 * pl d 10 2) = some b ∧ (∀ r ∈ chunks 64 (pl d 10 2) b, spkOk r = true) ∧ switchPending s 0 = false) ∧
    (∃ (d : Desc) (s : State) (b : _), Unused d [(0, 10)] ∧ pl d 8 1 ≤ 15 ∧ 1 ≤ pl d 9 1 ∧ pl d 8 1 + pl d 9 1 ≤ 16 ∧
      hostBlock d 0 (272 * pl d 9 1) = some b ∧ (∀ r ∈ chunks 272 (pl d 9 1) b, zoneOk r = true) ∧ switchPending s 1 = false) ∧
    (∃ (d : Desc) (s : State) (b : _), Unused d [(0, 12)] ∧ pl d 8 2 ≤ 4095 ∧ 1 ≤ pl d 10 2 ∧ pl d 8 2 + pl d 10 2 ≤ 4096 ∧
      hostBlock d 0 (48 * pl d 10 2) = some b ∧ (∀ r ∈ chunks 48 (pl d 10 2) b, triOk r = true) ∧ switchPending s 2 = false) ∧
    (∃ (d : Desc) (s : State) (cs : List Byte) (ls : List Byte), Unused d [(0, 18)] ∧ 1 ≤ pl d 16 2 ∧ pl d 16 2 ≤ 16384 ∧
      hostBlock d 0 (6144 * 4) = some cs ∧ hostBlock d 1 (2 * pl d 16 2) = some ls ∧ (∀ c ∈ cubeCells cs, cellOk c = true) ∧
      (∀ t ∈ cubeList (pl d 16 2) ls, t ≤ 4095) ∧ switchPending s 2 = false ∧
      (∀ w, armedShadow s = some w → ∀ c ∈ cubeCells cs, cellCount c ≤ w.2.cmax)) ∧
    (∃ (d : Desc) (s : State) (b : List Byte), Unused d [(0, 8)] ∧ hostBlock d 0 (4 * 1024) = some b ∧
      (∀ r ∈ chunks 4 1024 b, (fLe 0 (wordAt r 0) && fLt (wordAt r 0) 0x3F800000) = true) ∧ switchPending s 3 = false) ∧
    (∃ (d : Desc) (s : State) (n : _), Unused d [(0, 10)] ∧ pl d 8 1 ≤ 1 ∧ 1 ≤ pl d 9 1 ∧ pl d 9 1 ≤ 15 ∧ n = keyN d (mTranche s) ∧
      mTranche s ≤ n ∧ (maskBit (pl d 9 1) 2 = true → panVerdict s n = 0)) ∧
    (∃ (d : Desc) (s : State), Unused d [(9, 1)] ∧ 1 ≤ pl d 9 1 ∧ pl d 9 1 ≤ 15 ∧
      (∀ k < 4, maskBit (pl d 9 1) k = true → switchPending s k = false)) :=
  ⟨⟨wdz [(8, 255), (9, 3), (10, 1)] [64], State.reset,
     (hostBlock (wdz [(8, 255), (9, 3), (10, 1)] [64]) 0 (64 * pl (wdz [(8, 255), (9, 3), (10, 1)] [64]) 10 2)).getD [],
     by unfold Unused; decide +kernel⟩,
   ⟨wdz [(8, 15), (9, 1)] [272], State.reset,
     (hostBlock (wdz [(8, 15), (9, 1)] [272]) 0 (272 * pl (wdz [(8, 15), (9, 1)] [272]) 9 1)).getD [], by unfold Unused; decide +kernel⟩,
   ⟨wdb [(8, 255), (9, 15), (10, 1)] [[255, 255] ++ zeros 46], State.reset,
     (hostBlock (wdb [(8, 255), (9, 15), (10, 1)] [[255, 255] ++ zeros 46]) 0 (48 * pl (wdb [(8, 255), (9, 15), (10, 1)] [[255, 255] ++ zeros 46]) 10 2)).getD [],
     by unfold Unused; decide +kernel⟩,
   ⟨wdb [(16, 1)] [wCells, [0, 0]], State.reset, wCells, [0, 0], by unfold Unused; decide +kernel, by decide +kernel, by decide +kernel,
     by rw [hostBlock, show (wdb [(16, 1)] [wCells, [0, 0]]).blocks.getD 0 none = some wCells from rfl]; simp only [wCells_length, Nat.le_refl, if_true]; rw [List.take_of_length_le (Nat.le_of_eq wCells_length)],
     by decide +kernel, by intro c hc; rw [wCells_ok c hc]; decide +kernel, by decide +kernel, by decide +kernel,
     none_all (by decide +kernel)⟩,
   ⟨wdz [] [4096], State.reset, zeros 4096, by unfold Unused; decide +kernel, wdz_block ..,
     by intro r hr; rw [chunks_zeros 4 1024 4096 (by decide) r hr]; decide, by decide +kernel⟩,
   ⟨wd [(8, 1), (9, 15)], State.reset, keyN (wd [(8, 1), (9, 15)]) (mTranche (State.reset)), by unfold Unused; decide +kernel⟩,
   ⟨wd [(9, 15)], State.reset, by unfold Unused; decide +kernel⟩⟩

theorem witness_GeometryDescriptorsComplete :
    (∃ (d : Desc) (s : State) (n : _) (b : _), Unused d [(0, 9), (10, 4), (16, 8)] ∧ pl d 8 1 ≤ 1 ∧ pl d 10 2 ≤ 1023 ∧ 1 ≤ pl d 12 2 ∧
      pl d 10 2 + pl d 12 2 ≤ 1024 ∧ hostBlock d 0 (128 * pl d 12 2) = some b ∧ (∀ r ∈ chunks 128 (pl d 12 2) b, lawOk r = true) ∧
      n = keyN d (mTranche s) ∧ mTranche s ≤ n ∧ lawsAllowed s n (pl d 10 2) ((chunks 128 (pl d 12 2) b).map lawOf) = true) ∧
    (∃ (d : Desc) (s : State) (n : _), Unused d [(0, 9), (16, 20)] ∧ pl d 8 1 ≤ 1 ∧
      fWithin 0xC1A00000 0x42480000 (BitVec.ofNat 32 (pl d 16 4)) = true ∧
      (∀ k ∈ [20, 24, 28], coordOk 0x461C4000 (BitVec.ofNat 32 (pl d k 4)) = true) ∧
      fWithin 0 0x3B800000 (BitVec.ofNat 32 (pl d 32 4)) = true ∧ n = keyN d (mTranche s) ∧ mTranche s ≤ n) ∧
    (∃ (d : Desc), Unused d [(0, 13)] ∧ pl d 8 2 ≤ 1023 ∧ 1 ≤ pl d 10 2 ∧ pl d 8 2 + pl d 10 2 ≤ 1024 ∧ pl d 12 1 ≤ 1) ∧
    (∃ (d : Desc), Unused d [(0, 10)] ∧ pl d 8 2 ≤ 1023) :=
  ⟨⟨wdb [(8, 1), (10, 255), (11, 3), (12, 1)] [wLaw], State.reset,
     keyN (wdb [(8, 1), (10, 255), (11, 3), (12, 1)] [wLaw]) (mTranche (State.reset)),
     (hostBlock (wdb [(8, 1), (10, 255), (11, 3), (12, 1)] [wLaw]) 0 (128 * pl (wdb [(8, 1), (10, 255), (11, 3), (12, 1)] [wLaw]) 12 2)).getD [],
     by unfold Unused; decide +kernel⟩,
   ⟨wd [], State.reset, keyN (wd []) (mTranche (State.reset)), by unfold Unused; decide +kernel⟩,
   ⟨wd [(8, 255), (9, 3), (10, 1), (12, 1)], by unfold Unused; decide +kernel⟩,
   ⟨wd [], by unfold Unused; decide +kernel⟩⟩

theorem witness_CorrectionCommandsComplete :
    (∃ (d : Desc) (s : State) (bq : List Byte) (hd : List Byte) (tl : List Byte), Unused d [(0, 6), (8, 24)] ∧ pl d 0 1 ≤ 63 ∧ pl d 1 1 ≤ 7 ∧
      pl d 2 2 % 16 = 0 ∧ pl d 2 2 ≤ 2 * tailB s ∧ pl d 4 1 ≤ 30 ∧ pl d 5 1 ≤ 3 ∧ stageBlocks d s = (some bq, some hd, some tl) ∧
      taps24 (tapsOf (hd.length / 4) hd) = true ∧ taps24 (tapsOf (tl.length / 4) tl) = true ∧ (pl d 4 1 = 0 ∨ s.drc.noDram = false) ∧
      slotBusy s (pl d 0 1) = false) ∧
    (∃ (k : Nat) (s : State) (x : Staging), s.cor.loading.find? (fun y => decide (y.slot = k)) = some x) ∧
    (∃ (d : Desc) (s : State) (n : _) (l : _), Unused d [(0, 9), (10, 4)] ∧ pl d 8 1 ≤ 1 ∧ pl d 10 2 ≤ 1023 ∧ pl d 12 1 ≤ 63 ∧ 1 ≤ pl d 13 1 ∧
      pl d 13 1 ≤ 16 ∧ n = keyN d (switchNow s (pl d 10 2) (pl d 12 1)) ∧ beforeH s (switchDeadline s (pl d 10 2) (pl d 12 1) n) = true ∧
      slotBusy s (pl d 12 1) = false ∧ outBusy s (pl d 10 2) n = false ∧
      (∀ i < pl d 13 1, ∀ g, govImg s (n + i) = some g → crossfadesAt s (n + i) < g.xfPar) ∧
      (∀ g, govImg s n = some g → fitsImg (slotSet s (pl d 12 1)) g (pl d 10 2) = true) ∧
      switchBreaksSwap s (pl d 10 2) n (pl d 13 1) (slotSet s (pl d 12 1)) = false ∧
      l = freeLane s n (pl d 13 1) (pl d 10 2) (pl d 12 1) (xfPar s n (pl d 13 1))) ∧
    (∃ (d : Desc) (errs : List LineErr) (s : State) (c : CSet) (a : Nat → Nat) (r : State × State), Unused d [(0, 9), (10, 2)] ∧
      pl d 8 1 ≤ 1 ∧ pl d 10 2 ≤ (if pl d 8 1 = 0 then 1023 else 63) ∧
      c = (if pl d 8 1 = 0 then (outAt s (pl d 10 2)).set else slotSet s (pl d 10 2)) ∧
      a = (fun p => if pl d 8 1 = 0 then setSpecAddr (pl d 10 2) p else slotSpecAddr (pl d 10 2) p) ∧
      r = readRuns 2 ((List.range c.parts).map (fun p => (a p, specSize s))) errs s ∧ (c.parts = 0 ∨ s.drc.noDram = false) ∧
      (∀ p < c.parts, dramLost r.2 (a p) (specSize s) = false)) ∧
    (∃ (d : Desc), Unused d [(0, 8), (10, 5)] ∧ pl d 10 2 ≤ 1023 ∧ 1 ≤ pl d 12 2 ∧ pl d 10 2 + pl d 12 2 ≤ 1024 ∧ pl d 14 1 ≤ 1) ∧
    (∃ (d : Desc) (s : State) (n : _), Unused d [(0, 9), (10, 4)] ∧ pl d 8 1 ≤ 1 ∧ pl d 10 2 ≤ 1023 ∧ 1 ≤ pl d 12 2 ∧
      pl d 10 2 + pl d 12 2 ≤ 1024 ∧ n = keyN d (if s.clk.tidxValid then s.clk.tidx else 0) ∧
      (∀ o ∈ span (pl d 10 2) (pl d 12 2), xfAt s o n = none) ∧ beforeH s ((n : Int) + 1) = true) :=
  ⟨⟨wd [(0, 63), (5, 3)], State.reset, [], [], [], by unfold Unused; decide +kernel⟩,
   ⟨63, { State.reset with cor := { loading := [{ slot := 63, tok := 0, parts := 0 }] } }, { slot := 63, tok := 0, parts := 0 },
     by decide +kernel⟩,
   ⟨wd [(8, 1), (10, 255), (11, 3), (12, 63), (13, 1)], State.reset,
     keyN (wd [(8, 1), (10, 255), (11, 3), (12, 63), (13, 1)]) (switchNow (State.reset) (pl (wd [(8, 1), (10, 255), (11, 3), (12, 63), (13, 1)]) 10 2) (pl (wd [(8, 1), (10, 255), (11, 3), (12, 63), (13, 1)]) 12 1)),
     freeLane (State.reset) (keyN (wd [(8, 1), (10, 255), (11, 3), (12, 63), (13, 1)]) (switchNow (State.reset) (pl (wd [(8, 1), (10, 255), (11, 3), (12, 63), (13, 1)]) 10 2) (pl (wd [(8, 1), (10, 255), (11, 3), (12, 63), (13, 1)]) 12 1))) (pl (wd [(8, 1), (10, 255), (11, 3), (12, 63), (13, 1)]) 13 1) (pl (wd [(8, 1), (10, 255), (11, 3), (12, 63), (13, 1)]) 10 2) (pl (wd [(8, 1), (10, 255), (11, 3), (12, 63), (13, 1)]) 12 1) (xfPar (State.reset) (keyN (wd [(8, 1), (10, 255), (11, 3), (12, 63), (13, 1)]) (switchNow (State.reset) (pl (wd [(8, 1), (10, 255), (11, 3), (12, 63), (13, 1)]) 10 2) (pl (wd [(8, 1), (10, 255), (11, 3), (12, 63), (13, 1)]) 12 1))) (pl (wd [(8, 1), (10, 255), (11, 3), (12, 63), (13, 1)]) 13 1)),
     by unfold Unused; decide +kernel, by decide +kernel, by decide +kernel, by decide +kernel, by decide +kernel, by decide +kernel,
     by decide +kernel, by decide +kernel, by decide +kernel, by decide +kernel,
     fun i hi => none_all (by revert hi; revert i; decide +kernel), none_all (by decide +kernel), by decide +kernel, rfl⟩,
   ⟨wd [(8, 1), (10, 63)], [], State.reset,
     (if pl (wd [(8, 1), (10, 63)]) 8 1 = 0 then (outAt (State.reset) (pl (wd [(8, 1), (10, 63)]) 10 2)).set else slotSet (State.reset) (pl (wd [(8, 1), (10, 63)]) 10 2)),
     (fun p => if pl (wd [(8, 1), (10, 63)]) 8 1 = 0 then setSpecAddr (pl (wd [(8, 1), (10, 63)]) 10 2) p else slotSpecAddr (pl (wd [(8, 1), (10, 63)]) 10 2) p),
     readRuns 2 ((List.range ((if pl (wd [(8, 1), (10, 63)]) 8 1 = 0 then (outAt (State.reset) (pl (wd [(8, 1), (10, 63)]) 10 2)).set else slotSet (State.reset) (pl (wd [(8, 1), (10, 63)]) 10 2))).parts).map (fun p => (((fun p => if pl (wd [(8, 1), (10, 63)]) 8 1 = 0 then setSpecAddr (pl (wd [(8, 1), (10, 63)]) 10 2) p else slotSpecAddr (pl (wd [(8, 1), (10, 63)]) 10 2) p)) p, specSize (State.reset)))) ([]) (State.reset),
     by unfold Unused; decide +kernel, by decide +kernel, by decide +kernel, rfl, rfl, rfl, by decide +kernel⟩,
   ⟨wd [(10, 255), (11, 3), (12, 1), (14, 1)], by unfold Unused; decide +kernel⟩,
   ⟨wd [(8, 1), (10, 255), (11, 3), (12, 1)], State.reset,
     keyN (wd [(8, 1), (10, 255), (11, 3), (12, 1)]) (if (State.reset).clk.tidxValid then (State.reset).clk.tidx else 0),
     by unfold Unused; decide +kernel⟩⟩

theorem witness_SluiceAndMeterCommandsComplete :
    (∃ (d : Desc) (s : State) (n : _), Unused d [(0, 9), (10, 4), (16, 8)] ∧ pl d 8 1 ≤ 7 ∧ pl d 10 2 ≤ 1023 ∧ 1 ≤ pl d 12 2 ∧
      pl d 10 2 + pl d 12 2 ≤ 1024 ∧ pl d 16 4 ≤ 1073741824 ∧ (plBit d 8 1 = true → 1 ≤ pl d 20 2 ∧ pl d 20 2 ≤ 64) ∧ pl d 22 1 ≤ 1 ∧
      (plBit d 8 2 = true → 1 ≤ pl d 23 1 ∧ pl d 23 1 ≤ 16) ∧ n = keyN d (if s.clk.tidxValid then s.clk.tidx else 0) ∧
      beforeH s ((n : Int) + 1) = true) ∧
    (∃ (d : Desc) (s : State) (n : _) (b : _), Unused d [(0, 9), (10, 2), (16, 8)] ∧ pl d 8 1 ≤ 1 ∧ 1 ≤ pl d 10 2 ∧ pl d 10 2 ≤ 4096 ∧
      hostBlock d 0 2048 = some b ∧ n = keyN d (if s.clk.tidxValid then s.clk.tidx else 0) ∧ beforeH s ((n : Int) + 1) = true) ∧
    (∃ (d : Desc), Unused d [(0, 9), (10, 4)] ∧ pl d 8 1 = 0 ∧ 1 ≤ pl d 12 2 ∧ pl d 10 2 + pl d 12 2 ≤ 1024) ∧
    (∃ (d : Desc), Unused d [(0, 9), (10, 4)] ∧ pl d 8 1 = 1 ∧ 1 ≤ pl d 12 2 ∧ pl d 10 2 + pl d 12 2 ≤ 16) :=
  ⟨⟨wd [(8, 7), (10, 255), (11, 3), (12, 1), (19, 64), (20, 64), (22, 1), (23, 16)], State.reset,
     keyN (wd [(8, 7), (10, 255), (11, 3), (12, 1), (19, 64), (20, 64), (22, 1), (23, 16)]) (if (State.reset).clk.tidxValid then (State.reset).clk.tidx else 0),
     by unfold Unused; decide +kernel⟩,
   ⟨wdz [(8, 1), (10, 0), (11, 16)] [2048], State.reset,
     keyN (wdz [(8, 1), (10, 0), (11, 16)] [2048]) (if (State.reset).clk.tidxValid then (State.reset).clk.tidx else 0),
     (hostBlock (wdz [(8, 1), (10, 0), (11, 16)] [2048]) 0 2048).getD [], by unfold Unused; decide +kernel⟩,
   ⟨wd [(10, 255), (11, 3), (12, 1)], by unfold Unused; decide +kernel⟩,
   ⟨wd [(8, 1), (10, 15), (12, 1)], by unfold Unused; decide +kernel⟩⟩

theorem witness_FabricDescriptorsComplete :
    (∃ (d : Desc), Unused d [(0, 4)] ∧ pl d 2 1 ≤ 1 ∧ 1 ≤ pl d 3 1) ∧
    (∃ (d : Desc), Unused d [(0, 3)] ∧ pl d 2 1 ≤ 1) ∧
    (∃ (d : Desc) (s : State) (b : _), Unused d [(0, 12)] ∧ pl d 8 2 + pl d 10 2 < 65536 ∧ hostBlock d 0 (pl d 10 2 + 1) = some b ∧
      (∀ e ∈ b, e.toNat < 32 ∧ (s.dpx.en = true → e.toNat ≠ 31)) ∧ s.fab.armed = none ∧ s.fab.quiet = true) ∧
    (∃ (d : Desc) (s : State) (b : _), Unused d [(0, 13), (14, 2)] ∧ pl d 8 2 < 4096 ∧ pl d 8 2 + pl d 10 2 ≤ 4096 ∧ pl d 12 1 ≤ 1 ∧
      (if pl d 10 2 = 0 then some [] else hostBlock d 0 (4 * pl d 10 2)) = some b ∧ (∀ e ∈ chunks 4 (pl d 10 2) b, leNat e < 65536) ∧
      s.fab.armed = none ∧ s.fab.quiet = true) ∧
    (∃ (d : Desc) (s : State) (n : _), Unused d [(0, 9)] ∧ pl d 8 1 ≤ 1 ∧ n = keyN d (leastBefore s 1) ∧ beforeH s ((n : Int) - 1) = true ∧
      s.fab.armed = none) ∧
    (∃ (d : Desc) (s : State), Unused d [] ∧ s.fab.armed = none ∧ s.fab.quiet = true) ∧
    (∃ (d : Desc) (p : _), Unused d [(0, 18)] ∧ 40 ≤ pl d 16 2 ∧ pl d 16 2 ≤ 1024 ∧ pl d 16 2 % 8 = 0 ∧ hostBlock d 0 (pl d 16 2) = some p ∧
      field p 0 1 ≤ 32) ∧
    (∃ (d : Desc) (s : State) (p : _), Unused d [(0, 14)] ∧ 8 ≤ pl d 8 2 ∧ pl d 8 2 ≤ 1024 ∧ pl d 8 2 % 8 = 0 ∧ pl d 12 1 ≤ 2 ∧
      1 ≤ pl d 13 1 ∧ pl d 13 1 ≤ 32 ∧ hostBlock d 0 (pl d 8 2) = some p ∧ (plBit d 12 0 = true → pl d 10 2 ≤ 4095) ∧
      (fabAddr s).isSome = true) ∧
    (∃ (d : Desc) (s : State), Unused d [(0, 9), (10, 5)] ∧ pl d 8 1 ≤ 2 ∧ 1 ≤ pl d 12 2 ∧ pl d 10 2 + pl d 12 2 ≤ fabTableSize s (pl d 8 1) ∧
      pl d 14 1 ≤ 1) ∧
    (∃ (d : Desc) (s : State) (e : _), Unused d [(0, 18)] ∧ hostBlock d 0 64 = some e ∧ (fabAddr s).isSome = true) :=
  ⟨⟨wd [(2, 1), (3, 255)], by unfold Unused; decide +kernel⟩,
   ⟨wd [], by unfold Unused; decide +kernel⟩,
   ⟨wdz [(8, 255), (9, 255)] [1], State.reset,
     (hostBlock (wdz [(8, 255), (9, 255)] [1]) 0 (pl (wdz [(8, 255), (9, 255)] [1]) 10 2 + 1)).getD [], by unfold Unused; decide +kernel⟩,
   ⟨wd [], State.reset, ((if pl (wd []) 10 2 = 0 then some [] else hostBlock (wd []) 0 (4 * pl (wd []) 10 2))).getD [],
     by unfold Unused; decide +kernel⟩,
   ⟨wd [], State.reset, keyN (wd []) (leastBefore (State.reset) 1), by unfold Unused; decide +kernel⟩,
   ⟨wd [], State.reset, by unfold Unused; decide +kernel⟩,
   ⟨wdz [(16, 0), (17, 4)] [1024], (hostBlock (wdz [(16, 0), (17, 4)] [1024]) 0 (pl (wdz [(16, 0), (17, 4)] [1024]) 16 2)).getD [],
     by unfold Unused; decide +kernel⟩,
   ⟨wdz [(8, 8), (12, 2), (13, 32)] [8], setReg State.reset aFabAddr 0x10003,
     (hostBlock (wdz [(8, 8), (12, 2), (13, 32)] [8]) 0 (pl (wdz [(8, 8), (12, 2), (13, 32)] [8]) 8 2)).getD [],
     by unfold Unused; decide +kernel⟩,
   ⟨wd [(8, 2), (12, 1), (14, 1)], State.reset, by unfold Unused; decide +kernel⟩,
   ⟨wdz [] [64], setReg State.reset aFabAddr 0x10003, (hostBlock (wdz [] [64]) 0 64).getD [], by unfold Unused; decide +kernel⟩⟩

theorem witness_ClockDescriptorsComplete :
    (∃ (d : Desc) (s : State), Unused d [(0, 3), (8, 8)] ∧ pl d 0 1 ≤ 3 ∧ pl d 1 1 ≤ 2 ∧
      (if pl d 1 1 = 1 then pl d 2 1 ≤ 15 else pl d 2 1 = 0) ∧ s.sch.st = 0 ∧ originGone d s = false) ∧
    (∃ (d : Desc), Unused d [(0, 20)] ∧ 1 ≤ pl d 0 1 ∧ pl d 0 1 ≤ 7 ∧ pl d 1 1 ≤ 1 ∧ modeOk (pl d 0 1) (pl d 2 1) = true ∧
      pl d 3 1 ≤ bwLimit (pl d 0 1) (pl d 2 1) ∧ 1 ≤ pl d 4 2 ∧ pl d 4 2 ≤ 500 ∧ 1 ≤ pl d 6 2 ∧ pl d 6 2 ≤ 600 ∧ 1 ≤ pl d 8 2 ∧
      pl d 8 2 ≤ 1000 ∧ pl d 10 2 ≤ 10000 ∧ pl d 12 4 ≤ 500000 ∧ pl d 16 4 ≤ 500000) ∧
    (∃ (d : Desc) (s : State) (c : _), Unused d [(0, 16)] ∧ 1 ≤ pl d 0 1 ∧ pl d 0 1 ≤ 7 ∧ pl d 1 1 ≤ 6 ∧ pl d 8 1 ≤ 3 ∧ 1 ≤ pl d 9 1 ∧
      pl d 9 1 ≤ 10 ∧ pl d 10 2 ≤ 3600 ∧ (∀ i < 6, selCodeOk d i = true) ∧
      c = setClk s (fun c => { c with selRef := pl d 0 1, order := selCodes d, revertive := plBit d 8 0, bleed := plBit d 8 1, bleedRate := pl d 9 1, wtr := pl d 10 2, mapLim := pl d 12 4 })) ∧
    (∃ (d : Desc) (s : State), Unused d [(0, 1)] ∧ (pl d 0 1 ≤ 7 ∨ pl d 0 1 = 255) ∧ s.clk.st ≠ 0 ∧ s.clk.st ≠ 2) ∧
    (∃ (d : Desc) (s : State), Unused d [(0, 1)] ∧ (pl d 0 1 ≤ 7 ∨ pl d 0 1 = 255) ∧ (s.clk.st = 0 ∨ s.clk.st = 2)) ∧
    (∃ (d : Desc), Unused d [(0, 9)] ∧ pl d 8 1 ≤ 1) :=
  ⟨⟨wd [(0, 3), (1, 2)], State.reset, by unfold Unused; decide +kernel⟩,
   ⟨wd [(0, 6), (2, 15), (4, 1), (6, 1), (8, 1)], by unfold Unused; decide +kernel⟩,
   ⟨wd [(0, 7), (9, 10)], State.reset,
     setClk (State.reset) (fun c => { c with selRef := pl (wd [(0, 7), (9, 10)]) 0 1, order := selCodes (wd [(0, 7), (9, 10)]), revertive := plBit (wd [(0, 7), (9, 10)]) 8 0, bleed := plBit (wd [(0, 7), (9, 10)]) 8 1, bleedRate := pl (wd [(0, 7), (9, 10)]) 9 1, wtr := pl (wd [(0, 7), (9, 10)]) 10 2, mapLim := pl (wd [(0, 7), (9, 10)]) 12 4 }),
     by unfold Unused; decide +kernel, by decide +kernel, by decide +kernel, by decide +kernel, by decide +kernel, by decide +kernel,
     by decide +kernel, by decide +kernel, by decide +kernel, rfl⟩,
   ⟨wd [(0, 7)], { State.reset with clk := { st := 1 } }, by unfold Unused; decide +kernel⟩,
   ⟨wd [], State.reset, by unfold Unused; decide +kernel⟩,
   ⟨wd [], by unfold Unused; decide +kernel⟩⟩

theorem witness_PtpDescriptorsComplete :
    (∃ (d : Desc) (s : State) (c : _), Unused d [(0, 9), (12, 20)] ∧ pl d 0 1 ≤ 1 ∧ pl d 1 1 ≤ 3 ∧
      (pl d 2 1 = 255 ∨ (pl d 2 1 ≤ 3 ∧ pl d 2 1 ≠ pl d 1 1)) ∧ pl d 4 1 ≤ 7 ∧ -7 ≤ plS d 5 1 ∧ plS d 5 1 ≤ 1 ∧ 2 ≤ pl d 6 1 ∧
      pl d 6 1 ≤ 10 ∧ 2 ≤ pl d 7 1 ∧ pl d 7 1 ≤ 16 ∧ pl d 8 1 ≤ 3 ∧ 100 ≤ pl d 12 4 ∧ pl d 12 4 ≤ 1000000 ∧ 1 ≤ pl d 16 4 ∧
      pl d 16 4 ≤ 100000 ∧ 100 ≤ pl d 20 4 ∧ pl d 20 4 ≤ 1000000 ∧
      c = setPtp s (fun p => { p with enabled := plBit d 4 0, profile := pl d 0 1, portA := pl d 1 1, portB := pl d 2 1, domain := pl d 3 1, ppsEn := plBit d 4 1, hybrid := plBit d 4 2, delayIv := plS d 5 1, annTmo := pl d 6 1, syncTmo := pl d 7 1, bw := pl d 8 1, lockWin := pl d 12 4, slewLim := pl d 16 4, outlier := pl d 20 4, asymA := plS d 24 4, asymB := plS d 28 4 })) ∧
    (∃ (d : Desc), Unused d [(0, 1)] ∧ pl d 0 1 ≤ 3) ∧
    (∃ (d : Desc), Unused d [(0, 1)] ∧ pl d 0 1 ≤ 3) ∧
    (∃ (d : Desc), Unused d [(0, 9)] ∧ pl d 8 1 ≤ 1) ∧
    (∃ (d : Desc), Unused d [(0, 2)] ∧ pl d 0 1 ≤ 15) ∧
    (∃ (d : Desc), Unused d [(0, 9)] ∧ 1 ≤ pl d 8 1 ∧ pl d 8 1 ≤ 64) :=
  ⟨⟨wd [(2, 255), (6, 10), (7, 16), (12, 100), (16, 1), (20, 100)], State.reset,
     setPtp (State.reset) (fun p => { p with enabled := plBit (wd [(2, 255), (6, 10), (7, 16), (12, 100), (16, 1), (20, 100)]) 4 0, profile := pl (wd [(2, 255), (6, 10), (7, 16), (12, 100), (16, 1), (20, 100)]) 0 1, portA := pl (wd [(2, 255), (6, 10), (7, 16), (12, 100), (16, 1), (20, 100)]) 1 1, portB := pl (wd [(2, 255), (6, 10), (7, 16), (12, 100), (16, 1), (20, 100)]) 2 1, domain := pl (wd [(2, 255), (6, 10), (7, 16), (12, 100), (16, 1), (20, 100)]) 3 1, ppsEn := plBit (wd [(2, 255), (6, 10), (7, 16), (12, 100), (16, 1), (20, 100)]) 4 1, hybrid := plBit (wd [(2, 255), (6, 10), (7, 16), (12, 100), (16, 1), (20, 100)]) 4 2, delayIv := plS (wd [(2, 255), (6, 10), (7, 16), (12, 100), (16, 1), (20, 100)]) 5 1, annTmo := pl (wd [(2, 255), (6, 10), (7, 16), (12, 100), (16, 1), (20, 100)]) 6 1, syncTmo := pl (wd [(2, 255), (6, 10), (7, 16), (12, 100), (16, 1), (20, 100)]) 7 1, bw := pl (wd [(2, 255), (6, 10), (7, 16), (12, 100), (16, 1), (20, 100)]) 8 1, lockWin := pl (wd [(2, 255), (6, 10), (7, 16), (12, 100), (16, 1), (20, 100)]) 12 4, slewLim := pl (wd [(2, 255), (6, 10), (7, 16), (12, 100), (16, 1), (20, 100)]) 16 4, outlier := pl (wd [(2, 255), (6, 10), (7, 16), (12, 100), (16, 1), (20, 100)]) 20 4, asymA := plS (wd [(2, 255), (6, 10), (7, 16), (12, 100), (16, 1), (20, 100)]) 24 4, asymB := plS (wd [(2, 255), (6, 10), (7, 16), (12, 100), (16, 1), (20, 100)]) 28 4 }),
     by unfold Unused; decide +kernel, by decide +kernel, by decide +kernel, by decide +kernel, by decide +kernel, by decide +kernel,
     by decide +kernel, by decide +kernel, by decide +kernel, by decide +kernel, by decide +kernel, by decide +kernel, by decide +kernel,
     by decide +kernel, by decide +kernel, by decide +kernel, by decide +kernel, by decide +kernel, rfl⟩,
   ⟨wd [], by unfold Unused; decide +kernel⟩,
   ⟨wd [], by unfold Unused; decide +kernel⟩,
   ⟨wd [], by unfold Unused; decide +kernel⟩,
   ⟨wd [], by unfold Unused; decide +kernel⟩,
   ⟨wd [(8, 64)], by unfold Unused; decide +kernel⟩⟩

theorem witness_TimeTriggersArm :
    (∃ (d : Desc) (s : State) (n : _), Unused d [(0, 3), (8, 20)] ∧ (trigLimits d).all (fun l => l.2) = true ∧ plBit d 2 2 = false ∧
      pl d 0 1 ≤ 3 ∧ pl d 1 1 = 0 ∧ n = (if plBit d 2 0 then leastBefore s 2 else pl d 8 8) ∧ beforeH s ((n : Int) - 2) = true) ∧
    (∃ (d : Desc) (s : State), Unused d [(0, 3), (8, 20)] ∧ (trigLimits d).all (fun l => l.2) = true ∧ plBit d 2 2 = false ∧ pl d 0 1 ≤ 3 ∧
      pl d 1 1 ≠ 0 ∧ s.ptp.valid = true ∧ s.ptp.dt + 10000 ≤ pl d 8 6 * 1000000000 + pl d 16 4) ∧
    (∃ (d : Desc) (s : State) (n : _), Unused d [(0, 3), (8, 20)] ∧ (trigLimits d).all (fun l => l.2) = true ∧ plBit d 2 2 = false ∧
      pl d 0 1 = 16 ∧ n = (if plBit d 2 0 then leastBefore s 2 else pl d 8 8) ∧ beforeH s ((n : Int) - 2) = true) ∧
    (∃ (d : Desc) (s : State) (n : _), Unused d [(0, 3), (8, 20)] ∧ (trigLimits d).all (fun l => l.2) = true ∧ plBit d 2 2 = false ∧
      pl d 0 1 = 17 ∧ n = (if plBit d 2 0 then leastBefore s 2 else pl d 8 8) ∧ beforeH s ((n : Int) - 2) = true ∧
      s.lau.cap.running = none) ∧
    (∃ (d : Desc), Unused d [(0, 28)] ∧ (pl d 0 1 ≤ 3 ∨ pl d 0 1 = 16 ∨ pl d 0 1 = 17) ∧ pl d 2 1 ≤ 7 ∧ plBit d 2 2 = true) :=
  ⟨⟨wd [(0, 3), (2, 1), (24, 10)], State.reset,
     (if plBit (wd [(0, 3), (2, 1), (24, 10)]) 2 0 then leastBefore (State.reset) 2 else pl (wd [(0, 3), (2, 1), (24, 10)]) 8 8),
     by unfold Unused; decide +kernel⟩,
   ⟨wd [(0, 3), (1, 1), (8, 1), (24, 10)], { State.reset with ptp := { valid := true } }, by unfold Unused; decide +kernel⟩,
   ⟨wd [(0, 16), (2, 1)], State.reset,
     (if plBit (wd [(0, 16), (2, 1)]) 2 0 then leastBefore (State.reset) 2 else pl (wd [(0, 16), (2, 1)]) 8 8),
     by unfold Unused; decide +kernel⟩,
   ⟨wd [(0, 17), (2, 1)], State.reset,
     (if plBit (wd [(0, 17), (2, 1)]) 2 0 then leastBefore (State.reset) 2 else pl (wd [(0, 17), (2, 1)]) 8 8),
     by unfold Unused; decide +kernel⟩,
   ⟨wd [(0, 3), (2, 4)], by unfold Unused; decide +kernel⟩⟩

theorem witness_MediaDescriptorsComplete :
    (∃ (d : Desc) (s : State) (u : _), Unused d [(0, 21)] ∧ pl d 0 1 ≤ 3 ∧ pl d 1 1 ≤ 63 ∧ pl d 2 2 ≤ 4095 ∧ pl d 4 1 ≤ 7 ∧ pl d 5 1 ≤ 7 ∧
      pl d 7 1 ≤ 63 ∧ pl d 20 1 ≤ 32 ∧
      (portCarries s (pl d 0 1) = false ∨ ((portAt s (pl d 0 1)).fast = plBit d 1 1 ∧ (portAt s (pl d 0 1)).fec = plBit d 1 2)) ∧
      u = (if (portAt s (pl d 0 1)).up = true ∧ plBit d 1 0 = false then portDown (pl d 0 1) s else s)) ∧
    (∃ (d : Desc) (s : State), Unused d [(0, 7), (8, 6), (16, 6), (24, 8)] ∧ pl d 0 1 ≤ 127 ∧ pl d 1 1 ≤ 3 ∧ pl d 2 1 ≤ 3 ∧ pl d 3 1 ≤ 3 ∧
      1 ≤ pl d 4 1 ∧ pl d 4 1 ≤ 64 ∧ pl d 4 1 * packetP s.clk.rate (pl d 5 1) * 3 ≤ 9216 ∧ pl d 5 1 ≤ 3 ∧ 96 ≤ pl d 6 1 ∧ pl d 6 1 ≤ 127 ∧
      mappedChannels s (pl d 0 1) ≤ pl d 4 1 ∧ packetP s.clk.rate (pl d 5 1) ≤ (rxMapping s (pl d 0 1)).rxd ∧
      storeFits (setRx (pl d 0 1) (rxConfig d (rxAt s (pl d 0 1))) s) = true) ∧
    (∃ (d : Desc) (s : State) (n : _), Unused d [(0, 11), (12, 6)] ∧ pl d 8 1 ≤ 1 ∧ pl d 9 1 = 0 ∧ pl d 10 1 ≤ 127 ∧ 16 ≤ pl d 16 2 ∧
      pl d 16 2 ≤ 8192 ∧ servedSamples s false (pl d 10 1) ≤ pl d 16 2 ∧ n = keyN d (leastBefore s 1) ∧ beforeH s ((n : Int) - 1) = true ∧
      setOf s (pl d 10 1) = none ∧ storeFits (withRxMap n false (pl d 10 1) (pl d 12 4) (pl d 16 2) s) = true) ∧
    (∃ (d : Desc) (s : State) (n : _), Unused d [(0, 11), (12, 6)] ∧ pl d 8 1 ≤ 1 ∧ pl d 9 1 = 1 ∧ pl d 10 1 ≤ 127 ∧ 16 ≤ pl d 16 2 ∧
      pl d 16 2 ≤ 8192 ∧ servedSamples s true (pl d 10 1) ≤ pl d 16 2 ∧ n = keyN d (leastBefore s 1) ∧ beforeH s ((n : Int) - 1) = true ∧
      storeFits (withRxMap n true (pl d 10 1) (pl d 12 4) (pl d 16 2) s) = true) ∧
    (∃ (d : Desc) (s : State) (i : Img), Unused d [(0, 36)] ∧ pl d 0 1 ≤ 127 ∧ pl d 1 1 ≤ 1 ∧ 96 ≤ pl d 2 1 ∧ pl d 2 1 ≤ 127 ∧ pl d 3 1 ≤ 63 ∧
      s.sch.activeImg = some i ∧ (∃ x ∈ i.txs, x.stream = pl d 0 1)) ∧
    (∃ (d : Desc), Unused d [(0, 9), (10, 5)] ∧ pl d 8 1 ≤ 2 ∧ 1 ≤ pl d 12 2 ∧ pl d 10 2 + pl d 12 2 ≤ (if pl d 8 1 = 0 then 4 else 128) ∧
      pl d 14 1 ≤ 1) :=
  ⟨⟨wd [], State.reset,
     (if (portAt (State.reset) (pl (wd []) 0 1)).up = true ∧ plBit (wd []) 1 0 = false then portDown (pl (wd []) 0 1) (State.reset) else (State.reset)),
     by unfold Unused; decide +kernel, by decide +kernel, by decide +kernel, by decide +kernel, by decide +kernel, by decide +kernel,
     by decide +kernel, by decide +kernel, by decide +kernel, rfl⟩,
   ⟨wd [(0, 127), (4, 64), (6, 96)], State.reset, by unfold Unused; decide +kernel⟩,
   ⟨wd [(8, 1), (10, 127), (16, 16)], State.reset, keyN (wd [(8, 1), (10, 127), (16, 16)]) (leastBefore (State.reset) 1),
     by unfold Unused; decide +kernel⟩,
   ⟨wd [(8, 1), (9, 1), (10, 127), (16, 16)], State.reset, keyN (wd [(8, 1), (9, 1), (10, 127), (16, 16)]) (leastBefore (State.reset) 1),
     by unfold Unused; decide +kernel⟩,
   ⟨wd [(2, 96)],
     wSch { st := 2, activeImg := some ({ wImg with txs := [{ stream := 0, portA := 0, portB := 1, pcode := 0, channels := 1, stg := [0] }], forms := [[{ phase := 0, stream := 0, cycle := 0, dofs := 64 }]] }) },
     ({ wImg with txs := [{ stream := 0, portA := 0, portB := 1, pcode := 0, channels := 1, stg := [0] }], forms := [[{ phase := 0, stream := 0, cycle := 0, dofs := 64 }]] } : Img),
     by unfold Unused; decide +kernel⟩,
   ⟨wd [(8, 2), (10, 127), (12, 1), (14, 1)], by unfold Unused; decide +kernel⟩⟩

theorem witness_AudioPortDescriptorsComplete :
    (∃ (d : Desc) (s : State), Unused d [(0, 12)] ∧ pl d 0 1 ≤ 15 ∧ pl d 1 1 ≤ 15 ∧ pl d 2 1 ∈ [16, 24, 32] ∧ pl d 3 1 ∈ [24, 32] ∧
      pl d 2 1 ≤ pl d 3 1 ∧ pl d 4 1 ∈ [1, 2, 4] ∧
      (pl d 5 1 = 255 ∨ (pl d 5 1 ≤ 7 ∧ ∀ q < 16, q ≠ pl d 0 1 → (sapAt s q).group = pl d 5 1 → (sapAt s q).enabled = true → (sapAt s q).m = pl d 4 1)) ∧
      pl d 6 1 ≤ 3 ∧ pl d 7 1 ≤ 3 ∧ (pl d 4 1 = (if isDouble s.clk.rate then 2 else 1) ∨ (pl d 6 1 = 0 ∧ pl d 7 1 = 0)) ∧
      sourceIdx (pl d 6 1) (pl d 8 2) = true ∧ sourceIdx (pl d 7 1) (pl d 10 2) = true ∧
      (((sapAt s (pl d 0 1)).m = pl d 4 1 ∧ (sapAt s (pl d 0 1)).enabled = plBit d 1 0) ∨ (portMapped s (pl d 0 1) = false ∧ portUsed s (pl d 0 1) = false))) ∧
    (∃ (d : Desc) (s : State) (i : List Byte) (q : List Byte), Unused d ([(0, 8), (24, 1)] ++ (if plBit d 1 2 then [(8, 8)] else []) ++ (if plBit d 1 1 then [(16, 8)] else [])) ∧
      pl d 0 1 ≤ 7 ∧ pl d 1 1 ≤ 31 ∧ 1 ≤ pl d 2 2 ∧ pl d 2 2 ≤ 1000 ∧ pl d 4 4 ≤ 1073741824 ∧ pl d 24 1 ≤ 1 ∧
      (if plBit d 1 2 then hostBlock d 0 256 else some []) = some i ∧
      (if plBit d 1 1 then hostBlock d (if plBit d 1 2 then 1 else 0) 80 else some []) = some q ∧
      (plBit d 1 2 = true → ∀ r ∈ chunks 8 32 i, mixOk s r = true)) ∧
    (∃ (d : Desc) (s : State) (x : _) (o : _), Unused d [(0, 3), (4, 4)] ∧ pl d 0 1 ≤ 7 ∧ pl d 1 1 ≤ 31 ∧ pl d 2 1 ≤ 1 ∧
      pl d 4 4 ≤ 1073741824 ∧ x = busAt s (pl d 0 1) ∧ o = x.ins.getD (pl d 1 1) {}) ∧
    (∃ (d : Desc) (b : _), Unused d [(0, 8)] ∧ hostBlock d 0 128 = some b ∧ (∀ r ∈ chunks 2 64 b, leNat r % 32768 < 1024)) ∧
    (∃ (d : Desc), Unused d [(0, 8)] ∧ pl d 0 1 ≤ 7 ∧ pl d 1 1 ≤ 1 ∧ pl d 2 1 ≤ 15 ∧ pl d 3 1 ≤ 1 ∧ pl d 4 4 ≤ 1073741824) ∧
    (∃ (d : Desc), Unused d [(0, 9)] ∧ pl d 8 1 ≤ 1) :=
  ⟨⟨wd [(0, 15), (2, 16), (3, 24), (4, 1), (5, 255)], State.reset, by unfold Unused; decide +kernel⟩,
   ⟨wd [(0, 7), (1, 24), (2, 1)], State.reset, [], [], by unfold Unused; decide +kernel, by decide +kernel, by decide +kernel,
     by decide +kernel, by decide +kernel, by decide +kernel, by decide +kernel, by decide +kernel, by decide +kernel,
     by intro h; exact absurd h (by decide +kernel)⟩,
   ⟨wd [], State.reset, busAt (State.reset) (pl (wd []) 0 1), (busAt (State.reset) (pl (wd []) 0 1)).ins.getD (pl (wd []) 1 1) {},
     by unfold Unused; decide +kernel, by decide +kernel, by decide +kernel, by decide +kernel, by decide +kernel, rfl, rfl⟩,
   ⟨wdz [] [128], (hostBlock (wdz [] [128]) 0 128).getD [], by unfold Unused; decide +kernel⟩,
   ⟨wd [], by unfold Unused; decide +kernel⟩,
   ⟨wd [], by unfold Unused; decide +kernel⟩⟩

theorem witness_CaptureDescriptorsComplete :
    (∃ (d : Desc) (s : State), Unused d [(0, 5), (8, 16)] ∧ pl d 0 1 ≤ 6 ∧ pl d 1 1 ≤ 7 ∧ pl d 2 1 ≤ 7 ∧ pl d 3 1 ≤ 7 ∧
      (∀ c < 8, pl d (8 + 2 * c) 1 ≤ 15 ∧ pl d (9 + 2 * c) 1 ≤ 1 ∧ (pl d 4 1 / 2 ^ c % 2 = 1 → (sapAt s (pl d (8 + 2 * c) 1)).m = 4)) ∧
      (capBusy s = false ∨ (s.lau.cap.resp = pl d 0 1 ∧ s.lau.cap.sh1 = pl d 1 1 ∧ s.lau.cap.sh2 = pl d 2 1 ∧ s.lau.cap.sh3 = pl d 3 1))) ∧
    (∃ (d : Desc) (s : State) (b : List Byte) (n : Nat), Unused d [(0, 11)] ∧ n = pl d 8 1 + pl d 9 1 + pl d 10 1 ∧ 3 ≤ pl d 8 1 ∧
      pl d 8 1 ≤ 63 ∧ pl d 8 1 % 4 = 3 ∧ 3 ≤ pl d 9 1 ∧ pl d 9 1 ≤ 127 ∧ pl d 9 1 % 4 = 3 ∧ 1 ≤ pl d 10 1 ∧ pl d 10 1 ≤ 127 ∧
      hostBlock d 0 (4 * n) = some b ∧ taps24 (tapsOf n b) = true ∧ capBusy s = false) ∧
    (∃ (d : Desc) (s : State), Unused d [(0, 10), (12, 12)] ∧ pl d 8 1 ≤ 2 ∧ pl d 9 1 ≤ 1 ∧ 1 ≤ pl d 12 4 ∧ pl d 12 4 ≤ 16777216 ∧
      (pl d 8 1 ≠ 1 ∨ s.drc.noDram = false) ∧ capBusy s = false) ∧
    (∃ (d : Desc) (s : State) (n : _), Unused d [(0, 9)] ∧ pl d 8 1 ≤ 1 ∧ n = keyN d (leastBefore s 2) ∧ beforeH s ((n : Int) - 2) = true ∧
      s.lau.cap.running = none) ∧
    (∃ (d : Desc), Unused d []) ∧
    (∃ (d : Desc) (s : State) (b : _), Unused d [(0, 12)] ∧ 1 ≤ pl d 8 4 ∧ pl d 8 4 ≤ 65536 ∧ hostBlock d 0 (4 * pl d 8 4) = some b ∧
      taps24 (tapsOf (pl d 8 4) b) = true ∧ s.lau.stim.running = none) ∧
    (∃ (d : Desc) (s : State) (n : _), Unused d [(0, 9)] ∧ pl d 8 1 ≤ 3 ∧ n = keyN d (leastBefore s 2) ∧ beforeH s ((n : Int) - 2) = true) ∧
    (∃ (d : Desc), Unused d [(0, 9)] ∧ 4 ≤ pl d 8 1 ∧ pl d 8 1 ≤ 7) :=
  ⟨⟨wd [], State.reset, by unfold Unused; decide +kernel⟩,
   ⟨wdz [(8, 63), (9, 127), (10, 127)] [1268], State.reset, zeros 1268,
     pl (wdz [(8, 63), (9, 127), (10, 127)] [1268]) 8 1 + pl (wdz [(8, 63), (9, 127), (10, 127)] [1268]) 9 1 + pl (wdz [(8, 63), (9, 127), (10, 127)] [1268]) 10 1,
     by unfold Unused; decide +kernel⟩,
   ⟨wd [(8, 2), (9, 1), (15, 1)], State.reset, by unfold Unused; decide +kernel⟩,
   ⟨wd [], State.reset, keyN (wd []) (leastBefore (State.reset) 2), by unfold Unused; decide +kernel⟩,
   ⟨wd [], by unfold Unused; decide +kernel⟩,
   ⟨wdz [(8, 1)] [4], State.reset, (hostBlock (wdz [(8, 1)] [4]) 0 (4 * pl (wdz [(8, 1)] [4]) 8 4)).getD [],
     by unfold Unused; decide +kernel⟩,
   ⟨wd [], State.reset, keyN (wd []) (leastBefore (State.reset) 2), by unfold Unused; decide +kernel⟩,
   ⟨wd [(8, 7)], by unfold Unused; decide +kernel⟩⟩

theorem witness_InterlockDescriptorsComplete :
    (∃ (d : Desc) (s : State) (c : _), Unused d [(0, 1), (2, 7)] ∧ pl d 0 1 ≤ 7 ∧ 1 ≤ pl d 2 2 ∧ pl d 2 2 ≤ 600 ∧ 10 ≤ pl d 4 2 ∧
      pl d 4 2 ≤ 1000 ∧ 1 ≤ pl d 8 1 ∧ (plBit d 0 0 = s.dpx.en ∨ s.sch.st = 0) ∧
      c = setDpx s (fun p => { p with en := plBit d 0 0, takeback := plBit d 0 1, hbFault := plBit d 0 2, tbHold := pl d 2 2, skewLim := pl d 4 2, pairAddr := pl d 6 2, agreeN := pl d 8 1 })) ∧
    (∃ (d : Desc) (s : State), Unused d [(0, 9)] ∧ pl d 8 1 ≤ 1 ∧ driving s = false) ∧
    (∃ (d : Desc) (s : State) (n : _), Unused d [(0, 9)] ∧ pl d 8 1 ≤ 1 ∧ driving s = true ∧ xlinkUp s = true ∧ peerReady s = true ∧
      s.dpx.armedN = none ∧ n = (if plBit d 8 0 then nowN1 s else pl d 0 8) ∧ beforeH s ((n : Int) - 1) = true) ∧
    (∃ (d : Desc), Unused d [(0, 1)] ∧ pl d 0 1 ≤ 1) ∧
    (∃ (d : Desc), Unused d [(0, 9)] ∧ pl d 8 1 ≤ 1) :=
  ⟨⟨wd [(0, 7), (2, 1), (4, 10), (8, 1)], State.reset,
     setDpx (State.reset) (fun p => { p with en := plBit (wd [(0, 7), (2, 1), (4, 10), (8, 1)]) 0 0, takeback := plBit (wd [(0, 7), (2, 1), (4, 10), (8, 1)]) 0 1, hbFault := plBit (wd [(0, 7), (2, 1), (4, 10), (8, 1)]) 0 2, tbHold := pl (wd [(0, 7), (2, 1), (4, 10), (8, 1)]) 2 2, skewLim := pl (wd [(0, 7), (2, 1), (4, 10), (8, 1)]) 4 2, pairAddr := pl (wd [(0, 7), (2, 1), (4, 10), (8, 1)]) 6 2, agreeN := pl (wd [(0, 7), (2, 1), (4, 10), (8, 1)]) 8 1 }),
     by unfold Unused; decide +kernel, by decide +kernel, by decide +kernel, by decide +kernel, by decide +kernel, by decide +kernel,
     by decide +kernel, by decide +kernel, rfl⟩,
   ⟨wd [], State.reset, by unfold Unused; decide +kernel⟩,
   ⟨wd [(8, 1)],
     { State.reset with dpx := { en := true, st := 2, peer := some { n := 0, outDg := 0, inDg := 0, state := 4, cause := 0, armedN := 0, imageId := 0, seq := 0 } }, fab := { link := [(15, { st := 3 })] } },
     (if plBit (wd [(8, 1)]) 8 0 then nowN1 ({ State.reset with dpx := { en := true, st := 2, peer := some { n := 0, outDg := 0, inDg := 0, state := 4, cause := 0, armedN := 0, imageId := 0, seq := 0 } }, fab := { link := [(15, { st := 3 })] } }) else pl (wd [(8, 1)]) 0 8),
     by unfold Unused; decide +kernel⟩,
   ⟨wd [], by unfold Unused; decide +kernel⟩,
   ⟨wd [], by unfold Unused; decide +kernel⟩⟩

theorem witness_LedgerDescriptorsComplete :
    (∃ (d : Desc) (s : State), Unused d [(0, 16)] ∧ pl d 8 4 < regionSlots ∧ 1 ≤ pl d 12 4 ∧ pl d 12 4 ≤ regionSlots ∧ ledgerReady s = true) ∧
    (∃ (d : Desc) (s : State), Unused d [(0, 8)] ∧ ledgerReady s = true) ∧
    (∃ (d : Desc) (s : State), Unused d [(0, 16)] ∧ 128 ≤ pl d 0 1 ∧ pl d 1 1 ≤ 6 ∧ ledgerReady s = true ∧ s.lgr.queue.length < 64) ∧
    (∃ (d : Desc) (s : State), Unused d [] ∧ ledgerReady s = true) ∧
    (∃ (d : Desc) (s : State) (g : _), Unused d [(0, 8)] ∧ ledgerReady s = true ∧
      g = saveCkpt { s.lgr with nonce := (s.lgr.nonce + 1) % 2 ^ 32 }) ∧
    (∃ (s : State) (tok : _), s.lgr.clearing = true ∧ s.lgr.clearTok = some tok) :=
  ⟨⟨wd [(8, 255), (9, 255), (10, 1), (12, 1)], wLgr { ready := true }, by unfold Unused; decide +kernel⟩,
   ⟨wd [], wLgr { ready := true }, by unfold Unused; decide +kernel⟩,
   ⟨wd [(0, 128), (1, 6)], wLgr { ready := true }, by unfold Unused; decide +kernel⟩,
   ⟨wd [], wLgr { ready := true }, by unfold Unused; decide +kernel⟩,
   ⟨wd [], wLgr { ready := true }, saveCkpt { (wLgr { ready := true }).lgr with nonce := ((wLgr { ready := true }).lgr.nonce + 1) % 2 ^ 32 },
     by unfold Unused; decide +kernel, by decide +kernel, rfl⟩,
   ⟨wLgr { clearing := true, clearTok := some 7 }, 7, by decide +kernel⟩⟩

theorem witness_StewardDescriptorsComplete :
    (∃ (d : Desc) (b : _), Unused d [(0, 12)] ∧ 64 ≤ pl d 8 4 ∧ pl d 8 4 ≤ 1048576 ∧ hostBlock d 0 (pl d 8 4) = some b) ∧
    (∃ (d : Desc) (s : State), Unused d [(0, 2)] ∧ pl d 0 1 = 0 ∧ s.stw.staged.isSome = true ∧
      (∀ c ∈ maskCores (pl d 0 2), runsUser s c = false)) ∧
    (∃ (d : Desc), Unused d [(0, 2)] ∧ pl d 0 1 = 0) ∧
    (∃ (s : State) (j : StopJob) (js : List StopJob) (u : State) (v : State), s.stw.stops = j :: js ∧
      u = haltCores j.cores { s with stw := { s.stw with stops := js } } ∧ v = (if j.start = true then startUser j.cores u else u)) ∧
    (∃ (d : Desc) (s : State), Unused d [(0, 5), (6, 2)] ∧ 2088 ≤ pl d 0 2 ∧ pl d 0 2 ≤ 4095 ∧ 1 ≤ pl d 2 2 ∧ pl d 0 2 + pl d 2 2 ≤ 4096 ∧
      pl d 4 1 ≤ 1 ∧ pl d 6 2 ≤ 1023 ∧ (∀ e ∈ s.stw.items, e.2.flow < pl d 0 2 ∨ pl d 0 2 + pl d 2 2 ≤ e.2.flow)) ∧
    (∃ (d : Desc), Unused d [(0, 9)] ∧ pl d 8 1 ≤ 1) ∧
    (∃ (d : Desc), Unused d [(0, 6)]) ∧
    (∃ (d : Desc) (s : State) (slot : Nat) (i : Item) (c : Nat), userUp s = true ∧ opSlot s d.tok = some (slot, i) ∧ i.st = .inService c) :=
  ⟨⟨wdz [(8, 64)] [64], (hostBlock (wdz [(8, 64)] [64]) 0 (pl (wdz [(8, 64)] [64]) 8 4)).getD [], by unfold Unused; decide +kernel⟩,
   ⟨wd [(0, 0), (1, 0)], { State.reset with stw := { staged := some { version := 0, entry := 0, bytes := [] } } },
     by unfold Unused; decide +kernel⟩,
   ⟨wd [], by unfold Unused; decide +kernel⟩,
   ⟨{ State.reset with stw := { stops := [{ cores := [15], tok := 7, start := false }] } }, (⟨[15], 7, false⟩ : StopJob), [],
     haltCores ((⟨[15], 7, false⟩ : StopJob)).cores { ({ State.reset with stw := { stops := [{ cores := [15], tok := 7, start := false }] } }) with stw := { ({ State.reset with stw := { stops := [{ cores := [15], tok := 7, start := false }] } }).stw with stops := ([]) } },
     (if ((⟨[15], 7, false⟩ : StopJob)).start = true then startUser ((⟨[15], 7, false⟩ : StopJob)).cores (haltCores ((⟨[15], 7, false⟩ : StopJob)).cores { ({ State.reset with stw := { stops := [{ cores := [15], tok := 7, start := false }] } }) with stw := { ({ State.reset with stw := { stops := [{ cores := [15], tok := 7, start := false }] } }).stw with stops := ([]) } }) else (haltCores ((⟨[15], 7, false⟩ : StopJob)).cores { ({ State.reset with stw := { stops := [{ cores := [15], tok := 7, start := false }] } }) with stw := { ({ State.reset with stw := { stops := [{ cores := [15], tok := 7, start := false }] } }).stw with stops := ([]) } })),
     by decide +kernel, rfl, rfl⟩,
   ⟨wd [(0, 40), (1, 8), (2, 1), (6, 255), (7, 3)], State.reset, by unfold Unused; decide +kernel⟩,
   ⟨wd [], by unfold Unused; decide +kernel⟩,
   ⟨wd [], by unfold Unused; decide +kernel⟩,
   ⟨wd [], { State.reset with stw := { core := [(15, { run := .user })], items := [(5, wItem 1 0 (.inService 3))] } }, 5,
     wItem 1 0 (.inService 3), 3, by decide +kernel⟩⟩

theorem witness_AbortCommandsComplete :
    (∃ (v : Word) (s : State), abortBusy s = false ∧ v.toNat &&& 0x3FF00000 = 0 ∧ Word.bits v 31 30 ≤ 2) ∧
    (∃ (tok : Nat) (s : State) (u : State) (o : Op), u = commitOutcomes s ∧ findOp u tok = some o ∧ o.notice = true ∧ o.st = .started) ∧
    (∃ (tok : Nat) (s : State) (u : State) (o : Op), u = commitOutcomes s ∧ findOp u tok = some o ∧ o.timeoutMs ≠ 0 ∧ o.st ≠ .committed) :=
  ⟨⟨0, State.reset, by decide +kernel⟩,
   ⟨7, wWork (wItem 1 7 (.inService 3)) (wOp .started true 5), commitOutcomes (wWork (wItem 1 7 (.inService 3)) (wOp .started true 5)),
     wOp .started true 5, rfl, by decide +kernel⟩,
   ⟨7, wWork (wItem 1 7 (.inService 3)) (wOp .started true 5), commitOutcomes (wWork (wItem 1 7 (.inService 3)) (wOp .started true 5)),
     wOp .started true 5, rfl, by decide +kernel⟩⟩

theorem witness_WindowCommandsComplete :
    (∃ (ans : Answer) (y : List (Nat × Byte)) (s : State) (r : _), WindowOpen false false s ∧ Answers false ans y s ∧
      r = targetRead .host (windowAt false s) y (windowGo false s) ∧ r.1 = 0) ∧
    (∃ (ans : Answer) (y : List (Nat × Byte)) (s : State) (r : _), WindowOpen true false s ∧ Answers true ans y s ∧
      r = targetRead .service (windowAt true s) y (windowGo true s) ∧ r.1 = 0) ∧
    (∃ (ans : Answer) (y : List (Nat × Byte)) (s : State), WindowOpen false true s ∧ Answers false ans y s ∧ targetOf (windowAt false s) = 0) ∧
    (∃ (ans : Answer) (y : List (Nat × Byte)) (s : State), WindowOpen true true s ∧ Answers true ans y s ∧ targetOf (windowAt true s) = 0) ∧
    (∃ (ans : Answer) (y : List (Nat × Byte)) (s : State) (r : _), WindowOpen false true s ∧ Answers false ans y s ∧
      targetOf (windowAt false s) ≠ 0 ∧ r = targetWrite .host (windowAt false s) (getReg s aRwinData) 15 y (windowGo false s) ∧ r.1 = 0) ∧
    (∃ (ans : Answer) (y : List (Nat × Byte)) (s : State) (r : _), WindowOpen true true s ∧ Answers true ans y s ∧
      targetOf (windowAt true s) ≠ 0 ∧ r = targetWrite .service (windowAt true s) (getReg s aSvcRwinData) 15 y (windowGo true s) ∧
      r.1 = 0) ∧
    (∃ (svc : _) (err : _) (s : State) (t : _), t = setReg s (winCtl svc) (BitVec.ofNat 32 (err * 2 ^ 29))) ∧
    (∃ (svc : Bool) (s : State) (t : Txn), winBusy svc s = false ∧ isAon (windowAt svc s) = false ∧
      t = { master := winMaster svc, target := targetOf (windowAt svc s), write := false, id := 0, addr := windowAt svc s } ∧
      holdsBack t s.mtx.held s = false ∧ denied (winBy svc) false (windowAt svc s) (windowGo svc s) = true) ∧
    (∃ (svc : Bool) (s : State) (t : Txn), winBusy svc s = false ∧ isAon (windowAt svc s) = false ∧
      t = { master := winMaster svc, target := targetOf (windowAt svc s), write := false, id := 0, addr := windowAt svc s } ∧
      holdsBack t s.mtx.held s = false ∧ denied (winBy svc) false (windowAt svc s) (windowGo svc s) = false) ∧
    (∃ (svc : Bool) (s : State), winBusy svc s = true) :=
  ⟨⟨.ok, [], setReg State.reset aRwinAddr 0x08000000,
     targetRead .host (windowAt false (setReg State.reset aRwinAddr 0x08000000)) ([]) (windowGo false (setReg State.reset aRwinAddr 0x08000000)),
     ⟨by decide +kernel, by decide +kernel, by decide +kernel⟩, Or.inl ⟨rfl, rfl⟩, rfl, by decide +kernel⟩,
   ⟨.ok, [], setReg State.reset aSvcRwinAddr 0x08000000,
     targetRead .service (windowAt true (setReg State.reset aSvcRwinAddr 0x08000000)) ([]) (windowGo true (setReg State.reset aSvcRwinAddr 0x08000000)),
     ⟨by decide +kernel, by decide +kernel, by decide +kernel⟩, Or.inl ⟨rfl, rfl⟩, rfl, by decide +kernel⟩,
   ⟨.ok, [], setReg State.reset aRwinAddr 0x00100000, ⟨by decide +kernel, by decide +kernel, by decide +kernel⟩, Or.inl ⟨rfl, rfl⟩,
     by decide +kernel⟩,
   ⟨.ok, [], setReg State.reset aSvcRwinAddr 0x00100000, ⟨by decide +kernel, by decide +kernel, by decide +kernel⟩, Or.inl ⟨rfl, rfl⟩,
     by decide +kernel⟩,
   ⟨.ok, [], setReg State.reset aRwinAddr 0x08000000,
     targetWrite .host (windowAt false (setReg State.reset aRwinAddr 0x08000000)) (getReg (setReg State.reset aRwinAddr 0x08000000) aRwinData) 15 ([]) (windowGo false (setReg State.reset aRwinAddr 0x08000000)),
     ⟨by decide +kernel, by decide +kernel, by decide +kernel⟩, Or.inl ⟨rfl, rfl⟩, by decide +kernel, rfl, by decide +kernel⟩,
   ⟨.ok, [], setReg State.reset aSvcRwinAddr 0x08000000,
     targetWrite .service (windowAt true (setReg State.reset aSvcRwinAddr 0x08000000)) (getReg (setReg State.reset aSvcRwinAddr 0x08000000) aSvcRwinData) 15 ([]) (windowGo true (setReg State.reset aSvcRwinAddr 0x08000000)),
     ⟨by decide +kernel, by decide +kernel, by decide +kernel⟩, Or.inl ⟨rfl, rfl⟩, by decide +kernel, rfl, by decide +kernel⟩,
   ⟨0, 0, State.reset, setReg (State.reset) (winCtl (0)) (BitVec.ofNat 32 ((0) * 2 ^ 29)), rfl⟩,
   ⟨false, setReg State.reset aRwinAddr 0x30000000,
     { master := winMaster (false), target := targetOf (windowAt (false) (setReg State.reset aRwinAddr 0x30000000)), write := false, id := 0, addr := windowAt (false) (setReg State.reset aRwinAddr 0x30000000) },
     by decide +kernel, by decide +kernel, rfl, by decide +kernel⟩,
   ⟨true, setReg State.reset aSvcRwinAddr 0x08000000,
     { master := winMaster (true), target := targetOf (windowAt (true) (setReg State.reset aSvcRwinAddr 0x08000000)), write := false, id := 0, addr := windowAt (true) (setReg State.reset aSvcRwinAddr 0x08000000) },
     by decide +kernel, by decide +kernel, rfl, by decide +kernel⟩,
   ⟨true, windowGo true State.reset, by decide +kernel⟩⟩

theorem witness_DispatcherCommandsComplete :
    (∃ (c : Nat) (s : State), (Machine.core s c).waiting = none ∧ (heldItems s c).length < 4 ∧
      (Word.bits (getReg s (aDsp c 0x40)) 23 0 ≠ 0 ∨ (pickItem s c s.stw.items).isSome = true)) ∧
    (∃ (s : State) (c : Nat) (slot : Nat) (i : Item), nextGrant s = some (c, slot, i)) ∧
    (∃ (c : Nat) (s : State), (Machine.core s c).waiting.isSome = true ∧ Word.bits (getReg s (aDsp c 0x40)) 23 0 ≠ 0xFFFFFF) ∧
    (∃ (slot : Nat) (s : State) (i : Item), smFind s.stw.items slot = some i) ∧
    (∃ (c : Nat) (v : Word) (s : State) (i : Item), heldAt s c (Word.bits v 25 13) = some i ∧ v = handle (Word.bits v 25 13) i.flow) ∧
    (∃ (c : Nat) (v : Word) (s : State) (i : Item), heldAt s c (Word.bits v 12 0) = some i) ∧
    (∃ (c : Nat) (s : State) (slot : Nat), mayAdd s c (stagedItem s c).flow = true ∧ 0x10 ≤ (stagedItem s c).kind ∧ freeSlot s = some slot) ∧
    (∃ (c : Nat) (s : State) (t : State), t = settleAlive { setCore s c { Machine.core s c with hb := true } with stw := { (setCore s c { Machine.core s c with hb := true }).stw with firstHb := true } }) ∧
    (∃ (slot : Nat) (s : State) (i : Item) (c : Nat), smFind s.stw.items slot = some i ∧ i.st = .inService c ∧ i.long = false ∧
      getReg s aSvcLim ≠ 0) :=
  ⟨⟨15, setReg State.reset (aDsp 15 0x40) 1, by decide +kernel⟩,
   ⟨setReg { State.reset with stw := { core := [(15, { run := .afinal, waiting := some 0 })], items := [(5, wItem 0x10 0 .ready)] } } (aDsp 15 0x48) 0xFF0000,
     15, 5, wItem 0x10 0 .ready, by decide +kernel⟩,
   ⟨15, setReg { State.reset with stw := { core := [(15, { run := .afinal, waiting := some 0 })] } } (aDsp 15 0x40) 1, by decide +kernel⟩,
   ⟨5, { State.reset with stw := { items := [(5, wItem 0x10 0 (.inService 15))] } }, wItem 0x10 0 (.inService 15), by decide +kernel⟩,
   ⟨15, handle 5 0, { State.reset with stw := { items := [(5, wItem 0x10 0 (.inService 15))] } }, wItem 0x10 0 (.inService 15),
     by decide +kernel⟩,
   ⟨15, 5, { State.reset with stw := { items := [(5, wItem 0x10 0 (.inService 15))] } }, wItem 0x10 0 (.inService 15), by decide +kernel⟩,
   ⟨15, setReg State.reset (aDsp 15 0x10) 0x100000, 0, by decide +kernel⟩,
   ⟨15, State.reset,
     settleAlive { setCore (State.reset) (15) { Machine.core (State.reset) (15) with hb := true } with stw := { (setCore (State.reset) (15) { Machine.core (State.reset) (15) with hb := true }).stw with firstHb := true } },
     rfl⟩,
   ⟨5, { State.reset with stw := { items := [(5, wItem 0x10 0 (.inService 15))] } }, wItem 0x10 0 (.inService 15), 15, by decide +kernel⟩⟩

theorem witness_OwnerReportsComplete :
    (∃ (c : Nat) (cmd : Word) (s : State) (u : State) (o : Op), u = commitOutcomes s ∧ cmdLegal cmd = true ∧ Word.bits cmd 31 30 = 0 ∧
      ownedOp u c = some o) ∧
    (∃ (c : Nat) (cmd : Word) (s : State) (u : State) (o : Op), u = commitOutcomes s ∧ cmdLegal cmd = true ∧ Word.bits cmd 31 30 = 1 ∧
      ownedOp u c = some o) ∧
    (∃ (c : Nat) (cmd : Word) (s : State) (u : State) (o : Op), u = commitOutcomes s ∧ cmdLegal cmd = true ∧ Word.bits cmd 31 30 = 2 ∧
      ownedOp u c = some o ∧ o.notice = true) ∧
    (∃ (tok : Nat) (s : State), (∃ o ∈ s.hif.ops, o.tok = tok ∧ o.st = .started) ∧ ∃ o ∈ (commitTok tok s).hif.ops, o.tok = tok) :=
  ⟨⟨3, 0, wWork (wItem 1 7 (.inService 3)) (wOp .started true 5), commitOutcomes (wWork (wItem 1 7 (.inService 3)) (wOp .started true 5)),
     wOp .started true 5, rfl, by decide +kernel⟩,
   ⟨3, 0x400A0000, wWork (wItem 1 7 (.inService 3)) (wOp .started true 5),
     commitOutcomes (wWork (wItem 1 7 (.inService 3)) (wOp .started true 5)), wOp .started true 5, rfl, by decide +kernel⟩,
   ⟨3, 0x80000000, wWork (wItem 1 7 (.inService 3)) (wOp .started true 5),
     commitOutcomes (wWork (wItem 1 7 (.inService 3)) (wOp .started true 5)), wOp .started true 5, rfl, by decide +kernel⟩,
   ⟨7, wWork (wItem 1 7 (.inService 3)) (wOp .started true 5), by decide +kernel, by decide +kernel⟩⟩

theorem witness_RingCommandsComplete :
    (∃ (n : Nat) (v : Word) (s : State), n < 16 ∧ v.toNat &&& 0xF000F08E = 0 ∧ 1 ≤ Word.bits v 27 16 ∧ Word.bit v 0 = true ∧
      (sqr s n).enabled = false ∧ (cqr s (Word.bits v 11 8)).enabled = true) ∧
    (∃ (n : Nat) (v : Word) (s : State), n < 16 ∧ v.toNat &&& 0xF000F08E = 0 ∧ 1 ≤ Word.bits v 27 16 ∧ Word.bit v 0 = false ∧
      (sqr s n).enabled = true ∧ (sqr s n).disabling = false ∧ Word.put v 0 0 0 = Word.put (getReg s (aSq n 8)) 0 0 0) ∧
    (∃ (n : Nat) (s : State), (sqr s n).disabling = true ∧ sqDrained s n = true) ∧
    (∃ (n : Nat) (v : Word) (s : State), n < 16 ∧ v.toNat &&& 0xF000C0FC = 0 ∧ 1 ≤ Word.bits v 27 16 ∧ Word.bit v 0 = true ∧
      (cqr s n).enabled = false) ∧
    (∃ (n : Nat) (v : Word) (s : State), n < 16 ∧ v.toNat &&& 0xF000C0FC = 0 ∧ 1 ≤ Word.bits v 27 16 ∧ Word.bit v 0 = false ∧
      (cqr s n).enabled = true ∧ Word.put v 0 0 0 = Word.put (getReg s (aCq n 8)) 0 0 0) ∧
    (∃ (v : Word) (s : State), v.toNat &&& 0xF000FFFE = 0 ∧ 1 ≤ Word.bits v 27 16 ∧ Word.bit v 0 = true ∧ s.hif.evr.enabled = false) ∧
    (∃ (v : Word) (s : State), v.toNat &&& 0xF000FFFE = 0 ∧ 1 ≤ Word.bits v 27 16 ∧ Word.bit v 0 = false ∧ s.hif.evr.enabled = true ∧
      Word.put v 0 0 0 = Word.put (getReg s aEvrCfg) 0 0 0) :=
  ⟨⟨15, 0x00010F01, wRing {} { enabled := true }, by decide +kernel⟩,
   ⟨15, 0x0FFF0000, setReg (wRing { enabled := true } {}) (aSq 15 8) 0x0FFF0001, by decide +kernel⟩,
   ⟨15, wRing { enabled := true, disabling := true } {}, by decide +kernel⟩,
   ⟨15, 0x00010001, State.reset, by decide +kernel⟩,
   ⟨15, 0x0FFF0000, setReg (wRing {} { enabled := true }) (aCq 15 8) 0x0FFF0001, by decide +kernel⟩,
   ⟨0x00010001, State.reset, by decide +kernel⟩,
   ⟨0x0FFF0000, setReg { State.reset with hif := { evr := { enabled := true } } } aEvrCfg 0x0FFF0001, by decide +kernel⟩⟩

theorem witness_HostLinkCommandsComplete :
    (∃ (s : State) (u : State), u = (if s.hif.inL1 then leaveL1 s else s) ∧ pollsRun u = true) ∧
    (∃ (w : List Word) (s : State) (u : State) (v : State), u = (if s.hif.inL1 then leaveL1 s else s) ∧ pollsRun u = true ∧
      w.take 33 = u.hif.doorbell ∧
      v = { u with hif := { u.hif with nPolls := bump 32 u.hif.nPolls 1, fastPoll := u.hif.fastPoll && decide (u.lgr.ptime < u.hif.lastChange + 11) } }) ∧
    (∃ (w : List Word) (s : State) (u : State) (v : State), u = (if s.hif.inL1 then leaveL1 s else s) ∧ pollsRun u = true ∧
      w.take 33 ≠ u.hif.doorbell ∧
      v = { u with hif := { u.hif with nPolls := bump 32 u.hif.nPolls 1, doorbell := w.take 33, fastPoll := true, lastChange := u.lgr.ptime } }) ∧
    (∃ (q : Nat) (s : State), (cqr s q).modTimer = true ∧ (cqr s q).tail ≠ (cqr s q).head) ∧
    (∃ (s : State), s.hif.msixPend = []) ∧
    (∃ (v : Nat) (s : State), s.hif.msixPend = [v] ∧ s.hif.funcMask = false ∧ s.hif.msixEn = true ∧ canHost s = true) :=
  ⟨⟨setReg { State.reset with hif := { bme := true, inL1 := true } } aHifCtl 1,
     (if (setReg { State.reset with hif := { bme := true, inL1 := true } } aHifCtl 1).hif.inL1 then leaveL1 (setReg { State.reset with hif := { bme := true, inL1 := true } } aHifCtl 1) else (setReg { State.reset with hif := { bme := true, inL1 := true } } aHifCtl 1)),
     rfl, by decide +kernel⟩,
   ⟨[], setReg { State.reset with hif := { bme := true, inL1 := true } } aHifCtl 1,
     (if (setReg { State.reset with hif := { bme := true, inL1 := true } } aHifCtl 1).hif.inL1 then leaveL1 (setReg { State.reset with hif := { bme := true, inL1 := true } } aHifCtl 1) else (setReg { State.reset with hif := { bme := true, inL1 := true } } aHifCtl 1)),
     { ((if (setReg { State.reset with hif := { bme := true, inL1 := true } } aHifCtl 1).hif.inL1 then leaveL1 (setReg { State.reset with hif := { bme := true, inL1 := true } } aHifCtl 1) else (setReg { State.reset with hif := { bme := true, inL1 := true } } aHifCtl 1))) with hif := { ((if (setReg { State.reset with hif := { bme := true, inL1 := true } } aHifCtl 1).hif.inL1 then leaveL1 (setReg { State.reset with hif := { bme := true, inL1 := true } } aHifCtl 1) else (setReg { State.reset with hif := { bme := true, inL1 := true } } aHifCtl 1))).hif with nPolls := bump 32 ((if (setReg { State.reset with hif := { bme := true, inL1 := true } } aHifCtl 1).hif.inL1 then leaveL1 (setReg { State.reset with hif := { bme := true, inL1 := true } } aHifCtl 1) else (setReg { State.reset with hif := { bme := true, inL1 := true } } aHifCtl 1))).hif.nPolls 1, fastPoll := ((if (setReg { State.reset with hif := { bme := true, inL1 := true } } aHifCtl 1).hif.inL1 then leaveL1 (setReg { State.reset with hif := { bme := true, inL1 := true } } aHifCtl 1) else (setReg { State.reset with hif := { bme := true, inL1 := true } } aHifCtl 1))).hif.fastPoll && decide (((if (setReg { State.reset with hif := { bme := true, inL1 := true } } aHifCtl 1).hif.inL1 then leaveL1 (setReg { State.reset with hif := { bme := true, inL1 := true } } aHifCtl 1) else (setReg { State.reset with hif := { bme := true, inL1 := true } } aHifCtl 1))).lgr.ptime < ((if (setReg { State.reset with hif := { bme := true, inL1 := true } } aHifCtl 1).hif.inL1 then leaveL1 (setReg { State.reset with hif := { bme := true, inL1 := true } } aHifCtl 1) else (setReg { State.reset with hif := { bme := true, inL1 := true } } aHifCtl 1))).hif.lastChange + 11) } },
     rfl, by decide +kernel, by decide +kernel, rfl⟩,
   ⟨[1], setReg { State.reset with hif := { bme := true, inL1 := true } } aHifCtl 1,
     (if (setReg { State.reset with hif := { bme := true, inL1 := true } } aHifCtl 1).hif.inL1 then leaveL1 (setReg { State.reset with hif := { bme := true, inL1 := true } } aHifCtl 1) else (setReg { State.reset with hif := { bme := true, inL1 := true } } aHifCtl 1)),
     { ((if (setReg { State.reset with hif := { bme := true, inL1 := true } } aHifCtl 1).hif.inL1 then leaveL1 (setReg { State.reset with hif := { bme := true, inL1 := true } } aHifCtl 1) else (setReg { State.reset with hif := { bme := true, inL1 := true } } aHifCtl 1))) with hif := { ((if (setReg { State.reset with hif := { bme := true, inL1 := true } } aHifCtl 1).hif.inL1 then leaveL1 (setReg { State.reset with hif := { bme := true, inL1 := true } } aHifCtl 1) else (setReg { State.reset with hif := { bme := true, inL1 := true } } aHifCtl 1))).hif with nPolls := bump 32 ((if (setReg { State.reset with hif := { bme := true, inL1 := true } } aHifCtl 1).hif.inL1 then leaveL1 (setReg { State.reset with hif := { bme := true, inL1 := true } } aHifCtl 1) else (setReg { State.reset with hif := { bme := true, inL1 := true } } aHifCtl 1))).hif.nPolls 1, doorbell := ([1]).take 33, fastPoll := true, lastChange := ((if (setReg { State.reset with hif := { bme := true, inL1 := true } } aHifCtl 1).hif.inL1 then leaveL1 (setReg { State.reset with hif := { bme := true, inL1 := true } } aHifCtl 1) else (setReg { State.reset with hif := { bme := true, inL1 := true } } aHifCtl 1))).lgr.ptime } },
     rfl, by decide +kernel, by decide +kernel, rfl⟩,
   ⟨15, wRing {} { enabled := true, modTimer := true, tail := 1 }, by decide +kernel⟩,
   ⟨State.reset, by decide +kernel⟩,
   ⟨63, { State.reset with hif := { msixEn := true, bme := true, msixPend := [63] } }, by decide +kernel⟩⟩

theorem witness_ServiceAndRegisterCommandsComplete :
    (∃ (a : _) (n : _) (s : State) (r : _), r = svcWords n (a / 4 * 4) s) ∧
    (∃ (a : Nat), aonSet (a / 4 * 4) = false) ∧
    (∃ (m : Master) (a : Nat) (v : Word) (s : State) (fs : List Fld), a < 0x01400000 ∧ regFields a = some fs ∧
      (pastMatrix m a = true ∨ holdsBack (writeTxn m a) s.mtx.held s = false) ∧ denied m true a s = false ∧ clockStopped a s = false ∧
      a ≠ aRwinCtl ∧ a ≠ aSvcRwinCtl ∧ actWrite m a v s = none ∧ irqWrite m a v s = none ∧ stwWrite m a v s = none) ∧
    (∃ (m : Master) (a : Nat) (be : BitVec 4) (s : State), be ≠ 15 ∧ a < 0x01400000 ∧
      (pastMatrix m a = true ∨ holdsBack (writeTxn m a) s.mtx.held s = false) ∧ denied m true a s = false ∧ clockStopped a s = false) ∧
    (∃ (s : State), Word.bit (getReg s aLgrRptr) 31 = false) ∧
    (∃ (s : State), Word.bit (getReg s aLgrRptr) 31 = true) ∧
    (∃ (s : State), Word.bit (getReg s aSvcRptr) 31 = false) ∧
    (∃ (s : State), Word.bit (getReg s aSvcRptr) 31 = true) :=
  ⟨⟨0, 0, State.reset, svcWords (0) ((0) / 4 * 4) (State.reset), rfl⟩,
   ⟨0x02000000, by decide +kernel⟩,
   ⟨.host, aHifCtl, 1, State.reset, (regFields aHifCtl).getD [], by decide +kernel⟩,
   ⟨.host, aHifCtl, 7, State.reset, by decide +kernel⟩,
   ⟨State.reset, by decide +kernel⟩,
   ⟨setReg State.reset aLgrRptr 0x8001FFFF, by decide +kernel⟩,
   ⟨State.reset, by decide +kernel⟩,
   ⟨setReg State.reset aSvcRptr 0x8001FFFF, by decide +kernel⟩⟩

theorem witness_InterruptCommandsComplete :
    (∃ (s : State) (t : Nat) (n : Nat) (u : State), pickTarget s (irqCandidates s) (rotation s) = some (t, n) ∧ t < 16 ∧
      u = noteEvrFull (irqCandidates s) s) ∧
    (∃ (s : State) (t : Nat) (n : Nat) (u : State), pickTarget s (irqCandidates s) (rotation s) = some (t, n) ∧ 16 ≤ t ∧
      u = noteEvrFull (irqCandidates s) s) ∧
    (∃ (n : Nat) (s : State) (src : Nat), smFind s.irq.bell n = some src) ∧
    (∃ (n : _) (s : State), smFind s.irq.bell n = none) ∧
    (∃ (n : Nat) (src : Nat) (s : State), src < 256 ∧ (src, n) ∈ s.irq.inSvc) ∧
    (∃ (n : _) (src : _) (s : State), src < 256 ∧ (src, n) ∉ s.irq.inSvc) ∧
    (∃ (src : _), src < 256) ∧
    (∃ (src : _), src < 256) ∧
    (∃ (v : Word), v.toNat < 65536) ∧
    (∃ (v : Word), v.toNat < 65536) :=
  ⟨⟨setReg (setReg (setReg { State.reset with hif := { evr := { enabled := true } } } aEvrCfg 0x100001) aHifEvt 1) (aIrqSrc 32) 0xF000F, 15,
     32,
     noteEvrFull (irqCandidates (setReg (setReg (setReg { State.reset with hif := { evr := { enabled := true } } } aEvrCfg 0x100001) aHifEvt 1) (aIrqSrc 32) 0xF000F)) (setReg (setReg (setReg { State.reset with hif := { evr := { enabled := true } } } aEvrCfg 0x100001) aHifEvt 1) (aIrqSrc 32) 0xF000F),
     by decide +kernel, by decide +kernel, rfl⟩,
   ⟨setReg (setReg (setReg { State.reset with hif := { evr := { enabled := true } } } aEvrCfg 0x100001) aHifEvt 1) (aIrqSrc 32) 0x10000F, 16,
     32,
     noteEvrFull (irqCandidates (setReg (setReg (setReg { State.reset with hif := { evr := { enabled := true } } } aEvrCfg 0x100001) aHifEvt 1) (aIrqSrc 32) 0x10000F)) (setReg (setReg (setReg { State.reset with hif := { evr := { enabled := true } } } aEvrCfg 0x100001) aHifEvt 1) (aIrqSrc 32) 0x10000F),
     by decide +kernel, by decide +kernel, rfl⟩,
   ⟨15, { State.reset with irq := { bell := [(15, 255)] } }, 255, by decide +kernel⟩,
   ⟨0, State.reset, by decide +kernel⟩,
   ⟨15, 255, { State.reset with irq := { inSvc := [(255, 15)] } }, by decide +kernel⟩,
   ⟨0, 0, State.reset, by decide +kernel⟩,
   ⟨0, by decide +kernel⟩,
   ⟨0, by decide +kernel⟩,
   ⟨0, by decide +kernel⟩,
   ⟨0, by decide +kernel⟩⟩

theorem witness_ResetCommandsComplete :
    (∃ (v : Word) (s : State), v = 0x57520001 ∧ s.aon.warm = false ∧ s.aon.porstLow = false ∧ s.aon.powered = true ∧ tripHolds s = false) ∧
    (∃ (s : State), s.aon.warm = false ∧ s.aon.porstLow = false ∧ s.aon.powered = true ∧
      tripHolds (setAon s (fun a => { a with wrstPin := true })) = false) ∧
    (∃ (s : State), s.aon.warm = true) ∧
    (∃ (v : Word) (s : State), writeLegal [fld 31 31 .w1s 0, fldIn 20 0 .rw 0 64 1048576] v = true ∧ Word.bit v 31 = true ∧
      s.aon.bootState = 0) ∧
    (∃ (s : State), s.aon.bootState = 1) :=
  ⟨⟨0x57520001, State.reset, rfl, by decide +kernel⟩,
   ⟨State.reset, by decide +kernel⟩,
   ⟨{ State.reset with aon := { warm := true } }, by decide +kernel⟩,
   ⟨0x80000040, { State.reset with aon := { bootState := 0 } }, by decide +kernel⟩,
   ⟨{ State.reset with aon := { bootState := 1 } }, by decide +kernel⟩⟩

theorem witness_ReadCommandsComplete :
    (∃ (n : Nat) (s : State) (r : PtpRpt) (rs : List PtpRpt), smGet [] s.ptp.rpt n = r :: rs) ∧
    (∃ (s : State) (c : TCap) (cs : List TCap), s.ptp.tcapQ = c :: cs) :=
  ⟨⟨3, { State.reset with ptp := { rpt := [(3, [{ msgType := 1, domain := 0, seqId := 0, time := 0 }])] } },
     { msgType := 1, domain := 0, seqId := 0, time := 0 }, [], by decide +kernel⟩,
   ⟨wPtp { tcapQ := [{ pin := 3, edge := 1, time := 0, tidx := 0, cycle := 0 }] }, { pin := 3, edge := 1, time := 0, tidx := 0, cycle := 0 },
     [], by decide +kernel⟩⟩

theorem witness_MatrixCommandsComplete :
    (∃ (t : Txn) (s : State) (u : State), u = mtxError 1 t (winTimeout true t (winTimeout false t s))) ∧
    (∃ (s : State), s.mtx.held = []) ∧
    (∃ (a : Nat) (b : List Byte) (s : State) (g : _), b ≠ [] ∧ 0x02000000 ≤ a ∧ a + b.length ≤ 0x03000000 ∧
      g = storeWrite s.sch.shadow (a - 0x02000000) b) :=
  ⟨⟨{ master := 7, target := 4, write := false, id := 0, addr := 0x08000000 }, State.reset,
     mtxError 1 ({ master := 7, target := 4, write := false, id := 0, addr := 0x08000000 }) (winTimeout true ({ master := 7, target := 4, write := false, id := 0, addr := 0x08000000 }) (winTimeout false ({ master := 7, target := 4, write := false, id := 0, addr := 0x08000000 }) (State.reset))),
     rfl⟩,
   ⟨State.reset, by decide +kernel⟩,
   ⟨0x02FFFFFF, [1], State.reset, storeWrite (State.reset).sch.shadow ((0x02FFFFFF) - 0x02000000) ([1]), by decide +kernel,
     by decide +kernel, by decide +kernel, rfl⟩⟩

theorem witness_TrancheCommandsComplete :
    (∃ (x : PeriodObs) (s : State) (u : State), u = observe x s ∧ u.clk.tidxValid = true ∧ u.aon.trip = false) ∧
    (∃ (x : PeriodObs) (s : State) (u : State), u = observe x s ∧ (u.clk.tidxValid = false ∨ u.aon.trip = true)) ∧
    (∃ (s : State), s.aon.trip = false ∧ s.clk.tidxValid = true ∧ s.clk.cutoffDone = false) ∧
    (∃ (s : State), 0 < s.clk.tidx ∧ (stageImg s (s.clk.tidx - 1)).isSome = true) ∧
    (∃ (s : State) (i : Img), 0 < s.clk.tidx ∧ stageImg s (s.clk.tidx - 1) = some i ∧ s.pair.mergeDone = false) :=
  ⟨⟨{}, wRun 290, observe ({}) (wRun 290), rfl, by decide +kernel⟩,
   ⟨{}, State.reset, observe ({}) (State.reset), rfl, by decide +kernel⟩,
   ⟨wRun 290, by decide +kernel⟩,
   ⟨wRun 290, by decide +kernel⟩,
   ⟨wRun 290, wImgX, by decide +kernel⟩⟩

theorem witness_HeadgateAndGeometryItemsComplete :
    (∃ (s : State) (i : Img), writeImg s s.clk.tidx = some i) ∧
    (∃ (s : State) (i : Img), stageImg s s.clk.tidx = some i) ∧
    (∃ (o : Nat) (k : Nat) (s : State) (i : Img), stageImg s s.clk.tidx = some i ∧ k < (i.ent o).dirs) ∧
    (∃ (o : Nat) (s : State) (i : Img), stageImg s s.clk.tidx = some i ∧ (i.ent o).merge = 1) ∧
    (∃ (s : State) (i : Img), stageImg s s.clk.tidx = some i) ∧
    (∃ (f : Nat) (e : Nat) (s : State) (i : Img) (x : FEnt), 0 < s.clk.tidx ∧ stageImg s (s.clk.tidx - 1) = some i ∧
      (i.fur.getD f [])[e]? = some x) ∧
    (∃ (f : Nat) (e : Nat) (s : State) (i : Img) (x : FEnt), 0 < s.clk.tidx ∧ stageImg s (s.clk.tidx - 1) = some i ∧
      (i.fur.getD f [])[e]? = some x) :=
  ⟨⟨wRun 290, wImgX, by decide +kernel⟩,
   ⟨wRun 290, wImgX, by decide +kernel⟩,
   ⟨0, 0, wRun 290, wImgX, by decide +kernel⟩,
   ⟨0, wRun 290, wImgX, by decide +kernel⟩,
   ⟨wRun 290, wImgX, by decide +kernel⟩,
   ⟨0, 0, wRun 290, wImgX, { obj := 0, slot := 0, cycle := 0, aset := 0 }, by decide +kernel⟩,
   ⟨0, 0, wRun 290, wImgX, { obj := 0, slot := 0, cycle := 0, aset := 0 }, by decide +kernel⟩⟩

theorem witness_CorrectionItemsComplete :
    (∃ (o : Nat) (s : State) (n : Nat) (i : Img), corImg s = some (n, i) ∧ o < i.cor.length) ∧
    (∃ (x : Nat) (s : State) (n : Nat) (i : Img) (y : Xf), corImg s = some (n, i) ∧ laneXf s i x n = some y) ∧
    (∃ (o : Nat) (s : State) (n : Nat) (i : Img) (e : CEnt), corImg s = some (n, i) ∧ i.cor[o]? = some e) ∧
    (∃ (x : Nat) (s : State) (n : Nat) (i : Img) (y : Xf) (e : CEnt), corImg s = some (n, i) ∧ laneXf s i x n = some y ∧
      i.cor[y.out]? = some e) ∧
    (∃ (o : Nat) (s : State) (n : Nat) (i : Img) (e : CEnt) (r : _), corImg s = some (n, i) ∧ i.cor[o]? = some e ∧
      (xfAt s o n).any (fun y => decide (y.lane < i.lanes.length)) = false ∧
      r = joinOp n o (tailSrc s o n) (outAt s o).set e (sumsOf (outAt s o).head n) s) ∧
    (∃ (x : Nat) (s : State) (n : Nat) (i : Img) (y : Xf) (e : CEnt) (a : _) (b : _), corImg s = some (n, i) ∧ laneXf s i x n = some y ∧
      i.cor[y.out]? = some e ∧ a = joinOp n y.out (tailSrc s y.out n) (outAt s y.out).set e (sumsOf (outAt s y.out).head n) s ∧
      b = joinOp n y.out (laneSrc s y n) (slotSet s y.slot) e (sumsOf (outAt s y.out).headNew n) a.2) ∧
    (∃ (o : Nat) (s : State) (i : Img) (q : Nat) (b : Nat) (m : Nat) (e : CEnt), s.drc.noDram = false ∧ q = tailQ s ∧ q + 2 ≤ s.clk.tidx ∧
      b = (s.clk.tidx - 2) / q - 1 ∧ m = q * (b + 2) ∧ tailImg s m = some i ∧
      (tailPhase i (s.clk.tidx % i.f)).any (fun p => decide (p.1 = o)) = true ∧ corEnt (some i) o = some e ∧ 1 ≤ e.tailMax) ∧
    (∃ (l : Nat) (s : State) (i : Img) (q : Nat) (b : Nat) (m : Nat) (y : Xf), s.drc.noDram = false ∧ q = tailQ s ∧ q + 2 ≤ s.clk.tidx ∧
      b = (s.clk.tidx - 2) / q - 1 ∧ m = q * (b + 2) ∧ tailImg s m = some i ∧
      (tailPhase i (s.clk.tidx % i.f)).any (fun p => decide (p.1 = 0x8000 + l)) = true ∧ laneBlockXf s l m = some y ∧
      hasTail (some i) y.out = true ∧ l < i.lanes.length) :=
  ⟨⟨1023, wRun 290, 298, wImgX, by decide +kernel⟩,
   ⟨0, wRun 290, 298, wImgX, wXf 290, by decide +kernel⟩,
   ⟨1023, wRun 290, 298, wImgX, { headMax := 16, tailMax := 1, dp := 0, bq := 16, head := 0, slu := 0 }, by decide +kernel⟩,
   ⟨0, wRun 290, 298, wImgX, wXf 290, { headMax := 16, tailMax := 1, dp := 0, bq := 16, head := 0, slu := 0 }, by decide +kernel⟩,
   ⟨1023, wRun 0, 298, wImgX, { headMax := 16, tailMax := 1, dp := 0, bq := 16, head := 0, slu := 0 },
     joinOp (298) (1023) (tailSrc (wRun 0) (1023) (298)) (outAt (wRun 0) (1023)).set ({ headMax := 16, tailMax := 1, dp := 0, bq := 16, head := 0, slu := 0 }) (sumsOf (outAt (wRun 0) (1023)).head (298)) (wRun 0),
     by decide +kernel, by decide +kernel, by decide +kernel, rfl⟩,
   ⟨0, wRun 290, 298, wImgX, wXf 290, { headMax := 16, tailMax := 1, dp := 0, bq := 16, head := 0, slu := 0 },
     joinOp (298) (wXf 290).out (tailSrc (wRun 290) (wXf 290).out (298)) (outAt (wRun 290) (wXf 290).out).set ({ headMax := 16, tailMax := 1, dp := 0, bq := 16, head := 0, slu := 0 }) (sumsOf (outAt (wRun 290) (wXf 290).out).head (298)) (wRun 290),
     joinOp (298) (wXf 290).out (laneSrc (wRun 290) (wXf 290) (298)) (slotSet (wRun 290) (wXf 290).slot) ({ headMax := 16, tailMax := 1, dp := 0, bq := 16, head := 0, slu := 0 }) (sumsOf (outAt (wRun 290) (wXf 290).out).headNew (298)) (joinOp (298) (wXf 290).out (tailSrc (wRun 290) (wXf 290).out (298)) (outAt (wRun 290) (wXf 290).out).set ({ headMax := 16, tailMax := 1, dp := 0, bq := 16, head := 0, slu := 0 }) (sumsOf (outAt (wRun 290) (wXf 290).out).head (298)) (wRun 290)).2,
     by decide +kernel, by decide +kernel, by decide +kernel, rfl, by decide +kernel⟩,
   ⟨1023, wRun 290, wImgX, tailQ (wRun 290), ((wRun 290).clk.tidx - 2) / (tailQ (wRun 290)) - 1,
     (tailQ (wRun 290)) * ((((wRun 290).clk.tidx - 2) / (tailQ (wRun 290)) - 1) + 2),
     { headMax := 16, tailMax := 1, dp := 0, bq := 16, head := 0, slu := 0 }, by decide +kernel⟩,
   ⟨0, wRun 384, wImgX, tailQ (wRun 384), ((wRun 384).clk.tidx - 2) / (tailQ (wRun 384)) - 1,
     (tailQ (wRun 384)) * ((((wRun 384).clk.tidx - 2) / (tailQ (wRun 384)) - 1) + 2), wXf 384, by decide +kernel⟩⟩

theorem witness_FetchCommandsComplete :
    (∃ (o : Nat) (g : Nat) (errs : List LineErr) (s : State) (r : State × State), (∃ f ∈ s.pair.fetch, f.obj = o ∧ f.grp = g ∧ f.data = none) ∧
      r = readRuns 0 [(cisAddr o g, 896)] errs s ∧ dramLost r.1 (cisAddr o g) 896 = false) ∧
    (∃ (o : Nat) (g : Nat) (age : _) (errs : List LineErr) (s : State) (r : State × State) (u : State), (∃ f ∈ s.pair.fetch, f.obj = o ∧ f.grp = g ∧ f.data = none) ∧
      r = readRuns 0 [(cisAddr o g, 896)] errs s ∧ dramLost r.1 (cisAddr o g) 896 = true ∧
      u = settlePanic (setPair (noteAge age r.1) (fun p => { p with fetch := p.fetch.map (fun f => if f.obj = o ∧ f.grp = g ∧ f.data.isNone then { f with data := some none } else f) }))) ∧
    (∃ (o : Nat) (g : Nat) (s : State), (∃ f ∈ s.pair.fetch, f.obj = o ∧ f.grp = g ∧ f.data = none)) ∧
    (∃ (o : Nat) (g : Nat) (errs : List LineErr) (s : State) (r : State × State), (∃ f ∈ s.cor.tailReq, f.out = o ∧ f.grp = g) ∧
      r = readRuns 1 [(outGroupAddr s o g, 1600)] errs s) :=
  ⟨⟨1023, 64, [], { State.reset with pair := { fetch := [{ obj := 1023, grp := 64, issued := 0, data := none, panic := false }] } },
     readRuns 0 [(cisAddr (1023) (64), 896)] ([]) ({ State.reset with pair := { fetch := [{ obj := 1023, grp := 64, issued := 0, data := none, panic := false }] } }),
     by decide +kernel, rfl, by decide +kernel⟩,
   ⟨1023, 64, 0, [],
     { State.reset with pair := { fetch := [{ obj := 1023, grp := 64, issued := 0, data := none, panic := false }] }, drc := { lost := linesOf (cisAddr 1023 64) 896 } },
     readRuns 0 [(cisAddr (1023) (64), 896)] ([]) ({ State.reset with pair := { fetch := [{ obj := 1023, grp := 64, issued := 0, data := none, panic := false }] }, drc := { lost := linesOf (cisAddr 1023 64) 896 } }),
     settlePanic (setPair (noteAge (0) (readRuns 0 [(cisAddr (1023) (64), 896)] ([]) ({ State.reset with pair := { fetch := [{ obj := 1023, grp := 64, issued := 0, data := none, panic := false }] }, drc := { lost := linesOf (cisAddr 1023 64) 896 } })).1) (fun p => { p with fetch := p.fetch.map (fun f => if f.obj = (1023) ∧ f.grp = (64) ∧ f.data.isNone then { f with data := some none } else f) })),
     by decide +kernel, rfl, by decide +kernel, rfl⟩,
   ⟨1023, 64, { State.reset with pair := { fetch := [{ obj := 1023, grp := 64, issued := 0, data := none, panic := false }] } },
     by decide +kernel⟩,
   ⟨1023, 1, [], { State.reset with cor := { tailReq := [{ out := 1023, grp := 1, issued := 0, panic := false }] } },
     readRuns 1 [(outGroupAddr ({ State.reset with cor := { tailReq := [{ out := 1023, grp := 1, issued := 0, panic := false }] } }) (1023) (1), 1600)] ([]) ({ State.reset with cor := { tailReq := [{ out := 1023, grp := 1, issued := 0, panic := false }] } }),
     by decide +kernel, rfl⟩⟩

theorem witness_LinkCommandsComplete :
    (∃ (l : Nat) (s : State), (linkSt s l).st = 1) ∧
    (∃ (l : Nat) (s : State), (linkSt s l).st = 1) ∧
    (∃ (l : Nat) (s : State), linkUp s l = true) ∧
    (∃ (l : Nat) (s : State), (linkSt s l).st ≠ 0) ∧
    (∃ (l : Nat) (b : List Byte) (s : State), b.length = 32 ∧ crc32c (b.take 28) = field b 28 4 ∧ 2 ≤ (linkSt s l).st) ∧
    (∃ (l : Nat) (s : State), (linkSt s l).st = 2) ∧
    (∃ (l : Nat) (s : State) (u : State), u = setLink s l { linkSt s l with ack := false } ∧ linkUp s l = true) ∧
    (∃ (l : _) (s : State) (u : _), u = setLink s l { linkSt s l with ack := false } ∧ linkUp s l = false) ∧
    (∃ (l : Nat) (s : State), (linkSt s l).st ≠ 0 ∧ s.clk.tidxValid = true) ∧
    (∃ (m : _), m ≠ 0xB7) :=
  ⟨⟨0, wLink 1 [], by decide +kernel⟩,
   ⟨0, wLink 1 [], by decide +kernel⟩,
   ⟨0, wLink 3 [], by decide +kernel⟩,
   ⟨0, wLink 1 [], by decide +kernel⟩,
   ⟨0, zeros 28 ++ leBytes 4 (crc32c (zeros 28)), wLink 2 [], by decide +kernel⟩,
   ⟨0, wLink 2 [], by decide +kernel⟩,
   ⟨0, wLink 3 [], setLink (wLink 3 []) (0) { linkSt (wLink 3 []) (0) with ack := false }, rfl, by decide +kernel⟩,
   ⟨0, State.reset, setLink (State.reset) (0) { linkSt (State.reset) (0) with ack := false }, rfl, by decide +kernel⟩,
   ⟨0, wLink 3 [], by decide +kernel⟩,
   ⟨0, by decide +kernel⟩⟩

theorem witness_CaravanCommandsComplete :
    (∃ (l : Nat) (b : List Byte) (s : State), linkUp s l = true ∧ hcrcGood b = true) ∧
    (∃ (l : Nat) (b : List Byte) (s : State), linkUp s l = true ∧ hcrcGood b = false) ∧
    (∃ (l : Nat) (s : State) (n : Nat) (i : Img) (x : Launch) (m : Nat) (u : State) (r : List (Nat × (Blk × Bool))) (h : CHdr) (v : State), n < 65536 ∧
      s.sch.activeImg = some i ∧ (i.launches.getD l [])[n]? = some x ∧ m = launchTranche s.clk.tidx x.ty ∧ xptServes s n m = true ∧
      u = (if x.ty = 2 then settleMerge s else s) ∧ linkUp u l = true ∧ reserved15 u l = false ∧ (fabAddr u).isSome = true ∧
      r = x.srcs.map (fun o => (o, launchRecord u x.ty m o)) ∧
      h = { dest := x.dest, src := srcField u, ty := x.ty, epoch := epochOf u m, grp := decide (x.b4 / 32 % 2 = 1), bcast := decide (x.b4 / 64 % 2 = 1), count := x.srcs.length, stream := x.stream, tidx := m % 65536, hadd := x.hadd, ttl := x.ttl, plen := 56 * x.srcs.length } ∧
      v = (if x.ty = 3 then launchChecks (r.map (fun c => (c.1, c.2.2))) u else u)) ∧
    (∃ (l : Nat) (p : Option QSlip) (s : State) (i : Nat) (f : EFrame), s.aon.trip = false ∧ nextFrame (linkSt s l).queue = some i ∧
      (linkSt s l).queue[i]? = some f ∧ (f.cls ≠ 1 ∨ p = none)) ∧
    (∃ (l : Nat) (s : State) (i : Nat) (f : EFrame), s.aon.trip = false ∧ nextFrame (linkSt s l).queue = some i ∧
      (linkSt s l).queue[i]? = some f ∧ f.cls = 1) ∧
    (∃ (tag : Nat) (s : State) (r : DiscReq), s.fab.disc.find? (fun x => decide (x.tag = tag)) = some r) ∧
    (∃ (q : Nat) (s : State) (r : RemReq), s.fab.remote.find? (fun x => decide (x.seq = q)) = some r ∧ 3 ≤ r.tries) ∧
    (∃ (q : Nat) (s : State) (r : RemReq), s.fab.remote.find? (fun x => decide (x.seq = q)) = some r ∧ r.tries < 3) :=
  ⟨⟨0,
     hdrBytes { dest := 3, src := 4, ty := 1, epoch := 0, grp := false, bcast := false, count := 0, stream := 0, tidx := 0, hadd := 0, ttl := 16, plen := 0 },
     wLink 3 [], by decide +kernel⟩,
   ⟨0, [], wLink 3 [], by decide +kernel⟩,
   ⟨0, { wLink 3 [] with sch := { st := 2, activeImg := some wImgX }, clk := { tidxValid := true, tidx := 300 } }, 0, wImgX,
     (⟨0, 0, 3, 0, 0, 16, [0]⟩ : Launch),
     launchTranche ({ wLink 3 [] with sch := { st := 2, activeImg := some wImgX }, clk := { tidxValid := true, tidx := 300 } }).clk.tidx ((⟨0, 0, 3, 0, 0, 16, [0]⟩ : Launch)).ty,
     (if ((⟨0, 0, 3, 0, 0, 16, [0]⟩ : Launch)).ty = 2 then settleMerge ({ wLink 3 [] with sch := { st := 2, activeImg := some wImgX }, clk := { tidxValid := true, tidx := 300 } }) else ({ wLink 3 [] with sch := { st := 2, activeImg := some wImgX }, clk := { tidxValid := true, tidx := 300 } })),
     ((⟨0, 0, 3, 0, 0, 16, [0]⟩ : Launch)).srcs.map (fun o => (o, launchRecord ((if ((⟨0, 0, 3, 0, 0, 16, [0]⟩ : Launch)).ty = 2 then settleMerge ({ wLink 3 [] with sch := { st := 2, activeImg := some wImgX }, clk := { tidxValid := true, tidx := 300 } }) else ({ wLink 3 [] with sch := { st := 2, activeImg := some wImgX }, clk := { tidxValid := true, tidx := 300 } }))) ((⟨0, 0, 3, 0, 0, 16, [0]⟩ : Launch)).ty (launchTranche ({ wLink 3 [] with sch := { st := 2, activeImg := some wImgX }, clk := { tidxValid := true, tidx := 300 } }).clk.tidx ((⟨0, 0, 3, 0, 0, 16, [0]⟩ : Launch)).ty) o)),
     { dest := ((⟨0, 0, 3, 0, 0, 16, [0]⟩ : Launch)).dest, src := srcField ((if ((⟨0, 0, 3, 0, 0, 16, [0]⟩ : Launch)).ty = 2 then settleMerge ({ wLink 3 [] with sch := { st := 2, activeImg := some wImgX }, clk := { tidxValid := true, tidx := 300 } }) else ({ wLink 3 [] with sch := { st := 2, activeImg := some wImgX }, clk := { tidxValid := true, tidx := 300 } }))), ty := ((⟨0, 0, 3, 0, 0, 16, [0]⟩ : Launch)).ty, epoch := epochOf ((if ((⟨0, 0, 3, 0, 0, 16, [0]⟩ : Launch)).ty = 2 then settleMerge ({ wLink 3 [] with sch := { st := 2, activeImg := some wImgX }, clk := { tidxValid := true, tidx := 300 } }) else ({ wLink 3 [] with sch := { st := 2, activeImg := some wImgX }, clk := { tidxValid := true, tidx := 300 } }))) (launchTranche ({ wLink 3 [] with sch := { st := 2, activeImg := some wImgX }, clk := { tidxValid := true, tidx := 300 } }).clk.tidx ((⟨0, 0, 3, 0, 0, 16, [0]⟩ : Launch)).ty), grp := decide (((⟨0, 0, 3, 0, 0, 16, [0]⟩ : Launch)).b4 / 32 % 2 = 1), bcast := decide (((⟨0, 0, 3, 0, 0, 16, [0]⟩ : Launch)).b4 / 64 % 2 = 1), count := ((⟨0, 0, 3, 0, 0, 16, [0]⟩ : Launch)).srcs.length, stream := ((⟨0, 0, 3, 0, 0, 16, [0]⟩ : Launch)).stream, tidx := (launchTranche ({ wLink 3 [] with sch := { st := 2, activeImg := some wImgX }, clk := { tidxValid := true, tidx := 300 } }).clk.tidx ((⟨0, 0, 3, 0, 0, 16, [0]⟩ : Launch)).ty) % 65536, hadd := ((⟨0, 0, 3, 0, 0, 16, [0]⟩ : Launch)).hadd, ttl := ((⟨0, 0, 3, 0, 0, 16, [0]⟩ : Launch)).ttl, plen := 56 * ((⟨0, 0, 3, 0, 0, 16, [0]⟩ : Launch)).srcs.length },
     (if ((⟨0, 0, 3, 0, 0, 16, [0]⟩ : Launch)).ty = 3 then launchChecks ((((⟨0, 0, 3, 0, 0, 16, [0]⟩ : Launch)).srcs.map (fun o => (o, launchRecord ((if ((⟨0, 0, 3, 0, 0, 16, [0]⟩ : Launch)).ty = 2 then settleMerge ({ wLink 3 [] with sch := { st := 2, activeImg := some wImgX }, clk := { tidxValid := true, tidx := 300 } }) else ({ wLink 3 [] with sch := { st := 2, activeImg := some wImgX }, clk := { tidxValid := true, tidx := 300 } }))) ((⟨0, 0, 3, 0, 0, 16, [0]⟩ : Launch)).ty (launchTranche ({ wLink 3 [] with sch := { st := 2, activeImg := some wImgX }, clk := { tidxValid := true, tidx := 300 } }).clk.tidx ((⟨0, 0, 3, 0, 0, 16, [0]⟩ : Launch)).ty) o))).map (fun c => (c.1, c.2.2))) ((if ((⟨0, 0, 3, 0, 0, 16, [0]⟩ : Launch)).ty = 2 then settleMerge ({ wLink 3 [] with sch := { st := 2, activeImg := some wImgX }, clk := { tidxValid := true, tidx := 300 } }) else ({ wLink 3 [] with sch := { st := 2, activeImg := some wImgX }, clk := { tidxValid := true, tidx := 300 } }))) else ((if ((⟨0, 0, 3, 0, 0, 16, [0]⟩ : Launch)).ty = 2 then settleMerge ({ wLink 3 [] with sch := { st := 2, activeImg := some wImgX }, clk := { tidxValid := true, tidx := 300 } }) else ({ wLink 3 [] with sch := { st := 2, activeImg := some wImgX }, clk := { tidxValid := true, tidx := 300 } })))),
     by decide +kernel, by decide +kernel, by decide +kernel, by decide +kernel, by decide +kernel, rfl, by decide +kernel,
     by decide +kernel, by decide +kernel, rfl, by decide +kernel, rfl⟩,
   ⟨0, none, wLink 3 [{ cls := 2, bytes := [], fail := false }], 0, { cls := 2, bytes := [], fail := false }, by decide +kernel⟩,
   ⟨0, wLink 3 [{ cls := 1, bytes := [], fail := false }], 0, { cls := 1, bytes := [], fail := false }, by decide +kernel⟩,
   ⟨255, { State.reset with fab := { disc := [{ tag := 255, tok := 7, addr := 0 }] } }, { tag := 255, tok := 7, addr := 0 },
     by decide +kernel⟩,
   ⟨255, { State.reset with fab := { remote := [{ seq := 255, tok := 7, addr := 0, dest := 3, entry := [], tries := 3 }] } },
     { seq := 255, tok := 7, addr := 0, dest := 3, entry := [], tries := 3 }, by decide +kernel⟩,
   ⟨255, { State.reset with fab := { remote := [{ seq := 255, tok := 7, addr := 0, dest := 3, entry := [], tries := 2 }] } },
     { seq := 255, tok := 7, addr := 0, dest := 3, entry := [], tries := 2 }, by decide +kernel⟩⟩

theorem witness_ReferenceCommandsComplete :
    (∃ (r : Nat) (s : State), 2 ≤ r ∧ r ≤ 6 ∧ (refAt s r).enabled = true) ∧
    (∃ (r : Nat) (s : State), 2 ≤ r ∧ r ≤ 6 ∧ (refAt s r).enabled = true) ∧
    (∃ (r : Nat) (o : Int) (s : State) (x : RefSt), 2 ≤ r ∧ r ≤ 6 ∧ (refAt s r).enabled = true ∧ x = { refAt s r with winOfs := o }) ∧
    (∃ (r : Nat) (s : State), (refAt s r).q = 1 ∧ (refAt s r).driftNow = false) ∧
    (∃ (r : Nat) (s : State) (u : State), (refAt s r).wtrFrom.isSome = true ∧
      u = switchExpired (setRef r { refAt s r with wtrDone := true } s)) ∧
    (∃ (s : State), s.clk.st = 2) ∧
    (∃ (s : State), s.clk.bleed = true ∧ s.clk.active ≠ 0) ∧
    (∃ (s : State), s.clk.st ≠ 0) ∧
    (∃ (s : State), s.clk.st = 0 ∧ s.clk.swTok = none) ∧
    (∃ (t : Nat) (s : State) (q : RateReq) (k : Nat) (u : State), s.clk.rateReq.getLast? = some q ∧ k = firstIndex q t s ∧
      u = takeIndex q k s) :=
  ⟨⟨6, wRef { enabled := true }, by decide +kernel⟩,
   ⟨6, wRef { enabled := true }, by decide +kernel⟩,
   ⟨6, 0, wRef { enabled := true }, { refAt (wRef { enabled := true }) (6) with winOfs := (0) }, by decide +kernel, by decide +kernel,
     by decide +kernel, rfl⟩,
   ⟨6, wRef { q := 1 }, by decide +kernel⟩,
   ⟨6, wRef { wtrFrom := some 0 },
     switchExpired (setRef (6) { refAt (wRef { wtrFrom := some 0 }) (6) with wtrDone := true } (wRef { wtrFrom := some 0 })),
     by decide +kernel, rfl⟩,
   ⟨{ State.reset with clk := { st := 2 } }, by decide +kernel⟩,
   ⟨{ State.reset with clk := { bleed := true } }, by decide +kernel⟩,
   ⟨{ State.reset with clk := { st := 1 } }, by decide +kernel⟩,
   ⟨State.reset, by decide +kernel⟩,
   ⟨0, { State.reset with clk := { rateReq := [{ tok := 7, rate := 3, src := 2, link := 0, n := 0 }] } },
     { tok := 7, rate := 3, src := 2, link := 0, n := 0 },
     firstIndex ({ tok := 7, rate := 3, src := 2, link := 0, n := 0 }) (0) ({ State.reset with clk := { rateReq := [{ tok := 7, rate := 3, src := 2, link := 0, n := 0 }] } }),
     takeIndex ({ tok := 7, rate := 3, src := 2, link := 0, n := 0 }) (firstIndex ({ tok := 7, rate := 3, src := 2, link := 0, n := 0 }) (0) ({ State.reset with clk := { rateReq := [{ tok := 7, rate := 3, src := 2, link := 0, n := 0 }] } })) ({ State.reset with clk := { rateReq := [{ tok := 7, rate := 3, src := 2, link := 0, n := 0 }] } }),
     by decide +kernel, by decide +kernel, rfl⟩⟩

/-! ## Well-formedness: an ill-formed operand for every check -/

theorem test_wf_descriptors :
    (Instr.hifNop { tok := 0, payload := zeros 47, blocks := [] }).wf = false ∧
    (Instr.userOpcode 0xB7 (wd [])).wf = false ∧ (Instr.userOpcode 0xC0 (wd [])).wf = false ∧
    (Instr.corrSetRead (wd []) [{ line := 0, symbols := [(72, 1)] }]).wf = false ∧
    (Instr.corrSetRead (wd []) [{ line := 0, symbols := [(71, 0)] }]).wf = false ∧
    (Instr.corrSetRead (wd []) [{ line := 0, symbols := [(71, 1)] }]).wf = true := by decide +kernel

theorem test_wf_host :
    (Instr.rwinRead 1 (.damaged [(0, 0)])).wf = false ∧ (Instr.lgrRecRead 0).wf = false ∧ (Instr.lgrRecRead 8).wf = true ∧
    (Instr.coldReset 4 true).wf = false ∧ (Instr.registerWrite (.core 16) 0 0 15).wf = false ∧
    (Instr.registerWrite .host 2 0 15).wf = false ∧ (Instr.registerWrite .host (2 ^ 32) 0 15).wf = false ∧
    (Instr.svcRead 0 0).wf = false ∧ (Instr.svcWrite 0 []).wf = false ∧
    (Instr.hostIfReset 0).wf = false ∧ (Instr.hostIfReset 5).wf = false ∧ (Instr.msixUnmask 64 0 0).wf = false ∧
    (Instr.msixUnmask 63 2 0).wf = false ∧
    (Instr.busMasterChange true { msixEn := true, funcMask := false, masked := [64], mps := 128, mrrs := 512, l1En := false }).wf = false ∧
    (Instr.busMasterChange true { msixEn := true, funcMask := false, masked := [], mps := 64, mrrs := 512, l1En := false }).wf = false ∧
    (Instr.busMasterChange true { msixEn := true, funcMask := false, masked := [], mps := 128, mrrs := 64, l1En := false }).wf = false ∧
    (Instr.doorbellPoll (some [0]) []).wf = false ∧ (Instr.doorbellPoll none [some [0]]).wf = false ∧
    (Instr.matrixTimeout { master := 8, target := 0, write := false, id := 0, addr := 0 }).wf = false ∧
    (Instr.matrixTimeout { master := 0, target := 7, write := false, id := 0, addr := 0 }).wf = false ∧
    (Instr.masterResetDrain 8 0 0).wf = false ∧ (Instr.shadowStoreWrite 0x02FFFFFF [0, 0]).wf = false := by decide +kernel

theorem test_wf_stewards :
    (Instr.segmentPush 16 1).wf = false ∧ (Instr.getWork 16 15).wf = false ∧ (Instr.affinityExpiry 8192).wf = false ∧
    (Instr.hbLost 65536).wf = false ∧ (Instr.irqClaim 15 0).wf = false ∧ (Instr.drcRefRead 8 15).wf = false ∧
    (Instr.ptpRptPop 4 15).wf = false ∧ (Instr.sqEnable 16 0).wf = false := by decide +kernel

theorem test_wf_engines :
    (Instr.trancheBoundary 0 [] { monSlips := [8] }).wf = false ∧
    (Instr.trancheBoundary 0 [] { refill := [{ line := 0, symbols := [(72, 1)] }] }).wf = false ∧
    (Instr.handoverPhaseStart [(0, 1024)]).wf = false ∧ (Instr.cond 1024).wf = false ∧ (Instr.geomItem (.pre 1024)).wf = false ∧
    (Instr.geomItem (.dir 0 5)).wf = false ∧ (Instr.geomItem (.mrg 1024)).wf = false ∧ (Instr.geomItem (.slt 0 2048)).wf = false ∧
    (Instr.furrowSlot 128 0 [] none none).wf = false ∧ (Instr.furrowSlot 0 8192 [] none none).wf = false ∧
    (Instr.bq (.out 1024)).wf = false ∧ (Instr.bq (.lane 64)).wf = false ∧
    (Instr.tailChain (.out 0) 0 { errs := [{ line := 0, symbols := [(0, 0)] }] }).wf = false ∧
    (Instr.tailReadDone (.output 1088 0 [])).wf = false ∧ (Instr.tailReadDone (.chain 1088)).wf = false ∧
    (Instr.corrStageDone 64).wf = false ∧ (Instr.cisternFetchDone 1024 0 0 []).wf = false := by decide +kernel

theorem test_wf_ports :
    (Instr.launch 16 0).wf = false ∧ (Instr.form 4 0).wf = false ∧ (Instr.tickReceive 0 256 0 0 0).wf = false ∧
    (Instr.tickReceive 0 0 (2 ^ 24) 0 0).wf = false ∧ (Instr.tickReceive 0 0 0 65536 0).wf = false ∧ (Instr.refEdge 1 0).wf = false ∧
    (Instr.refEdge 7 0).wf = false ∧ (Instr.qualTimer 0).wf = false ∧ (Instr.tidxSet (2 ^ 24)).wf = false ∧
    (Instr.ptpDelayResp 65536 0 0).wf = false ∧ (Instr.pathDown 128 true).wf = false ∧ (Instr.sapLost 16).wf = false ∧
    (Instr.monComplyTimer 8 0 true).wf = false ∧ (Instr.monComplyTimer 0 2 true).wf = false ∧
    (Instr.flashOpDone (some 1029) true).wf = false ∧ (Instr.dramTrainDone { fit := [], lanes := [] }).wf = false ∧
    (Instr.mr4Poll 8 0).wf = false ∧ (Instr.refreshAccrual 0 16 true []).wf = false ∧ (Instr.scrubRead 0 [(72, 1)]).wf = false ∧
    (Instr.thermSample 128).wf = false ∧ (Instr.trigPulseEnd 5).wf = false := by decide +kernel

/-! ## Results worked out by hand -/

/-- R6: round half up, so -2.5 rounds to -2. -/
theorem test_rounding : rnd 1 (-5) = -2 := by decide

/-- R7's example: 4,194,306 rounded by 2 bits is 1,048,577, which saturates to 524,287 at s20 and counts one clip. -/
theorem test_saturation_example : rnd 2 4194306 = 1048577 ∧ satS 20 (rnd 2 4194306) = 524287 := by decide

/-- R60: a value that is not a number converts to 0 and counts as one saturation. -/
theorem test_nan_saturates : fToS 32 27 0x7FC00000 = (0, 1) := by decide

/-- R118: 2^23 needs one shift to fit s24. -/
theorem test_block_move : (moveBlk [8388608]).1.e = 1 ∧ (moveBlk [8388608]).1.m = [4194304] := by decide

/-- FIPS 180-4: the digest of "abc" begins BA7816BF and ends F20015AD. -/
theorem test_sha256 : (sha256 [0x61, 0x62, 0x63]).take 4 = [0xBA, 0x78, 0x16, 0xBF] ∧ (sha256 [0x61, 0x62, 0x63]).drop 28 = [0xF2, 0x00, 0x15, 0xAD] := by
  decide +kernel

/-- The CRC-32C check value of the nine digits. -/
theorem test_crc32c : crc32c [0x31, 0x32, 0x33, 0x34, 0x35, 0x36, 0x37, 0x38, 0x39] = 0xE3069283 := by decide +kernel

/-- R473: words 0 and 3 of a STATUS frame right after power-up show no lock, no DRAM and no ledger. -/
theorem test_service_status : exec .svcStatus State.reset = .next { State.reset with
    rdata := [BitVec.ofNat 32 (gstat State.reset), getReg State.reset aTopEvt, BitVec.ofNat 32 (dpxStat State.reset), BitVec.ofNat 32 (lgrStat State.reset)] } := rfl

/-- R9: a read of the low byte alone returns that byte, and clears the counter. -/
theorem test_partial_read : ∃ t, exec (.irqStatRead 1) { State.reset with irq := { badEoi := 0x1234 } } = .next t ∧ t.rdata = [0x34] ∧ t.irq.badEoi = 0 :=
  ⟨_, rfl, by decide +kernel, by decide +kernel⟩

/-- R9: a write of three bytes is discarded. -/
theorem test_partial_write : exec (.registerWrite .host aHifCtl 1 7) State.reset = .next State.reset := rfl

/-- R377: an EOI from a core that does not have the source in service counts, and one of the core that has it ends the service. -/
theorem test_eoi : (∃ t, exec (.irqEoi 3 32) State.reset = .next t ∧ t.irq.badEoi = 1) ∧
    (∃ t, exec (.irqEoi 3 32) { State.reset with irq := { inSvc := [(32, 3)] } } = .next t ∧ t.irq.inSvc = [] ∧ t.irq.badEoi = 0) :=
  ⟨⟨_, rfl, by decide +kernel⟩, ⟨_, rfl, by decide +kernel, by decide +kernel⟩⟩

/-- R22: a keyed change for a tranche that is past completes LATE. -/
theorem test_keyed_late : ∃ t, exec (.objKernel (wd [(12, 1)])) { State.reset with clk := { tidxValid := true, tidx := 9 } } = .next t ∧
    t.outcomes.map OpOutcome.status = [stLate] ∧ t.keyed = [] := ⟨_, rfl, by decide +kernel, by decide +kernel⟩

/-- R54: an object range that passes 1,023 completes BAD_DESCRIPTOR. -/
theorem test_object_range : ∃ t, exec (.objMap (wd [(8, 1), (10, 255), (11, 3), (12, 2)])) State.reset = .next t ∧
    t.outcomes.map OpOutcome.status = [stBad] := ⟨_, rfl, by decide +kernel⟩

/-- R470: one reading of 125 degrees does not trip, and a second in a row does. -/
theorem test_trip : (tripJudge 125 State.reset).aon.trip = false ∧ (tripJudge 125 (tripJudge 125 State.reset)).aon.trip = true := by decide +kernel

/-- R395: a window write below the host's data is answered DECODE and changes nothing in DRAM. -/
theorem test_dram_protection : (targetWrite .host 0x10000000 1 15 [] { State.reset with drc := { ready := true } }).2.drc.mem = [] := by decide +kernel

/-- The table gives no row bits, so no word spells a command. -/
theorem test_no_words : decodeTableWord 32 0 = none ∧ State.reset.withFetchWord 32 0 = State.reset := ⟨rfl, rfl⟩

/-- A step on an empty queue of a powered part counts powered time (R459, R487). -/
theorem test_idle_step : ∃ t, step State.reset = .next t ∧ t.pending = [] := ⟨_, rfl, rfl⟩

end Slice0Tests
end

section
/-! Rules of register fields and of the service port's commands (R4, R9 to R11, R337, R473, R474). -/

namespace Sys2Proof.Machine

/-! ## Bits of a word's field (R4) -/

theorem bit_eq_testBit (w : Word) (i : Nat) : Word.bit w i = w.toNat.testBit i :=
  Nat.testBit_eq_decide_div_mod_eq.symm

/-- Right-aligned, a field's bits stand from bit 0 on, and nothing stands above them. -/
theorem testBit_bits (w : Word) (msb lsb j : Nat) :
    (Word.bits w msb lsb).testBit j = (decide (j < msb + 1 - lsb) && Word.bit w (j + lsb)) := by
  rw [Word.bits, Nat.testBit_mod_two_pow, Nat.testBit_div_two_pow, bit_eq_testBit]

/-- A number with the `k` bits from bit `l` on replaced is its upper bits, the new bits and its lower bits side by side. -/
theorem replace_bits_eq (x l k v : Nat) :
    x - x / 2 ^ l % 2 ^ k * 2 ^ l + v % 2 ^ k * 2 ^ l = 2 ^ l * (2 ^ k * (x / 2 ^ l / 2 ^ k) + v % 2 ^ k) + x % 2 ^ l := by
  have hsplit : x = 2 ^ l * (2 ^ k * (x / 2 ^ l / 2 ^ k)) + x / 2 ^ l % 2 ^ k * 2 ^ l + x % 2 ^ l := by
    calc x = 2 ^ l * (x / 2 ^ l) + x % 2 ^ l := (Nat.div_add_mod _ _).symm
      _ = 2 ^ l * (2 ^ k * (x / 2 ^ l / 2 ^ k) + x / 2 ^ l % 2 ^ k) + x % 2 ^ l := by rw [Nat.div_add_mod (x / 2 ^ l)]
      _ = _ := by ring
  rw [Nat.mul_add, Nat.mul_comm (2 ^ l) (v % 2 ^ k)]
  omega

theorem testBit_replace_bits (x l k v i : Nat) :
    (x - x / 2 ^ l % 2 ^ k * 2 ^ l + v % 2 ^ k * 2 ^ l).testBit i = if l ≤ i ∧ i < l + k then v.testBit (i - l) else x.testBit i := by
  rw [replace_bits_eq, Nat.testBit_two_pow_mul_add _ (Nat.mod_lt _ (Nat.two_pow_pos _)),
    Nat.testBit_two_pow_mul_add _ (Nat.mod_lt _ (Nat.two_pow_pos _))]
  obtain hlow | hin | habove : i < l ∨ (l ≤ i ∧ i < l + k) ∨ l + k ≤ i := by omega
  · rw [if_pos hlow, if_neg (by omega), Nat.testBit_mod_two_pow, decide_eq_true hlow, Bool.true_and]
  · have hk : i - l < k := by omega
    rw [if_neg (by omega), if_pos hk, if_pos hin, Nat.testBit_mod_two_pow, decide_eq_true hk, Bool.true_and]
  · rw [if_neg (by omega), if_neg (by omega), if_neg (by omega), Nat.testBit_div_two_pow, Nat.testBit_div_two_pow]
    congr 1
    omega

theorem bit_put (w : Word) {msb lsb : Nat} (v : Nat) (hle : lsb ≤ msb) {i : Nat} (hi : i < 32) :
    Word.bit (Word.put w msb lsb v) i = if lsb ≤ i ∧ i ≤ msb then v.testBit (i - lsb) else Word.bit w i := by
  have hfield : (lsb ≤ i ∧ i < lsb + (msb + 1 - lsb)) ↔ lsb ≤ i ∧ i ≤ msb := by omega
  rw [bit_eq_testBit, bit_eq_testBit, Word.put, BitVec.testBit_toNat, BitVec.getLsbD_ofNat, decide_eq_true hi, Bool.true_and,
    Word.bits, testBit_replace_bits, if_congr hfield rfl rfl]

/-- Bit `i` of the word is bit `i - lsb` of the right-aligned field that it lies in. -/
theorem testBit_bits_of_mem (w : Word) {msb lsb i : Nat} (hl : lsb ≤ i) (hm : i ≤ msb) :
    (Word.bits w msb lsb).testBit (i - lsb) = Word.bit w i := by
  have hk : i - lsb < msb + 1 - lsb := by omega
  rw [testBit_bits, Nat.sub_add_cancel hl, decide_eq_true hk, Bool.true_and]

theorem bits_lt (w : Word) {msb lsb : Nat} (hm : msb ≤ 31) : Word.bits w msb lsb < 2 ^ 32 :=
  (Nat.mod_lt _ (Nat.two_pow_pos _)).trans_le (Nat.pow_le_pow_right (by decide) (by omega))

/-! ## Writes to fields (R11) -/

/-- A write leaves the bits outside the field, whatever its access type. -/
theorem bit_writeField_outside (v old : Word) {f : Fld} (hf : f.lsb ≤ f.msb) {i : Nat} (hi : i < 32) (hout : i < f.lsb ∨ f.msb < i) :
    Word.bit (writeField v old f) i = Word.bit old i := by
  have hput : ∀ x, Word.bit (Word.put old f.msb f.lsb x) i = Word.bit old i := fun x => by
    rw [bit_put old x hf hi, if_neg (by omega)]
  cases hacc : f.acc with
  | rw | rws | w1c | w1s => simp only [writeField, hacc, hput]
  | ro | wo => simp only [writeField, hacc]
  | rwl =>
    simp only [writeField, hacc]
    split
    · exact hput _
    · rfl

/-- What a write leaves in a bit of the field, by the field's access type. -/
theorem bit_writeField_inside (v old : Word) {f : Fld} (hf : f.lsb ≤ f.msb) (hm : f.msb ≤ 31) {i : Nat} (hl : f.lsb ≤ i) (hu : i ≤ f.msb) :
    Word.bit (writeField v old f) i = (match f.acc with
      | .rw | .rws => Word.bit v i
      | .ro | .wo => Word.bit old i
      | .w1c => Word.bit old i && !Word.bit v i
      | .w1s => Word.bit old i || Word.bit v i
      | .rwl => if Word.bits old f.msb f.lsb = 0 then Word.bit v i else Word.bit old i) := by
  have hi : i < 32 := by omega
  have hput : ∀ x, Word.bit (Word.put old f.msb f.lsb x) i = x.testBit (i - f.lsb) := fun x => by
    rw [bit_put old x hf hi, if_pos ⟨hl, hu⟩]
  have hv := testBit_bits_of_mem v hl hu
  have ho := testBit_bits_of_mem old hl hu
  cases hacc : f.acc with
  | rw | rws => simp only [writeField, hacc, hput, hv]
  | ro | wo => simp only [writeField, hacc]
  | w1c =>
    have hneg : (2 ^ 32 - 1 - Word.bits v f.msb f.lsb).testBit (i - f.lsb) = !Word.bit v i := by
      rw [Nat.sub_right_comm, Nat.sub_sub, Nat.testBit_two_pow_sub_succ (bits_lt v hm), hv, decide_eq_true (by omega), Bool.true_and]
    simp only [writeField, hacc, hput, Nat.testBit_and, ho, hneg]
  | w1s => simp only [writeField, hacc, hput, Nat.testBit_or, ho, hv]
  | rwl =>
    simp only [writeField, hacc]
    split
    · rw [hput, hv]
    · rfl

/-- Settles O18: inside the field by its access type, outside it the old bit. -/
theorem fieldWritesFollowTheirAccessType : Obligations.FieldWritesFollowTheirAccessType :=
  fun v old _ hf hm _ hi => ⟨bit_writeField_outside v old hf hi, bit_writeField_inside v old hf hm⟩

/-! ## Illegal writes (R10) -/

theorem plainWrite_eq_self_of_illegal (a : Nat) {fs : List Fld} {v : Word} (s : State) (h : writeLegal fs v = false) :
    plainWrite a fs v s = s := by
  simp [plainWrite, h]

theorem writeLegal_eq_false_of_reserved_encoding {fs : List Fld} {v : Word} {f : Fld} (hf : f ∈ fs) (hc : f.checked = true)
    (hr : Word.bits v f.msb f.lsb < f.lo ∨ f.hi < Word.bits v f.msb f.lsb) : writeLegal fs v = false := by
  refine Bool.eq_false_iff.mpr fun hlegal => ?_
  simp only [writeLegal, Bool.and_eq_true, List.all_eq_true] at hlegal
  have hin := hlegal.2 f hf
  simp only [hc, Bool.not_true, Bool.false_or, Bool.and_eq_true, decide_eq_true_eq] at hin
  omega

/-- The fields of a register as the manual lays them out: each lies in the word, and no two share a bit. -/
def FieldsApart (fs : List Fld) : Prop :=
  (∀ f ∈ fs, f.lsb ≤ f.msb ∧ f.msb ≤ 31) ∧ fs.Pairwise (fun f g => f.msb < g.lsb ∨ g.msb < f.lsb)

/-- The mask that one field adds to `coverMask`. -/
def fieldMask (f : Fld) : Nat := (2 ^ (f.msb + 1 - f.lsb) - 1) * 2 ^ f.lsb

theorem coverMask_eq_sum (fs : List Fld) : coverMask fs = (fs.map fieldMask).sum := by
  rw [coverMask, List.sum_eq_foldl, List.foldl_map]
  rfl

theorem coverMask_cons (f : Fld) (fs : List Fld) : coverMask (f :: fs) = coverMask fs + fieldMask f := by
  rw [coverMask_eq_sum, coverMask_eq_sum, List.map_cons, List.sum_cons, Nat.add_comm]

/-- A field's mask, added where the field's bits are free, sets these bits. -/
theorem testBit_add_fieldMask {x : Nat} {f : Fld} (hf : f.lsb ≤ f.msb) (hfree : ∀ i, f.lsb ≤ i → i ≤ f.msb → x.testBit i = false)
    (i : Nat) :
    (x + fieldMask f).testBit i = (decide (f.lsb ≤ i ∧ i ≤ f.msb) || x.testBit i) := by
  have hzero : x / 2 ^ f.lsb % 2 ^ (f.msb + 1 - f.lsb) = 0 := by
    refine Nat.eq_of_testBit_eq fun j => ?_
    rw [Nat.testBit_mod_two_pow, Nat.testBit_div_two_pow, Nat.zero_testBit, Bool.and_eq_false_imp, decide_eq_true_eq]
    exact fun hj => hfree _ (by omega) (by omega)
  have hset := testBit_replace_bits x f.lsb (f.msb + 1 - f.lsb) (2 ^ (f.msb + 1 - f.lsb) - 1) i
  rw [hzero, Nat.zero_mul, Nat.sub_zero, Nat.mod_eq_of_lt (Nat.sub_lt (Nat.two_pow_pos _) Nat.one_pos), Nat.testBit_two_pow_sub_one] at hset
  rw [fieldMask, hset]
  by_cases hin : f.lsb ≤ i ∧ i ≤ f.msb
  · rw [if_pos (by omega), decide_eq_true (by omega), decide_eq_true hin, Bool.true_or]
  · rw [if_neg (by omega), decide_eq_false hin, Bool.false_or]

/-- The masks of fields that share no bit add up without a carry. -/
theorem testBit_coverMask {fs : List Fld} (h : FieldsApart fs) (i : Nat) :
    (coverMask fs).testBit i = fs.any (fun f => decide (f.lsb ≤ i ∧ i ≤ f.msb)) := by
  induction fs generalizing i with
  | nil => exact Nat.zero_testBit i
  | cons f fs ih =>
    obtain ⟨hword, hpair⟩ := h
    obtain ⟨hapart, hpair⟩ := List.pairwise_cons.mp hpair
    have ih := ih ⟨fun g hg => hword g (.tail _ hg), hpair⟩
    have hfree : ∀ j, f.lsb ≤ j → j ≤ f.msb → (coverMask fs).testBit j = false := fun j hl hm => by
      rw [ih, List.any_eq_false]
      intro g hg
      have := hapart g hg
      simp only [decide_eq_true_eq]
      omega
    rw [coverMask_cons, testBit_add_fieldMask (hword f (.head _)).1 hfree, ih, List.any_cons]

theorem coverMask_lt {fs : List Fld} (h : FieldsApart fs) : coverMask fs < 2 ^ 32 := by
  refine Nat.lt_pow_two_of_testBit _ fun i hi => ?_
  rw [testBit_coverMask h, List.any_eq_false]
  intro f hf
  have := (h.1 f hf).2
  simp only [decide_eq_true_eq]
  omega

theorem writeLegal_eq_false_of_reserved_bit {fs : List Fld} (h : FieldsApart fs) {v : Word} {i : Nat} (hi : i < 32)
    (hv : Word.bit v i = true) (hres : ∀ f ∈ fs, i < f.lsb ∨ f.msb < i) : writeLegal fs v = false := by
  have hout : (coverMask fs).testBit i = false := by
    rw [testBit_coverMask h, List.any_eq_false]
    intro f hf
    have := hres f hf
    simp only [decide_eq_true_eq]
    omega
  have hset : (v.toNat &&& (2 ^ 32 - 1 - coverMask fs)).testBit i = true := by
    rw [Nat.testBit_and, Nat.sub_right_comm, Nat.sub_sub, Nat.testBit_two_pow_sub_succ (coverMask_lt h), ← bit_eq_testBit, hv, hout,
      decide_eq_true hi]
    rfl
  have hne : v.toNat &&& (2 ^ 32 - 1 - coverMask fs) ≠ 0 := fun h0 => by
    rw [h0, Nat.zero_testBit] at hset
    exact Bool.false_ne_true hset
  rw [writeLegal, decide_eq_false hne, Bool.false_and]

/-- The fields that a table gives, where it gives any, are apart. -/
def ListedApart (o : Option (List Fld)) : Prop := ∀ fs, o = some fs → FieldsApart fs

@[simp] theorem listedApart_none : ListedApart none := nofun

@[simp] theorem listedApart_some (fs : List Fld) : ListedApart (some fs) ↔ FieldsApart fs :=
  ⟨fun h => h fs rfl, fun h _ e => Option.some.inj e ▸ h⟩

theorem ListedApart.ite {c : Prop} [Decidable c] {x y : Option (List Fld)} (hx : ListedApart x) (hy : ListedApart y) :
    ListedApart (if c then x else y) := by
  split <;> assumption

/-! The field tables of the blocks (R510). -/

theorem topFields_apart (a : Nat) : ListedApart (topFields a) := by
  unfold topFields
  repeat' refine ListedApart.ite ?_ ?_
  all_goals simp [FieldsApart, fld, fldIn, whole]

theorem hifFields_apart (a : Nat) : ListedApart (hifFields a) := by
  unfold hifFields
  repeat' refine ListedApart.ite ?_ ?_
  all_goals simp [FieldsApart, fld, fldIn, whole]

theorem irqFields_apart (a : Nat) : ListedApart (irqFields a) := by
  unfold irqFields
  repeat' first | refine ListedApart.ite ?_ ?_ | split
  all_goals simp [FieldsApart, fld, fldIn, whole]

theorem stwFields_apart (a : Nat) : ListedApart (stwFields a) := by
  unfold stwFields
  repeat' refine ListedApart.ite ?_ ?_
  all_goals simp [FieldsApart, fld, fldIn, whole]

theorem mediaFields_apart (a : Nat) : ListedApart (mediaFields a) := by
  unfold mediaFields
  repeat' refine ListedApart.ite ?_ ?_
  all_goals simp [FieldsApart, fld, fldIn, whole]

theorem renderFields_apart (a : Nat) : ListedApart (renderFields a) := by
  unfold renderFields
  repeat' refine ListedApart.ite ?_ ?_
  all_goals simp [FieldsApart, fld, whole]

theorem miscFields_apart (a : Nat) : ListedApart (miscFields a) := by
  unfold miscFields
  repeat' refine ListedApart.ite ?_ ?_
  all_goals simp [FieldsApart, fld, fldIn, whole]

/-- Every register of the part has its fields apart. -/
theorem regFields_apart (a : Nat) : ListedApart (regFields a) := by
  unfold regFields
  split
  all_goals simp only [topFields_apart, hifFields_apart, irqFields_apart, stwFields_apart, mediaFields_apart, renderFields_apart,
    miscFields_apart]

/-- R10 on the part's own registers: a write with a bit outside the fields of the register is discarded as a whole. -/
theorem plainWrite_eq_self_of_reserved_bit {a : Nat} {fs : List Fld} (hfs : regFields a = some fs) {v : Word} {i : Nat} (hi : i < 32)
    (hv : Word.bit v i = true) (hres : ∀ f ∈ fs, i < f.lsb ∨ f.msb < i) (s : State) : plainWrite a fs v s = s :=
  plainWrite_eq_self_of_illegal a s (writeLegal_eq_false_of_reserved_bit (regFields_apart a fs hfs) hi hv hres)

/-- R10: a write with a reserved encoding in a field is discarded as a whole. -/
theorem plainWrite_eq_self_of_reserved_encoding {fs : List Fld} {v : Word} {f : Fld} (hf : f ∈ fs) (hc : f.checked = true)
    (hr : Word.bits v f.msb f.lsb < f.lo ∨ f.hi < Word.bits v f.msb f.lsb) (a : Nat) (s : State) : plainWrite a fs v s = s :=
  plainWrite_eq_self_of_illegal a s (writeLegal_eq_false_of_reserved_encoding hf hc hr)

/-- Refutes O19: its first clause lets two fields of the list share a bit. `coverMask` adds the fields' masks, so bit 0 listed twice carries
into the reserved bit 1, and a write of 2 to `STW_HB_MASK`, which holds 255 after reset, is taken for legal and clears bit 0. No register
of the part has such fields (`regFields_apart`), and for those the clause holds (`plainWrite_eq_self_of_reserved_bit`). -/
theorem not_illegalWritesAreDiscarded : ¬ Obligations.IllegalWritesAreDiscarded := by
  rintro ⟨hreserved, -⟩
  have hkept : plainWrite aHbMask [fld 0 0 .rw 0, fld 0 0 .rw 0] 2 State.reset = State.reset :=
    hreserved _ _ _ _ 1 (by decide) (by decide) (by decide) (by decide)
  have hchanged : getReg (plainWrite aHbMask [fld 0 0 .rw 0, fld 0 0 .rw 0] 2 State.reset) aHbMask ≠ getReg State.reset aHbMask := by
    decide
  exact hchanged (congrArg (getReg · aHbMask) hkept)

/-! ## Writes to the register blocks (R9, R10, R385) -/

section
variable {win : Bool → Word → State → State} {m : Master} {a : Nat} {v : Word} {be : BitVec 4} {s : State}

/-- A write to the register blocks that the matrix neither holds back nor answers with an error reaches its block. -/
theorem regWrite_eq_blockWrite (ha : a < 0x01400000) (hpass : pastMatrix m a = true ∨ holdsBack (writeTxn m a) s.mtx.held s = false)
    (hden : denied m true a s = false) (hclk : clockStopped a s = false) :
    regWrite m a v be s = blockWrite (fun svc ctl t => winGo svc ctl .ok t) m a v be s := by
  have hlocal : coreLocal a = false := by
    rw [coreLocal, decide_eq_false (by omega), Bool.false_and]
  have hheld : (!pastMatrix m a && holdsBack (writeTxn m a) s.mtx.held s) = false := by
    rcases hpass with h | h <;> simp [h]
  have htarget : targetOf a = 0 := if_pos ha
  simp only [regWrite, regWriteWith, hlocal, hheld, writeNow, hden, hclk, htarget, Bool.false_eq_true, if_false, if_true]

theorem blockWrite_eq_self_of_partial (hbe : be ≠ 15) : blockWrite win m a v be s = s := if_pos hbe

theorem blockWrite_eq_plainWrite {fs : List Fld} (hfs : regFields a = some fs) (hhost : a ≠ aRwinCtl) (hsvc : a ≠ aSvcRwinCtl)
    (hact : actWrite m a v s = none) (hirq : irqWrite m a v s = none) (hstw : stwWrite m a v s = none) :
    blockWrite win m a v 15 s = plainWrite a fs v s := by
  rw [blockWrite, if_neg (by decide)]
  simp only [hfs, hhost, hsvc, hact, hirq, hstw, if_false]

end

/-! ## The service port and the ledger's read pointers (R337, R473, R474) -/

theorem length_svcWords (n a : Nat) (s : State) : (svcWords n a s).1.length = n := by
  induction n generalizing a s with
  | zero => rfl
  | succ n ih => rw [svcWords, List.length_cons, ih]

theorem svcWords_succ_of_not_aonSet {a : Nat} (h : aonSet a = false) (n : Nat) (s : State) :
    svcWords (n + 1) a s = (0 :: (svcWords n (a + 4) s).1, (svcWords n (a + 4) s).2) := by
  rw [svcWords, h]
  rfl

theorem narrow_recAdvance_of_fixed {rptr : Nat} {s : State} (h : Word.bit (getReg s rptr) 31 = false) (be : BitVec 4) :
    narrow be (recAdvance rptr s) = { s with rdata := [recWord s rptr 7 &&& laneMask be] } := by
  simp only [recAdvance, h, Bool.false_eq_true, if_false, narrow, List.map_cons, List.map_nil]

theorem narrow_recAdvance_of_autoinc {rptr : Nat} {s : State} (h : Word.bit (getReg s rptr) 31 = true) (be : BitVec 4) :
    narrow be (recAdvance rptr s) = setField { s with rdata := [recWord s rptr 7 &&& laneMask be] } rptr 16 0
      ((Word.bits (getReg s rptr) 16 0 + 1) % 131072) := by
  simp only [recAdvance, h, if_true, narrow, setField_rdata, List.map_cons, List.map_nil]
  rfl

/-- Settles O49, clause by clause from the rules above; a frame's words and stores are those of `svcWords` and `svcStore`. -/
theorem serviceAndRegisterCommandsComplete : Obligations.ServiceAndRegisterCommandsComplete := by
  refine ⟨?status, ?read, ?outside, ?write, ?frameEnd, ?plain, ?part, ?lgrFixed, ?lgrAutoinc, ?svcFixed, ?svcAutoinc⟩
  case status => exact fun s => ⟨_, rfl, rfl⟩
  case read =>
    rintro a n s _ rfl
    exact ⟨rfl, length_svcWords n _ s⟩
  case outside => exact fun a n s h => congrArg Prod.fst (svcWords_succ_of_not_aonSet h n s)
  case write => exact fun a b s => rfl
  case frameEnd => exact fun s => rfl
  case plain =>
    intro m a v s fs ha hfs hpass hden hclk hhost hsvc hact hirq hstw
    exact congrArg Host.Outcome.next
      ((regWrite_eq_blockWrite ha hpass hden hclk).trans (blockWrite_eq_plainWrite hfs hhost hsvc hact hirq hstw))
  case part =>
    intro m a v be s hbe ha hpass hden hclk
    exact congrArg Host.Outcome.next ((regWrite_eq_blockWrite ha hpass hden hclk).trans (blockWrite_eq_self_of_partial hbe))
  case lgrFixed => exact fun be s h => congrArg Host.Outcome.next (narrow_recAdvance_of_fixed h be)
  case lgrAutoinc => exact fun be s h => congrArg Host.Outcome.next (narrow_recAdvance_of_autoinc h be)
  case svcFixed => exact fun be s h => congrArg Host.Outcome.next (narrow_recAdvance_of_fixed h be)
  case svcAutoinc => exact fun be s h => congrArg Host.Outcome.next (narrow_recAdvance_of_autoinc h be)

end Sys2Proof.Machine
end

section
/-! Keyed descriptors past their cut-off (R22, R44, R52, R320). -/

namespace Sys2Proof.Machine

/-- R320: a completion without RESULT or DETAIL appends one report of its status. -/
theorem finish_reports (d : Desc) (status : Nat) (s : State) : Reports d status 0 0 s (finish d status s) := rfl

/-- Byte 8 without NOW and without another flag: the tranche is the one of bytes 0 to 7. -/
theorem keyN_of_flags_zero {d : Desc} (h : pl d 8 1 = 0) (least : Nat) : keyN d least = pl d 0 8 := by
  simp [keyN, plBit, h]

theorem pastCutoff_keyN {d : Desc} {s : State} (hflags : pl d 8 1 = 0) (hlate : pl d 0 8 < mTranche s) :
    pastCutoff s (keyN d (mTranche s)) = true := by
  rw [keyN_of_flags_zero hflags]
  exact decide_eq_true hlate

theorem armCutoff_late {d : Desc} {a : KeyedAct} {s : State} (h : pastCutoff s (keyN d (mTranche s)) = true) :
    armCutoff d a s = finish d stLate s := if_pos h

section
variable {d : Desc} {s : State} (hflags : pl d 8 1 = 0) (hcount : 1 ≤ pl d 12 2) (hrange : pl d 10 2 + pl d 12 2 ≤ 1024)
  (hlate : pl d 0 8 < mTranche s)
include hflags hcount hrange hlate

theorem exec_objCtl_late (hun : Unused d [(0, 9), (10, 8)]) (hen : pl d 14 1 ≤ 1) (hcoast : pl d 15 1 ≤ 1) (hlim : 1 ≤ pl d 16 1)
    (hlim' : pl d 16 1 ≤ 64) (hclear : pl d 17 1 ≤ 1) : exec (.objCtl d) s = .next (finish d stLate s) := by
  have hpast := pastCutoff_keyN hflags hlate
  have hfirst : pl d 10 2 ≤ 1023 := by omega
  refine congrArg Host.Outcome.next ((checked_legal hun ?legal).trans ?late)
  case legal => simp [inRange, hflags, hfirst, hcount, hrange, hen, hcoast, hlim, hlim', hclear]
  case late => simp only [hpast, Bool.not_true, Bool.false_and, Bool.false_eq_true, if_false, armCutoff_late]

theorem exec_objKernel_late (hun : Unused d [(0, 9), (10, 5)]) (hcode : pl d 14 1 ≤ 3) :
    exec (.objKernel d) s = .next (finish d stLate s) := by
  have hpast := pastCutoff_keyN hflags hlate
  have hfirst : pl d 10 2 ≤ 1023 := by omega
  refine congrArg Host.Outcome.next ((checked_legal hun ?legal).trans (armCutoff_late hpast))
  simp [inRange, hflags, hfirst, hcount, hrange, hcode]

end

/-- Settles O23: past the cut-off the checks of the payload pass and `armCutoff` completes LATE, which only reports. -/
theorem lateKeyedDescriptorsArmNothing : Obligations.LateKeyedDescriptorsArmNothing := by
  refine ⟨?ctl, ?kernel, ?late⟩
  case ctl =>
    intro d s hun hflags hcount hrange hen hcoast hlim hlim' hclear hlate
    exact exec_objCtl_late hflags hcount hrange hlate hun hen hcoast hlim hlim' hclear
  case kernel =>
    intro d s hun hflags hcount hrange hcode hlate
    exact exec_objKernel_late hflags hcount hrange hlate hun hcode
  case late =>
    rintro d s _ rfl
    exact ⟨finish_reports d stLate s, finish_only d stLate s⟩

/-! ## Tranche boundaries and the phases of a period (R17, R45, R95, R174, R244, R470) -/

/-- The tranche index counts and no thermal trip stops the core clock: there are boundaries (R244, R470). -/
theorem exec_trancheBoundary_of_running {x : PeriodObs} {s : State} (hidx : (observe x s).clk.tidxValid = true)
    (htrip : (observe x s).aon.trip = false) (c : Nat) (v : List GuardViol) :
    exec (.trancheBoundary c v x) s = .next (boundary c v (observe x s)) := by
  have hruns : ((observe x s).clk.tidxValid && !(observe x s).aon.trip) = true := by rw [hidx, htrip]; rfl
  exact congrArg Host.Outcome.next (if_pos hruns)

theorem exec_trancheBoundary_of_halted {x : PeriodObs} {s : State}
    (h : (observe x s).clk.tidxValid = false ∨ (observe x s).aon.trip = true) (c : Nat) (v : List GuardViol) :
    exec (.trancheBoundary c v x) s = .next (observe x s) := by
  have hhalts : ¬ ((observe x s).clk.tidxValid && !(observe x s).aon.trip) = true := by
    rcases h with h | h <;> simp [h]
  exact congrArg Host.Outcome.next (if_neg hhalts)

theorem cutoffOnce_of_due {s : State} (hidx : s.clk.tidxValid = true) (hdue : s.clk.cutoffDone = false) :
    cutoffOnce s = cutoff (s.clk.tidx + 1) s := by
  simp [cutoffOnce, hidx, hdue]

theorem exec_segmentCutoff_of_due {s : State} (htrip : s.aon.trip = false) (hidx : s.clk.tidxValid = true)
    (hdue : s.clk.cutoffDone = false) : exec .segmentCutoff s = .next (cutoff (s.clk.tidx + 1) s) := by
  have hruns : ¬ s.aon.trip = true := Bool.eq_false_iff.mp htrip
  exact congrArg Host.Outcome.next ((if_neg hruns).trans (cutoffOnce_of_due hidx hdue))

theorem exec_furrowPhaseStart_of_image {s : State} (hpos : 0 < s.clk.tidx) (himg : (stageImg s (s.clk.tidx - 1)).isSome = true)
    (ue : List Nat) :
    exec (.furrowPhaseStart ue) s = .next (eachObj (verifyObj ((s.clk.tidx : Int) - 1023)) allObjects (markWins ue s)) := by
  have hworks : ¬ (s.clk.tidx = 0 ∨ (stageImg s (s.clk.tidx - 1)).isNone = true) := by
    rw [not_or, Bool.not_eq_true, Option.isNone_eq_false_iff]
    exact ⟨hpos.ne', himg⟩
  exact congrArg Host.Outcome.next (if_neg hworks)

theorem exec_handoverPhaseStart_of_image {s : State} {i : Img} (hpos : 0 < s.clk.tidx)
    (himg : stageImg s (s.clk.tidx - 1) = some i) (hmerge : s.pair.mergeDone = false) (bad : List (Nat × Nat)) :
    exec (.handoverPhaseStart bad) s = .next (handoverOp (s.clk.tidx - 1) bad s) := by
  refine congrArg Host.Outcome.next ((if_neg hpos.ne').trans ?_)
  simp only [himg, hmerge, Bool.false_eq_true, if_false]

/-- Settles O54, one lemma for each command and outcome. -/
theorem trancheCommandsComplete : Obligations.TrancheCommandsComplete := by
  refine ⟨?running, ?halted, ?cutoff, ?furrow, ?handover⟩
  case running =>
    rintro c v x s _ rfl hidx htrip
    exact exec_trancheBoundary_of_running hidx htrip c v
  case halted =>
    rintro c v x s _ rfl h
    exact exec_trancheBoundary_of_halted h c v
  case cutoff => exact fun s htrip hidx hdue => exec_segmentCutoff_of_due htrip hidx hdue
  case furrow => exact fun ue s hpos himg => exec_furrowPhaseStart_of_image hpos himg ue
  case handover => exact fun bad s i hpos himg hmerge => exec_handoverPhaseStart_of_image hpos himg hmerge bad

end Sys2Proof.Machine
end

section
/-! The payload checks that the descriptors share, and the descriptors of objects, segments and sinc banks (R22, R32 to R35, R43, R44, R51 to
R55, R115, R121 to R126, R316, R320). -/

namespace Sys2Proof.Machine

/-! ## Payload checks (R52, R316, R320) -/

/-- A byte of the payload, with its offset, breaks R52: it lies outside the ranges in use and is not zero. -/
def breaksReserved (used : List (Nat × Nat)) (e : Byte × Nat) : Bool :=
  decide (e.1 ≠ 0) && !used.any (fun u => decide (u.1 ≤ e.2) && decide (e.2 < u.1 + u.2))

theorem firstReserved_eq_find (used : List (Nat × Nat)) (bs : List Byte) :
    firstReserved used bs = (bs.zipIdx.find? (breaksReserved used)).map Prod.snd := rfl

theorem breaksReserved_of_outside {used : List (Nat × Nat)} {e : Byte × Nat} (hne : e.1 ≠ 0)
    (hout : ∀ u ∈ used, e.2 < u.1 ∨ u.1 + u.2 ≤ e.2) : breaksReserved used e = true := by
  simp only [breaksReserved, Bool.and_eq_true, decide_eq_true_eq, Bool.not_eq_true', List.any_eq_false]
  exact ⟨hne, fun u hu => by have := hout u hu; omega⟩

/-- Where byte `i` is reserved and not zero, the first such byte stands at `i` or before it. -/
theorem firstReserved_le {used : List (Nat × Nat)} {bs : List Byte} {i : Nat} (hi : i < bs.length) (hne : bs.getD i 0 ≠ 0)
    (hout : ∀ u ∈ used, i < u.1 ∨ u.1 + u.2 ≤ i) : ∃ j ≤ i, firstReserved used bs = some j := by
  have hilen : i < bs.zipIdx.length := by rwa [List.length_zipIdx]
  have hbreaks : breaksReserved used bs.zipIdx[i] = true := by
    rw [List.getD_eq_getElem _ _ hi] at hne
    exact breaksReserved_of_outside (by simpa using hne) (by simpa using hout)
  obtain ⟨e, he⟩ := Option.isSome_iff_exists.mp (List.find?_isSome.mpr ⟨_, List.getElem_mem hilen, hbreaks⟩)
  obtain ⟨-, j, hj, rfl, hfirst⟩ := List.find?_eq_some_iff_getElem.mp he
  refine ⟨j, Nat.not_lt.mp fun hlt => ?_, by simp [firstReserved_eq_find, he]⟩
  have hclean := hfirst i hlt
  rw [hbreaks] at hclean
  exact Bool.false_ne_true hclean

theorem checked_refuses_reserved {d : Desc} {used : List (Nat × Nat)} {i : Nat} (hi : i < d.payload.length) (hne : d.payload.getD i 0 ≠ 0)
    (hout : ∀ u ∈ used, i < u.1 ∨ u.1 + u.2 ≤ i) (limits : List (Nat × Bool)) (s k : State) :
    ∃ off ≤ i, checked d used limits s k = badField d off s := by
  obtain ⟨j, hji, hj⟩ := firstReserved_le hi hne hout
  have hmem : j ∈ ((limits.filter (fun l => !l.2)).map Prod.fst) ++ (firstReserved used d.payload).toList := by simp [hj]
  obtain ⟨off, -, hoff, hle⟩ := minOf_some _ (List.ne_nil_of_mem hmem)
  exact ⟨off, (hle j hmem).trans hji, by simp [checked, firstBad, hoff]⟩

/-- A descriptor is either refused at some field, or runs. -/
theorem checked_eq_or (d : Desc) (used : List (Nat × Nat)) (limits : List (Nat × Bool)) (s k : State) :
    (∃ off, checked d used limits s k = badField d off s) ∨ checked d used limits s k = k := by
  unfold checked
  split
  · exact .inl ⟨_, rfl⟩
  · exact .inr rfl

/-- The meaning of a descriptor checks that the payload bytes outside `used` are zero before it does anything. -/
def ChecksUnused (c : Desc → Instr) (used : List (Nat × Nat)) : Prop :=
  ∀ d s, ∃ limits k, exec (c d) s = .next (checked d used limits s k)

/-- Every meaning of the list is by definition `checked` with the ranges of its layout. -/
theorem descriptorLayouts_checkUnused (errs : List LineErr) : ∀ l ∈ descriptorLayouts errs, ChecksUnused l.1 l.2 := by
  simp only [descriptorLayouts, List.forall_mem_cons, List.not_mem_nil, false_implies, implies_true, and_true]
  and_intros <;> exact fun _ _ => ⟨_, _, rfl⟩

theorem ChecksUnused.refuses {c : Desc → Instr} {used : List (Nat × Nat)} (h : ChecksUnused c used) {d : Desc} {i : Nat}
    (hi : i < d.payload.length) (hne : d.payload.getD i 0 ≠ 0) (hout : ∀ u ∈ used, i < u.1 ∨ u.1 + u.2 ≤ i) (s : State) :
    ∃ off ≤ i, exec (c d) s = .next (badField d off s) := by
  obtain ⟨limits, k, hexec⟩ := h d s
  obtain ⟨off, hle, hoff⟩ := checked_refuses_reserved hi hne hout limits s k
  exact ⟨off, hle, hexec.trans (congrArg Host.Outcome.next hoff)⟩

/-- Settles O24: every layout is checked before the descriptor runs, and the check reports the lowest offset among the bad fields and the first
reserved byte, which is no higher than `i` (log entries 13 and 14). -/
theorem unusedPayloadBytesMustBeZero : Obligations.UnusedPayloadBytesMustBeZero :=
  fun errs l hl _ s _ hi hne hout => (descriptorLayouts_checkUnused errs l hl).refuses hi hne hout s

/-- A descriptor with a field out of its limit is refused. -/
theorem exec_refuses {c : Instr} {d : Desc} {used : List (Nat × Nat)} {limits : List (Nat × Bool)} {s k : State} {off : Nat}
    (hexec : exec c s = .next (checked d used limits s k)) (hlimit : (off, false) ∈ limits) : ∃ x, exec c s = .next (badField d x s) := by
  obtain ⟨x, -, hx⟩ := checked_refuses hlimit
  exact ⟨x, hexec.trans (congrArg Host.Outcome.next hx)⟩

/-- A legal descriptor completes as its meaning says once the payload is checked. -/
theorem Completes.of_checked {c : Instr} {d : Desc} {used : List (Nat × Nat)} {limits : List (Nat × Bool)} {s k : State} {P : State → Prop}
    (hexec : exec c s = .next (checked d used limits s k)) (hun : Unused d used) (hlimits : limits.all (fun l => l.2) = true) (hk : P k) :
    Completes c s P :=
  ⟨k, hexec.trans (congrArg Host.Outcome.next (checked_legal hun hlimits)), hk⟩

theorem inRange_eq_true {first count limit : Nat} (hcount : 1 ≤ count) (hrange : first + count ≤ limit) : inRange first count limit = true := by
  simp [inRange, hcount, hrange]

theorem inRange_eq_false {first count limit : Nat} (hrange : limit < first + count) : inRange first count limit = false := by
  simp [inRange, Nat.not_le.mpr hrange]

/-- Bit 0 of a byte that holds 0 or 1. -/
theorem plBit_zero_eq {d : Desc} {off : Nat} (h : pl d off 1 ≤ 1) : plBit d off 0 = decide (pl d off 1 = 1) := by
  rw [plBit, pow_zero, Nat.div_one, Nat.mod_eq_of_lt (by omega)]

/-! ## Bad object ranges and blocks (R54, R338) -/

theorem badField_reports (d : Desc) (off : Nat) (s : State) : Reports d stBad 0 off s (badField d off s) := rfl

theorem badBlock_reports (d : Desc) (off : Nat) (s : State) : Reports d stBad 0 off s (badBlock d off s) := rfl

theorem badBlock_regs (d : Desc) (off : Nat) (s : State) : (badBlock d off s).regs = (evRaise aHifEvt 1 s).regs := rfl

theorem exec_objMap_refuses_range {d : Desc} (h : 1024 < pl d 10 2 + pl d 12 2) (s : State) :
    ∃ off, exec (.objMap d) s = .next (badField d off s) :=
  exec_refuses (off := 12) rfl (by simp [inRange_eq_false h])

theorem exec_objCond_refuses_object {d : Desc} (h : 1023 < pl d 10 2) (s : State) : ∃ off, exec (.objCond d) s = .next (badField d off s) :=
  exec_refuses (off := 10) rfl (by simp [Nat.not_le.mpr h])

/-- The meaning of an OBJ_COND that replaces the biquads and whose host block cannot be read. -/
theorem exec_objCond_unread {d : Desc} (hbq : plBit d 8 2 = true) (hblock : hostBlock d 0 80 = none) (s : State) :
    ∃ limits, exec (.objCond d) s = .next (checked d [(0, 9), (10, 14)] limits s (badBlock d 16 s)) := by
  refine ⟨_, congrArg (fun k => Host.Outcome.next (checked d _ _ s k)) ?_⟩
  simp only [hbq, hblock, if_true]

/-- Settles O25: the range is a limit of the payload check, and an unread block completes `badBlock` where no field is bad. -/
theorem badObjectRangesChangeNothing : Obligations.BadObjectRangesChangeNothing := by
  refine ⟨?map, ?cond, ?block, ?badField⟩
  case map => exact fun d s h => exec_objMap_refuses_range h s
  case cond => exact fun d s h => exec_objCond_refuses_object h s
  case block =>
    intro d s hbq hblock
    obtain ⟨limits, hexec⟩ := exec_objCond_unread hbq hblock s
    obtain ⟨off, hbad⟩ | hrun := checked_eq_or d [(0, 9), (10, 14)] limits s (badBlock d 16 s)
    · exact ⟨off, _, hexec.trans (congrArg Host.Outcome.next hbad), badField_reports d off s, (badField_only d off s).mono (by decide), .inl rfl⟩
    · exact ⟨16, _, hexec.trans (congrArg Host.Outcome.next hrun), badBlock_reports d 16 s, (badBlock_only d 16 s).mono (by decide),
        .inr (badBlock_regs d 16 s)⟩
  case badField => exact fun d off s => ⟨badField_reports d off s, badField_only d off s⟩

/-! ## Keyed changes of objects (R20, R22, R32 to R34, R40, R52, R115, R121) -/

theorem pastCutoff_eq_false {s : State} {n : Nat} (h : mTranche s ≤ n) : pastCutoff s n = false :=
  decide_eq_false (Nat.not_lt.mpr h)

theorem armKeyed_arms (n : Nat) (d : Desc) (a : KeyedAct) (s : State) : Arms n d a s (armKeyed n (some d.tok) a s) := rfl

/-- R20, R22: before the cut-off of its N the change is armed. -/
theorem armCutoff_arms {d : Desc} {s : State} {n : Nat} (hn : n = keyN d (mTranche s)) (hopen : mTranche s ≤ n) (a : KeyedAct) :
    Arms n d a s (armCutoff d a s) := by
  subst hn
  have harm : armCutoff d a s = armKeyed (keyN d (mTranche s)) (some d.tok) a s := by simp [armCutoff, pastCutoff_eq_false hopen]
  rw [harm]
  exact armKeyed_arms ..

section
variable {d : Desc} {s : State} {n : Nat} (hn : n = keyN d (mTranche s)) (hopen : mTranche s ≤ n)
include hn hopen

/-- Without new biquads OBJ_COND reads no host block. -/
theorem exec_objCond_arms_trim (hun : Unused d [(0, 9), (10, 14)]) (hflags : pl d 8 1 ≤ 15) (hbq : plBit d 8 2 = false)
    (hobj : pl d 10 2 ≤ 1023) :
    Completes (.objCond d) s (Arms n d (.objCond (pl d 10 2) (plBit d 8 1) (if plBit d 8 3 then some (plS d 12 4) else none) none) s) := by
  refine .of_checked rfl hun (by simp [hflags, hobj]) ?_
  simp only [hbq, Bool.false_eq_true, if_false]
  exact armCutoff_arms hn hopen _

theorem exec_objCond_arms_biquads {b : List Byte} (hun : Unused d [(0, 9), (10, 14)]) (hflags : pl d 8 1 ≤ 15) (hbq : plBit d 8 2 = true)
    (hblock : hostBlock d 0 80 = some b) (hobj : pl d 10 2 ≤ 1023) :
    Completes (.objCond d) s (Arms n d (.objCond (pl d 10 2) (plBit d 8 1) (if plBit d 8 3 then some (plS d 12 4) else none)
      (some [bqcAt b 0, bqcAt b 20, bqcAt b 40, bqcAt b 60])) s) := by
  refine .of_checked rfl hun (by simp [hflags, hobj]) ?_
  rw [if_pos hbq, hblock]
  exact armCutoff_arms hn hopen _

theorem exec_objPrefilter_arms {b : List Byte} (hun : Unused d [(0, 9), (16, 8)]) (hflags : pl d 8 1 ≤ 1) (hblock : hostBlock d 0 40 = some b) :
    Completes (.objPrefilter d) s (Arms n d (.objPrefilter [bqcAt b 0, bqcAt b 20]) s) := by
  refine .of_checked rfl hun (by simp [hflags]) ?_
  rw [hblock]
  exact armCutoff_arms hn hopen _

variable (hflags : pl d 8 1 ≤ 1) (hfirst : pl d 10 2 ≤ 1023) (hcount : 1 ≤ pl d 12 2) (hrange : pl d 10 2 + pl d 12 2 ≤ 1024)
include hflags hfirst hcount hrange

theorem exec_objMap_arms (hun : Unused d [(0, 17)]) (hty : pl d 9 1 ≤ 3)
    (hsource : ∀ l ∈ sourceOk s (pl d 9 1) (pl d 14 2) (pl d 16 1) (pl d 12 2), l.2 = true) :
    exec (.objMap d) s = .next (eachObj (voidMoved s) (span (pl d 10 2) (pl d 12 2))
      (armKeyed n (some d.tok) (.objMap (pl d 10 2) (pl d 12 2) (pl d 9 1) (pl d 14 2) (pl d 16 1)) s)) := by
  subst hn
  refine congrArg Host.Outcome.next ((checked_legal hun ?legal).trans ?armed)
  case legal => simpa [hflags, hty, hfirst, inRange_eq_true hcount hrange] using hsource
  case armed => simp only [pastCutoff_eq_false hopen, Bool.false_eq_true, if_false]

/-- OBJ_CTL that enables objects must leave an armed swap within its budgets (R196). -/
theorem exec_objCtl_arms (hun : Unused d [(0, 9), (10, 8)]) (hen : pl d 14 1 ≤ 1) (hcoast : pl d 15 1 ≤ 1)
    (hlim : 1 ≤ pl d 16 1) (hlim' : pl d 16 1 ≤ 64) (hclear : pl d 17 1 ≤ 1)
    (hswap : pl d 14 1 = 1 → enableBreaksSwap s n (span (pl d 10 2) (pl d 12 2)) = false) :
    Completes (.objCtl d) s (Arms n d (.objCtl (pl d 10 2) (pl d 12 2) (decide (pl d 14 1 = 1)) (decide (pl d 15 1 = 1)) (pl d 16 1)
      (if pl d 17 1 = 1 then some s.segUid else none)) s) := by
  have hallowed : (decide (pl d 14 1 = 1) && enableBreaksSwap s n (span (pl d 10 2) (pl d 12 2))) = false := by
    by_cases hone : pl d 14 1 = 1
    · rw [hswap hone, Bool.and_false]
    · rw [decide_eq_false hone, Bool.false_and]
  refine .of_checked rfl hun (by simp [hflags, hfirst, inRange_eq_true hcount hrange, hen, hcoast, hlim, hlim', hclear]) ?_
  rw [← hn]
  simp only [Bool.and_assoc, hallowed, Bool.and_false, Bool.false_eq_true, if_false, plBit_zero_eq hen, plBit_zero_eq hcoast,
    plBit_zero_eq hclear, decide_eq_true_eq]
  exact armCutoff_arms hn hopen _

theorem exec_objKernel_arms (hun : Unused d [(0, 9), (10, 5)]) (hcode : pl d 14 1 ≤ 3) :
    Completes (.objKernel d) s (Arms n d (.objKernel (pl d 10 2) (pl d 12 2) (pl d 14 1)) s) :=
  .of_checked rfl hun (by simp [hflags, hfirst, inRange_eq_true hcount hrange, hcode]) (armCutoff_arms hn hopen _)

/-- Where no image governs N, a coarse delay that differs from the one in force is armed without a transition (R122). -/
theorem exec_objCoarse_arms (hun : Unused d [(0, 9), (10, 4), (16, 4)])
    (hdelay : pl d 16 4 = 0 ∨ (1024 ≤ pl d 16 4 ∧ pl d 16 4 ≤ 524287)) (hdram : pl d 16 4 = 0 ∨ s.drc.noDram = false)
    (himg : govImg s n = none) (hdiff : ∃ o ∈ span (pl d 10 2) (pl d 12 2), coarseGov s o n ≠ pl d 16 4) :
    Completes (.objCoarse d) s (Arms n d (.objCoarse (pl d 10 2) (pl d 12 2) (pl d 16 4) false) s) := by
  have hpermitted : ¬ (pl d 16 4 ≠ 0 ∧ s.drc.noDram = true) := by
    rintro ⟨hne, hno⟩
    exact hdram.elim hne fun h => Bool.false_ne_true (h.symm.trans hno)
  have hsome : ((span (pl d 10 2) (pl d 12 2)).filter (fun o => decide (coarseGov s o n ≠ pl d 16 4))).isEmpty = false := by
    obtain ⟨o, ho, hne⟩ := hdiff
    exact List.isEmpty_eq_false_iff_exists_mem.mpr ⟨o, List.mem_filter.mpr ⟨ho, decide_eq_true hne⟩⟩
  subst hn
  refine .of_checked rfl hun (by simpa [hflags, hfirst, inRange_eq_true hcount hrange] using hdelay) ?_
  simp only [if_neg hpermitted, pastCutoff_eq_false hopen, hsome, himg, Option.isNone_none, Bool.false_eq_true, if_false, if_true]
  exact armKeyed_arms ..

end

/-- Settles O27, one lemma for each descriptor; that an accepted OBJ_MAP empties the positions it moves is the model's choice (log entry 88). -/
theorem objectDescriptorsArm : Obligations.ObjectDescriptorsArm := by
  refine ⟨?map, ?trim, ?biquads, ?ctl, ?prefilter, ?kernel, ?coarse⟩
  case map =>
    intro d s n hun hflags hty hfirst hcount hrange hsource hn hopen
    exact exec_objMap_arms hn hopen hflags hfirst hcount hrange hun hty hsource
  case trim => exact fun d s n hun hflags hbq hobj hn hopen => exec_objCond_arms_trim hn hopen hun hflags hbq hobj
  case biquads =>
    exact fun d s n b hun hflags hbq hblock hobj hn hopen => exec_objCond_arms_biquads hn hopen hun hflags hbq hblock hobj
  case ctl =>
    intro d s n hun hflags hfirst hcount hrange hen hcoast hlim hlim' hclear hn hopen hswap
    exact exec_objCtl_arms hn hopen hflags hfirst hcount hrange hun hen hcoast hlim hlim' hclear hswap
  case prefilter => exact fun d s n b hun hflags hblock hn hopen => exec_objPrefilter_arms hn hopen hun hflags hblock
  case kernel =>
    intro d s n hun hflags hfirst hcount hrange hcode hn hopen
    exact exec_objKernel_arms hn hopen hflags hfirst hcount hrange hun hcode
  case coarse =>
    intro d s n hun hflags hfirst hcount hrange hdelay hdram himg hn hopen hdiff
    exact exec_objCoarse_arms hn hopen hflags hfirst hcount hrange hun hdelay hdram himg hdiff

/-! ## Segments (R43, R44, R51, R53) -/

theorem takeSeg_of_legal {r : List Byte} (h : segBad r = none) (s : State) :
    takeSeg r s = acceptSeg (field r 10 2) (segOf r s.segUid) s := by
  simp only [takeSeg, h]

/-- A segment accepted on time or late completes OK. -/
theorem segStatus_of_accepted {r : Nat} (h : r ≤ 1) : segStatus r = stOk := by
  rw [segStatus, if_neg (by omega), if_neg (by omega)]

theorem exec_objSegment_accepts {d : Desc} {s : State} (hseg : segBad d.payload = none)
    (hacc : (acceptSeg (field d.payload 10 2) (segOf d.payload s.segUid) s).1 ≤ 1) :
    exec (.objSegment d) s = .next (report d.tok stOk 0 0 (acceptSeg (field d.payload 10 2) (segOf d.payload s.segUid) s).2) := by
  refine congrArg Host.Outcome.next ?_
  rw [takeSeg_of_legal hseg, segStatus_of_accepted hacc, if_neg (by omega)]

theorem exec_objSegBatch_ok {d : Desc} {s : State} {b : List Byte} (hun : Unused d [(0, 12)]) (hcount : 1 ≤ pl d 8 4)
    (hmax : pl d 8 4 ≤ 4096) (hblock : hostBlock d 0 (48 * pl d 8 4) = some b) (hok : (takeSegs (chunks 48 (pl d 8 4) b) stOk s).1 = stOk) :
    exec (.objSegBatch d) s = .next (report d.tok stOk 0 0 (takeSegs (chunks 48 (pl d 8 4) b) stOk s).2) := by
  refine congrArg Host.Outcome.next ((checked_legal hun (by simp [hcount, hmax])).trans ?_)
  simp only [hblock, hok]
  rfl

/-- GO at a segment port hands the staged record to the object table and leaves its outcome in the port's status (R51, R57). -/
theorem exec_segmentPush_go {n : Nat} {s : State} {r : List Byte}
    (hr : r = (List.range 12).flatMap (fun i => leBytes 4 (getReg s (aGeoSeg n (4 * i))).toNat)) (hseg : segBad r = none) :
    exec (.segmentPush n 1) s = .next (setReg (acceptSeg (field r 10 2) (segOf r s.segUid) s).2 (aGeoSeg n 0x34)
      (BitVec.ofNat 32 (acceptSeg (field r 10 2) (segOf r s.segUid) s).1)) := by
  have hgo : ¬ (!writeLegal [fld 0 0 .w1s 0] 1 || !Word.bit 1 0) = true := by decide
  subst hr
  refine congrArg Host.Outcome.next ((if_neg hgo).trans ?_)
  simp only [takeSeg_of_legal hseg]

/-! ## Aligned sets and object status (R35, R55) -/

theorem getElem_notMem_take {α : Type} {l : List α} (h : l.Nodup) {i : Nat} (hi : i < l.length) : l[i] ∉ l.take i :=
  fun hmem => List.disjoint_take_drop h le_rfl hmem (List.drop_eq_getElem_cons hi ▸ List.mem_cons_self)

/-- The streams that the payload of an OBJ_ALIGN_SET lists. -/
def alignList (d : Desc) : List Nat := (List.range (pl d 1 1)).map (fun i => pl d (8 + i) 1)

/-- Streams up to 127 of which none is named twice pass the check of the list. -/
theorem alignList_limits {d : Desc} (hle : ∀ x ∈ alignList d, x ≤ 127) (hnodup : (alignList d).Nodup) {i : Nat} (hi : i < pl d 1 1) :
    (decide (pl d (8 + i) 1 ≤ 127) && !decide (pl d (8 + i) 1 ∈ (alignList d).take i)) = true := by
  have hlen : i < (alignList d).length := by simpa [alignList] using hi
  have hget : (alignList d)[i] = pl d (8 + i) 1 := by simp [alignList]
  rw [← hget]
  simp [hle _ (List.getElem_mem hlen), getElem_notMem_take hnodup hlen]

theorem exec_objAlignSet_ok {d : Desc} {s : State} (hun : Unused d [(0, 2), (8, pl d 1 1)]) (hset : pl d 0 1 ≤ 127)
    (hcount : pl d 1 1 ≤ 32) (hle : ∀ x ∈ alignList d, x ≤ 127) (hnodup : (alignList d).Nodup)
    (hdelay : ∀ x ∈ alignList d, x ∈ smGet [] s.alignSet (pl d 0 1) ∨ (rxAt s x).conf = false ∨
      rxSamples s (rxAt s x) ≤ (smGet {} s.mp.setMap (pl d 0 1)).rxd)
    (hfits : storeFits { s with alignSet := setMembers (pl d 0 1) (alignList d) s.alignSet } = true) :
    Completes (.objAlignSet d) s
      (fun t => Reports d stOk 0 0 s t ∧ t.alignSet = setMembers (pl d 0 1) (alignList d) s.alignSet) := by
  have hmin : min (pl d 1 1) 32 = pl d 1 1 := Nat.min_eq_left hcount
  have hserved : (alignList d).any (fun x => !decide (x ∈ smGet [] s.alignSet (pl d 0 1)) && (rxAt s x).conf &&
      decide ((smGet {} s.mp.setMap (pl d 0 1)).rxd < rxSamples s (rxAt s x))) = false := by
    rw [List.any_eq_false]
    intro x hx
    obtain h | h | h := hdelay x hx <;> simp [h]
  refine .of_checked rfl (by rwa [hmin]) ?limits ?run
  case limits =>
    rw [hmin, List.all_append, List.all_map, Bool.and_eq_true]
    exact ⟨by simp [hset, hcount], List.all_eq_true.mpr fun i hi => alignList_limits hle hnodup (List.mem_range.mp hi)⟩
  case run =>
    rw [alignList] at hserved hfits
    simp only [hmin, hserved, hfits, Bool.not_true, Bool.false_eq_true, if_false]
    exact ⟨rfl, rfl⟩

theorem exec_objStatus_ok {d : Desc} (hun : Unused d [(0, 13)]) (hfirst : pl d 8 2 ≤ 1023) (hcount : 1 ≤ pl d 10 2)
    (hrange : pl d 8 2 + pl d 10 2 ≤ 1024) (hclear : pl d 12 1 ≤ 1) (s : State) :
    exec (.objStatus d) s = .next (finish d stOk (if pl d 12 1 = 1
      then eachObj (fun o t => setObj t o { objAt t o with cnt := [] }) (span (pl d 8 2) (pl d 10 2))
        (hostWrite (pl d 0 8) ((span (pl d 8 2) (pl d 10 2)).flatMap (objRecord s)) s)
      else hostWrite (pl d 0 8) ((span (pl d 8 2) (pl d 10 2)).flatMap (objRecord s)) s)) := by
  refine congrArg Host.Outcome.next ((checked_legal hun (by simp [hfirst, inRange_eq_true hcount hrange, hclear])).trans ?_)
  simp only [plBit_zero_eq hclear, decide_eq_true_eq]

/-! ## Sinc banks and pair-engine status (R72, R124, R126) -/

/-- SWITCH alone, with or without NOW. -/
theorem exec_pairKtbl_switch {d : Desc} {s : State} {n : Nat} (hun : Unused d [(0, 9), (16, 8)]) (hmode : pl d 8 1 = 4 ∨ pl d 8 1 = 5)
    (hn : n = keyN d (mTranche s)) (hopen : mTranche s ≤ n) : Completes (.pairKtbl d) s (Arms n d (.ktblSwitch false) s) := by
  have hload : plBit d 8 1 = false := by obtain h | h := hmode <;> simp [plBit, h]
  have hswitch : plBit d 8 2 = true := by obtain h | h := hmode <;> simp [plBit, h]
  have hsync : plBit d 8 3 = false := by obtain h | h := hmode <;> simp [plBit, h]
  have hle : pl d 8 1 ≤ 15 := by omega
  refine .of_checked rfl hun (by simp [hle, hload]) ?_
  simp only [ktblSwitchOp, hload, hswitch, hsync, Bool.or_false, Bool.false_eq_true, if_false, if_true]
  exact armCutoff_arms hn hopen _

/-- A descriptor that only replaces the inactive bank completes OK at once. -/
theorem ktblSwitchOp_of_no_switch {d : Desc} (h : plBit d 8 2 = false) (s : State) : ktblSwitchOp d s = finish d stOk s := by
  rw [ktblSwitchOp, h, if_neg Bool.false_ne_true]

theorem finish_putInactive (d : Desc) (b : SincBank) (s : State) :
    Reports d stOk 0 0 s (finish d stOk (putInactive b s)) ∧ (finish d stOk (putInactive b s)).pair = (putInactive b s).pair :=
  ⟨rfl, rfl⟩

theorem exec_pairKtbl_load {d : Desc} {s : State} {b : List Byte} (hun : Unused d [(0, 9), (16, 8)]) (hmode : pl d 8 1 = 2)
    (hblock : hostBlock d 0 32800 = some b) (hs20 : ∀ x ∈ sincEntries b, satS 20 x = x) (hfree : ktblPending s = false) :
    Completes (.pairKtbl d) s (fun t => Reports d stOk 0 0 s t ∧ t.pair = (putInactive
      { rom := false, tab := (sincEntries b).zipIdx.foldl (fun m e => smSet 0 m e.2 e.1) [] } s).pair) := by
  have hload : plBit d 8 1 = true := by simp [plBit, hmode]
  have hswitch : plBit d 8 2 = false := by simp [plBit, hmode]
  have hsync : plBit d 8 3 = false := by simp [plBit, hmode]
  have hall : (sincEntries b).all (fun x => decide (satS 20 x = x)) = true := by simpa using hs20
  refine .of_checked rfl hun (by simp [hmode, hsync]) ?_
  simp only [hload, hblock, hall, hfree, ktblSwitchOp_of_no_switch hswitch, Bool.not_true, Bool.false_eq_true, if_true, if_false]
  exact finish_putInactive ..

theorem exec_pairKtbl_sync {d : Desc} {s : State} (hun : Unused d [(0, 9), (16, 8)]) (hmode : pl d 8 1 = 8) (hfree : ktblPending s = false) :
    Completes (.pairKtbl d) s (fun t => Reports d stOk 0 0 s t ∧ t.pair = (putInactive (sincActive s) s).pair) := by
  have hload : plBit d 8 1 = false := by simp [plBit, hmode]
  have hswitch : plBit d 8 2 = false := by simp [plBit, hmode]
  have hsync : plBit d 8 3 = true := by simp [plBit, hmode]
  refine .of_checked rfl hun (by simp [hmode, hload]) ?_
  simp only [hload, hsync, hfree, ktblSwitchOp_of_no_switch hswitch, Bool.false_eq_true, if_true, if_false]
  exact finish_putInactive ..

/-- A later change that leaves host memory and the writes that wait keeps the write to host memory. -/
theorem WritesHost.congr {a : Nat} {bs : List Byte} {s t u : State} (h : WritesHost a bs s t) (hmem : u.hostMem = t.hostMem)
    (hdue : u.dueWrites = t.dueWrites) : WritesHost a bs s u := by
  rw [WritesHost, hmem, hdue]
  exact h

theorem clearPairCounts_pair_congr (mode first count : Nat) {s t : State} (h : s.pair = t.pair) :
    (clearPairCounts mode first count s).pair = (clearPairCounts mode first count t).pair := by
  simp only [clearPairCounts, setPair_pair, h]

theorem exec_pairStatus_ok {d : Desc} (hun : Unused d [(0, 9), (10, 5)]) (hmode : pl d 8 1 ≤ 1) (hfirst : pl d 10 2 ≤ 1023)
    (hcount : 1 ≤ pl d 12 2) (hrange : pl d 10 2 + pl d 12 2 ≤ 1024) (hclear : pl d 14 1 ≤ 1) (s : State) :
    Completes (.pairStatus d) s (fun t => Reports d stOk 0 0 s t ∧
      t.pair = (if pl d 14 1 = 1 then clearPairCounts (pl d 8 1) (pl d 10 2) (pl d 12 2) s else s).pair ∧ WritesHost (pl d 0 8)
      ((span (pl d 10 2) (pl d 12 2)).flatMap (if pl d 8 1 = 0 then pairRecord s else accRecord s)) s t) := by
  refine .of_checked rfl hun (by simp [hmode, hfirst, inRange_eq_true hcount hrange, hclear]) ?_
  have hwrites := hostWrite_writes (pl d 0 8) ((span (pl d 10 2) (pl d 12 2)).flatMap (if pl d 8 1 = 0 then pairRecord s else accRecord s)) s
  simp only [plBit_zero_eq hclear, decide_eq_true_eq]
  split
  · exact ⟨by simp [Reports, clearPairCounts], clearPairCounts_pair_congr _ _ _ (hostWrite_pair ..), hwrites.congr rfl rfl⟩
  · exact ⟨by simp [Reports], hostWrite_pair .., hwrites.congr rfl rfl⟩

/-- Settles O28, one lemma for each command and mode. -/
theorem segmentAndObjectServicesComplete : Obligations.SegmentAndObjectServicesComplete := by
  refine ⟨?segment, ?batch, ?push, ?align, ?status, ?switch, ?load, ?sync, ?pairStatus⟩
  case segment => exact fun d s hseg hacc => exec_objSegment_accepts hseg hacc
  case batch => exact fun d s b hun hcount hmax hblock hok => exec_objSegBatch_ok hun hcount hmax hblock hok
  case push => exact fun n s r hr hseg => exec_segmentPush_go hr hseg
  case align =>
    rintro d s _ rfl hun hset hcount hle hnodup hdelay hfits
    exact exec_objAlignSet_ok hun hset hcount hle hnodup hdelay hfits
  case status => exact fun d s hun hfirst hcount hrange hclear => exec_objStatus_ok hun hfirst hcount hrange hclear s
  case switch => exact fun d s n hun hmode hn hopen => exec_pairKtbl_switch hun hmode hn hopen
  case load => exact fun d s b hun hmode hblock hs20 hfree => exec_pairKtbl_load hun hmode hblock hs20 hfree
  case sync => exact fun d s hun hmode hfree => exec_pairKtbl_sync hun hmode hfree
  case pairStatus =>
    exact fun d s hun hmode hfirst hcount hrange hclear => exec_pairStatus_ok hun hmode hfirst hcount hrange hclear s

end Sys2Proof.Machine
end

section
/-! The descriptors of the venue tables, their banks, and the geometry engine (R64, R66 to R73, R87, R90, R91, R196). -/

namespace Sys2Proof.Machine

/-! ## Venue loads (R66 to R70, R90, R196) -/

/-- R90: a load that reads its host block, whose records all pass, stores them where no switch is pending for the table. -/
theorem loadTable_of_legal {d : Desc} {t size count : Nat} {ok : List Byte → Bool} {put : List (List Byte) → State → State} {s : State}
    {b : List Byte} (hblock : hostBlock d 0 (size * count) = some b) (hok : ∀ r ∈ chunks size count b, ok r = true)
    (hfree : switchPending s t = false) : loadTable d t size count ok put s = finish d stOk (put (chunks size count b) s) := by
  have hall : (chunks size count b).all ok = true := List.all_eq_true.mpr hok
  simp only [loadTable, hblock, hall, hfree, Bool.not_true, Bool.false_eq_true, if_false]

theorem finish_setGeo_reports (d : Desc) (status : Nat) (s : State) (f : Geo → Geo) :
    Reports d status 0 0 s (finish d status (setGeo s f)) := rfl

theorem exec_geoSpkLoad_ok {d : Desc} {s : State} {b : List Byte} (hun : Unused d [(0, 12)]) (hfirst : pl d 8 2 ≤ 1023)
    (hcount : 1 ≤ pl d 10 2) (hrange : pl d 8 2 + pl d 10 2 ≤ 1024) (hblock : hostBlock d 0 (64 * pl d 10 2) = some b)
    (hok : ∀ r ∈ chunks 64 (pl d 10 2) b, spkOk r = true) (hfree : switchPending s 0 = false) :
    Completes (.geoSpkLoad d) s (fun t => Reports d stOk 0 0 s t ∧ t.geo.spk = ((chunks 64 (pl d 10 2) b).zipIdx).foldl
      (fun m e => smSet {} m (loadBank s 0 * 1024 + pl d 8 2 + e.2) (spkOf e.1)) s.geo.spk) :=
  .of_checked rfl hun (by simp [hfirst, inRange_eq_true hcount hrange]) (loadTable_of_legal hblock hok hfree ▸ ⟨finish_setGeo_reports .., rfl⟩)

theorem exec_geoZoneLoad_ok {d : Desc} {s : State} {b : List Byte} (hun : Unused d [(0, 10)]) (hfirst : pl d 8 1 ≤ 15)
    (hcount : 1 ≤ pl d 9 1) (hrange : pl d 8 1 + pl d 9 1 ≤ 16) (hblock : hostBlock d 0 (272 * pl d 9 1) = some b)
    (hok : ∀ r ∈ chunks 272 (pl d 9 1) b, zoneOk r = true) (hfree : switchPending s 1 = false) :
    Completes (.geoZoneLoad d) s (fun t => Reports d stOk 0 0 s t ∧ t.geo.zone = ((chunks 272 (pl d 9 1) b).zipIdx).foldl
      (fun m e => smSet {} m (loadBank s 1 * 16 + pl d 8 1 + e.2) (zoneOf e.1)) s.geo.zone) :=
  .of_checked rfl hun (by simp [hfirst, inRange_eq_true hcount hrange]) (loadTable_of_legal hblock hok hfree ▸ ⟨finish_setGeo_reports .., rfl⟩)

theorem exec_geoTriLoad_ok {d : Desc} {s : State} {b : List Byte} (hun : Unused d [(0, 12)]) (hfirst : pl d 8 2 ≤ 4095)
    (hcount : 1 ≤ pl d 10 2) (hrange : pl d 8 2 + pl d 10 2 ≤ 4096) (hblock : hostBlock d 0 (48 * pl d 10 2) = some b)
    (hok : ∀ r ∈ chunks 48 (pl d 10 2) b, triOk r = true) (hfree : switchPending s 2 = false) :
    Completes (.geoTriLoad d) s (fun t => Reports d stOk 0 0 s t ∧ t.geo.tri = ((chunks 48 (pl d 10 2) b).zipIdx).foldl
      (fun m e => putTri m (loadBank s 2 * 4096 + pl d 8 2 + e.2) e.1) s.geo.tri) :=
  .of_checked rfl hun (by simp [hfirst, inRange_eq_true hcount hrange]) (loadTable_of_legal hblock hok hfree ▸ ⟨finish_setGeo_reports .., rfl⟩)

theorem exec_geoAirLoad_ok {d : Desc} {s : State} {b : List Byte} (hun : Unused d [(0, 8)]) (hblock : hostBlock d 0 (4 * 1024) = some b)
    (hok : ∀ r ∈ chunks 4 1024 b, (fLe 0 (wordAt r 0) && fLt (wordAt r 0) 0x3F800000) = true) (hfree : switchPending s 3 = false) :
    Completes (.geoAirLoad d) s (fun t => Reports d stOk 0 0 s t ∧ t.geo.air = ((chunks 4 1024 b).zipIdx).foldl
      (fun m e => smSet 0 m (loadBank s 3 * 1024 + e.2) (wordAt e.1 0)) s.geo.air) := by
  refine .of_checked rfl hun rfl ?_
  rw [loadTable_of_legal hblock hok hfree]
  -- `rfl` would unfold the 1,024 records.
  exact And.intro (finish_setGeo_reports ..) (by simp only [finish_geo, setGeo_geo])

/-- R196: no cell of the load has more candidates than an armed shadow's CMAX. -/
theorem armedShadow_any_eq_false {s : State} {cells : List Word}
    (h : ∀ w, armedShadow s = some w → ∀ c ∈ cells, cellCount c ≤ w.2.cmax) :
    (armedShadow s).any (fun w => cells.any (fun c => decide (w.2.cmax < cellCount c))) = false := by
  cases hw : armedShadow s with
  | none => rfl
  | some w =>
    simp only [Option.any_some, List.any_eq_false, decide_eq_true_eq, Nat.not_lt]
    exact h w hw

theorem exec_geoCubeLoad_ok {d : Desc} {s : State} {cs ls : List Byte} (hun : Unused d [(0, 18)]) (hcount : 1 ≤ pl d 16 2)
    (hmax : pl d 16 2 ≤ 16384) (hcells : hostBlock d 0 (6144 * 4) = some cs) (hlist : hostBlock d 1 (2 * pl d 16 2) = some ls)
    (hcellOk : ∀ c ∈ cubeCells cs, cellOk c = true) (htris : ∀ t ∈ cubeList (pl d 16 2) ls, t ≤ 4095)
    (hfree : switchPending s 2 = false) (hswap : ∀ w, armedShadow s = some w → ∀ c ∈ cubeCells cs, cellCount c ≤ w.2.cmax) :
    exec (.geoCubeLoad d) s = .next (finish d stOk (putCube (cubeCells cs) (cubeList (pl d 16 2) ls) (pl d 16 2) s)) := by
  have hcellsAll : (cubeCells cs).all cellOk = true := List.all_eq_true.mpr hcellOk
  have htrisAll : (cubeList (pl d 16 2) ls).all (fun t => decide (t ≤ 4095)) = true := by simpa using htris
  refine congrArg Host.Outcome.next ((checked_legal hun (by simp [hcount, hmax])).trans ?_)
  simp only [hcells, hlist, hcellsAll, htrisAll, hfree, armedShadow_any_eq_false hswap, Bool.not_true, Bool.or_self, Bool.false_eq_true,
    if_false]

/-! ## Bank switches and copies (R71, R72) -/

theorem exec_geoBankSwitch_arms {d : Desc} {s : State} {n : Nat} (hun : Unused d [(0, 10)]) (hflags : pl d 8 1 ≤ 1)
    (hmask : 1 ≤ pl d 9 1) (hmask' : pl d 9 1 ≤ 15) (hn : n = keyN d (mTranche s)) (hopen : mTranche s ≤ n)
    (hpan : maskBit (pl d 9 1) 2 = true → panVerdict s n = 0) :
    Completes (.geoBankSwitch d) s (Arms n d (.geoBankSwitch (pl d 9 1)) s) := by
  have hverdict : (if maskBit (pl d 9 1) 2 = true then panVerdict s n else 0) = 0 := ite_eq_right_iff.mpr hpan
  have hnotBad : (0 : Nat) ≠ stBad := by decide
  subst hn
  refine .of_checked rfl hun (by simp [hflags, hmask, hmask']) ?_
  simp only [hverdict, pastCutoff_eq_false hopen, hnotBad, ne_eq, not_true_eq_false, Bool.false_eq_true, if_false]
  exact armKeyed_arms ..

theorem exec_geoBankSync_ok {d : Desc} {s : State} (hun : Unused d [(9, 1)]) (hmask : 1 ≤ pl d 9 1) (hmask' : pl d 9 1 ≤ 15)
    (hfree : ∀ k < 4, maskBit (pl d 9 1) k = true → switchPending s k = false) :
    exec (.geoBankSync d) s = .next (finish d stOk (((List.range 4).filter (maskBit (pl d 9 1))).foldl syncTable s)) := by
  have hnone : ¬ ((List.range 4).filter (maskBit (pl d 9 1))).any (switchPending s) = true := by
    rw [Bool.not_eq_true, List.any_eq_false]
    intro k hk
    obtain ⟨hlt, hbit⟩ := List.mem_filter.mp hk
    exact Bool.eq_false_iff.mp (hfree k (List.mem_range.mp hlt) hbit)
  exact congrArg Host.Outcome.next ((checked_legal hun (by simp [hmask, hmask'])).trans (if_neg hnone))

/-- Settles O29, one lemma for each command. -/
theorem venueLoadsComplete : Obligations.VenueLoadsComplete := by
  refine ⟨?spk, ?zone, ?tri, ?cube, ?air, ?switch, ?sync⟩
  case spk => exact fun d s b hun hfirst hcount hrange hblock hok hfree => exec_geoSpkLoad_ok hun hfirst hcount hrange hblock hok hfree
  case zone => exact fun d s b hun hfirst hcount hrange hblock hok hfree => exec_geoZoneLoad_ok hun hfirst hcount hrange hblock hok hfree
  case tri => exact fun d s b hun hfirst hcount hrange hblock hok hfree => exec_geoTriLoad_ok hun hfirst hcount hrange hblock hok hfree
  case cube =>
    intro d s cs ls hun hcount hmax hcells hlist hcellOk htris hfree hswap
    exact exec_geoCubeLoad_ok hun hcount hmax hcells hlist hcellOk htris hfree hswap
  case air => exact fun d s b hun hblock hok hfree => exec_geoAirLoad_ok hun hblock hok hfree
  case switch =>
    exact fun d s n hun hflags hmask hmask' hn hopen hpan => exec_geoBankSwitch_arms hun hflags hmask hmask' hn hopen hpan
  case sync => exact fun d s hun hmask hmask' hfree => exec_geoBankSync_ok hun hmask hmask' hfree

/-! ## Law and global records, status and pair records (R64, R73, R90, R91) -/

/-- GEO_OBJ_LAW with a record for each object, which must fit the image at N and an armed shadow (R177, R196). -/
theorem exec_geoObjLaw_arms {d : Desc} {s : State} {n : Nat} {b : List Byte} (hun : Unused d [(0, 9), (10, 4), (16, 8)])
    (hflags : pl d 8 1 ≤ 1) (hfirst : pl d 10 2 ≤ 1023) (hcount : 1 ≤ pl d 12 2) (hrange : pl d 10 2 + pl d 12 2 ≤ 1024)
    (hblock : hostBlock d 0 (128 * pl d 12 2) = some b) (hok : ∀ r ∈ chunks 128 (pl d 12 2) b, lawOk r = true)
    (hn : n = keyN d (mTranche s)) (hopen : mTranche s ≤ n)
    (hfits : lawsAllowed s n (pl d 10 2) ((chunks 128 (pl d 12 2) b).map lawOf) = true) :
    Completes (.geoObjLaw d) s (Arms n d (.geoObjLaw (pl d 10 2) ((chunks 128 (pl d 12 2) b).map lawOf)) s) := by
  have hsingle : plBit d 8 1 = false := by
    rw [plBit, pow_one, Nat.div_eq_of_lt (by omega)]
    rfl
  have hlaws : (chunks 128 (pl d 12 2) b).all lawOk = true := List.all_eq_true.mpr hok
  have hle : pl d 8 1 ≤ 3 := by omega
  subst hn
  refine .of_checked rfl hun (by simp [hle, hfirst, inRange_eq_true hcount hrange]) ?_
  simp only [hsingle, hblock, hlaws, pastCutoff_eq_false hopen, hfits, Bool.not_true, Bool.false_eq_true, if_false]
  exact armKeyed_arms ..

theorem exec_geoGlobal_arms {d : Desc} {s : State} {n : Nat} (hun : Unused d [(0, 9), (16, 20)]) (hflags : pl d 8 1 ≤ 1)
    (htemp : fWithin 0xC1A00000 0x42480000 (BitVec.ofNat 32 (pl d 16 4)) = true)
    (hcentre : ∀ k ∈ [20, 24, 28], coordOk 0x461C4000 (BitVec.ofNat 32 (pl d k 4)) = true)
    (heps : fWithin 0 0x3B800000 (BitVec.ofNat 32 (pl d 32 4)) = true) (hn : n = keyN d (mTranche s)) (hopen : mTranche s ≤ n) :
    Completes (.geoGlobal d) s (Arms n d (.geoGlobal (BitVec.ofNat 32 (pl d 16 4))
      { x := BitVec.ofNat 32 (pl d 20 4), y := BitVec.ofNat 32 (pl d 24 4), z := BitVec.ofNat 32 (pl d 28 4) }
      (BitVec.ofNat 32 (pl d 32 4))) s) := by
  simp only [List.forall_mem_cons] at hcentre
  obtain ⟨hx, hy, hz, -⟩ := hcentre
  refine .of_checked rfl hun ?limits (armCutoff_arms hn hopen _)
  case limits => simp only [List.all_cons, List.all_nil, hflags, htemp, hx, hy, hz, heps, decide_true, Bool.and_self]

theorem exec_geoStatus_ok {d : Desc} (hun : Unused d [(0, 13)]) (hfirst : pl d 8 2 ≤ 1023) (hcount : 1 ≤ pl d 10 2)
    (hrange : pl d 8 2 + pl d 10 2 ≤ 1024) (hclear : pl d 12 1 ≤ 1) (s : State) :
    Completes (.geoStatus d) s (fun t => Reports d stOk 0 0 s t ∧
      WritesHost (pl d 0 8) ((span (pl d 8 2) (pl d 10 2)).flatMap (geoRecord s)) s t ∧
      t.geo.cnt = if pl d 12 1 = 1 then smClearRange s.geo.cnt (pl d 8 2 * 64) (pl d 10 2 * 64) else s.geo.cnt) := by
  refine .of_checked rfl hun (by simp [hfirst, inRange_eq_true hcount hrange, hclear]) ?_
  have hwrites := hostWrite_writes (pl d 0 8) ((span (pl d 8 2) (pl d 10 2)).flatMap (geoRecord s)) s
  simp only [plBit_zero_eq hclear, decide_eq_true_eq]
  split
  · exact ⟨by simp [Reports], hwrites.congr rfl rfl, by simp⟩
  · exact ⟨by simp [Reports], hwrites.congr rfl rfl, by simp⟩

theorem exec_geoPairRead_ok {d : Desc} (hun : Unused d [(0, 10)]) (hobj : pl d 8 2 ≤ 1023) (s : State) :
    Completes (.geoPairRead d) s
      (fun t => Reports d stOk 0 0 s t ∧ WritesHost (pl d 0 8) (pairReadBytes s (pl d 8 2)) s t ∧ t.geo = s.geo) :=
  .of_checked rfl hun (by simp [hobj]) ⟨by simp [Reports], (hostWrite_writes ..).congr rfl rfl, hostWrite_geo ..⟩

/-- Settles O30, one lemma for each command. -/
theorem geometryDescriptorsComplete : Obligations.GeometryDescriptorsComplete := by
  refine ⟨?law, ?global, ?status, ?pairRead⟩
  case law =>
    intro d s n b hun hflags hfirst hcount hrange hblock hok hn hopen hfits
    exact exec_geoObjLaw_arms hun hflags hfirst hcount hrange hblock hok hn hopen hfits
  case global => exact fun d s n hun hflags htemp hcentre heps hn hopen => exec_geoGlobal_arms hun hflags htemp hcentre heps hn hopen
  case status => exact fun d s hun hfirst hcount hrange hclear => exec_geoStatus_ok hun hfirst hcount hrange hclear s
  case pairRead => exact fun d s hun hobj => exec_geoPairRead_ok hun hobj s

end Sys2Proof.Machine
end

section
/-! The block move (R41, R118), and the reads, items and fetches of the pair engine and its neighbours (R104, R107, R129, R144, R163, R168,
R176, R304, R397, R410, R477, R518). -/

namespace Sys2Proof.Machine

/-! ## The block move (R41, R118) -/

theorem satS_eq_self_of_fits24 {x : Int} (h : fits24 x = true) : satS 24 x = x := of_decide_eq_true h

section
variable {xs : List Int} {fuel e : Nat}

/-- The search goes no further than its fuel. -/
theorem pickExp_le : pickExp fuel e xs ≤ e + fuel := by
  induction fuel generalizing e with
  | zero => exact le_rfl
  | succ n ih =>
    rw [pickExp]
    split
    · omega
    · have := ih (e := e + 1)
      omega

/-- At an exponent that the search passes over some rounded value does not fit. -/
theorem exists_not_fits24_of_lt_pickExp {e' : Nat} (hle : e ≤ e') (hlt : e' < pickExp fuel e xs) :
    ∃ x ∈ xs, fits24 (rnd e' x) = false := by
  induction fuel generalizing e with
  | zero => exact absurd hlt (Nat.not_lt.mpr hle)
  | succ n ih =>
    rw [pickExp] at hlt
    split at hlt
    · omega
    next hall =>
      obtain rfl | hgt := hle.eq_or_lt
      · simpa using hall
      · exact ih hgt hlt

/-- The search ends where every rounded value fits, or at its end. -/
theorem pickExp_fits_or_last : (∀ x ∈ xs, fits24 (rnd (pickExp fuel e xs) x) = true) ∨ pickExp fuel e xs = e + fuel := by
  induction fuel generalizing e with
  | zero => exact .inr rfl
  | succ n ih =>
    rw [pickExp]
    split
    next hall => exact .inl (List.all_eq_true.mp hall)
    · rw [← Nat.add_assoc, Nat.add_right_comm]
      exact ih

end

theorem moveBlk_exp (xs : List Int) : (moveBlk xs).1.e = pickExp 15 0 xs := by
  rw [moveBlk]
  split <;> rfl

theorem moveBlk_clips (xs : List Int) : (moveBlk xs).2 = (xs.filter (fun x => !fits24 (rnd (pickExp 15 0 xs) x))).length := by
  have hcount : ((storeBlk xs).m.filter (fun x => !fits24 x)).length =
      (xs.filter (fun x => !fits24 (rnd (pickExp 15 0 xs) x))).length := by
    simp only [storeBlk, List.filter_map, List.length_map, Function.comp_def]
  rw [← hcount, moveBlk]
  split
  next hnone => exact hnone.symm
  · rfl

/-- Where every value fits, saturation leaves the stored mantissas as they are; else the move saturates them. -/
theorem moveBlk_mantissas (xs : List Int) : (moveBlk xs).1.m = xs.map (fun x => satS 24 (rnd (pickExp 15 0 xs) x)) := by
  rw [moveBlk]
  split
  next hnone =>
    have hfits : ∀ x ∈ xs, fits24 (rnd (pickExp 15 0 xs) x) = true := by
      simpa [storeBlk] using hnone
    exact List.map_congr_left fun x hx => (satS_eq_self_of_fits24 (hfits x hx)).symm
  · exact List.map_map

/-- Settles O20: the exponent is the one that the search of R41 finds, and what does not fit there is saturated and counted. -/
theorem blockMoveTakesTheSmallestExponent : Obligations.BlockMoveTakesTheSmallestExponent := by
  rintro xs _ rfl
  rw [moveBlk_exp]
  refine ⟨pickExp_le, moveBlk_mantissas xs, moveBlk_clips xs, fun e hlt => exists_not_fits24_of_lt_pickExp e.zero_le hlt, fun hclips => ?_⟩
  obtain hfits | hlast := pickExp_fits_or_last (xs := xs) (fuel := 15) (e := 0)
  · rw [moveBlk_clips, List.length_pos_iff_exists_mem] at hclips
    obtain ⟨x, hx⟩ := hclips
    obtain ⟨hmem, hbad⟩ := List.mem_filter.mp hx
    simp [hfits x hmem] at hbad
  · exact hlast

/-! ## Reads with effects (R9, R129, R163, R304, R410, R477, R518) -/

/-- R9: a read that answers one word, narrowed to the bytes that are read. -/
theorem narrow_of_rdata {s : State} {w : Word} (h : s.rdata = [w]) (be : BitVec 4) : narrow be s = { s with rdata := [w &&& laneMask be] } := by
  simp [narrow, h]

/-- R129, R163, R477: a read that answers one word and gives a field of its register a value. -/
theorem narrow_setField_of_word (be : BitVec 4) (s : State) (w : Word) (a msb lsb v : Nat) :
    narrow be (setField { s with rdata := [w] } a msb lsb v) = setField { s with rdata := [w &&& laneMask be] } a msb lsb v := rfl

theorem latchWords_ptp (a : Nat) (ws : List Nat) (s : State) : (latchWords a ws s).ptp = s.ptp :=
  (latchWords_only a ws s).same .ptp (by decide)

theorem latchWords_regs (a : Nat) (ws : List Nat) (s : State) : (latchWords a ws s).regs = s.regs :=
  (latchWords_only a ws s).same .regs (by decide)

/-- R304: a pop of a queue of responses takes the oldest one. -/
theorem rptPopOp_ptp {n : Nat} {s : State} {r : PtpRpt} {rs : List PtpRpt} (h : smGet [] s.ptp.rpt n = r :: rs) :
    (rptPopOp n s).ptp = { s.ptp with rpt := smSet [] s.ptp.rpt n rs } := by
  simp only [rptPopOp, h, latchWords_ptp, setPtp]

theorem rptPopOp_rdata {n : Nat} {s : State} {r : PtpRpt} {rs : List PtpRpt} (h : smGet [] s.ptp.rpt n = r :: rs) :
    (rptPopOp n s).rdata = [BitVec.ofNat 32 (2 ^ 31 + r.msgType % 256 * 256 + r.domain % 256)] := by
  simp only [rptPopOp, h]

theorem tcapPopOp_ptp {s : State} {c : TCap} {cs : List TCap} (h : s.ptp.tcapQ = c :: cs) :
    (tcapPopOp s).ptp = { s.ptp with tcapQ := cs } := by
  simp only [tcapPopOp, h, latchWords_ptp, setPtp]

theorem tcapPopOp_rdata {s : State} {c : TCap} {cs : List TCap} (h : s.ptp.tcapQ = c :: cs) :
    (tcapPopOp s).rdata = [BitVec.ofNat 32 (((chunks 4 6 (capRecord true c)).map leNat).getD 0 0)] := by
  simp only [tcapPopOp, h]

/-- A read narrowed to the bytes that are read: it answers those of the word, and every other part is as the whole read leaves it. -/
theorem Completes.of_narrow {c : Instr} {s t : State} {be : BitVec 4} {P : State → Prop} (he : exec c s = .next (narrow be t)) {w : Word}
    (hw : t.rdata = [w]) (h : P { t with rdata := [w &&& laneMask be] }) : Completes c s P :=
  ⟨narrow be t, he, narrow_of_rdata hw be ▸ h⟩

/-- Settles O52: each read is its block's operation, narrowed. -/
theorem readCommandsComplete : Obligations.ReadCommandsComplete := by
  refine ⟨?cis, ?cor, ?drc, ?therm, ?rpt, ?tcap, ?time, ?tidx, ?map, ?ptime⟩
  case cis => exact fun be s => congrArg Host.Outcome.next (narrow_setField_of_word ..)
  case cor => exact fun be s => congrArg Host.Outcome.next (narrow_setField_of_word ..)
  case drc => exact fun c be s => .of_narrow rfl rfl ⟨rfl, rfl⟩
  case therm => exact fun be s => congrArg Host.Outcome.next (narrow_setField_of_word ..)
  case rpt => exact fun n be s r rs hq => .of_narrow rfl (rptPopOp_rdata hq) ⟨rfl, rptPopOp_ptp hq⟩
  case tcap => exact fun be s c cs hq => .of_narrow rfl (tcapPopOp_rdata hq) ⟨tcapPopOp_ptp hq, rfl⟩
  case time => exact fun be s => .of_narrow rfl rfl ⟨rfl, latchWords_ptp .., latchWords_regs ..⟩
  case tidx => exact fun be s => .of_narrow rfl rfl ⟨rfl, rfl⟩
  case map => exact fun be s => .of_narrow rfl rfl ⟨rfl, rfl⟩
  case ptime => exact fun be s => .of_narrow rfl rfl ⟨rfl, rfl⟩

/-! ## Items under a governing image (R107, R168, R176) -/

theorem exec_cond_of_image {s : State} {i : Img} (himg : writeImg s s.clk.tidx = some i) (o : Nat) :
    exec (.cond o) s = .next (condOp s.clk.tidx o s) := by
  change execCond o s = _
  rw [execCond, himg]

section
variable {s : State} {i : Img} (himg : stageImg s s.clk.tidx = some i) (o : Nat)
include himg

theorem exec_geomItem_pre : exec (.geomItem (.pre o)) s = .next (runPre s.clk.tidx o (i.ent o) s) := by
  change execGeomItem (.pre o) s = _
  rw [execGeomItem, himg]

theorem exec_geomItem_dir {k : Nat} (hk : k < (i.ent o).dirs) : exec (.geomItem (.dir o k)) s = .next (runDir o k s) := by
  change execGeomItem (.dir o k) s = _
  simp only [execGeomItem, himg, hk, if_true]

theorem exec_geomItem_mrg (hmerge : (i.ent o).merge = 1) : exec (.geomItem (.mrg o)) s = .next (runMrg o s) := by
  change execGeomItem (.mrg o) s = _
  simp only [execGeomItem, himg, hmerge, if_true]

theorem exec_geomItem_slt (j : Nat) : exec (.geomItem (.slt o j)) s = .next (runSlt s.clk.tidx o j i s) := by
  change execGeomItem (.slt o j) s = _
  rw [execGeomItem, himg]

end

/-- An entry of a furrow's programme in force in the data tranche before the period's is found. -/
theorem furrowEntry_of_image {s : State} {i : Img} {f e : Nat} {x : FEnt} (hpos : 0 < s.clk.tidx)
    (himg : stageImg s (s.clk.tidx - 1) = some i) (hent : (i.fur.getD f [])[e]? = some x) :
    ((if s.clk.tidx = 0 then none else stageImg s (s.clk.tidx - 1)).bind fun i => (i.fur.getD f [])[e]?) = some x := by
  rw [if_neg hpos.ne', himg, Option.bind_some, hent]

section
variable {s : State} {i : Img} {f e : Nat} {x : FEnt} (hpos : 0 < s.clk.tidx) (himg : stageImg s (s.clk.tidx - 1) = some i)
  (hent : (i.fur.getD f [])[e]? = some x) (ue : List Nat) (v : Option GuardViol)
include hpos himg hent

theorem exec_furrowSlot_unaudited : exec (.furrowSlot f e ue none v) s =
    .next (guardSlot v (slotOp (s.clk.tidx - 1) f x.obj x.slot (markWins ue s))) := by
  change execFurrowSlot f e ue none v s = _
  simp only [execFurrowSlot, furrowEntry_of_image hpos himg hent]

theorem exec_furrowSlot_audited (a : AuditObs) : exec (.furrowSlot f e ue (some a) v) s =
    .next (guardSlot v (auditSlot (s.clk.tidx - 1) f e a (slotOp (s.clk.tidx - 1) f x.obj x.slot (markWins ue s)))) := by
  change execFurrowSlot f e ue (some a) v s = _
  simp only [execFurrowSlot, furrowEntry_of_image hpos himg hent]

end

/-- Settles O55, one lemma for each kind of item. -/
theorem headgateAndGeometryItemsComplete : Obligations.HeadgateAndGeometryItemsComplete := by
  refine ⟨?cond, ?pre, ?dir, ?mrg, ?slt, ?unaudited, ?audited⟩
  case cond => exact fun o s i himg => exec_cond_of_image himg o
  case pre => exact fun o s i himg => exec_geomItem_pre himg o
  case dir => exact fun o k s i himg hk => exec_geomItem_dir himg o hk
  case mrg => exact fun o s i himg hmerge => exec_geomItem_mrg himg o hmerge
  case slt => exact fun o j s i himg => exec_geomItem_slt himg o j
  case unaudited => exact fun f e ue s i x hpos himg hent => exec_furrowSlot_unaudited hpos himg hent ue none
  case audited => exact fun f e ue a v s i x hpos himg hent => exec_furrowSlot_audited hpos himg hent ue v a

/-! ## Fetches of the cistern and the tail (R104, R106, R129, R144, R397, R408) -/

section
variable {s : State} {o g : Nat} (hfetch : ∃ f ∈ s.pair.fetch, f.obj = o ∧ f.grp = g ∧ f.data = none)
include hfetch

theorem fetch_any_outstanding :
    s.pair.fetch.any (fun f => decide (f.obj = o) && decide (f.grp = g) && f.data.isNone) = true := by
  obtain ⟨f, hmem, hobj, hgrp, hdata⟩ := hfetch
  exact List.any_eq_true.mpr ⟨f, hmem, by simp [hobj, hgrp, hdata]⟩

/-- R104: the group of an outstanding fetch arrives with its data. -/
theorem exec_cisternFetchDone_good {age : Nat} {errs : List LineErr} {r : State × State} (hr : r = readRuns 0 [(cisAddr o g, 896)] errs s)
    (hlost : dramLost r.1 (cisAddr o g) 896 = false) :
    exec (.cisternFetchDone o g age errs) s = .next (settlePanic (setPair (noteAge age r.1) (fun p => { p with
      fetch := p.fetch.map (fun f => if f.obj = o ∧ f.grp = g ∧ f.data.isNone then
        { f with data := some (some (groupBlks (dramGet r.2 (cisAddr o g) 896))) } else f) }))) := by
  subst hr
  refine congrArg Host.Outcome.next ((if_pos (fetch_any_outstanding hfetch)).trans ?_)
  simp only [hlost, Bool.false_eq_true, if_false]

/-- R106: a group with an uncorrectable line arrives without data, is counted and reported. -/
theorem exec_cisternFetchDone_lost {age : Nat} {errs : List LineErr} {r : State × State} (hr : r = readRuns 0 [(cisAddr o g, 896)] errs s)
    (hlost : dramLost r.1 (cisAddr o g) 896 = true) :
    exec (.cisternFetchDone o g age errs) s = .next (ledgerLim 0x0B02 4 o 1 (fun c => (o, g, c)) (evRaise aCisEvt 1 (pairCount o 24 1
      (settlePanic (setPair (noteAge age r.1) (fun p => { p with
        fetch := p.fetch.map (fun f => if f.obj = o ∧ f.grp = g ∧ f.data.isNone then { f with data := some none } else f) })))))) := by
  subst hr
  refine congrArg Host.Outcome.next ((if_pos (fetch_any_outstanding hfetch)).trans ?_)
  simp only [hlost, if_true]

theorem exec_cisternPanic_outstanding : exec (.cisternPanic o g) s =
    .next (settlePanic (evRaise aCisEvt 3 (setPair s (fun p => { p with
      fetch := p.fetch.map (fun f => if f.obj = o ∧ f.grp = g then { f with panic := true } else f) })))) :=
  congrArg Host.Outcome.next (if_pos (fetch_any_outstanding hfetch))

end

/-- R144: a requested group of tail output arrives and is held on die. -/
theorem exec_tailReadDone_output {s : State} {o g : Nat} (hreq : ∃ f ∈ s.cor.tailReq, f.out = o ∧ f.grp = g) {errs : List LineErr}
    {r : State × State} (hr : r = readRuns 1 [(outGroupAddr s o g, 1600)] errs s) :
    exec (.tailReadDone (.output o g errs)) s = .next (settleTail (setCor r.1 (fun c => { c with
      tailReq := c.tailReq.filter (fun f => !(decide (f.out = o) && decide (f.grp = g))),
      buf := smSet none c.buf (o * 2 + g % 2) (some { grp := g, trs := groupTrs r.2 (outGroupAddr s o g) }) }))) := by
  subst hr
  obtain ⟨f, hmem, hout, hgrp⟩ := hreq
  have hany : s.cor.tailReq.any (fun f => decide (f.out = o) && decide (f.grp = g)) = true :=
    List.any_eq_true.mpr ⟨f, hmem, by simp [hout, hgrp]⟩
  exact congrArg Host.Outcome.next (if_pos hany)

/-- Settles O57, one lemma for each command and outcome. -/
theorem fetchCommandsComplete : Obligations.FetchCommandsComplete := by
  refine ⟨?good, ?lost, ?panic, ?chain, ?output⟩
  case good => exact fun o g age errs s r hfetch hr hlost => exec_cisternFetchDone_good hfetch hr hlost
  case lost =>
    rintro o g age errs s r _ hfetch hr hlost rfl
    exact exec_cisternFetchDone_lost hfetch hr hlost
  case panic => exact fun o g s hfetch => exec_cisternPanic_outstanding hfetch
  case chain => exact fun n s => rfl
  case output => exact fun o g errs s r hreq hr => exec_tailReadDone_output hreq hr

end Sys2Proof.Machine
end

section
/-! Frames and edges of the serial audio ports, the silence pin and the monitor's inputs (R155, R415, R416, R429, R430, R437, R477). -/

namespace Sys2Proof.Machine

/-- R415, R470: the frame of a port that runs: enabled, not lost, and a slave only once it has an index. -/
theorem exec_sapFrame_running {s : State} {p : Nat} (htrip : s.aon.trip = false) (hp : p < 16) (hen : (sapAt s p).enabled = true)
    (hlost : (sapAt s p).lost = false) (hindex : (sapAt s p).master = true ∨ (sapAt s p).last ≠ none) (a b : Nat) :
    exec (.sapFrame p a b) s = .next (sapFrame p a b s) :=
  congrArg Host.Outcome.next (if_pos ⟨htrip, hp, hen, hlost, hindex.imp_right Option.isSome_iff_ne_none.mpr⟩)

section
variable {s : State} {p : Nat} (hp : p < 16) (hen : (sapAt s p).enabled = true) (hslave : (sapAt s p).master = false)
include hp hen hslave

theorem exec_sapWsEdge_slave (f : Nat) (b : Bool) : exec (.sapWsEdge p f b) s = .next (wsEdge p f b s) :=
  congrArg Host.Outcome.next (if_pos ⟨hen, hslave, hp⟩)

theorem exec_sapLost_slave (hlost : (sapAt s p).lost = false) : exec (.sapLost p) s =
    .next (groupUnderrun p (ledger 0x1001 3 p 1 (cntAt (sapAt s p).cnt 4) (evRaise aLauEvt 2 (setSap p { sapAt s p with lost := true } s)))) :=
  congrArg Host.Outcome.next (if_pos ⟨hen, hslave, hlost, hp⟩)

end

/-- R429: a change of MON_CLR_N is recorded with the clear code and reaches every monitor output. -/
theorem monClr_of_change {s : State} {low : Bool} (h : s.aon.monClrLow ≠ low) : monClr low s =
    monSettleAll (ledger 0x1004 2 (if low then 0 else 1) (Word.bits (getReg s aMonClear) 23 0) 0
      (evRaise aLauEvt 6 { s with aon := { s.aon with monClrLow := low } })) :=
  if_neg h

theorem exec_monClrAssert_of_high {s : State} (h : s.aon.monClrLow = false) : exec .monClrAssert s =
    .next (monSettleAll (ledger 0x1004 2 0 (Word.bits (getReg s aMonClear) 23 0) 0
      (evRaise aLauEvt 6 { s with aon := { s.aon with monClrLow := true } }))) :=
  congrArg Host.Outcome.next (monClr_of_change (ne_true_of_eq_false h))

theorem exec_monClrRelease_of_low {s : State} (h : s.aon.monClrLow = true) : exec .monClrRelease s =
    .next (monSettleAll (ledger 0x1004 2 1 (Word.bits (getReg s aMonClear) 23 0) 0
      (evRaise aLauEvt 6 { s with aon := { s.aon with monClrLow := false } }))) :=
  congrArg Host.Outcome.next (monClr_of_change (ne_false_of_eq_true h))

/-- R430: a pin that goes out of its compliance range raises its event and is recorded. -/
theorem exec_monComplyTimer_outside {s : State} {k p : Nat} (hnew : p ∉ (monAt s k).comply) : exec (.monComplyTimer k p true) s =
    .next (ledger 0x1003 3 k p 0 (evRaise aLauEvt 5 (setMon s k { monAt s k with comply := (monAt s k).comply ++ [p] }))) :=
  congrArg Host.Outcome.next (if_neg hnew)

/-- Settles O6, one lemma for each command under conditions; SIL_N_CHANGE and a pin back in its range do the same in every state. -/
theorem audioCommandsComplete : Obligations.AudioCommandsComplete := by
  refine ⟨?frame, ?edge, ?lost, ?silence, ?assert, ?release, ?outside, ?inside⟩
  case frame => exact fun p a b s htrip hp hen hlost hindex => exec_sapFrame_running htrip hp hen hlost hindex a b
  case edge => exact fun p f b s hp hen hslave => exec_sapWsEdge_slave hp hen hslave f b
  case lost => exact fun p s hp hen hslave hlost => exec_sapLost_slave hp hen hslave hlost
  case silence => exact fun b s => rfl
  case assert => exact fun s h => exec_monClrAssert_of_high h
  case release => exact fun s h => exec_monClrRelease_of_low h
  case outside => exact fun k p s hnew => exec_monComplyTimer_outside hnew
  case inside => exact fun k p s => rfl

end Sys2Proof.Machine
end

section
/-! The descriptors of output correction, sluices and meters (R20, R23, R147 to R150, R154, R156, R157, R159 to R161, R163, R179, R196, R406). -/

namespace Sys2Proof.Machine

/-! ## Correction sets and switches (R147 to R150, R159, R179, R196) -/

/-- R160, R406: sets with a tail need DRAM, those without do not. -/
theorem tail_permitted {s : State} {parts : Nat} (h : parts = 0 ∨ s.drc.noDram = false) : ¬ (0 < parts ∧ s.drc.noDram = true) := by
  rintro ⟨hpos, hno⟩
  exact h.elim hpos.ne' fun hdram => Bool.false_ne_true (hdram.symm.trans hno)

theorem exec_corrStage_accepts {d : Desc} {s : State} {bq hd tl : List Byte} (hun : Unused d [(0, 6), (8, 24)]) (hslot : pl d 0 1 ≤ 63)
    (hload : pl d 1 1 ≤ 7) (hmod : pl d 2 2 % 16 = 0) (hlen : pl d 2 2 ≤ 2 * tailB s) (hparts : pl d 4 1 ≤ 30) (hshift : pl d 5 1 ≤ 3)
    (hblocks : stageBlocks d s = (some bq, some hd, some tl)) (hhead : taps24 (tapsOf (hd.length / 4) hd) = true)
    (htail : taps24 (tapsOf (tl.length / 4) tl) = true) (hdram : pl d 4 1 = 0 ∨ s.drc.noDram = false)
    (hfree : slotBusy s (pl d 0 1) = false) : exec (.corrStage d) s = .next (stageOp d bq hd tl s) := by
  refine congrArg Host.Outcome.next ((checked_legal hun (by simp [hslot, hload, hmod, hlen, hparts, hshift])).trans ?_)
  simp only [hblocks, hhead, htail, hfree, if_neg (tail_permitted hdram), Bool.and_self, Bool.not_true, Bool.false_eq_true, if_false]

/-- R147: the load of a slot ends and its operation completes OK. -/
theorem exec_corrStageDone_loading {s : State} {k : Nat} {x : Staging} (hx : s.cor.loading.find? (fun y => decide (y.slot = k)) = some x) :
    exec (.corrStageDone k) s = .next (report x.tok stOk 0 0
      (setCor s (fun c => { c with loading := c.loading.filter (fun y => decide (y.slot ≠ k)) }))) := by
  change execCorrStageDone k s = _
  rw [execCorrStageDone, hx]

/-- R150: each tranche of the crossfade has a lane to spare. -/
theorem lanes_full_eq_false {s : State} {n f : Nat} (h : ∀ i < f, ∀ g, govImg s (n + i) = some g → crossfadesAt s (n + i) < g.xfPar) :
    (List.range f).any (fun i => (govImg s (n + i)).any (fun g => decide (g.xfPar < crossfadesAt s (n + i) + 1))) = false := by
  rw [List.any_eq_false]
  intro i hi
  rw [Bool.not_eq_true, Option.any_eq_false]
  intro g hg
  have hspare := h i (List.mem_range.mp hi) g hg
  exact decide_eq_false (by omega)

/-- R146: the set fits the reservation in the image that governs the switch. -/
theorem govImg_any_unfit_eq_false {s : State} {n o : Nat} {c : CSet} (h : ∀ g, govImg s n = some g → fitsImg c g o = true) :
    (govImg s n).any (fun g => !fitsImg c g o) = false := by
  rw [Option.any_eq_false]
  intro g hg
  rw [h g hg, Bool.not_true]

/-- R148, R179: an accepted switch joins those that wait, with the lane that is free for it (log entry 26). -/
theorem exec_corrSwitch_accepts {d : Desc} {s : State} {n l : Nat} (hun : Unused d [(0, 9), (10, 4)]) (hflags : pl d 8 1 ≤ 1)
    (hout : pl d 10 2 ≤ 1023) (hslot : pl d 12 1 ≤ 63) (hlen : 1 ≤ pl d 13 1) (hlen' : pl d 13 1 ≤ 16)
    (hn : n = keyN d (switchNow s (pl d 10 2) (pl d 12 1))) (hopen : beforeH s (switchDeadline s (pl d 10 2) (pl d 12 1) n) = true)
    (hslotFree : slotBusy s (pl d 12 1) = false) (houtFree : outBusy s (pl d 10 2) n = false)
    (hlanes : ∀ i < pl d 13 1, ∀ g, govImg s (n + i) = some g → crossfadesAt s (n + i) < g.xfPar)
    (hfits : ∀ g, govImg s n = some g → fitsImg (slotSet s (pl d 12 1)) g (pl d 10 2) = true)
    (hswap : switchBreaksSwap s (pl d 10 2) n (pl d 13 1) (slotSet s (pl d 12 1)) = false)
    (hl : l = freeLane s n (pl d 13 1) (pl d 10 2) (pl d 12 1) (xfPar s n (pl d 13 1))) :
    Completes (.corrSwitch d) s (fun t => t.cor.slots = s.cor.slots ∧ t.cor.xfs = s.cor.xfs ++ [{
      n := n, f := pl d 13 1, out := pl d 10 2, slot := pl d 12 1, lane := l, tok := some d.tok, bz := List.replicate 16 {}, done := false }]) := by
  subst hn hl
  refine .of_checked rfl hun (by simp [hflags, hout, hslot, hlen, hlen']) ?_
  simp only [hopen, hslotFree, houtFree, govImg_any_unfit_eq_false hfits, hswap, lanes_full_eq_false hlanes, Bool.or_self, Bool.not_true,
    Bool.false_eq_true, if_false]
  exact ⟨rfl, rfl⟩

/-- R159: the set is written with the spectra of its partitions, all of whose lines could be read. -/
theorem exec_corrSetRead_ok {d : Desc} {errs : List LineErr} {s : State} {c : CSet} {a : Nat → Nat} {r : State × State}
    (hun : Unused d [(0, 9), (10, 2)]) (hmode : pl d 8 1 ≤ 1) (hidx : pl d 10 2 ≤ (if pl d 8 1 = 0 then 1023 else 63))
    (hc : c = (if pl d 8 1 = 0 then (outAt s (pl d 10 2)).set else slotSet s (pl d 10 2)))
    (ha : a = (fun p => if pl d 8 1 = 0 then setSpecAddr (pl d 10 2) p else slotSpecAddr (pl d 10 2) p))
    (hr : r = readRuns 2 ((List.range c.parts).map (fun p => (a p, specSize s))) errs s) (hdram : c.parts = 0 ∨ s.drc.noDram = false)
    (hread : ∀ p < c.parts, dramLost r.2 (a p) (specSize s) = false) : exec (.corrSetRead d errs) s = .next (finish d stOk
      (hostWrite (pl d 0 8) (setBytes c ++ (List.range c.parts).flatMap (fun p => dramGet r.2 (a p) (specSize s))) r.1)) := by
  have hlost : ((List.range c.parts).map (fun p => (a p, specSize s))).any (fun x => dramLost r.2 x.1 x.2) = false := by
    simpa using hread
  refine congrArg Host.Outcome.next ((checked_legal hun (by simp [hmode, hidx])).trans ?_)
  rw [← hc, ← ha]
  simp only [← hr, if_neg (tail_permitted hdram), hlost, Bool.false_eq_true, if_false, List.flatMap_map]

/-! ## Correction counters and state (R159, R161) -/

theorem exec_corrStatus_ok {d : Desc} (hun : Unused d [(0, 8), (10, 5)]) (hfirst : pl d 10 2 ≤ 1023) (hcount : 1 ≤ pl d 12 2)
    (hrange : pl d 10 2 + pl d 12 2 ≤ 1024) (hclear : pl d 14 1 ≤ 1) (s : State) :
    exec (.corrStatus d) s = .next (finish d stOk ((if pl d 14 1 = 1
      then eachObj (fun o t => setOut t o { outAt t o with cnt := [] }) (span (pl d 10 2) (pl d 12 2)) else id)
      (hostWrite (pl d 0 8) ((span (pl d 10 2) (pl d 12 2)).flatMap (corrRecord s)) s))) := by
  refine congrArg Host.Outcome.next ((checked_legal hun (by simp [hfirst, inRange_eq_true hcount hrange, hclear])).trans ?_)
  simp only [plBit_zero_eq hclear, decide_eq_true_eq, ite_apply, id_eq]

/-- A field that is tested only where its flag is set (R154). -/
theorem flagged_limit {flag limit : Bool} (h : flag = true → limit = true) : (!flag || limit) = true := by
  cases flag with
  | false => rfl
  | true => exact h rfl

/-- R154, R159: before H_(N+1) the change is armed. -/
theorem armOutput_arms {d : Desc} {s : State} {n : Nat} (hn : n = keyN d (if s.clk.tidxValid then s.clk.tidx else 0))
    (hopen : beforeH s ((n : Int) + 1) = true) (a : KeyedAct) : Arms n d a s (armOutput d a s) := by
  subst hn
  rw [armOutput, if_pos hopen]
  exact armKeyed_arms ..

section
variable {d : Desc} {s : State} {n : Nat} (hn : n = keyN d (if s.clk.tidxValid then s.clk.tidx else 0))
  (hopen : beforeH s ((n : Int) + 1) = true)
include hn hopen

/-- CORR_CLEAR_STATE is refused only for an output in a crossfade at N. -/
theorem exec_corrClearState_arms (hun : Unused d [(0, 9), (10, 4)]) (hflags : pl d 8 1 ≤ 1) (hfirst : pl d 10 2 ≤ 1023)
    (hcount : 1 ≤ pl d 12 2) (hrange : pl d 10 2 + pl d 12 2 ≤ 1024) (hidle : ∀ o ∈ span (pl d 10 2) (pl d 12 2), xfAt s o n = none) :
    Completes (.corrClearState d) s (Arms n d (.corrClear (pl d 10 2) (pl d 12 2)) s) := by
  have hnone : (span (pl d 10 2) (pl d 12 2)).any (fun o => (xfAt s o n).isSome) = false := by
    rw [List.any_eq_false]
    intro o ho
    simp [hidle o ho]
  refine .of_checked rfl hun (by simp [hflags, hfirst, inRange_eq_true hcount hrange]) ?_
  simp only [← hn, hnone, Bool.and_false, Bool.false_eq_true, if_false]
  exact armOutput_arms hn hopen _

/-! ## Sluices and meters (R154, R156, R157, R160) -/

theorem exec_sluiceSet_arms (hun : Unused d [(0, 9), (10, 4), (16, 8)]) (hflags : pl d 8 1 ≤ 7) (hfirst : pl d 10 2 ≤ 1023)
    (hcount : 1 ≤ pl d 12 2) (hrange : pl d 10 2 + pl d 12 2 ≤ 1024) (hgain : pl d 16 4 ≤ 1073741824)
    (hramp : plBit d 8 1 = true → 1 ≤ pl d 20 2 ∧ pl d 20 2 ≤ 64) (hmute : pl d 22 1 ≤ 1)
    (hmuteRamp : plBit d 8 2 = true → 1 ≤ pl d 23 1 ∧ pl d 23 1 ≤ 16) :
    Completes (.sluiceSet d) s (Arms n d (.sluiceSet (pl d 10 2) (pl d 12 2)
      (if plBit d 8 1 then some ((pl d 16 4 : Nat), pl d 20 2) else none)
      (if plBit d 8 2 then some (plBit d 22 0, pl d 23 1) else none)) s) := by
  refine .of_checked rfl hun ?limits (armOutput_arms hn hopen _)
  have hrt : (!plBit d 8 1 || (decide (1 ≤ pl d 20 2) && decide (pl d 20 2 ≤ 64))) = true := flagged_limit (by simpa using hramp)
  have hmrt : (!plBit d 8 2 || (decide (1 ≤ pl d 23 1) && decide (pl d 23 1 ≤ 16))) = true := flagged_limit (by simpa using hmuteRamp)
  simp only [List.all_cons, List.all_nil, hflags, hfirst, inRange_eq_true hcount hrange, hgain, hrt, hmute, hmrt, decide_true, Bool.and_self]

theorem exec_meterCfg_arms {b : List Byte} (hun : Unused d [(0, 9), (10, 2), (16, 8)]) (hflags : pl d 8 1 ≤ 1) (hwindow : 1 ≤ pl d 10 2)
    (hwindow' : pl d 10 2 ≤ 4096) (hblock : hostBlock d 0 2048 = some b) :
    Completes (.meterCfg d) s (Arms n d (.meterCfg (pl d 10 2) (chunks 128 16 b)) s) := by
  refine .of_checked rfl hun (by simp [hflags, hwindow, hwindow']) ?_
  rw [hblock]
  exact armOutput_arms hn hopen _

end

/-- METER_READ of outputs (mode 0) or groups (mode 1), whose range is within their number. -/
theorem exec_meterRead_ok {d : Desc} {size : Nat} (hun : Unused d [(0, 9), (10, 4)]) (hmode : pl d 8 1 ≤ 1)
    (hsize : size = if pl d 8 1 = 1 then 16 else 1024) (hcount : 1 ≤ pl d 12 2) (hrange : pl d 10 2 + pl d 12 2 ≤ size) (s : State) :
    Completes (.meterRead d) s (fun t => Reports d stOk 0 0 s t ∧ WritesHost (pl d 0 8)
      ((span (pl d 10 2) (pl d 12 2)).flatMap (if pl d 8 1 = 0 then meterRecord s else groupRecord s)) s t) := by
  have hfirst : pl d 10 2 < size := by omega
  refine .of_checked rfl hun (by simp [← hsize, hmode, hfirst, inRange_eq_true hcount hrange]) ?_
  exact ⟨by simp [Reports], (hostWrite_writes ..).congr rfl rfl⟩

theorem exec_meterRead_outputs {d : Desc} (hun : Unused d [(0, 9), (10, 4)]) (hmode : pl d 8 1 = 0) (hcount : 1 ≤ pl d 12 2)
    (hrange : pl d 10 2 + pl d 12 2 ≤ 1024) (s : State) : Completes (.meterRead d) s (fun t => Reports d stOk 0 0 s t ∧
      WritesHost (pl d 0 8) ((span (pl d 10 2) (pl d 12 2)).flatMap (meterRecord s)) s t) := by
  have hread := exec_meterRead_ok hun (by omega) (by rw [hmode]; rfl) hcount hrange s
  rwa [if_pos hmode] at hread

theorem exec_meterRead_groups {d : Desc} (hun : Unused d [(0, 9), (10, 4)]) (hmode : pl d 8 1 = 1) (hcount : 1 ≤ pl d 12 2)
    (hrange : pl d 10 2 + pl d 12 2 ≤ 16) (s : State) : Completes (.meterRead d) s (fun t => Reports d stOk 0 0 s t ∧
      WritesHost (pl d 0 8) ((span (pl d 10 2) (pl d 12 2)).flatMap (groupRecord s)) s t) := by
  have hread := exec_meterRead_ok hun hmode.le (if_pos hmode).symm hcount hrange s
  rwa [if_neg (by omega)] at hread

/-- Settles O31, one lemma for each command; that an accepted CORR_SWITCH takes the lowest free lane is deduced (log entry 26). -/
theorem correctionCommandsComplete : Obligations.CorrectionCommandsComplete := by
  refine ⟨?stage, ?done, ?switch, ?setRead, ?status, ?clear⟩
  case stage =>
    intro d s bq hd tl hun hslot hload hmod hlen hparts hshift hblocks hhead htail hdram hfree
    exact exec_corrStage_accepts hun hslot hload hmod hlen hparts hshift hblocks hhead htail hdram hfree
  case done => exact fun k s x hx => ⟨_, exec_corrStageDone_loading hx, rfl, rfl⟩
  case switch =>
    intro d s n l hun hflags hout hslot hlen hlen' hn hopen hslotFree houtFree hlanes hfits hswap hl
    exact exec_corrSwitch_accepts hun hflags hout hslot hlen hlen' hn hopen hslotFree houtFree hlanes hfits hswap hl
  case setRead =>
    intro d errs s c a r hun hmode hidx hc ha hr hdram hread
    exact exec_corrSetRead_ok hun hmode hidx hc ha hr hdram hread
  case status => exact fun d s hun hfirst hcount hrange hclear => exec_corrStatus_ok hun hfirst hcount hrange hclear s
  case clear =>
    intro d s n hun hflags hfirst hcount hrange hn hidle hopen
    exact exec_corrClearState_arms hn hopen hun hflags hfirst hcount hrange hidle

/-- Settles O32, one lemma for each command and mode. -/
theorem sluiceAndMeterCommandsComplete : Obligations.SluiceAndMeterCommandsComplete := by
  refine ⟨?sluice, ?meterCfg, ?outputs, ?groups⟩
  case sluice =>
    intro d s n hun hflags hfirst hcount hrange hgain hramp hmute hmuteRamp hn hopen
    exact exec_sluiceSet_arms hn hopen hun hflags hfirst hcount hrange hgain hramp hmute hmuteRamp
  case meterCfg =>
    exact fun d s n b hun hflags hwindow hwindow' hblock hn hopen => exec_meterCfg_arms hn hopen hun hflags hwindow hwindow' hblock
  case outputs => exact fun d s hun hmode hcount hrange => exec_meterRead_outputs hun hmode hcount hrange s
  case groups => exact fun d s hun hmode hcount hrange => exec_meterRead_groups hun hmode hcount hrange s

end Sys2Proof.Machine
end

section
/-! The items of the correction engine and the chains of the tail convolver, under an image (R131 to R136, R137 to R144, R149, R153, R179, R180,
R406). -/

namespace Sys2Proof.Machine

section
variable {s : State} {n : Nat} {i : Img} (himg : corImg s = some (n, i))
include himg

/-! ## Equalisers (R132 to R134, R149) -/

theorem exec_bq_out {o : Nat} (ho : o < i.cor.length) : exec (.bq (.out o)) s = .next (bqOut n o i.lanes.length s) := by
  change execBq (.out o) s = _
  simp only [execBq, himg, ho, if_true]

theorem exec_bq_lane {x : Nat} {y : Xf} (hlane : laneXf s i x n = some y) : exec (.bq (.lane x)) s = .next (laneBq y n s) := by
  change execBq (.lane x) s = _
  simp only [execBq, himg, hlane]

/-! ## Heads (R135) -/

theorem exec_head_out {o : Nat} {e : CEnt} (hent : i.cor[o]? = some e) (ue : List Nat) :
    exec (.head (.out o) ue) s = .next (headOp n o (outAt s o).set e false ue s) := by
  change execHead (.out o) ue s = _
  simp only [execHead, himg, hent]

theorem exec_head_lane {x : Nat} {y : Xf} {e : CEnt} (hlane : laneXf s i x n = some y) (hent : i.cor[y.out]? = some e) (ue : List Nat) :
    exec (.head (.lane x) ue) s = .next (headOp n y.out (slotSet s y.slot) e true ue s) := by
  change execHead (.lane x) ue s = _
  simp only [execHead, himg, hlane, hent]

/-! ## Sluices (R136, R149, R153) -/

/-- An output outside a crossfade, or whose crossfade has no lane, sluices its own set. -/
theorem exec_slu_out {o : Nat} {e : CEnt} {r : List Int × State} (hent : i.cor[o]? = some e)
    (hnone : (xfAt s o n).any (fun y => decide (y.lane < i.lanes.length)) = false)
    (hr : r = joinOp n o (tailSrc s o n) (outAt s o).set e (sumsOf (outAt s o).head n) s) :
    exec (.slu (.out o)) s = .next (sluiceOp n o r.1 r.2) := by
  subst hr
  change execSlu (.out o) s = _
  simp only [execSlu, himg, hent, hnone, Bool.false_eq_true, if_false]

/-- R149: a lane joins the old and the new set of its crossfade and sluices their blend. -/
theorem exec_slu_lane {x : Nat} {y : Xf} {e : CEnt} {a b : List Int × State} (hlane : laneXf s i x n = some y)
    (hent : i.cor[y.out]? = some e)
    (ha : a = joinOp n y.out (tailSrc s y.out n) (outAt s y.out).set e (sumsOf (outAt s y.out).head n) s)
    (hb : b = joinOp n y.out (laneSrc s y n) (slotSet s y.slot) e (sumsOf (outAt s y.out).headNew n) a.2) :
    exec (.slu (.lane x)) s = .next (sluiceOp n y.out (blend y n a.1 b.1) b.2) := by
  subst hb ha
  change execSlu (.lane x) s = _
  simp only [execSlu, himg, hlane, hent]

end

/-! ## Tail chains (R137 to R144, R180, R406) -/

/-- The output's own chain runs up to the TM of its reservation. -/
theorem tailUnit_out {i : Img} {o : Nat} {e : CEnt} (hent : corEnt (some i) o = some e) (htm : 1 ≤ e.tailMax) (b m : Nat) (x : ChainObs)
    (s : State) :
    tailUnit (.out o) i b m x s = chainOp o b e.tailMax (setAt s o m) (specAddrs s o m) (tailOutAddr o) true x s := by
  have htail : hasTail (some i) o = true := by simp [hasTail, hent, htm]
  simp only [tailUnit, htail, hent, if_true, Option.map_some, Option.getD_some]

/-- A lane's chain runs on the slot's set of the first crossfade that touches the block. -/
theorem tailUnit_lane {s : State} {i : Img} {l m : Nat} {y : Xf} (hxf : laneBlockXf s l m = some y) (htail : hasTail (some i) y.out = true)
    (hl : l < i.lanes.length) (b : Nat) (x : ChainObs) :
    tailUnit (.lane l) i b m x s = chainOp y.out b 30 (slotSet s y.slot) (slotSpecAddr y.slot) (laneOutAddr l) false x s := by
  simp only [tailUnit, hxf, htail, hl, decide_true, Bool.and_self, if_true]

/-- R166, R180: a chain of the image's tail section starts in its phase of the frame, once there is an input block for it. -/
theorem exec_tailChain_in_phase {u : CorrUnit} {s : State} {i : Img} {b m : Nat} (hdram : s.drc.noDram = false)
    (hblock : tailQ s + 2 ≤ s.clk.tidx) (hb : b = (s.clk.tidx - 2) / tailQ s - 1) (hm : m = tailQ s * (b + 2))
    (himg : tailImg s m = some i) (hphase : (tailPhase i (s.clk.tidx % i.f)).any (fun p => decide (p.1 = chainName u)) = true) (k : Nat)
    (x : ChainObs) : exec (.tailChain u k x) s = .next (noteSlack k (chainPanic (chainSrc u) x (tailUnit u i b m x s))) := by
  subst hm hb
  have hissues : ¬ (s.drc.noDram = true ∨ s.clk.tidx < tailQ s + 2) := by
    rw [not_or, hdram]
    exact ⟨Bool.false_ne_true, Nat.not_lt.mpr hblock⟩
  change execTailChain u k x s = _
  simp only [execTailChain, if_neg hissues, himg, hphase, if_true]

/-- Settles O56, one lemma for each kind of item. -/
theorem correctionItemsComplete : Obligations.CorrectionItemsComplete := by
  refine ⟨?bqOut, ?bqLane, ?headOut, ?headLane, ?sluOut, ?sluLane, ?chainOut, ?chainLane⟩
  case bqOut => exact fun o s n i himg ho => exec_bq_out himg ho
  case bqLane => exact fun x s n i y himg hlane => exec_bq_lane himg hlane
  case headOut => exact fun o ue s n i e himg hent => exec_head_out himg hent ue
  case headLane => exact fun x ue s n i y e himg hlane hent => exec_head_lane himg hlane hent ue
  case sluOut => exact fun o s n i e r himg hent hnone hr => exec_slu_out himg hent hnone hr
  case sluLane => exact fun x s n i y e a b himg hlane hent ha hb => exec_slu_lane himg hlane hent ha hb
  case chainOut =>
    rintro o k x s i _ b m e hdram rfl hblock hb hm himg hphase hent htm
    rw [← tailUnit_out hent htm]
    exact exec_tailChain_in_phase (u := .out o) hdram hblock hb hm himg hphase k x
  case chainLane =>
    rintro l k x s i _ b m y hdram rfl hblock hb hm himg hphase hxf htail hl
    rw [← tailUnit_lane hxf htail hl]
    exact exec_tailChain_in_phase (u := .lane l) hdram hblock hb hm himg hphase k x

end Sys2Proof.Machine
end

section
/-! Loading, starting, swapping, stopping and restarting schedule images, their withdrawal and their records (R187, R191 to R196, R201, R204). -/

namespace Sys2Proof.Machine

/-! ## Loads (R187, R194) -/

theorem exec_schLoad_in_place {d : Desc} {s : State} (hun : Unused d [(0, 13)]) (hmode : pl d 12 1 = 1) (hswap : swapArmed s = false)
    (hstart : armedKind s 1 = none) :
    Completes (.schLoad d) s (fun t => t.sch.loading = some d.tok ∧ t.sch.shadowValid = false) := by
  have hplace : plBit d 12 0 = true := by rw [plBit_zero_eq hmode.le, decide_eq_true hmode]
  refine .of_checked rfl hun (by simp [hplace, hmode]) ?_
  simp only [hplace, if_true, hswap, hstart, Option.isSome_none, Bool.or_self, Bool.false_eq_true, if_false]
  exact ⟨rfl, rfl⟩

theorem exec_schLoad_copy {d : Desc} {s : State} {b : List Byte} (hun : Unused d [(0, 13)]) (hmode : pl d 12 1 = 0) (hlen : 1 ≤ pl d 8 4)
    (hlen' : pl d 8 4 ≤ 16777216) (hblock : hostBlock d 0 (pl d 8 4) = some b) (hswap : swapArmed s = false)
    (hstart : armedKind s 1 = none) :
    Completes (.schLoad d) s (fun t => t.sch.loading = some d.tok ∧ t.sch.shadowValid = false ∧
      t.sch.shadow = storeWrite (loadDone s).sch.shadow 0 b) := by
  have hcopy : plBit d 12 0 = false := by
    rw [plBit_zero_eq (by omega), hmode]
    rfl
  refine .of_checked rfl hun (by simp [hlen, hlen', hmode]) ?_
  simp only [hcopy, hblock, Option.map_some, hswap, hstart, Option.isSome_none, Bool.or_self, Bool.false_eq_true, if_false]
  exact ⟨rfl, rfl, rfl⟩

/-- R187: an image that passes the load checks becomes the valid shadow. -/
theorem loadDone_of_passed {s : State} {tok : Nat} (hload : s.sch.loading = some tok)
    (hpass : imgVerdict (getReg s aPwrLimit).toNat s.sch.shadow = none) :
    loadDone s = report tok stOk 0 0 (evRaise aSchEvt 1 (loadStat 0 0 (setSch s (fun h => { h with
      loading := none, shadowValid := true, shadowSigned := (imgSign s.sch.shadow).2, shadowImg := some (parseImg s.sch.shadow) })))) := by
  simp only [loadDone, hload, hpass]
  rfl

theorem exec_schLoadDone_passed {s : State} {tok : Nat} (hload : s.sch.loading = some tok)
    (hpass : imgVerdict (getReg s aPwrLimit).toNat s.sch.shadow = none) :
    Completes .schLoadDone s (fun t => t.sch.shadowValid = true ∧ t.sch.shadowImg = some (parseImg s.sch.shadow) ∧
      t.sch.loading = none ∧ t.outcomes = s.outcomes ++ [{ tok := tok, status := stOk, result := 0, detail := 0 }]) :=
  ⟨_, congrArg Host.Outcome.next (loadDone_of_passed hload hpass), rfl, rfl, rfl, rfl⟩

/-! ## Arming (R190 to R196, R201) -/

/-- The render state is the new one, whether or not it changes; nothing else of the schedule does. -/
theorem setRender_sch (x : Nat) (s : State) : (setRender x s).sch = { s.sch with st := x } := by
  rw [setRender]
  split
  next hsame => rw [← hsame]
  next => rfl

@[simp] theorem setRender_outcomes (x : Nat) (s : State) : (setRender x s).outcomes = s.outcomes :=
  (setRender_only x s).same .outcomes (by decide)

section
variable {d : Desc} {s : State} (hun : Unused d [(0, 9)]) (hflags : pl d 8 1 ≤ 1)
include hun hflags

theorem exec_schStart_arms {n : Nat} {i : Img} (hn : n = keyN d (leastBefore s 1)) (hopen : beforeH s ((n : Int) - 1) = true)
    (himg : validShadow s = some i) (hstopped : stopped s = true) (hset : s.clk.rateSet = true) (hrate : i.rate = s.clk.rate)
    (hsuits : suitsStart s i n = true) :
    Completes (.schStart d) s (fun t => t.sch.st = 1 ∧
      t.sch.armed = some { kind := 1, n := n, tok := d.tok, shadow := false, origin := 0 }) := by
  have hst : s.sch.st = 0 := of_decide_eq_true hstopped
  subst hn
  refine .of_checked rfl hun (by simp [hflags]) ?_
  simp only [hopen, himg, hstopped, hset, hrate, hsuits, decide_true, Bool.and_self, Bool.not_true, Bool.false_eq_true, if_false, if_true]
  rw [setRender_sch]
  exact ⟨rfl, by rw [← hst]; rfl⟩

theorem exec_schSwap_arms {n : Nat} {i a : Img} (himg : validShadow s = some i) (hact : s.sch.activeImg = some a)
    (hn : n = keyN d (upTo (leastBefore s (tailQ s - 1)) (Nat.lcm i.f a.f))) (hnew : n % i.f = 0) (hold : n % a.f = 0)
    (hopen : beforeH s ((n : Int) - tailQ s + 1) = true) (hst : s.sch.st = 2) (hswap : s.sch.swap = none) (harm : s.sch.armed = none)
    (hcomp : compatible s i n = true) :
    Completes (.schSwap d) s (fun t => t.sch.swap = some { n := n, tok := d.tok, switched := false, byRestart := false } ∧ t.sch.st = 2) := by
  subst hn
  refine .of_checked rfl hun (by simp [hflags]) ?_
  simp only [himg, hact, hnew, hold, hopen, hst, hswap, harm, hcomp, ne_eq, not_true_eq_false, or_self, Option.isNone_none, decide_true,
    Bool.and_self, Bool.not_true, Bool.false_eq_true, if_false, if_true]
  exact ⟨rfl, hst⟩

variable {n : Nat} (hn : n = keyN d (leastBefore s 1)) (hopen : beforeH s ((n : Int) - 1) = true)
include hn hopen

theorem exec_schStop_arms (hst : s.sch.st = 2 ∨ s.sch.st = 4) (harm : s.sch.armed = none) (hswap : swapArmed s = false) :
    Completes (.schStop d) s (fun t => t.sch.st = 3 ∧ t.sch.stopN = some n ∧
      t.sch.armed = some { kind := 3, n := n, tok := d.tok, shadow := false, origin := s.sch.st }) := by
  have hruns : (decide (s.sch.st = 2) || decide (s.sch.st = 4)) = true := by simpa using hst
  subst hn
  refine .of_checked rfl hun (by simp [hflags]) ?_
  simp only [hopen, hruns, harm, hswap, Option.isNone_none, Bool.and_self, Bool.not_true, Bool.not_false, Bool.false_eq_true, if_false, if_true]
  rw [setRender_sch]
  exact ⟨rfl, rfl, rfl⟩

/-- R201: a restart without SHADOW needs the digest of the active store. -/
theorem exec_schRestart_arms (hst : s.sch.st = 4) (harm : s.sch.armed = none) (hdigest : digestGood 48 (imgBody s.sch.active) = true) :
    Completes (.schRestart d) s (fun t => t.sch.armed = some { kind := 4, n := n, tok := d.tok, shadow := false, origin := 4 }) := by
  have hactive : plBit d 8 1 = false := by
    rw [plBit, pow_one, Nat.div_eq_of_lt (by omega)]
    rfl
  have hle : pl d 8 1 ≤ 3 := by omega
  subst hn
  refine .of_checked rfl hun (by simp [hle]) ?_
  simp only [hopen, hst, harm, hactive, hdigest, Option.isNone_none, decide_true, Bool.and_self, Bool.not_true, Bool.false_eq_true, if_false,
    if_true]
  exact hst ▸ rfl

end

/-- Settles O2, one lemma for each command and mode. -/
theorem scheduleCommandsArm : Obligations.ScheduleCommandsArm := by
  refine ⟨?inPlace, ?copy, ?done, ?start, ?swap, ?stop, ?restart⟩
  case inPlace => exact fun d s hun hmode hswap hstart => exec_schLoad_in_place hun hmode hswap hstart
  case copy =>
    exact fun d s b hun hmode hlen hlen' hblock hswap hstart => exec_schLoad_copy hun hmode hlen hlen' hblock hswap hstart
  case done => exact fun s tok hload hpass => exec_schLoadDone_passed hload hpass
  case start =>
    intro d s i n hun hflags hn hopen himg hstopped hset hrate hsuits
    exact exec_schStart_arms hun hflags hn hopen himg hstopped hset hrate hsuits
  case swap =>
    intro d s i a n hun hflags himg hact hn hnew hold hopen hst hswap harm hcomp
    exact exec_schSwap_arms hun hflags himg hact hn hnew hold hopen hst hswap harm hcomp
  case stop => exact fun d s n hun hflags hn hopen hst harm hswap => exec_schStop_arms hun hflags hn hopen hst harm hswap
  case restart =>
    exact fun d s n hun hflags hn hopen hst harm hdigest => exec_schRestart_arms hun hflags hn hopen hst harm hdigest

/-! ## Withdrawal (R193) -/

/-- R193: an armed action whose deadline has not come is withdrawn, and the cancel completes OK. -/
theorem cancelArmed_of_pending {d : Desc} {s : State} {k : Nat} {a : Armed} (harm : armedKind s k = some a) (hpend : armedPending s a = true)
    (undo : Armed → State → State) : cancelArmed d k undo s = finish d stOk (undo a s) := by
  simp only [cancelArmed, harm, hpend, if_true]

section
variable {d : Desc} {s : State} (hun : Unused d [(0, 1)])
include hun

theorem exec_schCancel_start {a : Armed} (hkind : pl d 0 1 = 1) (harm : armedKind s 1 = some a) (hpend : armedPending s a = true) :
    exec (.schCancel d) s = .next (finish d stOk (dropStart s)) := by
  refine congrArg Host.Outcome.next ((checked_legal hun (by simp [hkind])).trans ?_)
  rw [hkind]
  exact cancelArmed_of_pending harm hpend _

theorem exec_schCancel_swap {w : SwapSt} (hkind : pl d 0 1 = 2) (hswap : s.sch.swap = some w) (hown : w.byRestart = false)
    (hpend : swapPending s w = true) :
    Completes (.schCancel d) s (fun t => t.sch.swap = none ∧ t.outcomes = s.outcomes ++
      [{ tok := w.tok, status := stFlushed, result := 0, detail := 0 }, { tok := d.tok, status := stOk, result := 0, detail := 0 }]) := by
  refine .of_checked rfl hun (by simp [hkind]) ?_
  simp only [hkind, hswap, hown, hpend, Bool.false_eq_true, if_false, if_true]
  exact ⟨rfl, List.append_assoc ..⟩

theorem exec_schCancel_stop {a : Armed} (hkind : pl d 0 1 = 3) (harm : armedKind s 3 = some a) (hpend : armedPending s a = true) :
    Completes (.schCancel d) s (fun t => t.sch.armed = none ∧ t.sch.stopN = none ∧ t.sch.st = a.origin ∧ t.outcomes = s.outcomes ++
      [{ tok := a.tok, status := stFlushed, result := 0, detail := 0 }, { tok := d.tok, status := stOk, result := 0, detail := 0 }]) := by
  refine .of_checked rfl hun (by simp [hkind]) ?_
  simp only [hkind, cancelArmed_of_pending harm hpend]
  simp [cancelStop, finish, report, setRender_sch]

theorem exec_schCancel_restart {a : Armed} (hkind : pl d 0 1 = 4) (harm : armedKind s 4 = some a) (hpend : armedPending s a = true) :
    Completes (.schCancel d) s (fun t => t.sch.armed = none ∧ t.sch.st = s.sch.st ∧ t.outcomes = s.outcomes ++
      [{ tok := a.tok, status := stFlushed, result := 0, detail := 0 }, { tok := d.tok, status := stOk, result := 0, detail := 0 }]) := by
  refine .of_checked rfl hun (by simp [hkind]) ?_
  simp only [hkind, cancelArmed_of_pending harm hpend]
  exact ⟨rfl, rfl, List.append_assoc ..⟩

end

/-! ## Records (R204) -/

section
variable {d : Desc} (hun : Unused d [(0, 9)]) (hflags : pl d 8 1 ≤ 1)
include hun hflags

theorem exec_schStatus_ok (s : State) :
    Completes (.schStatus d) s (fun t => Reports d stOk 0 0 s t ∧ WritesHost (pl d 0 8) (schRecord s) s t ∧
      t.sch.liveDrop = (if pl d 8 1 = 1 then 0 else s.sch.liveDrop) ∧ t.sch.masked = (if pl d 8 1 = 1 then 0 else s.sch.masked)) := by
  refine .of_checked rfl hun (by simp [hflags]) ?_
  have hwrites := hostWrite_writes (pl d 0 8) (schRecord s) s
  simp only [plBit_zero_eq hflags, decide_eq_true_eq]
  split
  · exact ⟨by simp [Reports], hwrites.congr rfl rfl, rfl, rfl⟩
  · exact ⟨by simp [Reports], hwrites.congr rfl rfl, by simp, by simp⟩

theorem exec_schInfo_ok (s : State) :
    Completes (.schInfo d) s (fun t => Reports d stOk 0 0 s t ∧
      WritesHost (pl d 0 8) (fit 384 (if pl d 8 1 = 1 then s.sch.shadow else s.sch.active)) s t) := by
  refine .of_checked rfl hun (by simp [hflags]) ?_
  simp only [plBit_zero_eq hflags, decide_eq_true_eq]
  exact ⟨by simp [Reports], (hostWrite_writes ..).congr rfl rfl⟩

end

/-- Settles O3, one lemma for each action withdrawn and for each record. -/
theorem scheduleCancelAndStatusComplete : Obligations.ScheduleCancelAndStatusComplete := by
  refine ⟨?start, ?swap, ?stop, ?restart, ?status, ?info⟩
  case start => exact fun d s a hun hkind harm hpend => exec_schCancel_start hun hkind harm hpend
  case swap => exact fun d s w hun hkind hswap hown hpend => exec_schCancel_swap hun hkind hswap hown hpend
  case stop => exact fun d s a hun hkind harm hpend => exec_schCancel_stop hun hkind harm hpend
  case restart => exact fun d s a hun hkind harm hpend => exec_schCancel_restart hun hkind harm hpend
  case status => exact fun d s hun hflags => exec_schStatus_ok hun hflags s
  case info => exact fun d s hun hflags => exec_schInfo_ok hun hflags s

end Sys2Proof.Machine
end

section
/-! Time-outs, late responses and drains of the bus matrix, and writes to the shadow store (R187, R385, R386). -/

namespace Sys2Proof.Machine

/-- Where nothing is held back, nothing goes on. -/
theorem releaseHeld_of_nothing_held {s : State} (h : s.mtx.held = []) : releaseHeld s = s := by
  have hkept : ({ s.mtx with held := [] } : Mtx) = s.mtx := by rw [← h]
  rw [releaseHeld, h, releaseList]
  change { s with mtx := { s.mtx with held := [] } } = s
  rw [hkept]

/-- R187: a write inside the shadow store makes its image not valid. -/
theorem shadowPut_inside {a : Nat} {b : List Byte} (hne : b ≠ []) (hlow : 0x02000000 ≤ a) (hhigh : a + b.length ≤ 0x03000000) (s : State) :
    shadowPut a b s = setSch s (fun h => { h with
      shadow := storeWrite s.sch.shadow (a - 0x02000000) b, shadowValid := false, shadowSigned := false,
      shadowImg := if s.sch.shadowImg.isSome then some (parseImg (storeWrite s.sch.shadow (a - 0x02000000) b)) else none }) := by
  have hinside : (b.isEmpty || decide (a < 0x02000000) || decide (0x03000000 < a + b.length)) = false := by
    simp [hne, hlow, hhigh]
  rw [shadowPut, hinside]
  rfl

/-- Settles O53: the time-out, the late response and the drain are their operations on the matrix, each followed by what was held back. -/
theorem matrixCommandsComplete : Obligations.MatrixCommandsComplete := by
  refine ⟨?timeout, ?late, ?drain, ?released, ?shadow⟩
  case timeout =>
    rintro t s _ rfl
    rfl
  case late => exact fun t s => rfl
  case drain => exact fun m a b s => rfl
  case released => exact fun s h => releaseHeld_of_nothing_held h
  case shadow =>
    intro a b s g hne hlow hhigh hg
    rw [hg]
    exact congrArg Host.Outcome.next (shadowPut_inside hne hlow hhigh s)

end Sys2Proof.Machine
end

section
/-! Caravans that arrive, that are launched and that leave, and the time-outs of discovery and remote requests (R182, R220, R222, R234, R235). -/

namespace Sys2Proof.Machine

/-! ## Arrivals and launches (R182, R220) -/

theorem exec_caravanReceive_good {l : Nat} {b : List Byte} {s : State} (hup : linkUp s l = true) (hcrc : hcrcGood b = true) (c : Nat)
    (w : Bool) (p : Option QSlip) : exec (.caravanReceive l c b w p) s = .next (takeCaravan l c (hdrOf b) b w p s) := by
  change execCaravanReceive l c b w p s = _
  simp only [execCaravanReceive, hup, hcrc, Bool.not_true, Bool.false_eq_true, if_false]

theorem exec_caravanReceive_bad {l : Nat} {b : List Byte} {s : State} (hup : linkUp s l = true) (hcrc : hcrcGood b = false) (c : Nat)
    (p : Option QSlip) : exec (.caravanReceive l c b true p) s = .next (dropCaravan 20 true l s) := by
  change execCaravanReceive l c b true p s = _
  simp only [execCaravanReceive, hup, hcrc, Bool.not_true, Bool.not_false, Bool.true_or, Bool.false_eq_true, if_false, if_true]

/-- An entry of the active image whose data tranche the image serves is launched; before a partial sum, the merge is settled. -/
theorem exec_launch_entry {l n : Nat} {s : State} {i : Img} {x : Launch} (hn : n < 65536) (himg : s.sch.activeImg = some i)
    (hx : (i.launches.getD l [])[n]? = some x) (hserves : xptServes s n (launchTranche s.clk.tidx x.ty) = true) :
    exec (.launch l n) s = .next (launchOp l (launchTranche s.clk.tidx x.ty) x (if x.ty = 2 then settleMerge s else s)) := by
  have hentry : (xptImg s n).1.bind (fun i => (i.launches.getD l [])[(xptImg s n).2]?) = some x := by
    rw [xptImg, if_pos hn, himg]
    exact hx
  change execLaunch l n s = _
  simp only [execLaunch, hentry, hserves, Bool.not_true, Bool.false_eq_true, if_false]

/-- R182, R217: on an UP link that is not reserved, of a device with a valid address, the caravan joins the link's queue. -/
theorem launchOp_departs {l : Nat} {s : State} (hup : linkUp s l = true) (hfree : reserved15 s l = false) (haddr : (fabAddr s).isSome = true)
    {x : Launch} {m : Nat} {r : List (Nat × Blk × Bool)} {h : CHdr} {v : State} (hr : r = x.srcs.map (fun o => (o, launchRecord s x.ty m o)))
    (hh : h = { dest := x.dest, src := srcField s, ty := x.ty, epoch := epochOf s m, grp := decide (x.b4 / 32 % 2 = 1),
                bcast := decide (x.b4 / 64 % 2 = 1), count := x.srcs.length, stream := x.stream, tidx := m % 65536, hadd := x.hadd,
                ttl := x.ttl, plen := 56 * x.srcs.length })
    (hv : v = if x.ty = 3 then launchChecks (r.map (fun c => (c.1, c.2.2))) s else s) :
    launchOp l m x s =
      hearEpoch (epochOf s m) (queueFrame l (caravanFrame 1 (hdrBytes h ++ r.flatMap (fun c => recBytes c.2.1)) false) v) := by
  subst hv hh hr
  simp only [launchOp, hup, hfree, haddr, Bool.not_false, Bool.and_self, if_true]

/-! ## Egress (R26, R222) -/

section
variable {l : Nat} {s : State} {i : Nat} {f : EFrame} (htrip : s.aon.trip = false) (hnext : nextFrame (linkSt s l).queue = some i)
  (hf : (linkSt s l).queue[i]? = some f)
include htrip hnext hf

/-- A frame leaves as it stands in the queue, but for a launched caravan whose samples slipped. -/
theorem exec_egressFrameStart_unslipped {p : Option QSlip} (hslip : f.cls ≠ 1 ∨ p = none) (df : Nat) :
    Completes (.egressFrameStart l df p) s (fun t => t.outs = s.outs ++ (.link l f.bytes :: if f.fail then [.linkAbort l] else []) ∧
      t.regs = s.regs) := by
  have hnone : (if f.cls = 1 then p else none) = none := by
    rcases hslip with hcls | hp
    · exact if_neg hcls
    · rw [hp, ite_self]
  refine ⟨_, rfl, ?_⟩
  simp only [htrip, Bool.false_eq_true, if_false, hnext, List.getD_eq_getElem?_getD, hf, Option.getD_some, hnone]
  cases f.fail <;> simp

/-- R26: a slip is counted, and its samples read as zero; no register shows it (log entry 96). -/
theorem exec_egressFrameStart_slipped (hcls : f.cls = 1) (df : Nat) (q : QSlip) :
    Completes (.egressFrameStart l df (some q)) s (fun t => t.regs = s.regs ∧ t.fab.slips = bumpAt s.fab.slips (l * 2 + 1) 1 ∧
      t.outs = s.outs ++ (.link l (slipCaravan 17 q.at_ f.bytes) :: if f.fail then [.linkAbort l] else [])) := by
  refine ⟨_, rfl, ?_⟩
  simp only [htrip, Bool.false_eq_true, if_false, hnext, List.getD_eq_getElem?_getD, hf, Option.getD_some, hcls, if_true, Option.isSome_some]
  cases f.fail <;> simp [linkSlip, setLink]

end

/-! ## Requests without an answer (R234, R235) -/

theorem exec_fabDiscTimeout_waiting {tag : Nat} {s : State} {r : DiscReq} (hr : s.fab.disc.find? (fun x => decide (x.tag = tag)) = some r) :
    Completes (.fabDiscTimeout tag) s (fun t => t.fab.disc = s.fab.disc.erase r ∧
      t.outcomes = s.outcomes ++ [{ tok := r.tok, status := stTimeout, result := 0, detail := 0 }]) := by
  refine ⟨_, rfl, ?_⟩
  rw [hr]
  exact ⟨rfl, rfl⟩

section
variable {q : Nat} {s : State} {r : RemReq} (hr : s.fab.remote.find? (fun x => decide (x.seq = q)) = some r)
include hr

theorem exec_remoteRetransmit_given_up (htries : 3 ≤ r.tries) :
    Completes (.remoteRetransmit q) s (fun t => t.fab.remote = s.fab.remote.erase r ∧
      t.outcomes = s.outcomes ++ [{ tok := r.tok, status := stTimeout, result := 0, detail := 0 }]) := by
  refine ⟨_, rfl, ?_⟩
  simp only [hr, if_pos htries]
  exact ⟨rfl, rfl⟩

theorem exec_remoteRetransmit_again (htries : r.tries < 3) :
    exec (.remoteRetransmit q) s = .next (sendMgmt r.dest false false none (mgmtBytes 1 q r.entry) (setFab s (fun b => { b with
      remote := b.remote.map (fun x => if x.seq = q then { x with tries := x.tries + 1 } else x) }))) := by
  change execRemoteRetransmit q s = _
  simp only [execRemoteRetransmit, hr, if_neg (Nat.not_le.mpr htries)]

end

/-- Settles O59, one lemma for each command and outcome; that no register shows an egress slip is the model's choice (log entry 96). -/
theorem caravanCommandsComplete : Obligations.CaravanCommandsComplete := by
  refine ⟨?good, ?bad, ?launch, ?unslipped, ?slipped, ?disc, ?givenUp, ?again⟩
  case good => exact fun l c b w p s hup hcrc => exec_caravanReceive_good hup hcrc c w p
  case bad => exact fun l c b p s hup hcrc => exec_caravanReceive_bad hup hcrc c p
  case launch =>
    rintro l s n i x _ _ r h v hn himg hx rfl hserves rfl hup hfree haddr hr hh hv
    rw [exec_launch_entry hn himg hx hserves, launchOp_departs hup hfree haddr hr hh hv]
  case unslipped => exact fun l df p s i f htrip hnext hf hslip => exec_egressFrameStart_unslipped htrip hnext hf hslip df
  case slipped => exact fun l df q s i f htrip hnext hf hcls => exec_egressFrameStart_slipped htrip hnext hf hcls df q
  case disc => exact fun tag s r hr => exec_fabDiscTimeout_waiting hr
  case givenUp => exact fun q s r hr htries => exec_remoteRetransmit_given_up hr htries
  case again => exact fun q s r hr htries => exec_remoteRetransmit_again hr htries

end Sys2Proof.Machine
end

section
/-! The modes of the part that the manual names, kept by every operation (R190, R440, R484, R488): what keeps them, then the
operations that touch the schedule, the interlock or the boot mailbox. A lemma `f_modes` says that the operation `f` keeps the modes legal. -/

namespace Sys2Proof.Machine

/-! ## What keeps the modes legal -/

/-- The fields that the modes stand in keep their values. -/
theorem ModesLegal.congr {s t : State} (h : ModesLegal s)
    (he : (t.sch.st, t.sch.armed, t.dpx.st, t.aon.bootSrc, t.aon.bootState) =
      (s.sch.st, s.sch.armed, s.dpx.st, s.aon.bootSrc, s.aon.bootState)) : ModesLegal t := by
  simp only [Prod.mk.injEq] at he
  obtain ⟨hst, harmed, hdpx, hsrc, hboot⟩ := he
  rw [ModesLegal, hst, harmed, hdpx, hsrc, hboot]
  exact h

/-- Whether a list of parts holds none that a mode stands in. -/
def modeFree (W : List Part) : Bool := W.all (fun p => match p with
  | .sch | .dpx | .aon => false
  | _ => true)

theorem OnlyChanges.modes {W : List Part} {s t : State} (h : OnlyChanges W s t) (hw : modeFree W = true) (hs : ModesLegal s) :
    ModesLegal t := by
  have hout : ∀ p ∈ W, p ≠ .sch ∧ p ≠ .dpx ∧ p ≠ .aon := by
    intro p hp
    have := List.all_eq_true.mp hw p hp
    cases p <;> simp_all
  have hsch : t.sch = s.sch := h.same .sch fun hp => (hout _ hp).1 rfl
  have hdpx : t.dpx = s.dpx := h.same .dpx fun hp => (hout _ hp).2.1 rfl
  have haon : t.aon = s.aon := h.same .aon fun hp => (hout _ hp).2.2 rfl
  exact hs.congr (by rw [hsch, hdpx, haon])

theorem ite_modes {c : Prop} [Decidable c] {s t : State} (hs : ModesLegal s) (ht : ModesLegal t) : ModesLegal (if c then s else t) := by
  split <;> assumption

theorem foldl_modes {α : Type} {f : State → α → State} (hf : ∀ t a, ModesLegal t → ModesLegal (f t a)) {s : State} (h : ModesLegal s)
    (l : List α) : ModesLegal (l.foldl f s) := by
  induction l generalizing s with
  | nil => exact h
  | cons a l ih => exact ih (hf s a h)

/-- A stop that is withdrawn returns to a legal state. -/
theorem ModesLegal.origin_le {s : State} (h : ModesLegal s) {a : Armed} (ha : s.sch.armed = some a) : a.origin ≤ 4 :=
  h.2.1 a (by rw [ha]; rfl)

/-! Changes of a block that holds a mode: the mode is kept, or takes a legal value. What the change does to the mode comes first, so that
`rfl` can say it of a record update. -/

section
variable {s : State}

theorem setSch_modes {f : Sch → Sch} (hf : (fun x => ((f x).st, (f x).armed)) = fun x => (x.st, x.armed)) (h : ModesLegal s) :
    ModesLegal (setSch s f) := by
  obtain ⟨hst, harmed⟩ := Prod.mk.injEq .. ▸ congrFun hf s.sch
  exact h.congr (by rw [setSch_sch, hst, harmed, setSch_dpx, setSch_aon])

theorem setSch_modes_disarm {f : Sch → Sch} (hf : (fun x => ((f x).st, (f x).armed)) = fun x => (x.st, none)) (h : ModesLegal s) :
    ModesLegal (setSch s f) := by
  obtain ⟨hst, harmed⟩ := Prod.mk.injEq .. ▸ congrFun hf s.sch
  obtain ⟨hle, -, hrest⟩ := h
  refine ⟨?_, ?_, hrest⟩
  · rwa [setSch_sch, hst]
  · rw [setSch_sch, harmed]
    exact nofun

theorem setDpx_modes {f : Dpx → Dpx} (hf : (fun x => (f x).st) = Dpx.st) (h : ModesLegal s) : ModesLegal (setDpx s f) :=
  h.congr (by rw [setDpx_sch, setDpx_dpx, setDpx_aon, congrFun hf s.dpx])

theorem setDpx_modes_enter {f : Dpx → Dpx} (hf : (fun x => Nat.ble (f x).st 2) = fun _ => true) (h : ModesLegal s) :
    ModesLegal (setDpx s f) := by
  obtain ⟨hsch, harmed, -, haon⟩ := h
  exact ⟨hsch, harmed, Nat.le_of_ble_eq_true (congrFun hf s.dpx), haon⟩

theorem setAon_modes {f : Aon → Aon} (hf : (fun x => ((f x).bootSrc, (f x).bootState)) = fun x => (x.bootSrc, x.bootState))
    (h : ModesLegal s) : ModesLegal (setAon s f) := by
  obtain ⟨hsrc, hboot⟩ := Prod.mk.injEq .. ▸ congrFun hf s.aon
  exact h.congr (by rw [setAon_sch, setAon_dpx, setAon_aon, hsrc, hboot])

/-- The boot mailbox takes a legal value; the straps stay as they are. -/
theorem ModesLegal.boot {t : State} (h : ModesLegal s) (he : (t.sch, t.dpx, t.aon.bootSrc) = (s.sch, s.dpx, s.aon.bootSrc))
    (hboot : Nat.ble t.aon.bootState 3 = true) : ModesLegal t := by
  simp only [Prod.mk.injEq] at he
  obtain ⟨hsch, hdpx, hsrc⟩ := he
  obtain ⟨hst, harmed, hle, hstrap, -⟩ := h
  rw [ModesLegal, hsch, hdpx, hsrc]
  exact ⟨hst, harmed, hle, hstrap, Nat.le_of_ble_eq_true hboot⟩

theorem setAon_modes_boot {f : Aon → Aon} (hsrc : (fun x => (f x).bootSrc) = Aon.bootSrc)
    (hboot : (fun x => Nat.ble (f x).bootState 3) = fun _ => true) (h : ModesLegal s) : ModesLegal (setAon s f) :=
  h.boot (by rw [setAon_sch, setAon_dpx, setAon_aon, congrFun hsrc s.aon]) (congrFun hboot s.aon)

/-- The render state takes one of the values of R190. -/
theorem setRender_modes {x : Nat} (hx : Nat.ble x 4 = true) (h : ModesLegal s) : ModesLegal (setRender x s) := by
  obtain ⟨-, hrest⟩ := h
  rw [ModesLegal, setRender_sch, (setRender_only x s).same .dpx (by decide), (setRender_only x s).same .aon (by decide)]
  exact ⟨Nat.le_of_ble_eq_true hx, hrest⟩

end

section
variable {s : State} (h : ModesLegal s)
include h

theorem checked_modes {k : State} (hk : ModesLegal k) {d : Desc} {used : List (Nat × Nat)} {limits : List (Nat × Bool)} :
    ModesLegal (checked d used limits s k) := by
  obtain ⟨off, hbad⟩ | hrun := checked_eq_or d used limits s k
  · rw [hbad]
    exact (badField_only ..).modes rfl h
  · rwa [hrun]

/-! Operations that hold no mode and are used everywhere. -/

theorem setReg_modes {a v} : ModesLegal (setReg s a v) := (setReg_only ..).modes rfl h

theorem setField_modes {a m l v} : ModesLegal (setField s a m l v) := (setField_only ..).modes rfl h

theorem evRaise_modes {a b} : ModesLegal (evRaise a b s) := (evRaise_only ..).modes rfl h

theorem draw_modes : ModesLegal (draw s) := (draw_only ..).modes rfl h

theorem report_modes {a b c d} : ModesLegal (report a b c d s) := (report_only ..).modes rfl h

theorem emit_modes {m} : ModesLegal (emit m s) := (emit_only ..).modes rfl h

theorem setClk_modes {f} : ModesLegal (setClk s f) := (setClk_only ..).modes rfl h

theorem setPtp_modes {f} : ModesLegal (setPtp s f) := (setPtp_only ..).modes rfl h

theorem setGeo_modes {f} : ModesLegal (setGeo s f) := (setGeo_only ..).modes rfl h

theorem setPair_modes {f} : ModesLegal (setPair s f) := (setPair_only ..).modes rfl h

theorem setCor_modes {f} : ModesLegal (setCor s f) := (setCor_only ..).modes rfl h

theorem setFab_modes {f} : ModesLegal (setFab s f) := (setFab_only ..).modes rfl h

theorem setLau_modes {f} : ModesLegal (setLau s f) := (setLau_only ..).modes rfl h

theorem setMtx_modes {f} : ModesLegal (setMtx s f) := (setMtx_only ..).modes rfl h

theorem ledger_modes {a b c d e} : ModesLegal (ledger a b c d e s) := (ledger_only ..).modes rfl h

theorem hostWrite_modes {a b} : ModesLegal (hostWrite a b s) := (hostWrite_only ..).modes rfl h

theorem narrow_modes {be} : ModesLegal (narrow be s) := (narrow_only ..).modes rfl h

theorem monSettleAll_modes : ModesLegal (monSettleAll s) := (monSettleAll_only ..).modes rfl h

theorem armKeyed_modes {n t a} : ModesLegal (armKeyed n t a s) := (armKeyed_only ..).modes rfl h

theorem armCutoff_modes {d a} : ModesLegal (armCutoff d a s) := (armCutoff_only ..).modes rfl h

theorem finish_modes {d st} : ModesLegal (finish d st s) := (finish_only ..).modes rfl h

theorem badField_modes {d o} : ModesLegal (badField d o s) := (badField_only ..).modes rfl h

theorem badBlock_modes {d o} : ModesLegal (badBlock d o s) := (badBlock_only ..).modes rfl h

/-! ## The interlock (R440 to R443, R448 to R453) -/

theorem stopDriving_modes {cause} : ModesLegal (stopDriving cause s) :=
  monSettleAll_modes <| ledger_modes <| evRaise_modes <| setDpx_modes_enter (by rfl) h

theorem disarmed_modes {cause} : ModesLegal (disarmed cause s) := ite_modes (stopDriving_modes h) <| ite_modes (setDpx_modes_enter (by rfl) h) h

theorem clearArm_modes {cause} : ModesLegal (clearArm cause s) := disarmed_modes <| setField_modes h

theorem dpxCount_modes {k} : ModesLegal (dpxCount k s) := setDpx_modes (by rfl) h

theorem startDriving_modes {cause} : ModesLegal (startDriving cause s) :=
  monSettleAll_modes <| ledger_modes <| evRaise_modes <| dpxCount_modes <| setDpx_modes_enter (by rfl) <| draw_modes h

theorem tryClaim_modes : ModesLegal (tryClaim s) := by
  unfold tryClaim
  refine ite_modes ?_ h
  split
  exacts [startDriving_modes h, setDpx_modes_enter (by rfl) h]

theorem armOp_modes {on} : ModesLegal (armOp on s) := ite_modes (tryClaim_modes <| setDpx_modes (by rfl) <| setField_modes h) <| clearArm_modes h

theorem armWriteOp_modes {v} : ModesLegal (armWriteOp v s) := ite_modes (armOp_modes h) h

theorem deviceFault_modes {cause} : ModesLegal (deviceFault cause s) := by
  unfold deviceFault
  extract_lets s1 s2
  have h1 : ModesLegal s1 := setDpx_modes (by rfl) h
  have h2 : ModesLegal s2 := ledger_modes <| evRaise_modes h1
  exact ite_modes (clearArm_modes h2) h2

theorem judge_modes {n} : ModesLegal (judge n s) := by
  unfold judge
  split
  · exact h
  · split
    · exact dpxCount_modes h
    · refine ite_modes (dpxCount_modes h) ?_
      refine ite_modes (ite_modes (ledger_modes <| evRaise_modes <| setDpx_modes (by rfl) h) <| setDpx_modes (by rfl) h) ?_
      extract_lets s1
      have h1 : ModesLegal s1 := dpxCount_modes <| setDpx_modes (by rfl) h
      exact ite_modes h1 <| ledger_modes <| evRaise_modes <| setReg_modes <| setReg_modes h1

theorem judgeAt_modes {k} : ModesLegal (judgeAt k s) := ite_modes (judge_modes h) h

theorem digestBoundary_modes : ModesLegal (digestBoundary sendDpx s) :=
  ite_modes (ite_modes (judgeAt_modes <| setDpx_modes (by rfl) <| (sendDpx_only ..).modes rfl <| setDpx_modes (by rfl) h) <|
    setDpx_modes (by rfl) h) h

theorem syncTurn_modes : ModesLegal (syncTurn s) := setDpx_modes (by rfl) h

theorem syncFault_modes {cause} : ModesLegal (syncFault cause s) := by
  unfold syncFault
  extract_lets s1 s2
  have h1 : ModesLegal s1 := setDpx_modes (by rfl) h
  have h2 : ModesLegal s2 := dpxCount_modes <| evRaise_modes h1
  exact ite_modes h2 <| ledger_modes h2

theorem strobeBoundary_modes : ModesLegal (strobeBoundary s) := by
  unfold strobeBoundary
  refine ite_modes (syncTurn_modes <| ite_modes (emit_modes h) h) ?_
  refine ite_modes ?_ <| syncTurn_modes h
  extract_lets s1
  have h1 : ModesLegal s1 := setDpx_modes (by rfl) <| syncTurn_modes h
  exact ite_modes (syncFault_modes h1) h1

theorem dpxBoundary_modes : ModesLegal (dpxBoundary s) := by
  unfold dpxBoundary
  extract_lets s1
  have h1 : ModesLegal s1 := by
    unfold s1
    split
    exacts [ite_modes (report_modes <| setDpx_modes (by rfl) h) h, h]
  split
  exacts [ite_modes (setDpx_modes (by rfl) h1) h1, h1]

theorem strapConflict_modes {cause} : ModesLegal (strapConflict cause s) := ledger_modes <| evRaise_modes <| setDpx_modes (by rfl) h

theorem dpxFrameReceive_modes {p} : ModesLegal (dpxFrameReceive p s) := by
  unfold dpxFrameReceive
  extract_lets _ s1 s2 s3 _
  have h1 : ModesLegal s1 := setDpx_modes (by rfl) h
  have h2 : ModesLegal s2 := ite_modes h1 <| syncFault_modes h1
  have h3 : ModesLegal s3 := ite_modes (strapConflict_modes h2) h2
  exact ite_modes (dpxCount_modes h3) h3

theorem handoffCheck_modes {kind channel} : ModesLegal (handoffCheck kind channel s) :=
  (ledgerLim_only ..).modes rfl <| evRaise_modes <| dpxCount_modes h

theorem yieldClaim_modes : ModesLegal (yieldClaim s) := by
  unfold yieldClaim
  extract_lets _ _ s1 s2
  have h1 : ModesLegal s1 := setDpx_modes_enter (by rfl) <| draw_modes h
  have h2 : ModesLegal s2 := evRaise_modes h1
  exact ite_modes (strapConflict_modes <| clearArm_modes h2) h2

/-! ## The guard and the schedule (R187 to R201) -/

theorem flushSwap_modes : ModesLegal (flushSwap s) := by
  unfold flushSwap
  split
  exacts [ite_modes (report_modes <| setSch_modes (by rfl) h) h, h]

theorem flushRender_modes : ModesLegal (flushRender s) :=
  (flushSegments_only ..).modes rfl <| (flushTrigs_only ..).modes rfl <| (flushStarts_only ..).modes rfl <| (flushEpoch_only ..).modes rfl <|
    flushSwap_modes <| (flushSwitches_only ..).modes rfl <| (flushKeyed_only ..).modes rfl h

theorem dropStart_modes : ModesLegal (dropStart s) := by
  unfold dropStart
  split
  exacts [report_modes <| setRender_modes rfl <| setSch_modes_disarm (by rfl) h, setRender_modes rfl h]

theorem guardActions_modes {v} : ModesLegal (guardActions v s) :=
  deviceFault_modes <| flushRender_modes <| (guardRecord_only ..).modes rfl <| setSch_modes (by rfl) h

theorem dropStop_modes : ModesLegal (dropStop s) := by
  unfold dropStop
  split
  exacts [report_modes <| setRender_modes rfl <| setSch_modes_disarm (by rfl) h, setRender_modes rfl h]

theorem guardFault_modes {v} : ModesLegal (guardFault v s) := by
  unfold guardFault
  split
  · exact ite_modes ((guardRecord_only ..).modes rfl <| dropStart_modes h) h
  · exact guardActions_modes <| setRender_modes rfl <| (countGuard_only ..).modes rfl h
  · extract_lets s1 s2
    have h1 : ModesLegal s1 := (countGuard_only ..).modes rfl h
    have h2 : ModesLegal s2 := ite_modes (dropStop_modes h1) h1
    exact ite_modes h2 <| guardActions_modes h2
  · exact (countGuard_only ..).modes rfl h
  · exact h

theorem guardFaults_modes {vs : List GuardViol} : ModesLegal (guardFaults vs s) := by
  induction vs generalizing s with
  | nil => exact h
  | cons v vs ih => exact ih (guardFault_modes h)

theorem endPass_modes {n} : ModesLegal (endPass n s) := by
  unfold endPass
  split
  exacts [h, setReg_modes <| h.congr (by rfl)]

theorem sramCe_modes {x} : ModesLegal (sramCe x s) := by
  unfold sramCe
  extract_lets _ _ _ s1 s2 s3
  have h1 : ModesLegal s1 := h.congr (by rfl)
  have h2 : ModesLegal s2 := ite_modes h1 <| setReg_modes <| setReg_modes h1
  have h3 : ModesLegal s3 := evRaise_modes h2
  exact ite_modes (ledger_modes h3) h3

theorem sramCes_modes {xs : List CorrectedLine} : ModesLegal (sramCes xs s) := by
  induction xs generalizing s with
  | nil => exact h
  | cons x xs ih => exact ih (sramCe_modes h)

theorem auditSlot_modes {n f entry a} : ModesLegal (auditSlot n f entry a s) := by
  unfold auditSlot
  refine ite_modes h ?_
  extract_lets _ _ s1 s2 s3
  have h1 : ModesLegal s1 := setPair_modes h
  have h2 : ModesLegal s2 := setReg_modes h1
  refine ite_modes ?_ h2
  have h3 : ModesLegal s3 := evRaise_modes h2
  exact ite_modes (deviceFault_modes h3) h3

theorem guardSlot_modes {v} : ModesLegal (guardSlot v s) := by
  unfold guardSlot
  split
  exacts [guardFault_modes h, h]

theorem shadowPut_modes {a bs} : ModesLegal (shadowPut a bs s) := ite_modes h <| setSch_modes (by rfl) h

theorem exchange_modes {n} : ModesLegal (exchange n s) := setSch_modes (by rfl) h

theorem becomeActive_modes {n} : ModesLegal (becomeActive n s) := ledger_modes <| setSch_modes (by rfl) h

theorem newRun_modes : ModesLegal (newRun s) := setReg_modes <| setReg_modes <| setReg_modes <| setSch_modes (by rfl) h

theorem startActivate_modes {a} : ModesLegal (startActivate a s) :=
  report_modes <| becomeActive_modes <| setRender_modes rfl <| (newFades_only ..).modes rfl <| newRun_modes <| setSch_modes_disarm (by rfl) <|
    exchange_modes <| (zeroChains_only ..).modes rfl <| (zeroPair_only ..).modes rfl h

theorem stopComplete_modes {a} : ModesLegal (stopComplete a s) :=
  report_modes <| ledger_modes <| flushRender_modes <| setRender_modes rfl <| setSch_modes_disarm (by rfl) h

theorem restartDone_modes {a} : ModesLegal (restartDone a s) :=
  report_modes <| ledger_modes <| setRender_modes rfl <| newRun_modes <| setSch_modes_disarm (by rfl) h

theorem swapDone_modes {w} : ModesLegal (swapDone w s) := by
  unfold swapDone
  extract_lets s1
  have h1 : ModesLegal s1 := setSch_modes (by rfl) h
  exact ite_modes h1 <| report_modes <| becomeActive_modes <| evRaise_modes h1

theorem countDrops_modes {n ds} : ModesLegal (countDrops n ds s) := by
  unfold countDrops
  split
  exacts [h, ledger_modes <| evRaise_modes <| setSch_modes (by rfl) h]

theorem switchImages_modes {n} : ModesLegal (switchImages n s) := by
  unfold switchImages
  split
  exacts [(newFades_only ..).modes rfl <| countDrops_modes <| exchange_modes h, h]

theorem restartActivate_modes {a} : ModesLegal (restartActivate a s) := by
  unfold restartActivate
  refine ite_modes (restartDone_modes h) <| ite_modes ?_ <| report_modes <| setSch_modes_disarm (by rfl) h
  extract_lets s1 s2
  have h1 : ModesLegal s1 := by
    unfold s1
    split
    exacts [swapDone_modes h, h]
  exact restartDone_modes <| becomeActive_modes <| setSch_modes (by rfl) <| switchImages_modes h1

theorem armedBoundary_modes {k} : ModesLegal (armedBoundary k s) := by
  unfold armedBoundary
  split
  · exact h
  · split
    exacts [ite_modes (startActivate_modes h) h, ite_modes (stopComplete_modes h) h, ite_modes (restartActivate_modes h) h]

theorem swapBoundary_modes {k} : ModesLegal (swapBoundary k s) := by
  unfold swapBoundary
  split
  exacts [h, ite_modes (setSch_modes (by rfl) <| switchImages_modes h) <| ite_modes (swapDone_modes h) h]

theorem loadDone_modes : ModesLegal (loadDone s) := by
  unfold loadDone
  split
  · exact h
  · extract_lets _ s0
    have h0 : ModesLegal s0 := setSch_modes (by rfl) h
    split
    · exact report_modes <| evRaise_modes <| (loadStat_only ..).modes rfl <| setSch_modes (by rfl) h0
    · exact report_modes <| ledger_modes <| evRaise_modes <| (loadStat_only ..).modes rfl h0

theorem loadBegin_modes {tok img} : ModesLegal (loadBegin tok img s) := setSch_modes (by rfl) <| loadDone_modes h

/-- The state that a stop leaves is the one that its withdrawal returns to. -/
theorem arm_modes {kind n tok shadow} : ModesLegal (arm kind n tok shadow s) := by
  obtain ⟨hst, -, hrest⟩ := h
  refine ⟨hst, ?_, hrest⟩
  rintro _ ⟨⟩
  exact hst

theorem cancelStop_modes {a : Armed} (ha : a.origin ≤ 4) : ModesLegal (cancelStop a s) :=
  report_modes <| setRender_modes (Nat.ble_eq_true_of_le ha) <| setSch_modes_disarm (by rfl) h

theorem cancelSwap_modes {w} : ModesLegal (cancelSwap w s) := report_modes <| setSch_modes (by rfl) h

/-! ## Caravans, launches and local audio (R182, R220, R427, R453) -/

theorem takeCaravan_modes {l cycle hdr b whole slip} : ModesLegal (takeCaravan l cycle hdr b whole slip s) := by
  unfold takeCaravan
  extract_lets s
  have hs : ModesLegal s := (hearFrame_only ..).modes rfl h
  exact ite_modes ((dropCaravan_only ..).modes rfl hs) <| ite_modes (ite_modes (ite_modes (dpxFrameReceive_modes hs) hs) <|
    (dropCaravan_only ..).modes rfl hs) <| ite_modes ((dropCaravan_only ..).modes rfl hs) <| ite_modes ((discReceive_only ..).modes rfl hs) <|
    (routeCaravan_only ..).modes rfl hs

theorem residueFault_modes {bad} : ModesLegal (residueFault bad s) := ite_modes (deviceFault_modes h) h

theorem handoverOp_modes {n badResidue} : ModesLegal (handoverOp n badResidue s) :=
  setPair_modes <| residueFault_modes <| (residues_only ..).modes rfl <| (mergeOuts_only ..).modes rfl <| (auditEnd_only ..).modes rfl h

theorem launchChecks_modes {xs : List (Nat × Bool)} : ModesLegal (launchChecks xs s) := by
  induction xs generalizing s with
  | nil => exact h
  | cons x xs ih => exact ih (ite_modes (handoffCheck_modes h) h)

theorem launchOp_modes {l n x} : ModesLegal (launchOp l n x s) := by
  unfold launchOp
  extract_lets _ _ _ s1
  have h1 : ModesLegal s1 := ite_modes (launchChecks_modes h) h
  exact ite_modes ((hearEpoch_only ..).modes rfl <| (queueFrame_only ..).modes rfl h1) h1

theorem monClr_modes {low} : ModesLegal (monClr low s) :=
  ite_modes h <| monSettleAll_modes <| ledger_modes <| evRaise_modes <| h.congr (by rfl)

theorem sapCheck_modes {p f code idx} : ModesLegal (sapCheck p f code idx s) := ite_modes (handoffCheck_modes h) h

theorem sendFrame_modes {p f} : ModesLegal (sendFrame p f s) := by
  unfold sendFrame
  extract_lets _ s1 _ _
  have h1 : ModesLegal s1 := sapCheck_modes <| sapCheck_modes <| (feedBus_only ..).modes rfl <| (feedBus_only ..).modes rfl h
  exact ite_modes h1 <| emit_modes <| (sapCount_only ..).modes rfl h1

theorem sapFrame_modes {p w0 w1} : ModesLegal (sapFrame p w0 w1 s) := by
  unfold sapFrame
  extract_lets _ _ _ _ s1 s2 s3
  have h1 : ModesLegal s1 := sendFrame_modes h
  have h2 : ModesLegal s2 := ite_modes h1 <| (takeInput_only ..).modes rfl h1
  have h3 : ModesLegal s3 := (sideTones_only ..).modes rfl h2
  exact (setSap_only ..).modes rfl h3

/-! ## The boot mailbox, stewards and withdrawals (R325, R361, R488) -/

theorem bootWrite_modes {v image} : ModesLegal (bootWrite v image s) :=
  ite_modes h <| ite_modes (setField_modes h) <| setField_modes <| h.boot (by rfl) rfl

theorem settleAlive_modes : ModesLegal (settleAlive s) := by
  unfold settleAlive
  refine ite_modes (h.congr (by rfl)) ?_
  extract_lets _ s1 s2
  have h1 : ModesLegal s1 := h.congr (by rfl)
  have h2 : ModesLegal s2 := ledger_modes <| evRaise_modes h1
  exact ite_modes (ite_modes (deviceFault_modes h2) h2) h1

theorem heartbeatOp_modes {c} : ModesLegal (heartbeatOp c s) := settleAlive_modes <| h.congr (by rfl)

theorem withdrawLoad_modes {tok} : ModesLegal (withdrawLoad tok s) := ite_modes (setSch_modes (by rfl) <| draw_modes h) h

theorem withdrawRest_modes {tok} : ModesLegal (withdrawRest tok s) :=
  setFab_modes <| setClk_modes (foldl_modes (fun _ _ ht => (dropStage_only ..).modes rfl ht) (withdrawLoad_modes h) _)

theorem withdrawSwap_modes {tok} : ModesLegal (withdrawSwap tok s) := by
  unfold withdrawSwap
  split
  exacts [ite_modes (setSch_modes (by rfl) h) h, h]

theorem withdrawArmed_modes {tok} : ModesLegal (withdrawArmed tok s) := by
  unfold withdrawArmed
  split
  next a ha =>
    refine ite_modes ?_ h
    split
    · exact setRender_modes rfl <| setSch_modes_disarm (by rfl) h
    · exact setRender_modes (Nat.ble_eq_true_of_le (h.origin_le ha)) <| setSch_modes_disarm (by rfl) h
    · exact setSch_modes_disarm (by rfl) h
  next => exact h

theorem withdrawKeyed_modes {tok} : ModesLegal (withdrawKeyed tok s) :=
  (withdrawStarts_only ..).modes rfl <| withdrawSwap_modes <| withdrawArmed_modes <| setDpx_modes (by rfl) <| setFab_modes <| setCor_modes <|
    ((voidLoaded_only tok s).modes rfl h).congr (by rfl)

theorem withdrawTok_modes {tok} : ModesLegal (withdrawTok tok s) := withdrawRest_modes <| withdrawKeyed_modes h

theorem heartbeatTurn_modes {c} : ModesLegal (heartbeatTurn c s) := (remoteReturns_only ..).modes rfl <| heartbeatOp_modes h

theorem leaveKeyed_modes {tok} : ModesLegal (leaveKeyed tok s) :=
  ite_modes ((voidLoaded_only ..).modes rfl <| draw_modes h) <| withdrawKeyed_modes <| draw_modes h

theorem ownerSilent_modes {tok} : ModesLegal (ownerSilent tok s) := by
  unfold ownerSilent
  extract_lets s
  have hs : ModesLegal s := (commitOutcomes_only ..).modes rfl h
  split
  exacts [ite_modes (leaveKeyed_modes <| withdrawRest_modes <| (abortGiveUp_only ..).modes rfl hs) hs, hs]

theorem loseItem_modes {slot i} : ModesLegal (loseItem slot i s) := by
  unfold loseItem
  extract_lets s _ s1
  have hs : ModesLegal s := (commitOutcomes_only ..).modes rfl h
  have h1 : ModesLegal s1 := (freeSlotOf_only ..).modes rfl <| hs.congr (by rfl)
  split
  exacts [ite_modes ((endUncertain_only ..).modes rfl h1) <| leaveKeyed_modes <| withdrawRest_modes <| (endUncertain_only ..).modes rfl h1, h1]

theorem loseItems_modes {es : List (Nat × Item)} : ModesLegal (loseItems es s) := by
  induction es generalizing s with
  | nil => exact h
  | cons e es ih => exact ih (loseItem_modes h)

theorem haltCores_modes {cores} : ModesLegal (haltCores cores s) := by
  unfold haltCores
  extract_lets _ s1 s2 _ s3
  have h1 : ModesLegal s1 := loseItems_modes h
  have h2 : ModesLegal s2 := foldl_modes (fun _ _ ht => (setCore_only ..).modes rfl ht) h1 _
  have h3 : ModesLegal s3 := (resetMasters_only ..).modes rfl <| h2.congr (by rfl)
  exact ite_modes h3 <| ledger_modes <| evRaise_modes h3

/-! ## Warm resets and the thermal trip (R470, R486) -/

theorem warmInterlock_modes : ModesLegal (warmInterlock s) := clearArm_modes <| setDpx_modes (by rfl) h

theorem warmRender_modes : ModesLegal (warmRender s) := by
  obtain ⟨-, -, hrest⟩ := h
  exact ⟨Nat.zero_le _, nofun, hrest⟩

theorem dropOps_modes : ModesLegal (dropOps s) := by
  unfold dropOps
  extract_lets s1 _ s2
  have h1 : ModesLegal s1 := foldl_modes (fun _ _ ht => withdrawTok_modes ht) h _
  have h2 : ModesLegal s2 := (settleAborts_only ..).modes rfl <| h1.congr (by rfl)
  exact h2.congr (by rfl)

theorem warmAssert_modes {cause} : ModesLegal (warmAssert cause s) := by
  unfold warmAssert
  extract_lets _ s1 s2 s3 s4
  have h1 : ModesLegal s1 := ledger_modes <| evRaise_modes h
  have h2 : ModesLegal s2 := (hostReset_only ..).modes rfl <| (warmRegs_only ..).modes rfl h1
  have h3 : ModesLegal s3 :=
    warmInterlock_modes <| (warmTime_only ..).modes rfl <| (warmControl_only ..).modes rfl <| warmRender_modes <| dropOps_modes h2
  have h4 : ModesLegal s4 := setField_modes h3
  clear_value s4
  exact monSettleAll_modes <| setAon_modes_boot (by rfl) (by rfl) (h4.congr (by rfl))

theorem warmRequest_modes {cause} : ModesLegal (warmRequest cause s) := ite_modes h <| ite_modes (setAon_modes (by rfl) h) <| warmAssert_modes h

theorem wrstWrite_modes {v svc} : ModesLegal (wrstWrite v svc s) := ite_modes (warmRequest_modes h) h

theorem alertJudge_modes {tj} : ModesLegal (alertJudge tj s) :=
  ite_modes (ite_modes (setAon_modes (by rfl) h) h) <| ite_modes (ledger_modes <| evRaise_modes <| setAon_modes (by rfl) h) h

theorem tripActions_modes {tj} : ModesLegal (tripActions tj s) :=
  monSettleAll_modes <| deviceFault_modes <| ledger_modes <| evRaise_modes <| setAon_modes (by rfl) <| h.congr (by rfl)

theorem tripJudge_modes {tj} : ModesLegal (tripJudge tj s) := by
  unfold tripJudge
  extract_lets _ s1
  have h1 : ModesLegal s1 := setAon_modes (by rfl) h
  exact ite_modes (tripActions_modes h1) h1

theorem runDeferred_modes : ModesLegal (runDeferred s) := by
  unfold runDeferred
  split
  exacts [ite_modes h <| warmAssert_modes h, h]

/-! ## Register writes and windows (R335, R379 to R386) -/

theorem actWrite_modes {m a v} {t : State} (ht : actWrite m a v s = some t) : ModesLegal t := by
  unfold actWrite at ht
  split_ifs at ht
  rotate_right
  · split at ht <;> cases ht
    exacts [(sqCfgWrite_only ..).modes rfl h, (cqCfgWrite_only ..).modes rfl h, (segPushOp_only ..).modes rfl h]
  all_goals cases ht
  exacts [(abortWrite_only ..).modes rfl h, wrstWrite_modes h, (kickOp_only ..).modes rfl h, bootWrite_modes h,
    (evrCfgWrite_only ..).modes rfl h, h,
    (drcCtlWrite_only ..).modes rfl h, armWriteOp_modes h, (setAddress_only ..).modes rfl h, h]

theorem stwWrite_modes {m a v} {t : State} (ht : stwWrite m a v s = some t) : ModesLegal t := by
  unfold stwWrite at ht
  split_ifs at ht <;> cases ht
  · split
    exacts [ite_modes (heartbeatTurn_modes h) h, h]
  exacts [settleAlive_modes <| (plainWrite_only ..).modes rfl h, h, h]

theorem sramLine_modes {array line b symbols} : ModesLegal (sramLine array line b symbols s).2.2 := by
  unfold sramLine
  split
  exacts [h, sramCe_modes h, (sramUe_only ..).modes rfl h]

theorem targetRead_modes {m a symbols} : ModesLegal (targetRead m a symbols s).2.2 := by
  unfold targetRead
  extract_lets
  split
  exacts [(readWord_only ..).modes rfl h, sramLine_modes h, draw_modes h, h, sramLine_modes h, (bestRead_only ..).modes rfl h]

theorem targetWrite_modes {m a v be symbols} : ModesLegal (targetWrite m a v be symbols s).2 := by
  unfold targetWrite
  extract_lets
  split
  exacts [ite_modes h <| shadowPut_modes h, (sramPut_only ..).modes rfl h, (bestWrite_only ..).modes rfl h, h]

/-- R365: a report of an owner; `undo` withdraws what the operation has armed. -/
theorem cplReport_modes {undo : Nat → State → State} (hundo : ∀ tok t, ModesLegal t → ModesLegal (undo tok t)) {c : Nat} {cmd : Word} :
    ModesLegal (cplReport undo c cmd s) := by
  unfold cplReport
  extract_lets s1
  have h1 : ModesLegal s1 := (commitOutcomes_only ..).modes rfl h
  refine ite_modes h1 ?_
  split
  · exact (reportCommit_only ..).modes rfl h1
  · exact (reportComplete_only ..).modes rfl h1
  · have hwithdrawn : ModesLegal (reportWithdraw c s1).2 := (reportWithdraw_only ..).modes rfl h1
    split <;> rename_i hreport <;> rw [hreport] at hwithdrawn
    exacts [hundo _ _ hwithdrawn, hwithdrawn]

theorem cplWrite_modes {c off v} : ModesLegal (cplWrite c off v s) := by
  unfold cplWrite
  refine ite_modes (cplReport_modes h fun _ _ ht => withdrawTok_modes ht) ?_
  split
  exacts [(plainWrite_only ..).modes rfl h, h]

theorem localWrite_modes {c a v be} : ModesLegal (localWrite c a v be s) :=
  ite_modes (h.congr (by rfl)) <| ite_modes (h.congr (by rfl)) <| ite_modes (ite_modes ((portWrite_only ..).modes rfl h) h) <|
    ite_modes (ite_modes (cplWrite_modes h) h) <| (coreFault_only ..).modes rfl h

/-! A write through a register window can itself start a window's access: `win` and `write` stand for what the inner one does. -/

theorem blockWrite_modes {win : Bool → Word → State → State} (hwin : ∀ b v t, ModesLegal t → ModesLegal (win b v t)) {m a v be} :
    ModesLegal (blockWrite win m a v be s) := by
  unfold blockWrite
  refine ite_modes h ?_
  split
  · exact h
  · refine ite_modes (hwin _ _ _ h) <| ite_modes (hwin _ _ _ h) ?_
    split
    next ht => exact actWrite_modes h ht
    next ht => exact (irqWrite_only ht).modes rfl h
    next ht => exact stwWrite_modes h ht
    next => exact (plainWrite_only ..).modes rfl h

theorem writeNow_modes {win : Bool → Word → State → State} (hwin : ∀ b v t, ModesLegal t → ModesLegal (win b v t)) {m a v be} :
    ModesLegal (writeNow win m a v be s) :=
  ite_modes ((writeError_only ..).modes rfl h) <| ite_modes ((writeError_only ..).modes rfl h) <| ite_modes (blockWrite_modes h hwin) <|
    ite_modes (targetWrite_modes h) <| (writeError_only ..).modes rfl <| targetWrite_modes h

theorem regWriteWith_modes {win : Bool → Word → State → State} (hwin : ∀ b v t, ModesLegal t → ModesLegal (win b v t)) {m a v be} :
    ModesLegal (regWriteWith win m a v be s) := by
  unfold regWriteWith
  split
  exacts [ite_modes (localWrite_modes h) h, ite_modes ((holdReq_only ..).modes rfl h) <| writeNow_modes h hwin]

section
variable {write : Master → Nat → Word → State → State} (hwrite : ∀ m a v t, ModesLegal t → ModesLegal (write m a v t))
include hwrite

theorem winTarget_modes {svc t data symbols} : ModesLegal (winTarget write svc t data symbols s) :=
  ite_modes
    (ite_modes ((winEnd_only ..).modes rfl <| hwrite _ _ _ _ h) <| (winEnd_only ..).modes rfl <|
      ite_modes (targetWrite_modes h) <| (mtxError_only ..).modes rfl <| targetWrite_modes h) <|
    (winEnd_only ..).modes rfl <| ite_modes (targetRead_modes h) <| (mtxError_only ..).modes rfl <| targetRead_modes h

theorem winAccess_modes {svc t data ans} : ModesLegal (winAccess write svc t data ans s) := by
  unfold winAccess
  refine ite_modes ((winEnd_only ..).modes rfl <| (mtxError_only ..).modes rfl h) ?_
  split
  · exact winTarget_modes h hwrite
  · exact winTarget_modes h hwrite
  · exact (winEnd_only ..).modes rfl <| (mtxError_only ..).modes rfl <| (targetUe_only ..).modes rfl h
  · exact setMtx_modes h

theorem winGoWith_modes {svc ctl ans} : ModesLegal (winGoWith write svc ctl ans s) :=
  ite_modes h <| ite_modes ((holdReq_only ..).modes rfl <| setReg_modes h) <| winAccess_modes (setReg_modes h) hwrite

end

theorem blockWriteNone_modes {m a v} : ModesLegal (blockWriteNone m a v s) := blockWrite_modes h fun _ _ _ ht => ht

theorem blockWriteInner_modes {m a v} : ModesLegal (blockWriteInner m a v s) :=
  blockWrite_modes h fun _ _ _ ht => winGoWith_modes ht fun _ _ _ _ hu => blockWriteNone_modes hu

theorem winGo_modes {svc ctl ans} : ModesLegal (winGo svc ctl ans s) :=
  winGoWith_modes h fun _ _ _ _ ht => blockWriteInner_modes ht

theorem regWrite_modes {m a v be} : ModesLegal (regWrite m a v be s) := regWriteWith_modes h fun _ _ _ ht => winGo_modes ht

theorem performHeld_modes {r : HeldReq} : ModesLegal (performHeld r s) := by
  unfold performHeld
  split
  · exact ite_modes (winAccess_modes h fun _ _ _ _ ht => blockWriteInner_modes ht) h
  · exact writeNow_modes h fun _ _ _ ht => winGo_modes ht

theorem releaseList_modes {rs kept : List HeldReq} : ModesLegal (releaseList rs kept s) := by
  induction rs generalizing kept s with
  | nil => exact setMtx_modes h
  | cons r rs ih => exact ite_modes (ih h) <| ih <| performHeld_modes h

theorem releaseHeld_modes : ModesLegal (releaseHeld s) := releaseList_modes <| setMtx_modes h

theorem svcStore_modes {bs : List (List Byte)} {a : Nat} : ModesLegal (svcStore bs a s) := by
  induction bs generalizing a s with
  | nil => exact h
  | cons b bs ih => exact ih (ite_modes (regWrite_modes h) h)

/-! ## Tranche boundaries (R17, R190) -/

theorem keyedTurn_modes {k} : ModesLegal (keyedTurn k s) := by
  unfold keyedTurn
  extract_lets s1 s2 s3
  have h1 : ModesLegal s1 := (lanesBoundary_only ..).modes rfl <| (switchBoundary_only ..).modes rfl <| (epochBoundary_only ..).modes rfl <|
    armedBoundary_modes <| swapBoundary_modes h
  have h2 : ModesLegal s2 := ite_modes ((takeStage_only ..).modes rfl <| (commitKeyed_only ..).modes rfl h1) h1
  have h3 : ModesLegal s3 := ite_modes ((takeStage_only ..).modes rfl h2) h2
  exact (takeStage_only ..).modes rfl <| (commitKeyed_only ..).modes rfl h3

theorem passTurn_modes {k} : ModesLegal (passTurn k s) := (startPass_only ..).modes rfl <| ite_modes h <| endPass_modes h

theorem renderTurn_modes {k} : ModesLegal (renderTurn k s) :=
  (tailBoundary_only ..).modes rfl <| (cisternBoundary_only ..).modes rfl <| (pairBoundary_only ..).modes rfl <| setPair_modes <|
    (newReservations_only ..).modes rfl <| (silenceBoundary_only ..).modes rfl <| passTurn_modes h

theorem outerTurn_modes {k} : ModesLegal (outerTurn k s) :=
  digestBoundary_modes <| strobeBoundary_modes <| dpxBoundary_modes <| setDpx_modes (by rfl) <| (audioBoundary_only ..).modes rfl <|
    (trigBoundary_only ..).modes rfl <| (mapCapture_only ..).modes rfl <| (handAll_only ..).modes rfl <| (remoteReturns_only ..).modes rfl <|
    (quietBoundary_only ..).modes rfl <| (sendTicks_only ..).modes rfl h

theorem boundary_modes {cycles viol} : ModesLegal (boundary cycles viol s) := by
  unfold boundary
  extract_lets _ s1 s2 s3
  have h1 : ModesLegal s1 := (cutoffOnce_only ..).modes rfl <| (settleMerge_only ..).modes rfl h
  have h2 : ModesLegal s2 := (meterTurn_only ..).modes rfl <| guardFaults_modes h1
  have h3 : ModesLegal s3 := (commitDeadlines_only ..).modes rfl <| keyedTurn_modes <| setClk_modes h2
  exact outerTurn_modes <| renderTurn_modes <| (closeTurn_only ..).modes rfl h3

theorem lostLines_modes {xs : List (Nat × Nat)} : ModesLegal (lostLines xs s) := by
  induction xs generalizing s with
  | nil => exact h
  | cons x xs ih =>
    have hx : ModesLegal (sramUe x.1 x.2 s) := (sramUe_only ..).modes rfl h
    exact ih (ite_modes (deviceFault_modes hx) hx)

theorem observe_modes {x} : ModesLegal (observe x s) :=
  lostLines_modes <| (tcmErrs_only ..).modes rfl <| (refillErrs_only ..).modes rfl <| (monSlips_only ..).modes rfl <| sramCes_modes h

end

end Sys2Proof.Machine
end

section
/-! O15: every command keeps the modes legal (R190, R440, R484, R488). A lemma `execF_modes` says it of the command that `execF` gives. -/

namespace Sys2Proof.Machine

section
variable {s : State} (h : ModesLegal s)
include h

/-! ## Descriptors -/

theorem execSchLoad_modes {d} : Completes (.schLoad d) s ModesLegal := by
  refine ⟨_, rfl, checked_modes h ?_⟩
  split
  exacts [badBlock_modes h, ite_modes (finish_modes h) <| loadBegin_modes h]

theorem execSchStart_modes {d} : Completes (.schStart d) s ModesLegal := by
  refine ⟨_, rfl, checked_modes h ?_⟩
  refine ite_modes (finish_modes h) ?_
  split
  exacts [finish_modes h, ite_modes (setRender_modes rfl <| (emptyAssembly_only ..).modes rfl <| arm_modes h) <| finish_modes h]

theorem execSchSwap_modes {d} : Completes (.schSwap d) s ModesLegal := by
  refine ⟨_, rfl, checked_modes h ?_⟩
  split
  exacts [ite_modes (badField_modes h) <| ite_modes (finish_modes h) <| ite_modes (setSch_modes (by rfl) h) <| finish_modes h, finish_modes h]

theorem armedKind_origin_le {k : Nat} {a : Armed} (ha : armedKind s k = some a) : a.origin ≤ 4 :=
  h.origin_le (Option.filter_eq_some_iff.mp ha).1

theorem cancelArmed_modes {d : Desc} {k : Nat} {undo : Armed → State → State} (hundo : ∀ a, a.origin ≤ 4 → ModesLegal (undo a s)) :
    ModesLegal (cancelArmed d k undo s) := by
  unfold cancelArmed
  split
  next => exact finish_modes h
  next a ha => exact ite_modes (finish_modes <| hundo a <| armedKind_origin_le h ha) (finish_modes h)

theorem execSchCancel_modes {d} : Completes (.schCancel d) s ModesLegal := by
  refine ⟨_, rfl, checked_modes h ?_⟩
  split
  · exact cancelArmed_modes h fun _ _ => dropStart_modes h
  · split
    exacts [finish_modes h, ite_modes (finish_modes h) <| ite_modes (finish_modes <| cancelSwap_modes h) <| finish_modes h]
  · exact cancelArmed_modes h fun _ ha => cancelStop_modes h ha
  · exact cancelArmed_modes h fun _ _ => report_modes <| setSch_modes_disarm (by rfl) h

theorem execSchStop_modes {d} : Completes (.schStop d) s ModesLegal :=
  ⟨_, rfl, checked_modes h <| ite_modes (finish_modes h) <| ite_modes (setRender_modes rfl <| setSch_modes (by rfl) <| arm_modes h) <|
    finish_modes h⟩

theorem execSchRestart_modes {d} : Completes (.schRestart d) s ModesLegal :=
  ⟨_, rfl, checked_modes h <| ite_modes (finish_modes h) <| ite_modes (finish_modes h) <| ite_modes (ite_modes (arm_modes h) <|
    finish_modes h) <| ite_modes (arm_modes h) <| report_modes h⟩

theorem execSchStatus_modes {d} : Completes (.schStatus d) s ModesLegal := by
  refine ⟨_, rfl, checked_modes h ?_⟩
  extract_lets s1
  have h1 : ModesLegal s1 := hostWrite_modes h
  exact finish_modes <| ite_modes (setReg_modes <| setSch_modes (by rfl) h1) h1

theorem eachObj_modes {f : Nat → State → State} (hf : ∀ o t, ModesLegal t → ModesLegal (f o t)) {os : List Nat} :
    ModesLegal (eachObj f os s) := by
  induction os generalizing s with
  | nil => exact h
  | cons o os ih => exact ih (hf o s h)

theorem execObjMap_modes {d} : Completes (.objMap d) s ModesLegal :=
  ⟨_, rfl, checked_modes h <| ite_modes (finish_modes h) <|
    eachObj_modes (armKeyed_modes h) fun _ _ ht => (voidMoved_only ..).modes rfl ht⟩

theorem execObjCond_modes {d} : Completes (.objCond d) s ModesLegal := by
  refine ⟨_, rfl, checked_modes h ?_⟩
  refine ite_modes ?_ <| armCutoff_modes h
  split
  exacts [armCutoff_modes h, badBlock_modes h]

theorem execObjSegBatch_modes {d} : Completes (.objSegBatch d) s ModesLegal := by
  refine ⟨_, rfl, checked_modes h ?_⟩
  split
  exacts [report_modes <| (takeSegs_only ..).modes rfl h, badBlock_modes h]

theorem execObjStatus_modes {d} : Completes (.objStatus d) s ModesLegal := by
  refine ⟨_, rfl, checked_modes h ?_⟩
  extract_lets s1
  have h1 : ModesLegal s1 := hostWrite_modes h
  exact finish_modes <| ite_modes (eachObj_modes h1 fun _ _ ht => (setObj_only ..).modes rfl ht) h1

theorem execObjPrefilter_modes {d} : Completes (.objPrefilter d) s ModesLegal := by
  refine ⟨_, rfl, checked_modes h ?_⟩
  split
  exacts [armCutoff_modes h, badBlock_modes h]

theorem execObjCoarse_modes {d} : Completes (.objCoarse d) s ModesLegal :=
  ⟨_, rfl, checked_modes h <| ite_modes (finish_modes h) <| ite_modes (finish_modes h) <| ite_modes (finish_modes h) <|
    ite_modes (armKeyed_modes h) <| ite_modes (finish_modes h) <| ite_modes (finish_modes h) <| ite_modes (finish_modes h) <|
    armKeyed_modes h⟩

theorem execPairKtbl_modes {d} : Completes (.pairKtbl d) s ModesLegal := by
  refine ⟨_, rfl, checked_modes h ?_⟩
  refine ite_modes ?_ <| ite_modes (ite_modes (finish_modes h) <| (ktblSwitchOp_only ..).modes rfl <| (putInactive_only ..).modes rfl h) <|
    (ktblSwitchOp_only ..).modes rfl h
  split
  · exact badBlock_modes h
  · exact ite_modes (badField_modes h) <| ite_modes (finish_modes h) <| (ktblSwitchOp_only ..).modes rfl <| (putInactive_only ..).modes rfl h

theorem execPairStatus_modes {d} : Completes (.pairStatus d) s ModesLegal := by
  refine ⟨_, rfl, checked_modes h ?_⟩
  extract_lets s1
  have h1 : ModesLegal s1 := hostWrite_modes h
  exact finish_modes <| ite_modes ((clearPairCounts_only ..).modes rfl h1) h1

theorem loadTable_modes {d : Desc} {t size count : Nat} {ok : List Byte → Bool} {put : List (List Byte) → State → State}
    (hput : ∀ rs t, ModesLegal t → ModesLegal (put rs t)) : ModesLegal (loadTable d t size count ok put s) := by
  unfold loadTable
  split
  · exact badBlock_modes h
  · exact ite_modes (badField_modes h) <| ite_modes (finish_modes h) <| finish_modes <| hput _ _ h

theorem execGeoSpkLoad_modes {d} : Completes (.geoSpkLoad d) s ModesLegal :=
  ⟨_, rfl, checked_modes h <| loadTable_modes h fun _ _ ht => setGeo_modes ht⟩

theorem execGeoCubeLoad_modes {d} : Completes (.geoCubeLoad d) s ModesLegal := by
  refine ⟨_, rfl, checked_modes h ?_⟩
  split
  · exact badBlock_modes h
  · exact badBlock_modes h
  · exact ite_modes (badField_modes h) <| ite_modes (finish_modes h) <| ite_modes (finish_modes h) <| finish_modes <|
      (putCube_only ..).modes rfl h

theorem execGeoBankSwitch_modes {d} : Completes (.geoBankSwitch d) s ModesLegal :=
  ⟨_, rfl, checked_modes h <| ite_modes (finish_modes h) <| ite_modes (badField_modes h) <| ite_modes (finish_modes h) <| armKeyed_modes h⟩

theorem execGeoBankSync_modes {d} : Completes (.geoBankSync d) s ModesLegal :=
  ⟨_, rfl, checked_modes h <| ite_modes (finish_modes h) <| finish_modes <| foldl_modes (fun _ _ ht => (syncTable_only ..).modes rfl ht) h _⟩

theorem execGeoObjLaw_modes {d} : Completes (.geoObjLaw d) s ModesLegal := by
  refine ⟨_, rfl, checked_modes h ?_⟩
  split
  exacts [badBlock_modes h, ite_modes (badField_modes h) <| ite_modes (finish_modes h) <| ite_modes (finish_modes h) <| armKeyed_modes h]

theorem execGeoStatus_modes {d} : Completes (.geoStatus d) s ModesLegal := by
  refine ⟨_, rfl, checked_modes h ?_⟩
  extract_lets s1
  have h1 : ModesLegal s1 := hostWrite_modes h
  exact finish_modes <| ite_modes (setGeo_modes h1) h1

theorem execCorrStage_modes {d} : Completes (.corrStage d) s ModesLegal := by
  refine ⟨_, rfl, checked_modes h ?_⟩
  split
  · exact badBlock_modes h
  · exact badBlock_modes h
  · exact badBlock_modes h
  · exact ite_modes (badField_modes h) <| ite_modes (finish_modes h) <| ite_modes (finish_modes h) <| (stageOp_only ..).modes rfl h

theorem execCorrStageDone_modes {slot} : Completes (.corrStageDone slot) s ModesLegal := by
  refine ⟨_, rfl, ?_⟩
  split
  exacts [report_modes <| setCor_modes h, h]

theorem execCorrSwitch_modes {d} : Completes (.corrSwitch d) s ModesLegal :=
  ⟨_, rfl, checked_modes h <| ite_modes (finish_modes h) <| ite_modes (finish_modes h) <| ite_modes (finish_modes h) <| setCor_modes h⟩

theorem execCorrSetRead_modes {d errs} : Completes (.corrSetRead d errs) s ModesLegal :=
  ⟨_, rfl, checked_modes h <| ite_modes (finish_modes h) <| ite_modes (finish_modes <| (readRuns_only ..).modes rfl h) <| finish_modes <|
    hostWrite_modes <| (readRuns_only ..).modes rfl h⟩

theorem execMeterCfg_modes {d} : Completes (.meterCfg d) s ModesLegal := by
  refine ⟨_, rfl, checked_modes h ?_⟩
  split
  exacts [(armOutput_only ..).modes rfl h, badBlock_modes h]

theorem execCorrStatus_modes {d} : Completes (.corrStatus d) s ModesLegal := by
  refine ⟨_, rfl, checked_modes h ?_⟩
  extract_lets s1
  have h1 : ModesLegal s1 := hostWrite_modes h
  exact finish_modes <| ite_modes (eachObj_modes h1 fun _ _ ht => (setOut_only ..).modes rfl ht) h1

theorem bankWrite_modes {d : Desc} {put : Nat → State → State} (hput : ∀ k t, ModesLegal t → ModesLegal (put k t)) :
    ModesLegal (bankWrite d s put) :=
  ite_modes (finish_modes h) <| ite_modes (finish_modes h) <| finish_modes <| hput _ _ h

theorem execFabWbLoad_modes {d} : Completes (.fabWbLoad d) s ModesLegal := by
  refine ⟨_, rfl, checked_modes h ?_⟩
  split
  · exact badBlock_modes h
  · exact ite_modes (badField_modes h) <| ite_modes (finish_modes h) <| bankWrite_modes h fun _ _ ht => setFab_modes ht

theorem execFabGrpLoad_modes {d} : Completes (.fabGrpLoad d) s ModesLegal := by
  refine ⟨_, rfl, checked_modes h ?_⟩
  split
  exacts [badBlock_modes h, ite_modes (badField_modes h) <| bankWrite_modes h fun _ _ ht => setFab_modes ht]

theorem execFabDisc_modes {d} : Completes (.fabDisc d) s ModesLegal := by
  refine ⟨_, rfl, checked_modes h ?_⟩
  split
  exacts [badBlock_modes h, ite_modes (badField_modes h) <| (discStart_only ..).modes rfl h]

theorem execFabMgmtSend_modes {d} : Completes (.fabMgmtSend d) s ModesLegal := by
  refine ⟨_, rfl, checked_modes h ?_⟩
  split
  exacts [badBlock_modes h, ite_modes (finish_modes h) <| finish_modes <| (sendMgmt_only ..).modes rfl h]

theorem execFabRemote_modes {d} : Completes (.fabRemote d) s ModesLegal := by
  refine ⟨_, rfl, checked_modes h ?_⟩
  split
  exacts [badBlock_modes h, ite_modes (finish_modes h) <| (sendMgmt_only ..).modes rfl <| setFab_modes h]

theorem execClkRefCfg_modes {d} : Completes (.clkRefCfg d) s ModesLegal := by
  refine ⟨_, rfl, checked_modes h ?_⟩
  extract_lets s1
  have h1 : ModesLegal s1 := (setRef_only ..).modes rfl h
  exact finish_modes <| ite_modes ((enableRef_only ..).modes rfl h1) <| ite_modes ((disableRef_only ..).modes rfl h1) h1

theorem execClkSelCfg_modes {d} : Completes (.clkSelCfg d) s ModesLegal := by
  refine ⟨_, rfl, checked_modes h ?_⟩
  extract_lets _ s1 s2
  have h1 : ModesLegal s1 := setClk_modes h
  have h2 : ModesLegal s2 := ite_modes (ite_modes ((pruneTimers_only ..).modes rfl h1) h1) <|
    foldl_modes (fun _ _ ht => (clearTimer_only ..).modes rfl ht) h1 _
  exact finish_modes <| (settleWtr_only ..).modes rfl <| (autoSwitch_only ..).modes rfl h2

theorem execClkStatus_modes {d} : Completes (.clkStatus d) s ModesLegal := by
  refine ⟨_, rfl, checked_modes h ?_⟩
  extract_lets t0 t
  have h0 : ModesLegal t0 := hostWrite_modes h
  have ht : ModesLegal t := h0.congr (by rfl)
  exact finish_modes <| ite_modes (setClk_modes ht) ht

theorem execPtpCfg_modes {d} : Completes (.ptpCfg d) s ModesLegal := by
  refine ⟨_, rfl, checked_modes h ?_⟩
  extract_lets s1
  have h1 : ModesLegal s1 := setPtp_modes h
  exact finish_modes <| ite_modes ((ptpEnable_only ..).modes rfl h1) <| ite_modes h1 <| (ptpDisable_only ..).modes rfl h1

theorem execPtpStatus_modes {d} : Completes (.ptpStatus d) s ModesLegal := by
  refine ⟨_, rfl, checked_modes h ?_⟩
  extract_lets t
  have ht : ModesLegal t := hostWrite_modes h
  exact finish_modes <| ite_modes (setPtp_modes ht) ht

theorem execTimeTrig_modes {d} : Completes (.timeTrig d) s ModesLegal :=
  ⟨_, rfl, ite_modes (checked_modes h <| finish_modes <| (disarmTrig_only ..).modes rfl h) <| checked_modes h <|
    ite_modes ((stimulusArm_only ..).modes rfl h) <| ite_modes ((captureArm_only ..).modes rfl h) <|
    ite_modes (ite_modes ((armTrig_only ..).modes rfl h) <| finish_modes h) <| ite_modes (finish_modes h) <| (armTrig_only ..).modes rfl h⟩

theorem execMpPortCfg_modes {d} : Completes (.mpPortCfg d) s ModesLegal :=
  ⟨_, rfl, checked_modes h <| ite_modes (finish_modes h) <| finish_modes <| (setPort_only ..).modes rfl <|
    ite_modes ((portDown_only ..).modes rfl h) h⟩

theorem execMpRxStream_modes {d} : Completes (.mpRxStream d) s ModesLegal :=
  ⟨_, rfl, checked_modes h <| ite_modes (finish_modes h) <| ite_modes (finish_modes h) <| finish_modes <| (joinPaths_only ..).modes rfl <|
    (setRx_only ..).modes rfl h⟩

theorem execMpRxMap_modes {d} : Completes (.mpRxMap d) s ModesLegal :=
  ⟨_, rfl, checked_modes h <| ite_modes (finish_modes h) <| ite_modes (finish_modes h) <| ite_modes (finish_modes h) <| armKeyed_modes h⟩

theorem execMixBus_modes {d} : Completes (.mixBus d) s ModesLegal := by
  refine ⟨_, rfl, checked_modes h ?_⟩
  split
  exacts [badBlock_modes h, badBlock_modes h, ite_modes (badField_modes h) <| finish_modes <| (setBus_only ..).modes rfl h]

theorem execMonTaps_modes {d} : Completes (.monTaps d) s ModesLegal := by
  refine ⟨_, rfl, checked_modes h ?_⟩
  split
  exacts [badBlock_modes h, ite_modes (badField_modes h) <| finish_modes <| setLau_modes h]

theorem execCapCoef_modes {d} : Completes (.capCoef d) s ModesLegal := by
  refine ⟨_, rfl, checked_modes h ?_⟩
  split
  exacts [badBlock_modes h, ite_modes (badField_modes h) <| ite_modes (finish_modes h) <| finish_modes <| setLau_modes h]

theorem execStimLoad_modes {d} : Completes (.stimLoad d) s ModesLegal := by
  refine ⟨_, rfl, checked_modes h ?_⟩
  split
  exacts [badBlock_modes h, ite_modes (badField_modes h) <| ite_modes (finish_modes h) <| finish_modes <| setLau_modes h]

theorem execLauStatus_modes {d} : Completes (.lauStatus d) s ModesLegal := by
  refine ⟨_, rfl, checked_modes h ?_⟩
  extract_lets t
  have ht : ModesLegal t := hostWrite_modes h
  exact finish_modes <| ite_modes ((lauClear_only ..).modes rfl ht) ht

theorem execDpxCfg_modes {d} : Completes (.dpxCfg d) s ModesLegal := by
  refine ⟨_, rfl, checked_modes h ?_⟩
  refine ite_modes (finish_modes h) ?_
  extract_lets s1
  have h1 : ModesLegal s1 := setDpx_modes (by rfl) h
  exact finish_modes <| ite_modes ((xlinkChange_only ..).modes rfl h1) h1

theorem execDpxSwitch_modes {d} : Completes (.dpxSwitch d) s ModesLegal :=
  ⟨_, rfl, checked_modes h <| ite_modes (finish_modes h) <| ite_modes (finish_modes h) <| ite_modes (finish_modes h) <| setDpx_modes (by rfl) h⟩

theorem execDpxStatus_modes {d} : Completes (.dpxStatus d) s ModesLegal := by
  refine ⟨_, rfl, checked_modes h ?_⟩
  extract_lets s1
  have h1 : ModesLegal s1 := hostWrite_modes h
  exact finish_modes <| ite_modes (setDpx_modes (by rfl) h1) h1

theorem execLgrAnnotate_modes {d} : Completes (.lgrAnnotate d) s ModesLegal :=
  ⟨_, rfl, checked_modes h <| ite_modes (finish_modes h) <| ite_modes (finish_modes h) <| report_modes <| (ledgerBy_only ..).modes rfl h⟩

theorem execLgrClear_modes {d} : Completes (.lgrClear d) s ModesLegal :=
  ⟨_, rfl, checked_modes h <| ite_modes (finish_modes h) <| ite_modes (h.congr (by rfl)) <| finish_modes <| ledger_modes <| evRaise_modes <|
    h.congr (by rfl)⟩

theorem execLgrClearDone_modes : Completes .lgrClearDone s ModesLegal := by
  refine ⟨_, rfl, ite_modes ?_ h⟩
  extract_lets _ _ s1
  have h1 : ModesLegal s1 := evRaise_modes <| h.congr (by rfl)
  split
  exacts [report_modes h1, h1]

theorem execStwFwLoad_modes {d} : Completes (.stwFwLoad d) s ModesLegal := by
  refine ⟨_, rfl, checked_modes h ?_⟩
  split
  · exact badBlock_modes h
  · split
    exacts [finish_modes <| h.congr (by rfl), badField_modes h, badField_modes h, report_modes h]

/-! ## Host interface, stewards, resets and interrupts (R361, R484, R488) -/

theorem execFwStopHalt_modes : Completes .fwStopHalt s ModesLegal := by
  refine ⟨_, rfl, ?_⟩
  split
  · extract_lets _ s1 s2
    have h1 : ModesLegal s1 := haltCores_modes <| h.congr (by rfl)
    have h2 : ModesLegal s2 := ite_modes ((startUser_only ..).modes rfl h1) h1
    clear_value s2
    exact report_modes <| ite_modes h2 <| h2.congr (by rfl)
  · exact h

theorem execStwStatus_modes {d} : Completes (.stwStatus d) s ModesLegal := by
  refine ⟨_, rfl, checked_modes h ?_⟩
  extract_lets s1
  have h1 : ModesLegal s1 := hostWrite_modes h
  exact finish_modes <| ite_modes ((clearStw_only ..).modes rfl h1) h1

theorem execUserOpcode_modes {opcode d} : Completes (.userOpcode opcode d) s ModesLegal := by
  refine ⟨_, rfl, ite_modes (finish_modes h) ?_⟩
  split
  · split
    exacts [(forwardItem_only ..).modes rfl h, h]
  · exact h

theorem execOpTimeout_modes {tok} : Completes (.opTimeout tok) s ModesLegal := by
  have h0 := (commitOutcomes_only s).modes rfl h
  refine ⟨_, rfl, ?_⟩
  split
  · exact ite_modes h0 <| (abortOne_only ..).modes rfl <| h0.congr (by rfl)
  · exact h0

/-- R488: the straps say whether the part boots itself. -/
theorem execWarmResetRelease_modes : Completes .warmResetRelease s ModesLegal :=
  ⟨_, rfl, ite_modes (h.boot (by rfl) (by rw [setAon_aon]; split <;> rfl)) (setAon_modes (by rfl) h)⟩

omit h in
theorem darkState_modes : ModesLegal (darkState s) := ⟨Nat.zero_le _, nofun, Nat.zero_le _, Nat.zero_le _, Nat.zero_le _⟩

omit h in
/-- R484: a cold reset takes the straps, and the mailbox is IDLE or BUSY. -/
theorem execColdReset_modes {bootSrc primary} : Completes (.coldReset bootSrc primary) s ModesLegal := by
  refine ⟨_, rfl, Nat.zero_le _, nofun, Nat.zero_le _, Nat.le_of_lt_succ (Nat.mod_lt _ (by decide)), ?_⟩
  rw [setAon_aon]
  dsimp only
  split <;> decide

theorem execCoresReleased_modes {flash} : Completes (.coresReleased flash) s ModesLegal := by
  obtain ⟨s0, hs0⟩ : ∃ s0, s0 = setField { s with aon := { s.aon with
      bootBusy := false, bootImg := none, bootCheck := (bootVerdict s flash).1 } } aBootLen 31 31 0 := ⟨_, rfl⟩
  have h0 : ModesLegal s0 := by
    rw [hs0]
    exact setField_modes <| h.congr (by rfl)
  refine ⟨_, rfl, ?_⟩
  rw [← hs0]
  refine ite_modes h <| ite_modes ((runCores_only ..).modes rfl <| h0.boot (by rfl) (by rfl)) ?_
  extract_lets _ s1
  have h1 : ModesLegal s1 := ledger_modes <| h0.boot (by rfl) (by split <;> rfl)
  exact ite_modes ((setCore_only ..).modes rfl h1) h1

theorem execGetWork_modes {core be} : Completes (.getWork core be) s ModesLegal :=
  ⟨_, rfl, ite_modes h <| ite_modes ((nullHandle_only ..).modes rfl h) <| ite_modes ((nullHandle_only ..).modes rfl h) <|
    (startWait_only ..).modes rfl h⟩

theorem execDspGrant_modes : Completes .dspGrant s ModesLegal := by
  refine ⟨_, rfl, ?_⟩
  split
  exacts [(grantTo_only ..).modes rfl h, h]

theorem execAffinityExpiry_modes {item} : Completes (.affinityExpiry item) s ModesLegal := by
  refine ⟨_, rfl, ?_⟩
  split
  exacts [(putItem_only ..).modes rfl h, h]

theorem execSvcLimit_modes {item} : Completes (.svcLimit item) s ModesLegal := by
  refine ⟨_, rfl, ?_⟩
  split
  · split
    exacts [ite_modes h <| ledger_modes <| evRaise_modes <| (putItem_only ..).modes rfl h, h]
  · exact h

theorem execIrqDeliver_modes : Completes .irqDeliver s ModesLegal := by
  have h0 := (noteEvrFull_only (irqCandidates s) s).modes rfl h
  refine ⟨_, rfl, ?_⟩
  split
  · exact ite_modes ((deliverCore_only ..).modes rfl (h0.congr (by rfl))) <| (deliverHost_only ..).modes rfl <| h0.congr (by rfl)
  · exact h0

theorem execIrqClaim_modes {n be} : Completes (.irqClaim n be) s ModesLegal := by
  refine ⟨_, rfl, narrow_modes ?_⟩
  split
  exacts [h.congr (by rfl), h.congr (by rfl)]

theorem execDoorbellPoll_modes {page entries} : Completes (.doorbellPoll page entries) s ModesLegal := by
  have hs : ModesLegal (if s.hif.inL1 then leaveL1 s else s) := ite_modes ((leaveL1_only ..).modes rfl h) h
  refine ⟨_, rfl, (settleL1_only ..).modes rfl <| ite_modes ?_ hs⟩
  split
  · exact evRaise_modes <| hs.congr (by rfl)
  · exact (fetchAll_only ..).modes rfl <| (pollEvr_only ..).modes rfl <| (pollCqs_only ..).modes rfl <| (pollSqs_only ..).modes rfl <|
      hs.congr (by rfl)

theorem execCqModTimer_modes {ring} : Completes (.cqModTimer ring) s ModesLegal := by
  refine ⟨_, rfl, ite_modes ?_ h⟩
  extract_lets s1
  have h1 : ModesLegal s1 := (setCq_only ..).modes rfl h
  exact ite_modes h1 <| (sendVector_only ..).modes rfl h1

theorem execMatrixTimeout_modes {t} : Completes (.matrixTimeout t) s ModesLegal :=
  ⟨_, rfl, releaseHeld_modes <| setMtx_modes <| (mtxError_only ..).modes rfl <| (winTimeout_only ..).modes rfl <|
    (winTimeout_only ..).modes rfl h⟩

theorem execTrancheBoundary_modes {cycles viol obs} : Completes (.trancheBoundary cycles viol obs) s ModesLegal := by
  refine ⟨_, rfl, ite_modes (boundary_modes ?_) ?_⟩ <;> exact observe_modes h

/-! ## Tranches, links, clocks, media and the interlock (R190, R440) -/

theorem execHandoverPhaseStart_modes {badResidue} : Completes (.handoverPhaseStart badResidue) s ModesLegal := by
  refine ⟨_, rfl, ite_modes h ?_⟩
  split
  exacts [ite_modes h <| handoverOp_modes h, h]

theorem execCond_modes {object} : Completes (.cond object) s ModesLegal := by
  refine ⟨_, rfl, ?_⟩
  split
  exacts [(condOp_only ..).modes rfl h, h]

theorem execGeomItem_modes {item} : Completes (.geomItem item) s ModesLegal := by
  refine ⟨_, rfl, ?_⟩
  split
  · exact h
  · extract_lets
    split
    · exact (runPre_only ..).modes rfl h
    · exact ite_modes ((runDir_only ..).modes rfl h) h
    · exact ite_modes ((runMrg_only ..).modes rfl h) h
    · exact (runSlt_only ..).modes rfl h

theorem execFurrowSlot_modes {furrow entry ue audit viol} : Completes (.furrowSlot furrow entry ue audit viol) s ModesLegal := by
  refine ⟨_, rfl, ?_⟩
  split
  · exact h
  · extract_lets s1 s2
    have h1 : ModesLegal s1 := (slotOp_only ..).modes rfl <| (markWins_only ..).modes rfl h
    have h2 : ModesLegal s2 := by
      unfold s2
      split
      exacts [auditSlot_modes h1, h1]
    exact guardSlot_modes h2

theorem execBq_modes {u} : Completes (.bq u) s ModesLegal := by
  refine ⟨_, rfl, ?_⟩
  split
  · exact h
  · split
    · exact ite_modes ((bqOut_only ..).modes rfl h) h
    · split
      exacts [(laneBq_only ..).modes rfl h, h]

theorem execHead_modes {u ue} : Completes (.head u ue) s ModesLegal := by
  refine ⟨_, rfl, ?_⟩
  split
  · exact h
  · split
    · split
      exacts [(headOp_only ..).modes rfl h, h]
    · split
      · split
        exacts [(headOp_only ..).modes rfl h, h]
      · exact h

theorem execSlu_modes {u} : Completes (.slu u) s ModesLegal := by
  refine ⟨_, rfl, ?_⟩
  split
  · exact h
  · split
    · split
      exacts [ite_modes h <| (sluiceOp_only ..).modes rfl <| (joinOp_only ..).modes rfl h, h]
    · split
      · split
        exacts [(sluiceOp_only ..).modes rfl <| (joinOp_only ..).modes rfl <| (joinOp_only ..).modes rfl h, h]
      · exact h

theorem execTailChain_modes {u slack obs} : Completes (.tailChain u slack obs) s ModesLegal := by
  refine ⟨_, rfl, ite_modes h ?_⟩
  split
  exacts [h, ite_modes ((noteSlack_only ..).modes rfl <| (chainPanic_only ..).modes rfl <| (tailUnit_only ..).modes rfl h) h]

theorem execLaunch_modes {link entry} : Completes (.launch link entry) s ModesLegal := by
  refine ⟨_, rfl, ?_⟩
  split
  exacts [h, ite_modes h <| launchOp_modes <| ite_modes ((settleMerge_only ..).modes rfl h) h]

theorem execForm_modes {port entry} : Completes (.form port entry) s ModesLegal := by
  refine ⟨_, rfl, ?_⟩
  split
  · exact h
  · split
    · exact h
    · split
      exacts [h, ite_modes ((formPacket_only ..).modes rfl h) h]

theorem execCisternFetchDone_modes {o g age errs} : Completes (.cisternFetchDone o g age errs) s ModesLegal := by
  refine ⟨_, rfl, ite_modes ?_ h⟩
  extract_lets _ _ _ _ s2 s3
  have h2 : ModesLegal s2 := setPair_modes <| (noteAge_only ..).modes rfl <| (readRuns_only ..).modes rfl h
  have h3 : ModesLegal s3 := (settlePanic_only ..).modes rfl h2
  exact ite_modes ((ledgerLim_only ..).modes rfl <| evRaise_modes <| (pairCount_only ..).modes rfl h3) h3

theorem execDpxStrobeReceive_modes {skew wide} : Completes (.dpxStrobeReceive skew wide) s ModesLegal := by
  refine ⟨_, rfl, ite_modes h <| ite_modes (syncFault_modes ?_) <| ite_modes (syncFault_modes ?_) ?_⟩ <;>
    exact setReg_modes <| setDpx_modes (by rfl) h

theorem execFecWindow_modes {link corrected uncorrectable} : Completes (.fecWindow link corrected uncorrectable) s ModesLegal := by
  refine ⟨_, rfl, ite_modes ((linkGoesDown_only ..).modes rfl ?_) ?_⟩ <;>
    exact (linkCount_only ..).modes rfl <| (linkCount_only ..).modes rfl h

theorem execHelloLost_modes {link} : Completes (.helloLost link) s ModesLegal := by
  refine ⟨_, rfl, ite_modes ((linkGoesDown_only ..).modes rfl ?_) <| (setLink_only ..).modes rfl ?_⟩ <;> exact (setLink_only ..).modes rfl h

theorem execEgressFrameStart_modes {link defer slip} : Completes (.egressFrameStart link defer slip) s ModesLegal := by
  refine ⟨_, rfl, ?_⟩
  extract_lets
  split
  · exact h
  · extract_lets _ _ _ s0 s1
    have h0 : ModesLegal s0 := ite_modes ((linkSlip_only ..).modes rfl h) h
    have h1 : ModesLegal s1 := emit_modes <| (setLink_only ..).modes rfl h0
    exact ite_modes (emit_modes h1) h1

theorem execFabDiscTimeout_modes {tag} : Completes (.fabDiscTimeout tag) s ModesLegal := by
  refine ⟨_, rfl, ?_⟩
  split
  exacts [report_modes <| setFab_modes h, h]

theorem execRemoteRetransmit_modes {seq} : Completes (.remoteRetransmit seq) s ModesLegal := by
  refine ⟨_, rfl, ?_⟩
  split
  exacts [h, ite_modes (report_modes <| setFab_modes h) <| (sendMgmt_only ..).modes rfl <| setFab_modes h]

theorem execFreqWindow_modes {ref offset} : Completes (.freqWindow ref offset) s ModesLegal := by
  refine ⟨_, rfl, ite_modes ?_ h⟩
  extract_lets _ _ s1
  have h1 : ModesLegal s1 := (setRef_only ..).modes rfl h
  exact ite_modes ((refFault_only ..).modes rfl h1) <| (refRecover_only ..).modes rfl h1

theorem execDriftEval_modes {offsets} : Completes (.driftEval offsets) s ModesLegal :=
  ⟨_, rfl, (driftJudge_only ..).modes rfl <| (xoJudge_only ..).modes rfl <| (relTake_only ..).modes rfl <| (driftTake_only ..).modes rfl h⟩

theorem execWtrExpiry_modes {ref} : Completes (.wtrExpiry ref) s ModesLegal :=
  ⟨_, rfl, ite_modes ((settleWtr_only ..).modes rfl <| ite_modes ((clearTimer_only ..).modes rfl <| (switchExpired_only ..).modes rfl <|
    (setRef_only ..).modes rfl h) <| (switchExpired_only ..).modes rfl <| (setRef_only ..).modes rfl h) h⟩

theorem execTidxSet_modes {tick24} : Completes (.tidxSet tick24) s ModesLegal := by
  refine ⟨_, rfl, ?_⟩
  split
  exacts [h, outerTurn_modes <| (takeIndex_only ..).modes rfl h]

theorem execMpLockLoss_modes {port} : Completes (.mpLockLoss port) s ModesLegal := by
  refine ⟨_, rfl, ite_modes ?_ h⟩
  extract_lets _ s1
  have h1 : ModesLegal s1 := (setPort_only ..).modes rfl h
  exact ite_modes ((portDown_only ..).modes rfl h1) h1

theorem execTxLateDrop_modes {port} : Completes (.txLateDrop port) s ModesLegal := by
  refine ⟨_, rfl, ?_⟩
  split
  exacts [evRaise_modes <| (txCount_only ..).modes rfl <| (portCount_only ..).modes rfl <| (setPort_only ..).modes rfl h, h]

theorem execMpFrameDepart_modes {port slip} : Completes (.mpFrameDepart port slip) s ModesLegal := by
  refine ⟨_, rfl, ite_modes ?_ h⟩
  split
  exacts [(departFrame_only ..).modes rfl <| (setPort_only ..).modes rfl h, h]

theorem execPtpDelayResp_modes {seqId t4 correction} : Completes (.ptpDelayResp seqId t4 correction) s ModesLegal := by
  refine ⟨_, rfl, ?_⟩
  split
  exacts [ite_modes h <| setPtp_modes h, h]

theorem execTrigFire_modes {pin} : Completes (.trigFire pin) s ModesLegal := by
  refine ⟨_, rfl, ?_⟩
  split
  exacts [h, ite_modes (ite_modes ((setPin_only ..).modes rfl <| setPtp_modes h) h) <| ite_modes ((setPin_only ..).modes rfl <|
    setPtp_modes h) h]

theorem execMonComplyTimer_modes {output pin outside} : Completes (.monComplyTimer output pin outside) s ModesLegal :=
  ⟨_, rfl, ite_modes (ite_modes h <| ledger_modes <| evRaise_modes <| (setMon_only ..).modes rfl h) <| (setMon_only ..).modes rfl h⟩

theorem execPeerAssert_modes : Completes .peerAssert s ModesLegal := by
  refine ⟨_, rfl, ite_modes (ite_modes (setDpx_modes (by rfl) h) (yieldClaim_modes <| setDpx_modes (by rfl) h)) <|
    ite_modes ?_ (setDpx_modes (by rfl) h)⟩
  extract_lets s1
  have h1 : ModesLegal s1 := ledger_modes <| evRaise_modes <| setDpx_modes (by rfl) h
  exact ite_modes h1 <| stopDriving_modes h1

theorem execCommandedRelease_modes : Completes .commandedRelease s ModesLegal := by
  refine ⟨_, rfl, ite_modes h ?_⟩
  split
  · exact ite_modes h <| ite_modes (stopDriving_modes h) <| report_modes <| setDpx_modes (by rfl) h
  · split
    exacts [ite_modes (stopDriving_modes h) h, h]

theorem execFlashOpDone_modes {erase ok} : Completes (.flashOpDone erase ok) s ModesLegal := by
  refine ⟨_, rfl, ite_modes h ?_⟩
  split
  exacts [(eraseDone_only ..).modes rfl h, (programDone_only ..).modes rfl h]

theorem execDramTrainDone_modes {r} : Completes (.dramTrainDone r) s ModesLegal := by
  refine ⟨_, rfl, ?_⟩
  split
  · exact ledger_modes <| evRaise_modes <| (setDrc_only ..).modes rfl <| (trainLanes_only ..).modes rfl <| setField_modes <|
      (setDrc_only ..).modes rfl h
  · exact ite_modes ((trainLanes_only ..).modes rfl <| setField_modes <| (setDrc_only ..).modes rfl h) <| (enterNoDram_only ..).modes rfl <|
      (trainLanes_only ..).modes rfl <| setField_modes <| (setDrc_only ..).modes rfl h

theorem execMr4Poll_modes {channel value} : Completes (.mr4Poll channel value) s ModesLegal := by
  have h1 {f} : ModesLegal (setDrc s f) := (setDrc_only ..).modes rfl h
  refine ⟨_, rfl, ite_modes (ledger_modes <| evRaise_modes ?_) ?_⟩ <;>
    exact ite_modes h1 <| ledger_modes <| evRaise_modes <| (payExcess_only ..).modes rfl h1

theorem execRefreshAccrual_modes {channel bank idle idled} : Completes (.refreshAccrual channel bank idle idled) s ModesLegal := by
  have h0 {banks} : ModesLegal (payIdle channel banks s) := (payIdle_only ..).modes rfl h
  have h1 {banks f} : ModesLegal (setDrc (payIdle channel banks s) f) := (setDrc_only ..).modes rfl h0
  exact ⟨_, rfl, ite_modes h0 <| ite_modes h1 <| ite_modes (ite_modes ((ledgerLim_only ..).modes rfl <| evRaise_modes h1) h1) h1⟩

theorem execScrubRead_modes {line symbols} : Completes (.scrubRead line symbols) s ModesLegal := by
  refine ⟨_, rfl, ite_modes h ?_⟩
  split
  exacts [ite_modes h <| (dramPut_only ..).modes rfl <| (lineRead_only ..).modes rfl h, (lineRead_only ..).modes rfl h]

theorem execTailReadDone_modes {r} : Completes (.tailReadDone r) s ModesLegal := by
  refine ⟨_, rfl, ?_⟩
  split
  · exact (settleTail_only ..).modes rfl <| setCor_modes h
  · exact ite_modes ((settleTail_only ..).modes rfl <| setCor_modes <| (readRuns_only ..).modes rfl h) h

theorem execJtagTapOperation_modes {op} : Completes (.jtagTapOperation op) s ModesLegal :=
  ⟨_, rfl, setAon_modes (by cases op <;> rfl) h⟩

/-- Every command keeps the modes legal. -/
theorem exec_modes : ∀ c, Completes c s ModesLegal
  | .hifNop _ => ⟨_, rfl, checked_modes h <| report_modes h⟩
  | .hifAbort _ => ⟨_, rfl, checked_modes h <| (startAbort_only ..).modes rfl h⟩
  | .hifSqDisable _ => ⟨_, rfl, checked_modes h <| ite_modes (finish_modes h) <| (sqDisableStart_only ..).modes rfl h⟩
  | .hifStatus _ => ⟨_, rfl, checked_modes h <| finish_modes <| hostWrite_modes h⟩
  | .hifIdentify _ => ⟨_, rfl, checked_modes h <| finish_modes <| hostWrite_modes h⟩
  | .schLoad _ => execSchLoad_modes h
  | .schLoadDone => ⟨_, rfl, loadDone_modes h⟩
  | .schStart _ => execSchStart_modes h
  | .schSwap _ => execSchSwap_modes h
  | .schCancel _ => execSchCancel_modes h
  | .schStop _ => execSchStop_modes h
  | .schRestart _ => execSchRestart_modes h
  | .schStatus _ => execSchStatus_modes h
  | .schInfo _ => ⟨_, rfl, checked_modes h <| finish_modes <| hostWrite_modes h⟩
  | .objMap _ => execObjMap_modes h
  | .objCond _ => execObjCond_modes h
  | .objSegment _ => ⟨_, rfl, report_modes <| (takeSeg_only ..).modes rfl h⟩
  | .objSegBatch _ => execObjSegBatch_modes h
  | .objCtl _ => ⟨_, rfl, checked_modes h <| ite_modes (finish_modes h) <| armCutoff_modes h⟩
  | .objAlignSet _ => ⟨_, rfl, checked_modes h <| ite_modes (finish_modes h) <| ite_modes (finish_modes h) <| finish_modes <| h.congr (by rfl)⟩
  | .objStatus _ => execObjStatus_modes h
  | .objPrefilter _ => execObjPrefilter_modes h
  | .objCoarse _ => execObjCoarse_modes h
  | .objKernel _ => ⟨_, rfl, checked_modes h <| armCutoff_modes h⟩
  | .pairKtbl _ => execPairKtbl_modes h
  | .pairStatus _ => execPairStatus_modes h
  | .geoSpkLoad _ => execGeoSpkLoad_modes h
  | .geoZoneLoad _ => ⟨_, rfl, checked_modes h <| loadTable_modes h fun _ _ ht => setGeo_modes ht⟩
  | .geoTriLoad _ => ⟨_, rfl, checked_modes h <| loadTable_modes h fun _ _ ht => setGeo_modes ht⟩
  | .geoCubeLoad _ => execGeoCubeLoad_modes h
  | .geoAirLoad _ => ⟨_, rfl, checked_modes h <| loadTable_modes h fun _ _ ht => setGeo_modes ht⟩
  | .geoBankSwitch _ => execGeoBankSwitch_modes h
  | .geoBankSync _ => execGeoBankSync_modes h
  | .geoObjLaw _ => execGeoObjLaw_modes h
  | .geoGlobal _ => ⟨_, rfl, checked_modes h <| armCutoff_modes h⟩
  | .geoStatus _ => execGeoStatus_modes h
  | .geoPairRead _ => ⟨_, rfl, checked_modes h <| finish_modes <| hostWrite_modes h⟩
  | .corrStage _ => execCorrStage_modes h
  | .corrStageDone _ => execCorrStageDone_modes h
  | .corrSwitch _ => execCorrSwitch_modes h
  | .corrSetRead _ _ => execCorrSetRead_modes h
  | .sluiceSet _ => ⟨_, rfl, checked_modes h <| (armOutput_only ..).modes rfl h⟩
  | .meterCfg _ => execMeterCfg_modes h
  | .meterRead _ => ⟨_, rfl, checked_modes h <| finish_modes <| hostWrite_modes h⟩
  | .corrStatus _ => execCorrStatus_modes h
  | .corrClearState _ => ⟨_, rfl, checked_modes h <| ite_modes (finish_modes h) <| (armOutput_only ..).modes rfl h⟩
  | .fabLinkCtl _ => ⟨_, rfl, checked_modes h <| finish_modes <| (ctlLinks_only ..).modes rfl h⟩
  | .fabIdent _ => ⟨_, rfl, checked_modes h <| finish_modes <| (setAddress_only ..).modes rfl h⟩
  | .fabWbLoad _ => execFabWbLoad_modes h
  | .fabGrpLoad _ => execFabGrpLoad_modes h
  | .fabEpochSwitch _ => ⟨_, rfl, checked_modes h <| ite_modes (finish_modes h) <| ite_modes (finish_modes h) <| setFab_modes h⟩
  | .fabBankSync _ => ⟨_, rfl, checked_modes h <| bankWrite_modes h fun _ _ ht => setFab_modes ht⟩
  | .fabDisc _ => execFabDisc_modes h
  | .fabMgmtSend _ => execFabMgmtSend_modes h
  | .fabStatus _ => ⟨_, rfl, checked_modes h <| finish_modes <| (fabClear_only ..).modes rfl <| hostWrite_modes h⟩
  | .fabRemote _ => execFabRemote_modes h
  | .clkRate _ => ⟨_, rfl, checked_modes h <| ite_modes (finish_modes h) <| setClk_modes <| (takeFamily_only ..).modes rfl h⟩
  | .clkRefCfg _ => execClkRefCfg_modes h
  | .clkSelCfg _ => execClkSelCfg_modes h
  | .clkSelect _ => ⟨_, rfl, checked_modes h <| ite_modes (setClk_modes h) <| (settleWtr_only ..).modes rfl <| (selectNow_only ..).modes rfl h⟩
  | .clkStatus _ => execClkStatus_modes h
  | .ptpCfg _ => execPtpCfg_modes h
  | .ptpStepArm _ => ⟨_, rfl, (ptpCtl_only ..).modes rfl h⟩
  | .ptpClearGmChange _ => ⟨_, rfl, (ptpCtl_only ..).modes rfl h⟩
  | .ptpStatus _ => execPtpStatus_modes h
  | .timeTrig _ => execTimeTrig_modes h
  | .timeCapCfg _ => ⟨_, rfl, checked_modes h <| finish_modes <| setPtp_modes h⟩
  | .timeCapRead _ => ⟨_, rfl, checked_modes h <| finish_modes <| hostWrite_modes <| setPtp_modes h⟩
  | .mpPortCfg _ => execMpPortCfg_modes h
  | .mpRxStream _ => execMpRxStream_modes h
  | .mpRxMap _ => execMpRxMap_modes h
  | .mpTxStream _ => ⟨_, rfl, checked_modes h <| ite_modes (finish_modes <| (setTx_only ..).modes rfl h) <| finish_modes h⟩
  | .mpStatus _ => ⟨_, rfl, checked_modes h <| finish_modes <| (mpClear_only ..).modes rfl <| hostWrite_modes <| draw_modes h⟩
  | .sapCfg _ => ⟨_, rfl, checked_modes h <| ite_modes (finish_modes h) <| finish_modes <| (setSap_only ..).modes rfl h⟩
  | .mixBus _ => execMixBus_modes h
  | .mixInput _ => ⟨_, rfl, checked_modes h <| finish_modes <| (setBus_only ..).modes rfl h⟩
  | .monTaps _ => execMonTaps_modes h
  | .sidetone _ => ⟨_, rfl, checked_modes h <| finish_modes <| (setMon_only ..).modes rfl h⟩
  | .capCfg _ => ⟨_, rfl, checked_modes h <| ite_modes (finish_modes h) <| finish_modes <| setLau_modes h⟩
  | .capCoef _ => execCapCoef_modes h
  | .capDest _ => ⟨_, rfl, checked_modes h <| ite_modes (finish_modes h) <| finish_modes <| setLau_modes h⟩
  | .capStart _ => ⟨_, rfl, checked_modes h <| (captureArm_only ..).modes rfl h⟩
  | .capStop _ => ⟨_, rfl, checked_modes h <| finish_modes <| (captureStop_only ..).modes rfl h⟩
  | .stimLoad _ => execStimLoad_modes h
  | .stimStart _ => ⟨_, rfl, (stimulusOp_only ..).modes rfl h⟩
  | .stimStop _ => ⟨_, rfl, (stimulusOp_only ..).modes rfl h⟩
  | .lauStatus _ => execLauStatus_modes h
  | .dpxCfg _ => execDpxCfg_modes h
  | .dpxSwitch _ => execDpxSwitch_modes h
  | .dpxArm _ => ⟨_, rfl, checked_modes h <| finish_modes <| armOp_modes h⟩
  | .dpxStatus _ => execDpxStatus_modes h
  | .lgrRead _ => ⟨_, rfl, checked_modes h <| ite_modes (report_modes <| hostWrite_modes h) <| finish_modes h⟩
  | .lgrInfo _ => ⟨_, rfl, checked_modes h <| ite_modes (finish_modes <| hostWrite_modes h) <| finish_modes h⟩
  | .lgrAnnotate _ => execLgrAnnotate_modes h
  | .lgrNonce _ => ⟨_, rfl, checked_modes h <| ite_modes (report_modes h) <| finish_modes h⟩
  | .lgrClear _ => execLgrClear_modes h
  | .lgrClearDone => execLgrClearDone_modes h
  | .stwFwLoad _ => execStwFwLoad_modes h
  | .stwFwStart _ => ⟨_, rfl, checked_modes h <| ite_modes (finish_modes h) <| (startStop_only ..).modes rfl h⟩
  | .stwFwStop _ => ⟨_, rfl, checked_modes h <| (startStop_only ..).modes rfl h⟩
  | .fwStopHalt => execFwStopHalt_modes h
  | .dspFlowCfg _ => ⟨_, rfl, checked_modes h <| ite_modes (finish_modes h) <| finish_modes <| h.congr (by rfl)⟩
  | .stwStatus _ => execStwStatus_modes h
  | .dspLimits _ => ⟨_, rfl, checked_modes h <| finish_modes <| settleAlive_modes <| setReg_modes <| setReg_modes h⟩
  | .userOpcode _ _ => execUserOpcode_modes h
  | .abortRequest _ => ⟨_, rfl, (abortWrite_only ..).modes rfl h⟩
  | .abortOwnerTimeout _ => ⟨_, rfl, ownerSilent_modes h⟩
  | .opTimeout _ => execOpTimeout_modes h
  | .rwinRead _ _ => ⟨_, rfl, winGo_modes h⟩
  | .rwinWrite _ _ => ⟨_, rfl, winGo_modes h⟩
  | .rwinTimeout _ => ⟨_, rfl, ite_modes ((winEnd_only ..).modes rfl <| setMtx_modes h) h⟩
  | .svcRwinRead _ _ => ⟨_, rfl, winGo_modes h⟩
  | .svcRwinWrite _ _ => ⟨_, rfl, winGo_modes h⟩
  | .warmResetRequest _ _ => ⟨_, rfl, wrstWrite_modes h⟩
  | .wrstNAssert => ⟨_, rfl, warmRequest_modes <| setAon_modes (by rfl) h⟩
  | .warmResetRelease => execWarmResetRelease_modes h
  | .coldReset _ _ => execColdReset_modes
  | .powerFail => ⟨_, rfl, setAon_modes (by rfl) darkState_modes⟩
  | .dbKick _ => ⟨_, rfl, (kickOp_only ..).modes rfl h⟩
  | .lgrRecRead _ => ⟨_, rfl, narrow_modes <| (recAdvance_only ..).modes rfl h⟩
  | .svcLgrRecRead _ => ⟨_, rfl, narrow_modes <| (recAdvance_only ..).modes rfl h⟩
  | .bootGo _ _ => ⟨_, rfl, bootWrite_modes h⟩
  | .coresReleased _ => execCoresReleased_modes h
  | .segmentPush _ _ => ⟨_, rfl, (segPushOp_only ..).modes rfl h⟩
  | .getWork _ _ => execGetWork_modes h
  | .dspGrant => execDspGrant_modes h
  | .getWorkTimeout _ => ⟨_, rfl, ite_modes ((nullHandle_only ..).modes rfl h) h⟩
  | .affinityExpiry _ => execAffinityExpiry_modes h
  | .dspDone _ _ => ⟨_, rfl, (dspDone_only ..).modes rfl h⟩
  | .dspFwd _ _ => ⟨_, rfl, (dspFwd_only ..).modes rfl h⟩
  | .dspAdd _ _ => ⟨_, rfl, (dspAdd_only ..).modes rfl h⟩
  | .cplCommit _ _ => ⟨_, rfl, cplReport_modes h fun _ _ ht => withdrawTok_modes ht⟩
  | .cplComplete _ _ => ⟨_, rfl, cplReport_modes h fun _ _ ht => withdrawTok_modes ht⟩
  | .cplWithdraw _ _ => ⟨_, rfl, cplReport_modes h fun _ _ ht => withdrawTok_modes ht⟩
  | .heartbeat _ => ⟨_, rfl, heartbeatTurn_modes h⟩
  | .hbLost _ => ⟨_, rfl, settleAlive_modes <| (silence_only ..).modes rfl h⟩
  | .svcLimit _ => execSvcLimit_modes h
  | .irqDeliver => execIrqDeliver_modes h
  | .irqClaim _ _ => execIrqClaim_modes h
  | .irqEoi _ _ => ⟨_, rfl, (eoiOp_only ..).modes rfl h⟩
  | .irqMset _ => ⟨_, rfl, (msetOp_only ..).modes rfl h⟩
  | .irqMclr _ => ⟨_, rfl, (msetOp_only ..).modes rfl h⟩
  | .irqSwiSet _ => ⟨_, rfl, (swiSetOp_only ..).modes rfl h⟩
  | .irqSwiClear _ => ⟨_, rfl, (swiClearOp_only ..).modes rfl h⟩
  | .irqStatRead _ => ⟨_, rfl, narrow_modes <| (irqStatReadOp_only ..).modes rfl h⟩
  | .cisStatRead _ => ⟨_, rfl, narrow_modes <| (cisStatReadOp_only ..).modes rfl h⟩
  | .corStatRead _ => ⟨_, rfl, narrow_modes <| (corStatReadOp_only ..).modes rfl h⟩
  | .drcRefRead _ _ => ⟨_, rfl, narrow_modes <| (drcRefReadOp_only ..).modes rfl h⟩
  | .topThermRead _ => ⟨_, rfl, narrow_modes <| (thermReadOp_only ..).modes rfl h⟩
  | .ptpRptPop _ _ => ⟨_, rfl, narrow_modes <| (rptPopOp_only ..).modes rfl h⟩
  | .ptpTcapPop _ => ⟨_, rfl, narrow_modes <| (tcapPopOp_only ..).modes rfl h⟩
  | .ptpTimeRead _ => ⟨_, rfl, narrow_modes <| (timeReadOp_only ..).modes rfl h⟩
  | .clkTidxRead _ => ⟨_, rfl, narrow_modes <| (splitRead_only ..).modes rfl h⟩
  | .clkMapRead _ => ⟨_, rfl, narrow_modes <| (splitRead_only ..).modes rfl h⟩
  | .lgrPtimeRead _ => ⟨_, rfl, narrow_modes <| (ptimeReadOp_only ..).modes rfl h⟩
  | .dramRetrain _ => ⟨_, rfl, (drcCtlWrite_only ..).modes rfl h⟩
  | .sqEnable _ _ => ⟨_, rfl, (sqCfgWrite_only ..).modes rfl h⟩
  | .sqDisableWrite _ _ => ⟨_, rfl, (sqCfgWrite_only ..).modes rfl h⟩
  | .sqDrainEnd _ => ⟨_, rfl, (sqDisableEnd_only ..).modes rfl h⟩
  | .cqEnable _ _ => ⟨_, rfl, (cqCfgWrite_only ..).modes rfl h⟩
  | .cqDisable _ _ => ⟨_, rfl, (cqCfgWrite_only ..).modes rfl h⟩
  | .evrEnable _ => ⟨_, rfl, (evrCfgWrite_only ..).modes rfl h⟩
  | .evrDisable _ => ⟨_, rfl, (evrCfgWrite_only ..).modes rfl h⟩
  | .armWrite _ => ⟨_, rfl, armWriteOp_modes h⟩
  | .registerWrite _ _ _ _ => ⟨_, rfl, regWrite_modes h⟩
  | .svcStatus => ⟨_, rfl, h.congr (by rfl)⟩
  | .svcRead _ _ => ⟨_, rfl, ((svcWords_only ..).modes rfl h).congr (by rfl)⟩
  | .svcWrite _ _ => ⟨_, rfl, svcStore_modes h⟩
  | .svcFrameEnd => ⟨_, rfl, (resetMasters_only ..).modes rfl h⟩
  | .hostIfReset _ => ⟨_, rfl, (hostReset_only ..).modes rfl h⟩
  | .d3hotEntry _ => ⟨_, rfl, evRaise_modes <| h.congr (by rfl)⟩
  | .d0Return => ⟨_, rfl, (resumeHost_only ..).modes rfl <| h.congr (by rfl)⟩
  | .busMasterChange _ _ => ⟨_, rfl, (sendPending_only ..).modes rfl <| (resumeHost_only ..).modes rfl <| h.congr (by rfl)⟩
  | .msixUnmask _ _ _ => ⟨_, rfl, (sendPending_only ..).modes rfl <| h.congr (by rfl)⟩
  | .inboundTimeout _ => ⟨_, rfl, evRaise_modes <| h.congr (by rfl)⟩
  | .doorbellPoll _ _ => execDoorbellPoll_modes h
  | .cqModTimer _ => execCqModTimer_modes h
  | .matrixTimeout _ => execMatrixTimeout_modes h
  | .masterResetDrain _ _ _ => ⟨_, rfl, releaseHeld_modes <| ledger_modes <| evRaise_modes <| setMtx_modes h⟩
  | .trancheBoundary _ _ _ => execTrancheBoundary_modes h
  | .segmentCutoff => ⟨_, rfl, ite_modes h <| (cutoffOnce_only ..).modes rfl h⟩
  | .furrowPhaseStart _ => ⟨_, rfl, ite_modes h <| eachObj_modes ((markWins_only ..).modes rfl h) fun _ _ ht => (verifyObj_only ..).modes rfl ht⟩
  | .handoverPhaseStart _ => execHandoverPhaseStart_modes h
  | .cond _ => execCond_modes h
  | .geomItem _ => execGeomItem_modes h
  | .furrowSlot _ _ _ _ _ => execFurrowSlot_modes h
  | .bq _ => execBq_modes h
  | .head _ _ => execHead_modes h
  | .slu _ => execSlu_modes h
  | .tailChain _ _ _ => execTailChain_modes h
  | .launch _ _ => execLaunch_modes h
  | .form _ _ => execForm_modes h
  | .cisternFetchDone _ _ _ _ => execCisternFetchDone_modes h
  | .cisternPanic _ _ => ⟨_, rfl, ite_modes ((settlePanic_only ..).modes rfl <| evRaise_modes <| setPair_modes h) h⟩
  | .dpxStrobeReceive _ _ => execDpxStrobeReceive_modes h
  | .linkLock _ => ⟨_, rfl, ite_modes ((setLink_only ..).modes rfl h) h⟩
  | .linkLockTimeout _ => ⟨_, rfl, ite_modes ((setLink_only ..).modes rfl h) h⟩
  | .linkLockLoss _ => ⟨_, rfl, ite_modes ((linkGoesDown_only ..).modes rfl h) h⟩
  | .fecWindow _ _ _ => execFecWindow_modes h
  | .helloSend _ => ⟨_, rfl, ite_modes h <| (queueFrame_only ..).modes rfl h⟩
  | .helloReceive _ _ => ⟨_, rfl, ite_modes ((helloTake_only ..).modes rfl h) h⟩
  | .helloTimeout _ => ⟨_, rfl, ite_modes ((setLink_only ..).modes rfl h) h⟩
  | .helloLost _ => execHelloLost_modes h
  | .tickReceive _ _ _ _ _ => ⟨_, rfl, ite_modes ((tickTake_only ..).modes rfl h) h⟩
  | .caravanReceive _ _ _ _ _ => ⟨_, rfl, ite_modes h <| ite_modes (ite_modes ((dropCaravan_only ..).modes rfl h) h) <| takeCaravan_modes h⟩
  | .egressFrameStart _ _ _ => execEgressFrameStart_modes h
  | .fabDiscTimeout _ => execFabDiscTimeout_modes h
  | .remoteRetransmit _ => execRemoteRetransmit_modes h
  | .refEdge _ _ => ⟨_, rfl, ite_modes ((edgeOp_only ..).modes rfl h) h⟩
  | .refMissing _ => ⟨_, rfl, ite_modes ((refFault_only ..).modes rfl <| (setRef_only ..).modes rfl h) h⟩
  | .freqWindow _ _ => execFreqWindow_modes h
  | .driftEval _ => execDriftEval_modes h
  | .qualTimer _ => ⟨_, rfl, ite_modes ((refQualify_only ..).modes rfl h) h⟩
  | .wtrExpiry _ => execWtrExpiry_modes h
  | .refSwitchDone _ => ⟨_, rfl, ite_modes ((switchDone_only ..).modes rfl h) h⟩
  | .bleedTick => ⟨_, rfl, ite_modes (setClk_modes h) h⟩
  | .pllUnlock _ => ⟨_, rfl, ite_modes h <| guardFault_modes <| ledger_modes <| evRaise_modes <| (unlock_only ..).modes rfl h⟩
  | .pllLock => ⟨_, rfl, ite_modes h <| (evaluate_only ..).modes rfl <| (pruneTimers_only ..).modes rfl <| monSettleAll_modes <| setClk_modes h⟩
  | .tidxSet _ => execTidxSet_modes h
  | .mpLockLoss _ => execMpLockLoss_modes h
  | .mpUpTimer _ => ⟨_, rfl, ite_modes ((portUp_only ..).modes rfl h) h⟩
  | .mpFrameReceive _ _ => ⟨_, rfl, ite_modes ((frameTake_only ..).modes rfl h) h⟩
  | .pauseExpiry _ => ⟨_, rfl, ite_modes ((setPort_only ..).modes rfl h) h⟩
  | .pathDown _ _ => ⟨_, rfl, ite_modes (ledger_modes <| evRaise_modes <| (setRx_only ..).modes rfl h) h⟩
  | .txLateDrop _ => execTxLateDrop_modes h
  | .mpFrameDepart _ _ => execMpFrameDepart_modes h
  | .ptpSync _ => ⟨_, rfl, ite_modes ((syncOp_only ..).modes rfl h) h⟩
  | .ptpDelayResp _ _ _ => execPtpDelayResp_modes h
  | .ptpAnnounce _ => ⟨_, rfl, ite_modes ((selectMaster_only ..).modes rfl <| setPtp_modes h) h⟩
  | .ptpDelayReqSend _ _ => ⟨_, rfl, ite_modes ((queueTx_only ..).modes rfl (h.congr (by rfl))) h⟩
  | .syncTimeout => ⟨_, rfl, ite_modes ((freeRun_only ..).modes rfl <| setPtp_modes h) h⟩
  | .announceTimeout => ⟨_, rfl, ite_modes ((selectMaster_only ..).modes rfl <| (freeRun_only ..).modes rfl <| setPtp_modes h) h⟩
  | .trigFire _ => execTrigFire_modes h
  | .ppsOutPulse => ⟨_, rfl, ite_modes ((setPin_only ..).modes rfl h) h⟩
  | .tcapEdge _ _ _ => ⟨_, rfl, ite_modes (ite_modes ((queueOverflow_only ..).modes rfl h) <| evRaise_modes <| setPtp_modes h) h⟩
  | .sapFrame _ _ _ => ⟨_, rfl, ite_modes (sapFrame_modes h) h⟩
  | .sapWsEdge _ _ _ => ⟨_, rfl, ite_modes ((wsEdge_only ..).modes rfl h) h⟩
  | .sapLost _ => ⟨_, rfl, ite_modes ((groupUnderrun_only ..).modes rfl <| ledger_modes <| evRaise_modes <| (setSap_only ..).modes rfl h) h⟩
  | .silNChange _ => ⟨_, rfl, (evIf_only ..).modes rfl <| h.congr (by rfl)⟩
  | .monClrAssert => ⟨_, rfl, monClr_modes h⟩
  | .monClrRelease => ⟨_, rfl, monClr_modes h⟩
  | .monComplyTimer _ _ _ => execMonComplyTimer_modes h
  | .peerAssert => execPeerAssert_modes h
  | .peerReleased => ⟨_, rfl, ite_modes (startDriving_modes <| setDpx_modes (by rfl) h) <| tryClaim_modes <| setDpx_modes (by rfl) h⟩
  | .claimTimeout => ⟨_, rfl, ite_modes (strapConflict_modes <| clearArm_modes h) h⟩
  | .commandedRelease => execCommandedRelease_modes h
  | .takebackHold => ⟨_, rfl, ite_modes (setDpx_modes (by rfl) h) h⟩
  | .flashOpDone _ _ => execFlashOpDone_modes h
  | .journalPlace => ⟨_, rfl, (evIf_only ..).modes rfl <| h.congr (by rfl)⟩
  | .checkpointSave => ⟨_, rfl, h.congr (by rfl)⟩
  | .ledgerScanDone => ⟨_, rfl, ite_modes h <| ledger_modes <| h.congr (by rfl)⟩
  | .dramTrainDone _ => execDramTrainDone_modes h
  | .mr4Poll _ _ => execMr4Poll_modes h
  | .refreshAccrual _ _ _ _ => execRefreshAccrual_modes h
  | .scrubRead _ _ => execScrubRead_modes h
  | .thermSample _ => ⟨_, rfl, runDeferred_modes <| tripJudge_modes <| alertJudge_modes <| (storeTj_only ..).modes rfl h⟩
  | .porstNAssert => ⟨_, rfl, setAon_modes (by rfl) darkState_modes⟩
  | .mpLockGain _ => ⟨_, rfl, ite_modes ((setPort_only ..).modes rfl h) h⟩
  | .lowPowerIdleReceive _ => ⟨_, rfl, ite_modes ((portCount_only ..).modes rfl h) h⟩
  | .clkRateTimeout => ⟨_, rfl, (reportAll_only ..).modes rfl <| setClk_modes h⟩
  | .tailReadDone _ => execTailReadDone_modes h
  | .matrixLateResponse _ => ⟨_, rfl, releaseHeld_modes <| setMtx_modes h⟩
  | .shadowStoreWrite _ _ => ⟨_, rfl, shadowPut_modes h⟩
  | .trigPulseEnd _ => ⟨_, rfl, ite_modes ((setPin_only ..).modes rfl h) <| ite_modes ((setPin_only ..).modes rfl h) h⟩
  | .peerLowHeld => ⟨_, rfl, ite_modes (setDpx_modes (by rfl) h) h⟩
  | .l1Exit => ⟨_, rfl, (leaveL1_only ..).modes rfl h⟩
  | .dramSelfRefreshExit => ⟨_, rfl, ite_modes ((setDrc_only ..).modes rfl h) h⟩
  | .jtagTapOperation _ => execJtagTapOperation_modes h

end

/-- Settles O15, command by command: the invariant needs no strengthening, for a withdrawn stop returns to an origin it bounds already. -/
theorem everyStepKeepsModesLegal : Obligations.EveryStepKeepsModesLegal := by
  unfold Obligations.EveryStepKeepsModesLegal
  intro s t h hstep
  unfold step at hstep
  split at hstep
  next c cs _ =>
    have hrest : ModesLegal { s with pending := cs } := h.congr (by rfl)
    obtain ⟨u, hu, hlegal⟩ := exec_modes hrest c
    cases hu.symm.trans hstep
    exact hlegal
  next =>
    cases hstep
    exact (idle_only s).modes rfl h

end Sys2Proof.Machine
end

section
/-! The states of a link, its windows and its HELLO frames, and the descriptors of the fabric (R208 to R211, R217, R218, R224, R225, R233 to
R235, R239). -/

namespace Sys2Proof.Machine

/-! ## Links (R208 to R210) -/

section
variable {l : Nat} {s : State}

theorem exec_linkLock_acquiring (h : (linkSt s l).st = 1) :
    exec (.linkLock l) s = .next (setLink s l { linkSt s l with st := 2, gotHello := false }) :=
  congrArg Host.Outcome.next (if_pos h)

theorem exec_linkLockTimeout_acquiring (h : (linkSt s l).st = 1) :
    exec (.linkLockTimeout l) s = .next (setLink s l { linkSt s l with lockFail := bump 32 (linkSt s l).lockFail 1 }) :=
  congrArg Host.Outcome.next (if_pos h)

theorem exec_linkLockLoss_up (h : linkUp s l = true) : exec (.linkLockLoss l) s = .next (linkGoesDown 1 1 l s) :=
  congrArg Host.Outcome.next (if_pos h)

/-- R208, R222: an enabled link queues its HELLO frame, after forwarded frames and launches. -/
theorem exec_helloSend_enabled (h : (linkSt s l).st ≠ 0) : exec (.helloSend l) s = .next (setLink s l { linkSt s l with
    queue := (linkSt s l).queue ++ [{ cls := 2, bytes := 2 :: helloBytes s l, fail := false }] }) :=
  congrArg Host.Outcome.next (if_neg h)

theorem exec_helloReceive_valid {b : List Byte} (hlen : b.length = 32) (hcrc : crc32c (b.take 28) = field b 28 4)
    (hst : 2 ≤ (linkSt s l).st) : exec (.helloReceive l b) s = .next (helloTake l b s) :=
  congrArg Host.Outcome.next (if_pos ⟨hlen, hcrc, hst⟩)

theorem exec_helloTimeout_in_hello (h : (linkSt s l).st = 2) :
    exec (.helloTimeout l) s = .next (setLink s l { linkSt s l with st := 1, gotHello := false }) :=
  congrArg Host.Outcome.next (if_pos h)

/-- R209: the loss of HELLO frames takes an UP link down. -/
theorem exec_helloLost_up (h : linkUp s l = true) :
    exec (.helloLost l) s = .next (linkGoesDown 3 1 l (setLink s l { linkSt s l with ack := false })) :=
  congrArg Host.Outcome.next (if_pos h)

/-- A link that is not UP only forgets the HELLO frame that it had. -/
theorem exec_helloLost_not_up {u : State} (hu : u = setLink s l { linkSt s l with ack := false }) (h : linkUp s l = false) :
    exec (.helloLost l) s = .next (setLink u l { linkSt u l with gotHello := false }) := by
  subst hu
  exact congrArg Host.Outcome.next (if_neg (Bool.eq_false_iff.mp h))

theorem exec_tickReceive_compared (hst : (linkSt s l).st ≠ 0) (hidx : s.clk.tidxValid = true) (t d : Nat) (x : Int) :
    exec (.tickReceive l 0xB7 t d x) s = .next (tickTake l t (x - d) s) :=
  congrArg Host.Outcome.next (if_pos ⟨rfl, hst, hidx⟩)

/-- R210: a block with another marker is no TICK. -/
theorem exec_tickReceive_other_marker {m : Nat} (hm : m ≠ 0xB7) (t d : Nat) (x : Int) : exec (.tickReceive l m t d x) s = .next s :=
  congrArg Host.Outcome.next (if_neg fun h => hm h.1)

end

/-- Settles O58, one lemma for each command and outcome; FEC_WINDOW does the same in every state of the link. -/
theorem linkCommandsComplete : Obligations.LinkCommandsComplete := by
  refine ⟨?lock, ?lockTimeout, ?lockLoss, ?fec, ?send, ?receive, ?timeout, ?lostUp, ?lostNotUp, ?tick, ?marker⟩
  case lock => exact fun l s h => exec_linkLock_acquiring h
  case lockTimeout => exact fun l s h => exec_linkLockTimeout_acquiring h
  case lockLoss => exact fun l s h => exec_linkLockLoss_up h
  case fec => exact fun l c u s => rfl
  case send => exact fun l s h => exec_helloSend_enabled h
  case receive => exact fun l b s hlen hcrc hst => exec_helloReceive_valid hlen hcrc hst
  case timeout => exact fun l s h => exec_helloTimeout_in_hello h
  case lostUp => exact fun l s u hu h => hu ▸ exec_helloLost_up h
  case lostNotUp => exact fun l s u hu h => exec_helloLost_not_up hu h
  case tick => exact fun l t d x s hst hidx => exec_tickReceive_compared hst hidx t d x
  case marker => exact fun l m t d x s hm => exec_tickReceive_other_marker hm t d x

/-! ## Link control and address (R208, R218) -/

theorem exec_fabLinkCtl_ok {d : Desc} (hun : Unused d [(0, 4)]) (hon : pl d 2 1 ≤ 1) (hlim : 1 ≤ pl d 3 1) (s : State) :
    exec (.fabLinkCtl d) s = .next (finish d stOk (ctlLinks (plBit d 2 0) (pl d 3 1) (maskLinks s (pl d 0 2)) s)) :=
  congrArg Host.Outcome.next (checked_legal hun (by simp [hon, hlim]))

theorem exec_fabIdent_ok {d : Desc} (hun : Unused d [(0, 3)]) (hflags : pl d 2 1 ≤ 1) (s : State) :
    exec (.fabIdent d) s = .next (finish d stOk (setAddress (pl d 0 2) (plBit d 2 0) 0 s)) :=
  congrArg Host.Outcome.next (checked_legal hun (by simp [hflags]))

/-! ## Route banks (R224, R225) -/

theorem finish_setFab_reports (d : Desc) (status : Nat) (s : State) (f : Fab → Fab) :
    Reports d status 0 0 s (finish d status (setFab s f)) := rfl

/-- No value of a list reaches a bound that each of them is below. -/
theorem any_ge_eq_false {k : Nat} {es : List Nat} (h : ∀ e ∈ es, e < k) : es.any (fun e => decide (k ≤ e)) = false := by
  simpa using h

section
variable {d : Desc} {s : State} (harmed : s.fab.armed = none)
include harmed

theorem exec_fabEpochSwitch_arms {n : Nat} (hun : Unused d [(0, 9)]) (hflags : pl d 8 1 ≤ 1) (hn : n = keyN d (leastBefore s 1))
    (hopen : beforeH s ((n : Int) - 1) = true) :
    Completes (.fabEpochSwitch d) s (fun t => t.fab.armed = some (n, d.tok) ∧ t.outcomes = s.outcomes) := by
  subst hn
  refine .of_checked rfl hun (by simp [hflags]) ?_
  simp only [hopen, harmed, Bool.not_true, Option.isSome_none, Bool.false_eq_true, if_false]
  exact ⟨rfl, rfl⟩

variable (hquiet : s.fab.quiet = true)
include hquiet

/-- R225, R239: with no switch armed, a quiet bank takes the write, and it is the bank that is not current. -/
theorem bankWrite_of_quiet (put : Nat → State → State) : bankWrite d s put = finish d stOk (put (1 - s.fab.cur) s) := by
  simp only [bankWrite, harmed, hquiet, Option.isSome_none, Bool.not_true, Bool.false_eq_true, if_false]

/-- R219, R239: a waybill names a link in 4 bits with a VALID bit above; 31, a valid way over link 15, is refused while link 15 is reserved. -/
theorem exec_fabWbLoad_ok {b : List Byte} (hun : Unused d [(0, 12)]) (hrange : pl d 8 2 + pl d 10 2 < 65536)
    (hblock : hostBlock d 0 (pl d 10 2 + 1) = some b) (hentries : ∀ e ∈ b, e.toNat < 32 ∧ (s.dpx.en = true → e.toNat ≠ 31)) :
    Completes (.fabWbLoad d) s (fun t => Reports d stOk 0 0 s t ∧
      t.fab.wb = putRow s.fab.wb ((1 - s.fab.cur) * 65536 + pl d 8 2) (b.map BitVec.toNat)) := by
  have hlegal : (b.map BitVec.toNat).any (fun e => decide (32 ≤ e)) = false :=
    any_ge_eq_false (List.forall_mem_map.mpr fun e he => (hentries e he).1)
  have hpermitted : (s.dpx.en && (b.map BitVec.toNat).any (fun e => decide (e = 31))) = false := by
    cases hen : s.dpx.en with
    | false => rfl
    | true => simpa using fun e he => (hentries e he).2 hen
  have hfits : pl d 8 2 + (pl d 10 2 + 1) ≤ 65536 := hrange
  refine .of_checked rfl hun (by simp [hfits]) ?_
  simp only [hblock, hlegal, hpermitted, bankWrite_of_quiet harmed hquiet, Bool.false_eq_true, if_false]
  exact ⟨finish_setFab_reports .., rfl⟩

/-- FAB_GRP_LOAD of no entry reads no host block; it may still set the broadcast mask. -/
theorem exec_fabGrpLoad_ok {b : List Byte} (hun : Unused d [(0, 13), (14, 2)]) (hfirst : pl d 8 2 < 4096)
    (hrange : pl d 8 2 + pl d 10 2 ≤ 4096) (hflags : pl d 12 1 ≤ 1)
    (hblock : (if pl d 10 2 = 0 then some [] else hostBlock d 0 (4 * pl d 10 2)) = some b)
    (hmasks : ∀ e ∈ chunks 4 (pl d 10 2) b, leNat e < 65536) :
    Completes (.fabGrpLoad d) s (fun t => Reports d stOk 0 0 s t ∧
      t.fab.grp = putRow s.fab.grp ((1 - s.fab.cur) * 4096 + pl d 8 2) ((chunks 4 (pl d 10 2) b).map leNat) ∧
      t.fab.bcast = if pl d 12 1 = 1 then smSet 0 s.fab.bcast (1 - s.fab.cur) (pl d 14 2) else s.fab.bcast) := by
  have hlegal : ((chunks 4 (pl d 10 2) b).map leNat).any (fun e => decide (65536 ≤ e)) = false :=
    any_ge_eq_false (List.forall_mem_map.mpr hmasks)
  refine .of_checked rfl hun (by simp [hfirst, hrange, hflags]) ?_
  simp only [hblock, hlegal, bankWrite_of_quiet harmed hquiet, plBit_zero_eq hflags, decide_eq_true_eq, Bool.false_eq_true, if_false]
  exact ⟨finish_setFab_reports .., rfl, rfl⟩

theorem exec_fabBankSync_ok (hun : Unused d []) :
    Completes (.fabBankSync d) s (fun t => Reports d stOk 0 0 s t ∧ t.fab.wb = copyRoutes s.fab.wb s.fab.cur 65536 ∧
      t.fab.grp = copyRoutes s.fab.grp s.fab.cur 4096 ∧ t.fab.bcast = copyRoutes s.fab.bcast s.fab.cur 1) := by
  refine .of_checked rfl hun rfl ?_
  rw [bankWrite_of_quiet harmed hquiet]
  exact ⟨finish_setFab_reports .., rfl, rfl, rfl⟩

end

/-! ## Discovery, management and remote messages (R217, R233 to R235) -/

theorem exec_fabDisc_starts {d : Desc} {p : List Byte} (hun : Unused d [(0, 18)]) (hmin : 40 ≤ pl d 16 2) (hmax : pl d 16 2 ≤ 1024)
    (hmod : pl d 16 2 % 8 = 0) (hblock : hostBlock d 0 (pl d 16 2) = some p) (hhops : field p 0 1 ≤ 32) (s : State) :
    exec (.fabDisc d) s = .next (discStart d p s) := by
  refine congrArg Host.Outcome.next ((checked_legal hun (by simp [hmin, hmax, hmod])).trans ?_)
  simp only [hblock, if_neg (Nat.not_lt.mpr hhops)]

section
variable {d : Desc} {s : State} (haddr : (fabAddr s).isSome = true)
include haddr

/-- R217, R239: with a valid address, the message is sent. -/
theorem exec_fabMgmtSend_ok {p : List Byte} (hun : Unused d [(0, 14)]) (hmin : 8 ≤ pl d 8 2) (hmax : pl d 8 2 ≤ 1024)
    (hmod : pl d 8 2 % 8 = 0) (hflags : pl d 12 1 ≤ 2) (httl : 1 ≤ pl d 13 1) (httl' : pl d 13 1 ≤ 32)
    (hblock : hostBlock d 0 (pl d 8 2) = some p) (hgroup : plBit d 12 0 = true → pl d 10 2 ≤ 4095) :
    exec (.fabMgmtSend d) s =
      .next (finish d stOk (sendMgmt (pl d 10 2) (plBit d 12 0) (plBit d 12 1) (some (pl d 13 1)) p s)) := by
  have hdest : (!plBit d 12 0 || decide (pl d 10 2 ≤ 4095)) = true := flagged_limit (by simpa using hgroup)
  refine congrArg Host.Outcome.next ((checked_legal hun ?limits).trans ?sent)
  case limits => simp only [List.all_cons, List.all_nil, hmin, hmax, hmod, hflags, hdest, httl, httl', decide_true, Bool.and_self]
  case sent => simp only [hblock, Option.isNone_eq_false_iff.mpr haddr, Bool.false_eq_true, if_false]

/-- R235: the descriptor goes out under the next number and waits for its completion. -/
theorem exec_fabRemote_sends {e : List Byte} (hun : Unused d [(0, 18)]) (hblock : hostBlock d 0 64 = some e) : exec (.fabRemote d) s =
    .next (sendMgmt (pl d 16 2) false false none (mgmtBytes 1 (smGet 0 s.fab.seqOut 1) e) (setFab s (fun f => { f with
      seqOut := smSet 0 f.seqOut 1 ((smGet 0 s.fab.seqOut 1 + 1) % 2 ^ 32),
      remote := f.remote ++ [{
        seq := smGet 0 s.fab.seqOut 1, tok := d.tok, addr := pl d 8 8, dest := pl d 16 2, entry := e, tries := 0 }] }))) := by
  refine congrArg Host.Outcome.next ((checked_legal hun rfl).trans ?_)
  simp only [hblock, Option.isNone_eq_false_iff.mpr haddr, Bool.false_eq_true, if_false]

end

/-! ## Status (R239) -/

theorem exec_fabStatus_ok {d : Desc} {s : State} (hun : Unused d [(0, 9), (10, 5)]) (hmode : pl d 8 1 ≤ 2) (hcount : 1 ≤ pl d 12 2)
    (hrange : pl d 10 2 + pl d 12 2 ≤ fabTableSize s (pl d 8 1)) (hclear : pl d 14 1 ≤ 1) : exec (.fabStatus d) s =
      .next (finish d stOk (fabClear (pl d 8 1) (plBit d 14 0) (span (pl d 10 2) (pl d 12 2))
        (hostWrite (pl d 0 8) ((span (pl d 10 2) (pl d 12 2)).flatMap
          (if pl d 8 1 = 0 then linkRecord s else if pl d 8 1 = 1 then importRecord s else streamRecord s)) s))) := by
  have hfirst : pl d 10 2 < fabTableSize s (pl d 8 1) := by omega
  refine congrArg Host.Outcome.next ((checked_legal hun (by simp [hmode, hfirst, inRange_eq_true hcount hrange, hclear])).trans ?_)
  obtain hlinks | himports | hstreams : pl d 8 1 = 0 ∨ pl d 8 1 = 1 ∨ pl d 8 1 = 2 := by omega
  · simp only [hlinks, if_true]
  · simp only [himports, one_ne_zero, if_false, if_true]
  · simp only [hstreams, OfNat.ofNat_ne_zero, OfNat.ofNat_ne_one, if_false]

/-- Settles O33, one lemma for each command. -/
theorem fabricDescriptorsComplete : Obligations.FabricDescriptorsComplete := by
  refine ⟨?linkCtl, ?ident, ?waybill, ?group, ?epoch, ?sync, ?disc, ?mgmt, ?status, ?remote⟩
  case linkCtl => exact fun d s hun hon hlim => exec_fabLinkCtl_ok hun hon hlim s
  case ident => exact fun d s hun hflags => exec_fabIdent_ok hun hflags s
  case waybill =>
    exact fun d s b hun hrange hblock hentries harmed hquiet => exec_fabWbLoad_ok harmed hquiet hun hrange hblock hentries
  case group =>
    intro d s b hun hfirst hrange hflags hblock hmasks harmed hquiet
    exact exec_fabGrpLoad_ok harmed hquiet hun hfirst hrange hflags hblock hmasks
  case epoch => exact fun d s n hun hflags hn hopen harmed => exec_fabEpochSwitch_arms harmed hun hflags hn hopen
  case sync => exact fun d s hun harmed hquiet => exec_fabBankSync_ok harmed hquiet hun
  case disc => exact fun d s p hun hmin hmax hmod hblock hhops => exec_fabDisc_starts hun hmin hmax hmod hblock hhops s
  case mgmt =>
    intro d s p hun hmin hmax hmod hflags httl httl' hblock hgroup haddr
    exact exec_fabMgmtSend_ok haddr hun hmin hmax hmod hflags httl httl' hblock hgroup
  case status => exact fun d s hun hmode hcount hrange hclear => exec_fabStatus_ok hun hmode hcount hrange hclear
  case remote => exact fun d s e hun hblock haddr => exec_fabRemote_sends haddr hun hblock

end Sys2Proof.Machine
end

section
/-! The clock descriptors, and the references, the selector, the clean-up PLL and the tranche index (R244 to R266). -/

namespace Sys2Proof.Machine

/-! ## Clock descriptors (R244, R255, R264) -/

section
variable {d : Desc} {s : State}

/-- R244: with STOPPED and its origin available, the request joins those that wait (log entry 36). -/
theorem exec_clkRate_waits (hun : Unused d [(0, 3), (8, 8)]) (hrate : pl d 0 1 ≤ 3) (hsrc : pl d 1 1 ≤ 2)
    (hlink : if pl d 1 1 = 1 then pl d 2 1 ≤ 15 else pl d 2 1 = 0) (hstopped : s.sch.st = 0) (horigin : originGone d s = false) :
    exec (.clkRate d) s = .next (setClk (takeFamily (pl d 0 1) s) (fun c => { c with rateReq := c.rateReq ++
      [{ tok := d.tok, rate := pl d 0 1, src := pl d 1 1, link := pl d 2 1, n := pl d 8 8 }] })) := by
  have hlegal : (if pl d 1 1 = 1 then decide (pl d 2 1 ≤ 15) else decide (pl d 2 1 = 0)) = true := by
    simpa only [Bool.ite_eq_true_distrib, decide_eq_true_eq] using hlink
  refine congrArg Host.Outcome.next ((checked_legal hun ?limits).trans ?accepted)
  case limits => simp only [List.all_cons, List.all_nil, hrate, hsrc, hlegal, decide_true, Bool.and_self]
  case accepted => simp only [hstopped, horigin, ne_eq, not_true_eq_false, decide_false, Bool.or_self, Bool.false_eq_true, if_false]

/-- R252, R264: the reference takes its configuration; enabled anew it starts to qualify, and disabled it is OFF. -/
theorem exec_clkRefCfg_ok (hun : Unused d [(0, 20)]) (href : 1 ≤ pl d 0 1) (href' : pl d 0 1 ≤ 7) (hflags : pl d 1 1 ≤ 1)
    (hmode : modeOk (pl d 0 1) (pl d 2 1) = true) (hbw : pl d 3 1 ≤ bwLimit (pl d 0 1) (pl d 2 1))
    (hpull : 1 ≤ pl d 4 2) (hpull' : pl d 4 2 ≤ 500) (hqual : 1 ≤ pl d 6 2) (hqual' : pl d 6 2 ≤ 600) (hw : 1 ≤ pl d 8 2)
    (hw' : pl d 8 2 ≤ 1000) (hrate : pl d 10 2 ≤ 10000) (hofs : pl d 12 4 ≤ 500000) (hrel : pl d 16 4 ≤ 500000) :
    exec (.clkRefCfg d) s = .next (finish d stOk
      ((if pl d 1 1 = 1 ∧ (refAt s (pl d 0 1)).enabled = false then enableRef (pl d 0 1)
        else if pl d 1 1 = 0 ∧ (refAt s (pl d 0 1)).enabled = true then disableRef (pl d 0 1) else id)
      (setRef (pl d 0 1) (refFields d (refAt s (pl d 0 1))) s))) := by
  have hoff : ¬ pl d 1 1 = 1 ↔ pl d 1 1 = 0 := by omega
  refine congrArg Host.Outcome.next ((checked_legal hun ?limits).trans ?run)
  case limits =>
    simp only [List.all_cons, List.all_nil, href, href', hflags, hmode, hbw, hpull, hpull', hqual, hqual', hw, hw', hrate, hofs, hrel,
      decide_true, Bool.and_self]
  case run =>
    simp only [plBit_zero_eq hflags, Bool.and_eq_true, Bool.not_eq_true', decide_eq_true_eq, decide_eq_false_iff_not, hoff, ite_apply, id_eq]

/-- R254, R264: the selector takes its order and timers; those of references that are no longer better are cleared. -/
theorem exec_clkSelCfg_ok (hun : Unused d [(0, 16)]) (href : 1 ≤ pl d 0 1) (href' : pl d 0 1 ≤ 7) (hcount : pl d 1 1 ≤ 6)
    (hflags : pl d 8 1 ≤ 3) (hbleed : 1 ≤ pl d 9 1) (hbleed' : pl d 9 1 ≤ 10) (hwtr : pl d 10 2 ≤ 3600)
    (hcodes : ∀ i < 6, selCodeOk d i = true) {c : State} (hc : c = setClk s (fun c => { c with
      selRef := pl d 0 1, order := selCodes d, revertive := plBit d 8 0, bleed := plBit d 8 1, bleedRate := pl d 9 1, wtr := pl d 10 2,
      mapLim := pl d 12 4 })) :
    exec (.clkSelCfg d) s = .next (finish d stOk (settleWtr (autoSwitch (if plBit d 8 0 = false then
        [1, 2, 3, 4, 5, 6, 7].foldl (fun t r => clearTimer r t) c
      else if following c = true then pruneTimers [1, 2, 3, 4, 5, 6, 7] c else c)))) := by
  subst hc
  refine congrArg Host.Outcome.next ((checked_legal hun ?limits).trans ?run)
  case limits =>
    have hall : ((List.range 6).map (fun i => (2 + i, selCodeOk d i))).all (fun l => l.2) = true := by simpa using hcodes
    simp only [List.all_append, hall, List.all_cons, List.all_nil, href, href', hcount, hflags, hbleed, hbleed', hwtr, decide_true, Bool.and_self]
  case run =>
    cases plBit d 8 0 with
    | false => rfl
    | true => rfl

section
variable (hun : Unused d [(0, 1)]) (hcode : pl d 0 1 ≤ 7 ∨ pl d 0 1 = 255)
include hun hcode

/-- R255: outside a switch the selection takes effect at once. -/
theorem exec_clkSelect_now (hlocked : s.clk.st ≠ 0) (hsettled : s.clk.st ≠ 2) :
    exec (.clkSelect d) s = .next (settleWtr (selectNow d.tok (pl d 0 1) s)) :=
  congrArg Host.Outcome.next ((checked_legal hun (by simpa using hcode)).trans (if_neg (not_or.mpr ⟨hlocked, hsettled⟩)))

/-- R256, R263: a selection waits for the end of a switch, or for the lock of the PLL. -/
theorem exec_clkSelect_waits (hbusy : s.clk.st = 0 ∨ s.clk.st = 2) :
    exec (.clkSelect d) s = .next (setClk s (fun c => { c with pendSel := c.pendSel ++ [(d.tok, pl d 0 1)] })) :=
  congrArg Host.Outcome.next ((checked_legal hun (by simpa using hcode)).trans (if_pos hbusy))

end

theorem exec_clkStatus_ok (hun : Unused d [(0, 9)]) (hclear : pl d 8 1 ≤ 1) :
    Completes (.clkStatus d) s (fun t => Reports d stOk 0 0 s t ∧
      WritesHost (pl d 0 8) (clkRecord s) s t ∧ (pl d 8 1 = 0 → t.clk = s.clk) ∧ (pl d 8 1 = 1 → t.clk = { s.clk with
        refs := smModAll {} s.clk.refs (s.clk.refs.map Prod.fst) (fun _ x => { x with reject := 0 }) })) := by
  refine .of_checked rfl hun (by simp [hclear]) ?_
  have hwrites := hostWrite_writes (pl d 0 8) (clkRecord s) s
  simp only [plBit_zero_eq hclear, decide_eq_true_eq]
  split
  next hone => exact ⟨by simp [Reports], hwrites.congr rfl rfl, by omega, fun _ => by simp⟩
  next hzero => exact ⟨by simp [Reports], hwrites.congr rfl rfl, fun _ => by simp, by omega⟩

end

/-- Settles O34, one lemma for each command and outcome; that a request joins those that wait, and that its family counts from acceptance
on, are deduced (log entry 36). -/
theorem clockDescriptorsComplete : Obligations.ClockDescriptorsComplete := by
  refine ⟨?rate, ?refCfg, ?selCfg, ?selectNow, ?selectLater, ?status⟩
  case rate => exact fun d s hun hrate hsrc hlink hstopped horigin => exec_clkRate_waits hun hrate hsrc hlink hstopped horigin
  case refCfg =>
    intro d s hun href href' hflags hmode hbw hpull hpull' hqual hqual' hw hw' hrate hofs hrel
    exact exec_clkRefCfg_ok hun href href' hflags hmode hbw hpull hpull' hqual hqual' hw hw' hrate hofs hrel
  case selCfg =>
    intro d s c hun href href' hcount hflags hbleed hbleed' hwtr hcodes hc
    exact exec_clkSelCfg_ok hun href href' hcount hflags hbleed hbleed' hwtr hcodes hc
  case selectNow => exact fun d s hun hcode hlocked hsettled => exec_clkSelect_now hun hcode hlocked hsettled
  case selectLater => exact fun d s hun hcode hbusy => ⟨_, exec_clkSelect_waits hun hcode hbusy, rfl, rfl, rfl⟩
  case status => exact fun d s hun hclear => exec_clkStatus_ok hun hclear

/-! ## References (R247 to R252, R254) -/

section
variable {r : Nat} {s : State}

section
variable (hmin : 2 ≤ r) (hmax : r ≤ 6) (hen : (refAt s r).enabled = true)
include hmin hmax hen

theorem exec_refEdge_enabled (t : Nat) : exec (.refEdge r t) s = .next (edgeOp r t s) :=
  congrArg Host.Outcome.next (if_pos ⟨hmin, hmax, hen⟩)

theorem exec_refMissing_enabled : exec (.refMissing r) s = .next (refFault r 1 (setRef r { refAt s r with lastEdge := none } s)) :=
  congrArg Host.Outcome.next (if_pos ⟨hmin, hmax, hen⟩)

theorem exec_freqWindow_enabled {o : Int} {x : RefSt} (hx : x = { refAt s r with winOfs := o }) : exec (.freqWindow r o) s =
    .next (if outOfPull x = true then refFault r 3 (setRef r x s) else refRecover r (setRef r x s)) := by
  subst hx
  exact congrArg Host.Outcome.next (if_pos ⟨hmin, hmax, hen⟩)

end

theorem exec_qualTimer_qualifies (hq : (refAt s r).q = 1) (hdrift : (refAt s r).driftNow = false) :
    exec (.qualTimer r) s = .next (refQualify r s) :=
  congrArg Host.Outcome.next (if_pos ⟨hq, hdrift⟩)

/-- R254: where the expired timer starts no switch and another reference is active, it is cleared. -/
theorem exec_wtrExpiry_running {u : State} (hrun : (refAt s r).wtrFrom.isSome = true)
    (hu : u = switchExpired (setRef r { refAt s r with wtrDone := true } s)) : exec (.wtrExpiry r) s =
      .next (settleWtr (if following u = true ∧ u.clk.active ≠ r then clearTimer r u else u)) := by
  subst hu
  refine congrArg Host.Outcome.next ((if_pos hrun).trans ?_)
  simp only [Bool.and_eq_true, decide_eq_true_eq]

end

/-! ## The switch, the build-out and the clean-up PLL (R257, R258, R261, R263) -/

theorem exec_refSwitchDone_switching {s : State} (hst : s.clk.st = 2) (p : Int) :
    exec (.refSwitchDone p) s = .next (switchDone p s) :=
  congrArg Host.Outcome.next (if_pos hst)

/-- The build-out after one tick of the bleed: it comes nearer to 0 by the rate, and stops there. -/
def bled (rate : Nat) (b : Int) : Int := if 0 ≤ b then max 0 (b - rate) else min 0 (b + rate)

/-- The magnitude falls by the lesser of itself and the rate. -/
theorem natAbs_bled (rate : Nat) (b : Int) : (bled rate b).natAbs = b.natAbs - rate := by
  unfold bled
  split
  · omega
  · omega

theorem natAbs_bled_sub (rate : Nat) (b : Int) : (bled rate b - b).natAbs = min rate b.natAbs := by
  unfold bled
  split
  · omega
  · omega

theorem exec_bleedTick_active {s : State} (hbleed : s.clk.bleed = true) (hactive : s.clk.active ≠ 0) :
    exec .bleedTick s = .next (setClk s (fun c => { c with buildout := bled c.bleedRate c.buildout })) :=
  congrArg Host.Outcome.next (if_pos (by simp [hbleed, hactive]))

theorem exec_pllUnlock_locked {s : State} (hst : s.clk.st ≠ 0) (c : Nat) :
    exec (.pllUnlock c) s = .next (guardFault { cls := 7, unit := 0, cycle := c }
      (ledger 0x0408 5 s.clk.st s.clk.active (tidxLow s) (evRaise aClkEvt 6 (unlock s)))) :=
  congrArg Host.Outcome.next (if_neg hst)

/-- R261: the lock leads to LOCKED on the XO; with no switch cut short, the selections that wait are those of before. -/
theorem exec_pllLock_unlocked {s : State} (hst : s.clk.st = 0) (htok : s.clk.swTok = none) :
    exec .pllLock s = .next (evaluate (pruneTimers [1, 2, 3, 4, 5, 6, 7] (monSettleAll (setClk s (fun c => { c with
      st := 1, active := 7, buildout := 0, since := s.lgr.ptime, swTok := none, pendSel := s.clk.pendSel }))))) := by
  refine congrArg Host.Outcome.next ((if_neg (not_not.mpr hst)).trans ?_)
  simp only [htok]

/-! ## The tranche index (R244, R245, R265) -/

/-- What a request leaves in the clock block: its index and its rate are in force, and no request waits. -/
theorem takeIndex_clk (q : RateReq) (k : Nat) (s : State) : (takeIndex q k s).clk = { s.clk with
    rate := q.rate, tidx := k, tidxValid := true, rateSet := true, cutoffDone := false, rateReq := [],
    buildout := if q.src = 0 ∧ s.clk.active = 1 then 0 else s.clk.buildout } :=
  ((reportAll_only ..).same .clk (by decide)).trans (ledger_clk ..)

theorem exec_tidxSet_requested {t : Nat} {s : State} {q : RateReq} (hlast : s.clk.rateReq.getLast? = some q) :
    exec (.tidxSet t) s = .next (outerTurn (firstIndex q t s) (takeIndex q (firstIndex q t s) s)) := by
  refine congrArg Host.Outcome.next ?_
  simp only [hlast]

/-- The operations of a list report one after the other, in its order. -/
theorem reportAll_outcomes {α : Type} (status : Nat) (tok : α → Nat) (rs : List α) (s : State) :
    (reportAll status (rs.map (fun r => some (tok r))) s).outcomes =
      s.outcomes ++ rs.map (fun r => { tok := tok r, status := status, result := 0, detail := 0 }) := by
  induction rs generalizing s with
  | nil => exact (List.append_nil _).symm
  | cons r rs ih => simp [reportAll, ih]

/-- R265: every request that waits completes with TIMEOUT. -/
theorem exec_clkRateTimeout_ok (s : State) :
    Completes .clkRateTimeout s (fun t => t.clk = { s.clk with rateReq := [] } ∧ t.outcomes = s.outcomes ++
      s.clk.rateReq.map (fun r => { tok := r.tok, status := stTimeout, result := 0, detail := 0 })) :=
  ⟨_, rfl, (reportAll_only ..).same .clk (by decide), reportAll_outcomes stTimeout RateReq.tok s.clk.rateReq _⟩

/-- Settles O60, one lemma for each command; that the XO's own offset is 0, that all requests that wait complete at
the last one's index, the way from UNLOCKED to LOCKED, and the blocks whose turn comes with that index are deduced (log entries 33, 36, 113). -/
theorem referenceCommandsComplete : Obligations.ReferenceCommandsComplete := by
  refine ⟨?edge, ?missing, ?window, ?drift, ?qual, ?wtr, ?switch, ?bleed, ?unlock, ?lock, ?index, ?timeout⟩
  case edge => exact fun r t s hmin hmax hen => exec_refEdge_enabled hmin hmax hen t
  case missing => exact fun r s hmin hmax hen => exec_refMissing_enabled hmin hmax hen
  case window => exact fun r o s x hmin hmax hen hx => exec_freqWindow_enabled hmin hmax hen hx
  case drift => exact fun o s => rfl
  case qual => exact fun r s hq hdrift => exec_qualTimer_qualifies hq hdrift
  case wtr => exact fun r s u hrun hu => exec_wtrExpiry_running hrun hu
  case switch => exact fun p s hst => exec_refSwitchDone_switching hst p
  case bleed =>
    intro s hbleed hactive
    refine ⟨_, exec_bleedTick_active hbleed hactive, ?_, ?_⟩
    · exact (natAbs_bled ..).trans_le (Nat.sub_le ..)
    · exact (natAbs_bled_sub ..).trans_le (Nat.min_le_left ..)
  case unlock => exact fun c s hst => exec_pllUnlock_locked hst c
  case lock => exact fun s hst htok => exec_pllLock_unlocked hst htok
  case index =>
    rintro t s q k u hlast rfl rfl
    rw [takeIndex_clk]
    exact ⟨exec_tidxSet_requested hlast, rfl, rfl, rfl, rfl, rfl⟩
  case timeout => exact exec_clkRateTimeout_ok

end Sys2Proof.Machine
end

section
/-! The media ports: their events and frames, transmit packets, and the descriptors of ports, streams and mappings (R271 to R286,
R299 to R301, R525). -/

namespace Sys2Proof.Machine

/-- A legal descriptor is what its meaning says once the payload is checked. -/
theorem exec_of_checked {c : Instr} {d : Desc} {used : List (Nat × Nat)} {limits : List (Nat × Bool)} {s k : State}
    (hexec : exec c s = .next (checked d used limits s k)) (hun : Unused d used) (hlimits : limits.all (fun l => l.2) = true) :
    exec c s = .next k :=
  hexec.trans (congrArg Host.Outcome.next (checked_legal hun hlimits))

/-! ## Ports (R271 to R273) -/

section
variable {n : Nat} {s : State} (hn : n < 4)
include hn

/-- R271: a port that loses lock while UP goes DOWN. -/
theorem exec_mpLockLoss_up (hup : (portAt s n).up = true) :
    exec (.mpLockLoss n) s = .next (portDown n (setPort n { portAt s n with locked := false } s)) :=
  congrArg Host.Outcome.next ((if_pos hn).trans (if_pos hup))

theorem exec_mpLockGain_port : exec (.mpLockGain n) s = .next (setPort n { portAt s n with locked := true } s) :=
  congrArg Host.Outcome.next (if_pos hn)

theorem exec_mpUpTimer_locked (hen : (portAt s n).enabled = true) (hlock : (portAt s n).locked = true) (hdown : (portAt s n).up = false) :
    exec (.mpUpTimer n) s = .next (portUp n s) :=
  congrArg Host.Outcome.next (if_pos ⟨hn, hen, hlock, hdown⟩)

theorem exec_mpFrameReceive_up (hup : (portAt s n).up = true) (f : RxFrame) : exec (.mpFrameReceive n f) s = .next (frameTake n f s) :=
  congrArg Host.Outcome.next (if_pos ⟨hn, hup⟩)

theorem exec_pauseExpiry_port : exec (.pauseExpiry n) s = .next (setPort n { portAt s n with paused := false, quanta := 0 } s) :=
  congrArg Host.Outcome.next (if_pos hn)

theorem exec_lowPowerIdleReceive_port : exec (.lowPowerIdleReceive n) s = .next (portCount n 52 s) :=
  congrArg Host.Outcome.next (if_pos hn)

/-! ## Frames that wait and depart (R284) -/

/-- R284: the oldest media packet that waits is dropped and counted. -/
theorem exec_txLateDrop_waiting {i : Nat} {f : TxFrame} (hi : (portAt s n).queue.findIdx? (fun g => decide (g.cls = 1)) = some i)
    (hf : (portAt s n).queue[i]? = some f) :
    exec (.txLateDrop n) s = .next (evRaise (aMpEvt n) 3 (txCount f.stream 8 1 (portCount n 60 (setPort n { portAt s n with
      queue := (portAt s n).queue.eraseIdx i } s)))) := by
  refine congrArg Host.Outcome.next ?_
  simp only [if_pos hn, hi, List.getD_eq_getElem?_getD, hf, Option.getD_some]

/-- R284: out of a port that is UP and not paused, the frame of the lowest class departs. -/
theorem exec_mpFrameDepart_next {i : Nat} {f : TxFrame} (hup : (portAt s n).up = true) (hpause : (portAt s n).paused = false)
    (htrip : s.aon.trip = false) (hi : nextTx (portAt s n).queue = some i) (hf : (portAt s n).queue[i]? = some f) (slip : Option QSlip) :
    exec (.mpFrameDepart n slip) s =
      .next (departFrame n f slip (setPort n { portAt s n with queue := (portAt s n).queue.eraseIdx i } s)) := by
  refine congrArg Host.Outcome.next ((if_pos ⟨hn, hup, hpause, htrip⟩).trans ?_)
  simp only [hi, List.getD_eq_getElem?_getD, hf, Option.getD_some]

end

/-! ## Stream paths and packets (R280 to R286) -/

section
variable {x : Nat} {s : State} (hen : (rxAt s x).enabled = true)
include hen

theorem exec_pathDown_a (hup : (rxAt s x).a.down = false) :
    exec (.pathDown x false) s = .next (ledger 0x0603 2 x 0 (cntAt (rxAt s x).cnt 12) (evRaise (aMpEvt (rxAt s x).portA) 2
      (setRx x { rxAt s x with a := { (rxAt s x).a with down := true } } s))) :=
  congrArg Host.Outcome.next (if_pos ⟨hen, .inl rfl, hup⟩)

theorem exec_pathDown_b (hpath : (rxAt s x).pathBEn = true) (hup : (rxAt s x).b.down = false) :
    exec (.pathDown x true) s = .next (ledger 0x0603 2 x 1 (cntAt (rxAt s x).cnt 16) (evRaise (aMpEvt (rxAt s x).portB) 2
      (setRx x { rxAt s x with b := { (rxAt s x).b with down := true } } s))) :=
  congrArg Host.Outcome.next (if_pos ⟨hen, .inr hpath, hup⟩)

end

/-- R282: an entry of the active image whose phase has come forms the packet of its stream. -/
theorem exec_form_entry {n e : Nat} {s : State} {i : Img} {f : FormEnt} {x : TxEnt} (he : e < 65536) (himg : s.sch.activeImg = some i)
    (hent : (i.forms.getD n [])[e]? = some f) (hstream : formStream i f = some x) (hphase : s.clk.tidx % i.f = f.phase)
    (hfirst : 0 ≤ 16 * (s.clk.tidx : Int) + f.dofs)
    (hserves : formServes s e (16 * (s.clk.tidx : Int) + f.dofs).toNat (packetP i.rate x.pcode) = true)
    (hen : (txAt s x.stream).enabled = true) :
    exec (.form n e) s = .next (formPacket x (16 * (s.clk.tidx : Int) + f.dofs).toNat (packetP i.rate x.pcode) s) := by
  have hactive : xptImg s e = (some i, e) := by rw [xptImg, if_pos he, himg]
  refine congrArg Host.Outcome.next ?_
  simp only [hactive, hent, hstream]
  exact if_pos ⟨hphase, hfirst, hserves, hen⟩

/-- Settles O4, one lemma for each command under conditions. -/
theorem mediaCommandsComplete : Obligations.MediaCommandsComplete := by
  refine ⟨?lockLoss, ?lockGain, ?upTimer, ?receive, ?pause, ?pathA, ?pathB, ?lateDrop, ?depart, ?idle, ?form⟩
  case lockLoss => exact fun n s hn hup => exec_mpLockLoss_up hn hup
  case lockGain => exact fun n s hn => exec_mpLockGain_port hn
  case upTimer => exact fun n s hn hen hlock hdown => exec_mpUpTimer_locked hn hen hlock hdown
  case receive => exact fun n f s hn hup => exec_mpFrameReceive_up hn hup f
  case pause => exact fun n s hn => exec_pauseExpiry_port hn
  case pathA => exact fun x s hen hup => exec_pathDown_a hen hup
  case pathB => exact fun x s hen hpath hup => exec_pathDown_b hen hpath hup
  case lateDrop => exact fun n s i f hn hi hf => exec_txLateDrop_waiting hn hi hf
  case depart => exact fun n slip s i f hn hup hpause htrip hi hf => exec_mpFrameDepart_next hn hup hpause htrip hi hf slip
  case idle => exact fun n s hn => exec_lowPowerIdleReceive_port hn
  case form =>
    intro n e s i f x he himg hent hstream hphase hfirst hserves hen
    exact exec_form_entry he himg hent hstream hphase hfirst hserves hen

/-! ## Descriptors of ports and streams (R299 to R301, R525) -/

/-- R299, R300: a port takes its configuration; its mode changes only where it carries no stream, and disabling it while UP takes it DOWN. -/
theorem exec_mpPortCfg_ok {d : Desc} {s u : State} (hun : Unused d [(0, 21)]) (hport : pl d 0 1 ≤ 3) (hflags : pl d 1 1 ≤ 63)
    (hvid : pl d 2 2 ≤ 4095) (hpcp : pl d 4 1 ≤ 7) (hptp : pl d 5 1 ≤ 7) (hdscp : pl d 7 1 ≤ 63) (hprefix : pl d 20 1 ≤ 32)
    (hmode : portCarries s (pl d 0 1) = false ∨
      ((portAt s (pl d 0 1)).fast = plBit d 1 1 ∧ (portAt s (pl d 0 1)).fec = plBit d 1 2))
    (hu : u = (if (portAt s (pl d 0 1)).up = true ∧ plBit d 1 0 = false then portDown (pl d 0 1) s else s)) :
    exec (.mpPortCfg d) s = .next (finish d stOk (setPort (pl d 0 1) { portAt u (pl d 0 1) with
      enabled := plBit d 1 0, fast := plBit d 1 1, fec := plBit d 1 2, pauseEn := plBit d 1 3, metaEn := plBit d 1 4,
      vlanEn := plBit d 1 5, vid := pl d 2 2, pcp := pl d 4 1, ptpPcp := pl d 5 1, ttl := pl d 6 1, ptpDscp := pl d 7 1,
      mac := field (d.payload.drop 8) 0 6, metaPort := pl d 14 2, ip := pl d 16 4, prefixLen := pl d 20 1 } u)) := by
  have hallowed : ((decide ((portAt s (pl d 0 1)).fast ≠ plBit d 1 1) || decide ((portAt s (pl d 0 1)).fec ≠ plBit d 1 2)) &&
      portCarries s (pl d 0 1)) = false := by
    obtain hidle | ⟨hfast, hfec⟩ := hmode
    · rw [hidle, Bool.and_false]
    · simp [hfast, hfec]
  have hdown : (if ((portAt s (pl d 0 1)).up && !plBit d 1 0) = true then portDown (pl d 0 1) s else s) = u := by
    simp only [hu, Bool.and_eq_true, Bool.not_eq_true']
  refine (exec_of_checked rfl hun ?limits).trans (congrArg Host.Outcome.next ?accepted)
  case limits => simp [hport, hflags, hvid, hpcp, hptp, hdscp, hprefix]
  case accepted => simp only [hallowed, hdown, Bool.false_eq_true, if_false]

/-- R525: a receive stream takes its configuration and joins its groups. -/
theorem exec_mpRxStream_ok {d : Desc} {s : State} (hun : Unused d [(0, 7), (8, 6), (16, 6), (24, 8)]) (hstream : pl d 0 1 ≤ 127)
    (hflags : pl d 1 1 ≤ 3) (ha : pl d 2 1 ≤ 3) (hb : pl d 3 1 ≤ 3) (hch : 1 ≤ pl d 4 1) (hch' : pl d 4 1 ≤ 64)
    (hlen : pl d 4 1 * packetP s.clk.rate (pl d 5 1) * 3 ≤ 9216) (hpcode : pl d 5 1 ≤ 3) (hpt : 96 ≤ pl d 6 1) (hpt' : pl d 6 1 ≤ 127)
    (hmapped : mappedChannels s (pl d 0 1) ≤ pl d 4 1) (hdelay : packetP s.clk.rate (pl d 5 1) ≤ (rxMapping s (pl d 0 1)).rxd)
    (hfits : storeFits (setRx (pl d 0 1) (rxConfig d (rxAt s (pl d 0 1))) s) = true) :
    exec (.mpRxStream d) s =
      .next (finish d stOk (joinPaths (rxConfig d (rxAt s (pl d 0 1))) (setRx (pl d 0 1) (rxConfig d (rxAt s (pl d 0 1))) s))) := by
  have hallowed : ¬ (pl d 4 1 < mappedChannels s (pl d 0 1) ∨ (rxMapping s (pl d 0 1)).rxd < packetP s.clk.rate (pl d 5 1)) := by omega
  refine (exec_of_checked rfl hun ?limits).trans (congrArg Host.Outcome.next ?accepted)
  case limits => simp [hstream, hflags, ha, hb, hch, hch', hlen, hpcode, hpt, hpt']
  case accepted => simp only [if_neg hallowed, hfits, Bool.not_true, Bool.false_eq_true, if_false]

/-- R277: a mapping of a stream that is in no set, or of a set, is armed before H_(N-1) (R300). -/
theorem exec_mpRxMap_arms {d : Desc} {s : State} {n : Nat} {isSet : Bool} (hun : Unused d [(0, 11), (12, 6)]) (hflags : pl d 8 1 ≤ 1)
    (hkind : pl d 9 1 ≤ 1) (hset : decide (pl d 9 1 = 1) = isSet) (hidx : pl d 10 1 ≤ 127) (hmin : 16 ≤ pl d 16 2)
    (hmax : pl d 16 2 ≤ 8192) (hserved : servedSamples s isSet (pl d 10 1) ≤ pl d 16 2) (hn : n = keyN d (leastBefore s 1))
    (hopen : beforeH s ((n : Int) - 1) = true) (hfree : isSet = false → setOf s (pl d 10 1) = none)
    (hfits : storeFits (withRxMap n isSet (pl d 10 1) (pl d 12 4) (pl d 16 2) s) = true) :
    Completes (.mpRxMap d) s (Arms n d (.mpRxMap isSet (pl d 10 1) (pl d 12 4) (pl d 16 2)) s) := by
  have hpermitted : (!isSet && (setOf s (pl d 10 1)).isSome) = false := by
    cases isSet with
    | false => rw [hfree rfl]; rfl
    | true => rfl
  subst hn hset
  refine .of_checked rfl hun (by simp [hflags, hkind, hidx, hmin, hmax, hserved]) ?_
  simp only [hopen, hpermitted, hfits, Bool.not_true, Bool.false_eq_true, if_false]
  exact armKeyed_arms ..

/-- R282, R299: a transmit stream of the active image takes its addressing. -/
theorem exec_mpTxStream_ok {d : Desc} {s : State} {i : Img} (hun : Unused d [(0, 36)]) (hstream : pl d 0 1 ≤ 127) (hflags : pl d 1 1 ≤ 1)
    (hpt : 96 ≤ pl d 2 1) (hpt' : pl d 2 1 ≤ 127) (hdscp : pl d 3 1 ≤ 63) (himg : s.sch.activeImg = some i)
    (hlisted : ∃ x ∈ i.txs, x.stream = pl d 0 1) :
    exec (.mpTxStream d) s = .next (finish d stOk (setTx (pl d 0 1) { txAt s (pl d 0 1) with
      enabled := plBit d 1 0, pt := pl d 2 1, dscp := pl d 3 1, dstA := pl d 4 4, dstB := pl d 8 4, macA := pl d 12 6,
      macB := pl d 18 6, udpDst := pl d 24 2, udpSrc := pl d 26 2, ssrc := pl d 28 4, rtpOfs := pl d 32 4 } s)) := by
  have hsent : s.sch.activeImg.any (fun i => i.txs.any (fun t => decide (t.stream = pl d 0 1))) = true := by
    simpa [himg] using hlisted
  exact (exec_of_checked rfl hun (by simp [hstream, hflags, hpt, hpt', hdscp])).trans (congrArg Host.Outcome.next (if_pos hsent))

/-- R301: the records of a mode, of ports, receive streams or transmit streams. -/
theorem exec_mpStatus_ok {d : Desc} {s : State} (hun : Unused d [(0, 9), (10, 5)]) (hmode : pl d 8 1 ≤ 2) (hcount : 1 ≤ pl d 12 2)
    (hrange : pl d 10 2 + pl d 12 2 ≤ (if pl d 8 1 = 0 then 4 else 128)) (hclear : pl d 14 1 ≤ 1) :
    exec (.mpStatus d) s = .next (finish d stOk (mpClear (pl d 8 1) (plBit d 14 0) (span (pl d 10 2) (pl d 12 2))
      (hostWrite (pl d 0 8) ((span (pl d 10 2) (pl d 12 2)).flatMap
        (if pl d 8 1 = 0 then portRecord s else if pl d 8 1 = 1 then rxRecord s else txRecord s)) (draw s)))) := by
  have hfirst : pl d 10 2 < (if pl d 8 1 = 0 then 4 else 128) := by omega
  refine (exec_of_checked rfl hun ?limits).trans ?records
  case limits => simp [hmode, hfirst, inRange_eq_true hcount hrange, hclear]
  case records =>
    obtain hports | hrx | htx : pl d 8 1 = 0 ∨ pl d 8 1 = 1 ∨ pl d 8 1 = 2 := by omega
    · simp only [hports, if_true]
    · simp only [hrx, one_ne_zero, if_false, if_true]
    · simp only [htx, OfNat.ofNat_ne_zero, OfNat.ofNat_ne_one, if_false]

/-- Settles O37, one lemma for each command. -/
theorem mediaDescriptorsComplete : Obligations.MediaDescriptorsComplete := by
  refine ⟨?port, ?rxStream, ?streamMap, ?setMap, ?txStream, ?status⟩
  case port =>
    intro d s u hun hport hflags hvid hpcp hptp hdscp hprefix hmode hu
    exact exec_mpPortCfg_ok hun hport hflags hvid hpcp hptp hdscp hprefix hmode hu
  case rxStream =>
    intro d s hun hstream hflags ha hb hch hch' hlen hpcode hpt hpt' hmapped hdelay hfits
    exact exec_mpRxStream_ok hun hstream hflags ha hb hch hch' hlen hpcode hpt hpt' hmapped hdelay hfits
  case streamMap =>
    intro d s n hun hflags hkind hidx hmin hmax hserved hn hopen hfree hfits
    exact exec_mpRxMap_arms hun hflags (by omega) (by simp [hkind]) hidx hmin hmax hserved hn hopen (fun _ => hfree) hfits
  case setMap =>
    intro d s n hun hflags hkind hidx hmin hmax hserved hn hopen hfits
    exact exec_mpRxMap_arms hun hflags hkind.le (by simp [hkind]) hidx hmin hmax hserved hn hopen nofun hfits
  case txStream =>
    intro d s i hun hstream hflags hpt hpt' hdscp himg hlisted
    exact exec_mpTxStream_ok hun hstream hflags hpt hpt' hdscp himg hlisted
  case status => exact fun d s hun hmode hcount hrange hclear => exec_mpStatus_ok hun hmode hcount hrange hclear

end Sys2Proof.Machine
end

section
/-! The time unit: PTP messages and time-outs, pins and captures, and the descriptors that set them up (R289 to R298). -/

namespace Sys2Proof.Machine

/-! ## Messages and time-outs (R289, R293, R295) -/

section
variable {s : State} (hst : s.ptp.st ≠ 0)
include hst

/-- R293: the servo takes a Sync of the selected master on the selected path. -/
theorem exec_ptpSync_selected {m : SyncMsg} (hheard : s.ptp.masters ≠ []) (hgm : m.master = s.ptp.gm) (hpath : m.portB = s.ptp.viaB) :
    exec (.ptpSync m) s = .next (syncOp m s) :=
  congrArg Host.Outcome.next (if_pos ⟨hst, List.isEmpty_eq_false_iff.mpr hheard, hgm, hpath⟩)

/-- R293: the response to the Delay_Req that was sent gives the path delay of the exchange, and the mean over the last 16. -/
theorem exec_ptpDelayResp_sent {q t3 : Nat} {a b t4 c : Int} {ds : List Int} (hsync : s.ptp.lastSync = some (a, b))
    (hsent : s.ptp.sent = some (q, t3)) (hds : ds = (((b - a) + (t4 - (t3 : Int)) - c) / 2 :: s.ptp.delays).take 16) :
    exec (.ptpDelayResp q t4 c) s = .next (setPtp s (fun p => { p with delays := ds, meanDelay := meanI ds, sent := none })) := by
  subst hds
  have hmatch : ¬ (s.ptp.st = 0 ∨ q ≠ q) := not_or.mpr ⟨hst, not_not.mpr rfl⟩
  refine congrArg Host.Outcome.next ?_
  simp only [hsync, hsent, if_neg hmatch]
  rfl

/-- R289: a master that is heard replaces what was known of it on that path, and the best one is selected. -/
theorem exec_ptpAnnounce_enabled {m : AnnounceMsg} (hpath : m.portB = false ∨ s.ptp.portB ≠ 255) :
    exec (.ptpAnnounce m) s = .next (selectMaster (setPtp s (fun p => { p with
      masters := p.masters.filter (fun x => decide (x.identity ≠ m.identity) || x.portB != m.portB) ++ [m] }))) :=
  congrArg Host.Outcome.next (if_pos ⟨hst, hpath⟩)

/-- R289, R292: a multicast Delay_Req joins the queue of the selected path's port. -/
theorem exec_ptpDelayReqSend_multicast (hheard : s.ptp.masters ≠ []) (hport : ptpPort s < 4) (hmulti : s.ptp.hybrid = false) (q : Nat)
    (fl : Bool) :
    exec (.ptpDelayReqSend q fl) s =
      .next (queueTx (ptpPort s) { cls := 0, stream := 0, seqId := q % 65536, report := fl, domain := s.ptp.domain,
                                   bytes := udpFrame s (ptpPort s) 0x01005E000181 0xE0000181 (portAt s (ptpPort s)).ptpPcp
                                     (portAt s (ptpPort s)).ptpDscp 319 319 (delayReq s q) }
        { s with freeCtr := s.freeCtr + 5 }) := by
  refine congrArg Host.Outcome.next ((if_pos ⟨hst, List.isEmpty_eq_false_iff.mpr hheard, hport⟩).trans ?_)
  simp only [hmulti, Bool.false_eq_true, if_false]

theorem exec_syncTimeout_enabled :
    exec .syncTimeout s = .next (freeRun 3 (setPtp s (fun p => { p with nSyncTmo := bump 32 p.nSyncTmo 1 }))) :=
  congrArg Host.Outcome.next (if_pos hst)

theorem exec_announceTimeout_enabled :
    exec .announceTimeout s = .next (selectMaster (freeRun 4 (setPtp s (fun p => { p with
      masters := p.masters.filter (fun x => decide (x.identity ≠ p.gm) || x.portB != p.viaB) })))) :=
  congrArg Host.Outcome.next (if_pos hst)

end

/-! ## Pins and captures (R297, R298) -/

section
variable {p : Nat} {s : State} {t : Trig} (ht : smFind s.ptp.trig p = some t)
include ht

/-- R297: an action keyed to a tranche fires once. -/
theorem exec_trigFire_tranche (hmode : t.mode = 0) (hdue : t.n ≤ s.clk.tidx + 1) (hvalid : s.clk.tidxValid = true) :
    exec (.trigFire p) s = .next (setPin p (!t.pol) (setPtp s (fun x => { x with trig := smDrop x.trig p }))) := by
  refine congrArg Host.Outcome.next ?_
  simp only [ht, if_pos hmode]
  exact if_pos ⟨hdue, hvalid⟩

/-- R297: an action at a device time that does not repeat fires once. -/
theorem exec_trigFire_once (hmode : t.mode ≠ 0) (honce : t.mode ≠ 2) (hvalid : s.ptp.valid = true) :
    exec (.trigFire p) s = .next (setPin p (!t.pol) (setPtp s (fun x => { x with trig := smDrop x.trig p }))) := by
  refine congrArg Host.Outcome.next ?_
  simp only [ht, if_neg hmode, if_neg honce, hvalid, if_true]

/-- R297: a periodic action stays armed for its next time. -/
theorem exec_trigFire_periodic (hmode : t.mode = 2) (hvalid : s.ptp.valid = true) :
    exec (.trigFire p) s = .next (setPin p (!t.pol) (setPtp s (fun x => { x with
      trig := smPut x.trig p { t with time := t.time + t.period } }))) := by
  refine congrArg Host.Outcome.next ?_
  simp only [ht, hmode, hvalid, OfNat.ofNat_ne_zero, if_false, if_true]

end

theorem mem_pinHigh_setPin_true (p : Nat) (s : State) : p ∈ (setPin p true s).ptp.pinHigh := by
  by_cases hp : p ∈ s.ptp.pinHigh <;> simp [setPin, hp]

theorem exec_ppsOutPulse_valid {s : State} (hen : s.ptp.ppsEn = true) (hvalid : s.ptp.valid = true) :
    exec .ppsOutPulse s = .next (setPin 4 true s) :=
  congrArg Host.Outcome.next (if_pos (Bool.and_eq_true_iff.mpr ⟨hen, hvalid⟩))

theorem exec_trigPulseEnd_trig {p : Nat} (hp : p < 4) (s : State) :
    exec (.trigPulseEnd p) s = .next (setPin p (!decide (p ∈ s.ptp.pinHigh)) s) :=
  congrArg Host.Outcome.next ((if_neg (Nat.ne_of_lt hp)).trans (if_pos hp))

/-- R298: an edge that is asked for joins the captures, where they have room. -/
theorem exec_tcapEdge_wanted {p e : Nat} {r : Bool} {s : State} (hp : p < 4) (he : e = (if r then 1 else 2))
    (hmask : s.ptp.tcapMask / 2 ^ p % 2 = 1) (hedge : s.ptp.tcapEdges / 4 ^ p % 4 / e % 2 = 1) (hroom : s.ptp.tcapQ.length < 64) (c : Nat) :
    Completes (.tcapEdge p r c) s (fun t => t.ptp.tcapQ = s.ptp.tcapQ ++
      [{ pin := p, edge := e, time := s.ptp.dt, tidx := tidxLow s, cycle := c }]) := by
  subst he
  exact ⟨_, congrArg Host.Outcome.next ((if_pos ⟨hp, hmask, hedge⟩).trans (if_neg (Nat.not_le.mpr hroom))), by simp⟩

/-- Settles O5, one lemma for each command and kind of action; a pulse on PPS_OUT ends in every state. -/
theorem ptpCommandsComplete : Obligations.PtpCommandsComplete := by
  refine ⟨?sync, ?delayResp, ?announce, ?delayReq, ?syncTmo, ?annTmo, ?tranche, ?once, ?periodic, ?pps, ?ppsEnd, ?pulseEnd, ?capture⟩
  case sync => exact fun m s hst hheard hgm hpath => exec_ptpSync_selected hst hheard hgm hpath
  case delayResp => exact fun q t3 t4 c s a b hsync hsent hst => ⟨_, exec_ptpDelayResp_sent hst hsync hsent rfl, rfl, rfl, rfl⟩
  case announce => exact fun m s hst hpath => exec_ptpAnnounce_enabled hst hpath
  case delayReq => exact fun q fl s hst hheard hport hmulti => exec_ptpDelayReqSend_multicast hst hheard hport hmulti q fl
  case syncTmo => exact fun s hst => exec_syncTimeout_enabled hst
  case annTmo => exact fun s hst => exec_announceTimeout_enabled hst
  case tranche => exact fun p s t ht hmode hdue hvalid => exec_trigFire_tranche ht hmode hdue hvalid
  case once => exact fun p s t ht hmode honce hvalid => exec_trigFire_once ht hmode honce hvalid
  case periodic => exact fun p s t ht hmode hvalid => exec_trigFire_periodic ht hmode hvalid
  case pps => exact fun s hen hvalid => ⟨_, exec_ppsOutPulse_valid hen hvalid, mem_pinHigh_setPin_true 4 s⟩
  case ppsEnd => exact fun s => ⟨_, rfl, rfl⟩
  case pulseEnd => exact fun p s hp => exec_trigPulseEnd_trig hp s
  case capture => exact fun p e r c s hp he hmask hedge hroom => exec_tcapEdge_wanted hp he hmask hedge hroom c

/-! ## PTP_CFG, PTP_CTL, PTP_STATUS and the captures' descriptors (R289, R294, R296, R298, R299, R301) -/

section
variable {d : Desc} {s : State}

/-- R289, R295: PTP takes its configuration, and is enabled or disabled where that changes. -/
theorem exec_ptpCfg_ok {c : State} (hun : Unused d [(0, 9), (12, 20)]) (hprofile : pl d 0 1 ≤ 1) (ha : pl d 1 1 ≤ 3)
    (hb : pl d 2 1 = 255 ∨ (pl d 2 1 ≤ 3 ∧ pl d 2 1 ≠ pl d 1 1)) (hflags : pl d 4 1 ≤ 7) (hiv : -7 ≤ plS d 5 1) (hiv' : plS d 5 1 ≤ 1)
    (hann : 2 ≤ pl d 6 1) (hann' : pl d 6 1 ≤ 10) (hsync : 2 ≤ pl d 7 1) (hsync' : pl d 7 1 ≤ 16) (hbw : pl d 8 1 ≤ 3)
    (hlock : 100 ≤ pl d 12 4) (hlock' : pl d 12 4 ≤ 1000000) (hslew : 1 ≤ pl d 16 4) (hslew' : pl d 16 4 ≤ 100000)
    (hout : 100 ≤ pl d 20 4) (hout' : pl d 20 4 ≤ 1000000) (hc : c = setPtp s (fun p => { p with
      enabled := plBit d 4 0, profile := pl d 0 1, portA := pl d 1 1, portB := pl d 2 1, domain := pl d 3 1, ppsEn := plBit d 4 1,
      hybrid := plBit d 4 2, delayIv := plS d 5 1, annTmo := pl d 6 1, syncTmo := pl d 7 1, bw := pl d 8 1, lockWin := pl d 12 4,
      slewLim := pl d 16 4, outlier := pl d 20 4, asymA := plS d 24 4, asymB := plS d 28 4 })) :
    exec (.ptpCfg d) s = .next (finish d stOk (if plBit d 4 0 = true then ptpEnable c else if s.ptp.st = 0 then c else ptpDisable c)) := by
  subst hc
  refine exec_of_checked rfl hun ?_
  simpa [hprofile, ha, hflags, hiv, hiv', hann, hann', hsync, hsync', hbw, hlock, hlock', hslew, hslew', hout, hout'] using hb

/-- R294, R296: PTP_CTL arms a step and acknowledges a change of grandmaster. -/
theorem ptpCtl_ok (hun : Unused d [(0, 1)]) (hflags : pl d 0 1 ≤ 3) (s : State) :
    ptpCtl d s = finish d stOk (setPtp s (fun p => { p with
      stepArmed := p.stepArmed || plBit d 0 0, gmChange := p.gmChange && !plBit d 0 1 })) :=
  checked_legal hun (by simp [hflags])

theorem ptpCtl_completes {c : Instr} (hexec : exec c s = .next (ptpCtl d s)) (hun : Unused d [(0, 1)]) (hflags : pl d 0 1 ≤ 3) :
    Completes c s (fun t => Reports d stOk 0 0 s t ∧ t.ptp = { s.ptp with
      stepArmed := s.ptp.stepArmed || plBit d 0 0, gmChange := s.ptp.gmChange && !plBit d 0 1 }) :=
  ⟨_, hexec.trans (congrArg Host.Outcome.next (ptpCtl_ok hun hflags s)), rfl, rfl⟩

/-- R301: the record is written, and with CLEAR the counters restart. -/
theorem exec_ptpStatus_ok (hun : Unused d [(0, 9)]) (hclear : pl d 8 1 ≤ 1) :
    Completes (.ptpStatus d) s (fun t => Reports d stOk 0 0 s t ∧
      WritesHost (pl d 0 8) (ptpRecord s) s t ∧ t.ptp.nSync = if pl d 8 1 = 1 then 0 else s.ptp.nSync) := by
  refine .of_checked rfl hun (by simp [hclear]) ?_
  have hwrites := hostWrite_writes (pl d 0 8) (ptpRecord s) s
  simp only [plBit_zero_eq hclear, decide_eq_true_eq]
  split
  next hone => exact ⟨by simp [Reports], hwrites.congr rfl rfl, rfl⟩
  next hzero => exact ⟨by simp [Reports], hwrites.congr rfl rfl, by simp⟩

theorem exec_timeCapCfg_ok (hun : Unused d [(0, 2)]) (hmask : pl d 0 1 ≤ 15) :
    Completes (.timeCapCfg d) s (fun t => Reports d stOk 0 0 s t ∧ t.ptp = { s.ptp with tcapMask := pl d 0 1, tcapEdges := pl d 1 1 }) :=
  .of_checked rfl hun (by simp [hmask]) ⟨rfl, rfl⟩

/-- R298: the oldest captures leave the queue and are written, with their number before them. -/
theorem exec_timeCapRead_ok (hun : Unused d [(0, 9)]) (hmin : 1 ≤ pl d 8 1) (hmax : pl d 8 1 ≤ 64) :
    Completes (.timeCapRead d) s (fun t => Reports d stOk 0 0 s t ∧
      t.ptp.tcapQ = s.ptp.tcapQ.drop (pl d 8 1) ∧ WritesHost (pl d 0 8) (leBytes 4 (s.ptp.tcapQ.take (pl d 8 1)).length ++ zeros 4 ++
        (s.ptp.tcapQ.take (pl d 8 1)).flatMap (capRecord false)) s t) := by
  refine .of_checked rfl hun (by simp [hmin, hmax]) ⟨by simp [Reports], by simp, ?_⟩
  exact hostWrite_writes _ _ (setPtp s (fun p => { p with tcapQ := p.tcapQ.drop (pl d 8 1) }))

end

/-- Settles O35, one lemma for each command. -/
theorem ptpDescriptorsComplete : Obligations.PtpDescriptorsComplete := by
  refine ⟨?cfg, ?stepArm, ?clearGm, ?status, ?capCfg, ?capRead⟩
  case cfg =>
    intro d s c hun hprofile ha hb hflags hiv hiv' hann hann' hsync hsync' hbw hlock hlock' hslew hslew' hout hout' hc
    exact exec_ptpCfg_ok hun hprofile ha hb hflags hiv hiv' hann hann' hsync hsync' hbw hlock hlock' hslew hslew' hout hout' hc
  case stepArm => exact fun d s hun hflags => ptpCtl_completes rfl hun hflags
  case clearGm => exact fun d s hun hflags => ptpCtl_completes rfl hun hflags
  case status => exact fun d s hun hclear => exec_ptpStatus_ok hun hclear
  case capCfg => exact fun d s hun hmask => exec_timeCapCfg_ok hun hmask
  case capRead => exact fun d s hun hmin hmax => exec_timeCapRead_ok hun hmin hmax

/-! ## TIME_TRIG (R297) -/

section
variable {d : Desc} {s : State} (hun : Unused d [(0, 3), (8, 20)]) (hlimits : (trigLimits d).all (fun l => l.2) = true)
  (harm : plBit d 2 2 = false)
include hun hlimits harm

/-- A TIME_TRIG that arms does so by its target, and for a pin by its mode. -/
theorem exec_timeTrig_arming {n : Nat} (hn : n = (if plBit d 2 0 then leastBefore s 2 else pl d 8 8)) :
    exec (.timeTrig d) s = .next
      (if pl d 0 1 = 16 then stimulusArm d n false s
       else if pl d 0 1 = 17 then captureArm d n s
       else if pl d 1 1 = 0 then (if beforeH s ((n : Int) - 2) then armTrig d n s else finish d stLate s)
       else if s.ptp.valid && decide (pl d 8 6 * 1000000000 + pl d 16 4 < s.ptp.dt + 10000) then finish d stLate s
       else armTrig d 0 s) := by
  subst hn
  exact congrArg Host.Outcome.next ((if_neg (ne_true_of_eq_false harm)).trans (checked_legal hun hlimits))

theorem exec_timeTrig_pin_tranche {n : Nat} (hpin : pl d 0 1 ≤ 3) (hmode : pl d 1 1 = 0)
    (hn : n = (if plBit d 2 0 then leastBefore s 2 else pl d 8 8)) (hopen : beforeH s ((n : Int) - 2) = true) :
    exec (.timeTrig d) s = .next (armTrig d n s) := by
  rw [exec_timeTrig_arming hun hlimits harm hn, if_neg (by omega), if_neg (by omega), if_pos hmode, if_pos hopen]

theorem exec_timeTrig_pin_time (hpin : pl d 0 1 ≤ 3) (hmode : pl d 1 1 ≠ 0)
    (hopen : s.ptp.dt + 10000 ≤ pl d 8 6 * 1000000000 + pl d 16 4) :
    exec (.timeTrig d) s = .next (armTrig d 0 s) := by
  rw [exec_timeTrig_arming hun hlimits harm rfl, if_neg (by omega), if_neg (by omega), if_neg hmode, decide_eq_false (by omega),
    Bool.and_false, if_neg Bool.false_ne_true]

theorem exec_timeTrig_stimulus {n : Nat} (htarget : pl d 0 1 = 16) (hn : n = (if plBit d 2 0 then leastBefore s 2 else pl d 8 8))
    (hopen : beforeH s ((n : Int) - 2) = true) : exec (.timeTrig d) s = .next (armStimulus n d.tok false s) := by
  rw [exec_timeTrig_arming hun hlimits harm hn, if_pos htarget, stimulusArm, if_pos hopen]

theorem exec_timeTrig_capture {n : Nat} (htarget : pl d 0 1 = 17) (hn : n = (if plBit d 2 0 then leastBefore s 2 else pl d 8 8))
    (hopen : beforeH s ((n : Int) - 2) = true) (hidle : s.lau.cap.running = none) :
    exec (.timeTrig d) s = .next (armCapture n d.tok s) := by
  rw [exec_timeTrig_arming hun hlimits harm hn, if_neg (by omega), if_pos htarget]
  simp only [captureArm, hopen, hidle, Option.isSome_none, Bool.not_true, Bool.false_eq_true, if_false]

end

theorem exec_timeTrig_disarm {d : Desc} (hun : Unused d [(0, 28)]) (htarget : pl d 0 1 ≤ 3 ∨ pl d 0 1 = 16 ∨ pl d 0 1 = 17)
    (hflags : pl d 2 1 ≤ 7) (hdisarm : plBit d 2 2 = true) (s : State) :
    exec (.timeTrig d) s = .next (finish d stOk (disarmTrig (pl d 0 1) s)) :=
  congrArg Host.Outcome.next ((if_pos hdisarm).trans (checked_legal hun (by simpa [hflags, or_assoc] using htarget)))

/-- Settles O36, one lemma for each target and mode; an action at a time far enough ahead is armed whether or not device time is valid. -/
theorem timeTriggersArm : Obligations.TimeTriggersArm := by
  refine ⟨?tranche, ?time, ?stimulus, ?capture, ?disarm⟩
  case tranche => exact fun d s n hun hlimits harm hpin hmode hn hopen => exec_timeTrig_pin_tranche hun hlimits harm hpin hmode hn hopen
  case time => exact fun d s hun hlimits harm hpin hmode _ hopen => exec_timeTrig_pin_time hun hlimits harm hpin hmode hopen
  case stimulus => exact fun d s n hun hlimits harm htarget hn hopen => exec_timeTrig_stimulus hun hlimits harm htarget hn hopen
  case capture =>
    exact fun d s n hun hlimits harm htarget hn hopen hidle => exec_timeTrig_capture hun hlimits harm htarget hn hopen hidle
  case disarm => exact fun d s hun htarget hflags hdisarm => exec_timeTrig_disarm hun htarget hflags hdisarm s

end Sys2Proof.Machine
end

section
/-! The host interface's own descriptors, and the aborts (R321, R324, R326, R327). -/

namespace Sys2Proof.Machine

/-! ## Descriptors (R321, R324, R327) -/

section
variable {d : Desc} {s : State}

theorem exec_hifNop_ok (hun : Unused d []) : Completes (.hifNop d) s (Reports d stOk (tidxLow s % 2 ^ 32) 0 s) :=
  .of_checked rfl hun rfl rfl

/-- A descriptor that writes one record to host memory and reports OK. -/
theorem finish_hostWrite_reports_and_writes (a : Nat) (bs : List Byte) :
    Reports d stOk 0 0 s (finish d stOk (hostWrite a bs s)) ∧ WritesHost a bs s (finish d stOk (hostWrite a bs s)) :=
  ⟨by simp [Reports, finish], (hostWrite_writes a bs s).congr rfl rfl⟩

theorem exec_hifStatus_ok (hun : Unused d [(0, 8)]) :
    Completes (.hifStatus d) s (fun t => Reports d stOk 0 0 s t ∧ WritesHost (pl d 0 8) (hifRecord s) s t) :=
  .of_checked rfl hun rfl (finish_hostWrite_reports_and_writes ..)

theorem exec_hifIdentify_ok (hun : Unused d [(0, 8)]) :
    Completes (.hifIdentify d) s (fun t => Reports d stOk 0 0 s t ∧ WritesHost (pl d 0 8) (identRecord s) s t) :=
  .of_checked rfl hun rfl (finish_hostWrite_reports_and_writes ..)

/-- R324: with SCOPE 2 the ring number is not looked at. -/
theorem exec_hifAbort_starts (hun : Unused d [(0, 4)]) (hscope : pl d 0 1 ≤ 2) (hring : pl d 0 1 = 2 ∨ pl d 1 1 ≤ 15) :
    exec (.hifAbort d) s = .next (startAbort (pl d 0 1) (pl d 1 1) (pl d 2 2) (some d.tok) s) :=
  exec_of_checked rfl hun (by simpa [hscope] using hring)

/-- R327: a HIF_SQ_DISABLE that does not name its own ring starts the disable. -/
theorem exec_hifSqDisable_starts (hun : Unused d [(0, 1)]) (hring : pl d 0 1 ≤ 15)
    (hother : ∀ o, findOp s d.tok = some o → o.sq ≠ pl d 0 1) :
    exec (.hifSqDisable d) s = .next (sqDisableStart (pl d 0 1) (some d.tok) s) := by
  refine (exec_of_checked rfl hun (by simp [hring])).trans (congrArg Host.Outcome.next (if_neg ?_))
  rw [Option.any_eq_true]
  rintro ⟨o, hfind, hown⟩
  exact hother o hfind (of_decide_eq_true hown)

end

/-- Settles O1, one lemma for each descriptor. -/
theorem hostInterfaceDescriptorsComplete : Obligations.HostInterfaceDescriptorsComplete := by
  refine ⟨?nop, ?status, ?identify, ?abort, ?disable⟩
  case nop => exact fun d s hun => exec_hifNop_ok hun
  case status => exact fun d s hun => exec_hifStatus_ok hun
  case identify => exact fun d s hun => exec_hifIdentify_ok hun
  case abort => exact fun d s hun hscope hring => exec_hifAbort_starts hun hscope hring
  case disable => exact fun d s hun hring hother => exec_hifSqDisable_starts hun hring hother

/-! ## Legal writes (R10) -/

theorem writeLegal_iff (fs : List Fld) (v : Word) :
    writeLegal fs v = true ↔ v.toNat &&& (2 ^ 32 - 1 - coverMask fs) = 0 ∧
      ∀ f ∈ fs, f.checked = true → f.lo ≤ Word.bits v f.msb f.lsb ∧ Word.bits v f.msb f.lsb ≤ f.hi := by
  simp [writeLegal, or_iff_not_imp_left]

theorem bits_le (w : Word) (msb lsb : Nat) : Word.bits w msb lsb ≤ 2 ^ (msb + 1 - lsb) - 1 :=
  Nat.le_sub_one_of_lt (Nat.mod_lt _ (Nat.two_pow_pos _))

/-- A field that takes every value is in range. -/
theorem bits_mem_fld (w : Word) (msb lsb : Nat) (acc : Acc) (reset : Nat) :
    (fld msb lsb acc reset).lo ≤ Word.bits w msb lsb ∧ Word.bits w msb lsb ≤ (fld msb lsb acc reset).hi :=
  ⟨Nat.zero_le _, bits_le w msb lsb⟩

/-! ## Aborts (R324, R326) -/

/-- R324, R334: a legal write of TOP_ABORT_CTL starts an abort where none runs. -/
theorem exec_abortRequest_idle {s : State} {v : Word} (hidle : abortBusy s = false) (hres : v.toNat &&& 0x3FF00000 = 0)
    (hscope : Word.bits v 31 30 ≤ 2) :
    exec (.abortRequest v) s = .next (startAbort (Word.bits v 31 30) (Word.bits v 19 16) (Word.bits v 15 0) none s) := by
  have hlegal : writeLegal [fldIn 31 30 .wo 0 0 2, fld 19 16 .wo 0, fld 15 0 .wo 0] v = true := by
    refine (writeLegal_iff _ v).mpr ⟨hres, ?_⟩
    simp only [List.forall_mem_cons]
    exact ⟨fun _ => ⟨Nat.zero_le _, hscope⟩, fun _ => bits_mem_fld .., fun _ => bits_mem_fld .., nofun⟩
  refine congrArg Host.Outcome.next (if_neg ?_)
  simp [hidle, hlegal]

section
variable {s : State} {tok : Nat} {o : Op} (ho : findOp (commitOutcomes s) tok = some o)
include ho

/-- R324: an owner that has a notice and gives no answer is given up. -/
theorem exec_abortOwnerTimeout_silent (hnotice : o.notice = true) (hst : o.st = .started) :
    exec (.abortOwnerTimeout tok) s = .next (leaveKeyed tok (withdrawRest tok (abortGiveUp tok (commitOutcomes s)))) := by
  refine congrArg Host.Outcome.next ?_
  simp only [ownerSilent, ho]
  exact if_pos ⟨hnotice, hst⟩

/-- R326: an operation that is not committed when its time runs out meets an abort of its own. -/
theorem exec_opTimeout_expired {u : State} (hu : u = commitOutcomes s) (hlimit : o.timeoutMs ≠ 0) (hst : o.st ≠ .committed) :
    exec (.opTimeout tok) s = .next (abortOne { o with tmo := true }
      { u with hif := { u.hif with ops := u.hif.ops.map (fun p => if p.tok = tok then { p with tmo := true } else p) } }).2.2 := by
  subst hu
  refine congrArg Host.Outcome.next ?_
  simp only [ho]
  exact if_neg (not_or.mpr ⟨hlimit, hst⟩)

end

/-- Settles O43, one lemma for each command. That the reports of finished operations are taken first, as `commitOutcomes`, is the model's choice
(log entry 110), and so is the free choice in `leaveKeyed` (log entry 58). -/
theorem abortCommandsComplete : Obligations.AbortCommandsComplete := by
  refine ⟨?request, ?owner, ?timeout⟩
  case request => exact fun v s hidle hres hscope => exec_abortRequest_idle hidle hres hscope
  case owner =>
    rintro tok s _ o rfl ho hnotice hst
    exact exec_abortOwnerTimeout_silent ho hnotice hst
  case timeout =>
    rintro tok s u o rfl ho hlimit hst
    exact exec_opTimeout_expired ho rfl hlimit hst

end Sys2Proof.Machine
end

section
/-! The register windows (R335, R380, R384 to R388, R474). -/

namespace Sys2Proof.Machine

/-! ## A window's access (R335, R380, R388) -/

/-- The transaction of a window's access. -/
abbrev windowTxn (svc write : Bool) (s : State) : Txn :=
  { master := winMaster svc, target := targetOf (windowAt svc s), write := write, id := 0, addr := windowAt svc s }

/-- The word that a window's access is asked for with: GO, and WRITE for a write. -/
def windowCtl (write : Bool) : Word := if write then 3 else 1

section
variable {w : Master → Nat → Word → State → State} {svc write : Bool} {ans : Answer} {y : List (Nat × Byte)} {s : State}

/-- A write of GO to an idle window is an access that the port lets through at once: past the matrix, or not held back. -/
theorem winGo_eq_winAccess (hidle : winBusy svc s = false)
    (hpass : isAon (windowAt svc s) = true ∨ holdsBack (windowTxn svc write s) s.mtx.held s = false) :
    winGo svc (windowCtl write) ans s =
      winAccess blockWriteInner svc (windowTxn svc write s) (getReg s (winData svc)) ans (windowGo svc s) := by
  have hlegal : writeLegal [fld 31 31 .ro 0, fld 30 29 .ro 0, fld 1 1 .wo 0, fld 0 0 .w1s 0] (windowCtl write) = true := by
    cases write <;> decide
  have hgo : Word.bit (windowCtl write) 0 = true := by cases write <;> decide
  have hwrite : Word.bit (windowCtl write) 1 = write := by cases write <;> decide
  have hheld : (!isAon (windowAt svc s) && holdsBack (windowTxn svc write s) s.mtx.held s) = false := by
    rcases hpass with h | h <;> simp [h]
  have hstart : ¬ (!writeLegal [fld 31 31 .ro 0, fld 30 29 .ro 0, fld 1 1 .wo 0, fld 0 0 .w1s 0] (windowCtl write) ||
      !Word.bit (windowCtl write) 0 || winBusy svc s) = true := by simp [hlegal, hgo, hidle]
  unfold winGo winGoWith
  simp only [hwrite]
  exact (if_neg hstart).trans (if_neg (ne_true_of_eq_false hheld))

/-- The access of an open window reaches its target, whose answer is the one given: a D_AON register answers OK of itself. -/
theorem winAccess_eq_winTarget (hopen : WindowOpen svc write s) (hans : Answers svc ans y s) (data : Word) :
    winAccess w svc (windowTxn svc write s) data ans (windowGo svc s) =
      winTarget w svc (windowTxn svc write s) data y (windowGo svc s) := by
  obtain ⟨-, hden, hreach⟩ := hopen
  have hanswer : (if isAon (windowAt svc s) = true then Answer.ok
      else if clockStopped (windowAt svc s) (windowGo svc s) = true then .silent else ans) = ans := by
    rcases hreach with haon | ⟨-, hclk⟩
    · obtain ⟨rfl, -⟩ | ⟨-, hnot⟩ := hans
      · exact if_pos haon
      · exact absurd haon (ne_true_of_eq_false hnot)
    · obtain ⟨rfl, -⟩ | ⟨-, hnot⟩ := hans
      · rw [hclk, if_neg Bool.false_ne_true, ite_self]
      · rw [hnot, hclk, if_neg Bool.false_ne_true, if_neg Bool.false_ne_true]
  refine (if_neg (ne_true_of_eq_false hden)).trans ?_
  simp only [windowTxn, hanswer]
  obtain ⟨rfl, rfl⟩ | ⟨rfl, -⟩ := hans <;> rfl

theorem winGo_eq_winTarget (hopen : WindowOpen svc write s) (hans : Answers svc ans y s) :
    winGo svc (windowCtl write) ans s =
      winTarget blockWriteInner svc (windowTxn svc write s) (getReg s (winData svc)) y (windowGo svc s) := by
  obtain ⟨hidle, -, hreach⟩ := id hopen
  rw [winGo_eq_winAccess hidle (hreach.imp_right And.left), winAccess_eq_winTarget hopen hans]

/-- A read that the target answers OK leaves the target's word. -/
theorem winGo_read_ok {r : Nat × Word × State} (hopen : WindowOpen svc false s) (hans : Answers svc ans y s)
    (hr : r = targetRead (winBy svc) (windowAt svc s) y (windowGo svc s)) (hok : r.1 = 0) :
    winGo svc 1 ans s = winEnd svc false 0 r.2.1 r.2.2 := by
  subst hr
  refine (winGo_eq_winTarget hopen hans).trans ?_
  simp only [winTarget, windowTxn, hok, Bool.false_eq_true, if_false, if_true]

/-- A write to the register blocks has the effect of a register write. -/
theorem winGo_write_register (hopen : WindowOpen svc true s) (hans : Answers svc ans y s) (htarget : targetOf (windowAt svc s) = 0) :
    winGo svc 3 ans s =
      winEnd svc true 0 0 (blockWriteInner (winBy svc) (windowAt svc s) (getReg s (winData svc)) (windowGo svc s)) := by
  refine (winGo_eq_winTarget hopen hans).trans ?_
  simp only [winTarget, windowTxn, htarget, if_true]

/-- A write that another target answers OK has that target's effect. -/
theorem winGo_write_target {r : Nat × State} (hopen : WindowOpen svc true s) (hans : Answers svc ans y s)
    (htarget : targetOf (windowAt svc s) ≠ 0)
    (hr : r = targetWrite (winBy svc) (windowAt svc s) (getReg s (winData svc)) 15 y (windowGo svc s)) (hok : r.1 = 0) :
    winGo svc 3 ans s = winEnd svc true 0 0 r.2 := by
  subst hr
  refine (winGo_eq_winTarget hopen hans).trans ?_
  simp only [winTarget, windowTxn, htarget, hok, if_false, if_true]

end

/-! ## Accesses that end with an error, or wait (R335, R380, R385) -/

section
variable {svc : Bool} {s : State}

theorem exec_windowRead (ans : Answer) :
    exec (if svc then .svcRwinRead 1 ans else .rwinRead 1 ans) s = .next (winGo svc 1 ans s) := by
  cases svc <;> rfl

section
variable (hidle : winBusy svc s = false) (hpass : holdsBack (windowTxn svc false s) s.mtx.held s = false)
include hidle hpass

theorem winGo_read_denied (hden : denied (winBy svc) false (windowAt svc s) (windowGo svc s) = true) (ans : Answer) :
    winGo svc 1 ans s = winEnd svc false 3 0 (mtxError 3 (windowTxn svc false s) (windowGo svc s)) :=
  (winGo_eq_winAccess hidle (.inr hpass)).trans (if_pos hden)

/-- A target that does not answer leaves the window BUSY with its transaction outstanding. -/
theorem winGo_read_silent (haon : isAon (windowAt svc s) = false)
    (hden : denied (winBy svc) false (windowAt svc s) (windowGo svc s) = false) :
    winGo svc 1 .silent s = setMtx (windowGo svc s) (fun m => { m with pending := m.pending ++ [windowTxn svc false s] }) := by
  refine (winGo_eq_winAccess hidle (.inr hpass)).trans ((if_neg (ne_true_of_eq_false hden)).trans ?_)
  simp only [windowTxn, haon, Bool.false_eq_true, if_false, ite_self]

end

theorem exec_rwinTimeout_busy (hbusy : winBusy svc s = true) :
    exec (.rwinTimeout svc) s = .next (winEnd svc (winWrites svc s) 1 0
      (setMtx s (fun m => { m with held := m.held.filter (fun h => decide (h.win ≠ some svc)) }))) :=
  congrArg Host.Outcome.next (if_pos hbusy)

end

/-- Settles O44: reads and writes are one access for both windows; an access that is let through ends with what the target answers. -/
theorem windowCommandsComplete : Obligations.WindowCommandsComplete := by
  refine ⟨?hostRead, ?svcRead, ?hostReg, ?svcReg, ?hostWrite, ?svcWrite, ?done, ?denied, ?silent, ?timeout⟩
  case hostRead => exact fun ans y s r hopen hans hr hok => congrArg Host.Outcome.next (winGo_read_ok hopen hans hr hok)
  case svcRead => exact fun ans y s r hopen hans hr hok => congrArg Host.Outcome.next (winGo_read_ok hopen hans hr hok)
  case hostReg => exact fun ans y s hopen hans h0 => congrArg Host.Outcome.next (winGo_write_register hopen hans h0)
  case svcReg => exact fun ans y s hopen hans h0 => congrArg Host.Outcome.next (winGo_write_register hopen hans h0)
  case hostWrite =>
    exact fun ans y s r hopen hans hne hr hok => congrArg Host.Outcome.next (winGo_write_target hopen hans hne hr hok)
  case svcWrite =>
    exact fun ans y s r hopen hans hne hr hok => congrArg Host.Outcome.next (winGo_write_target hopen hans hne hr hok)
  case done =>
    rintro svc err data s _ rfl
    exact ⟨rfl, rfl⟩
  case denied =>
    rintro svc s _ hidle - rfl hpass hden
    exact (exec_windowRead _).trans (congrArg Host.Outcome.next (winGo_read_denied hidle hpass hden _))
  case silent =>
    rintro svc s _ hidle haon rfl hpass hden
    exact (exec_windowRead _).trans (congrArg Host.Outcome.next (winGo_read_silent hidle hpass haon hden))
  case timeout => exact fun svc s hbusy => exec_rwinTimeout_busy hbusy

end Sys2Proof.Machine
end

section
/-! The rings of the host interface: enables, disables and the end of a drain (R309, R327, R328). -/

namespace Sys2Proof.Machine

/-! ## Legal configurations (R10, R309) -/

section
variable {v : Word} (hsize : 1 ≤ Word.bits v 27 16)
include hsize

theorem sqCfg_legal (hres : v.toNat &&& 0xF000F08E = 0) :
    writeLegal [fldIn 27 16 .rw 0 1 4095, fld 11 8 .rw 0, fld 6 4 .rw 0, fld 0 0 .rw 0] v = true := by
  refine (writeLegal_iff _ v).mpr ⟨hres, ?_⟩
  simp only [List.forall_mem_cons]
  exact ⟨fun _ => ⟨hsize, bits_le ..⟩, fun _ => bits_mem_fld .., fun _ => bits_mem_fld .., fun _ => bits_mem_fld .., nofun⟩

theorem cqCfg_legal (hres : v.toNat &&& 0xF000C0FC = 0) :
    writeLegal [fldIn 27 16 .rw 0 1 4095, fld 13 8 .rw 0, fld 1 1 .rw 0, fld 0 0 .rw 0] v = true := by
  refine (writeLegal_iff _ v).mpr ⟨hres, ?_⟩
  simp only [List.forall_mem_cons]
  exact ⟨fun _ => ⟨hsize, bits_le ..⟩, fun _ => bits_mem_fld .., fun _ => bits_mem_fld .., fun _ => bits_mem_fld .., nofun⟩

theorem evrCfg_legal (hres : v.toNat &&& 0xF000FFFE = 0) : writeLegal [fldIn 27 16 .rw 0 1 4095, fld 0 0 .rw 0] v = true := by
  refine (writeLegal_iff _ v).mpr ⟨hres, ?_⟩
  simp only [List.forall_mem_cons]
  exact ⟨fun _ => ⟨hsize, bits_le ..⟩, fun _ => bits_mem_fld .., nofun⟩

end

/-! ## Submission rings (R309, R327) -/

section
variable {n : Nat} {v : Word} {s : State}

section
variable (hn : n < 16) (hres : v.toNat &&& 0xF000F08E = 0) (hsize : 1 ≤ Word.bits v 27 16)
include hn hres hsize

theorem sqCfgWrite_enables (hen : Word.bit v 0 = true) (hoff : (sqr s n).enabled = false)
    (hcq : (cqr s (Word.bits v 11 8)).enabled = true) :
    sqCfgWrite n v s = setSq (setReg (if (cqr s (Word.bits v 11 8)).disabling then discardHeld (Word.bits v 11 8) s else s) (aSq n 8) v) n
      { enabled := true } := by
  simp [sqCfgWrite, hn, sqCfg_legal hsize hres, hen, hoff, hcq]

theorem sqCfgWrite_disables (hen : Word.bit v 0 = false) (hon : (sqr s n).enabled = true) (hidle : (sqr s n).disabling = false)
    (hsame : Word.put v 0 0 0 = Word.put (getReg s (aSq n 8)) 0 0 0) :
    sqCfgWrite n v s = sqDisableStart n none (setReg s (aSq n 8) v) := by
  simp [sqCfgWrite, hn, sqCfg_legal hsize hres, hen, hon, hidle, hsame]

end

theorem sqDisableEnd_of_drained (hdis : (sqr s n).disabling = true) (hdrained : sqDrained s n = true) :
    sqDisableEnd n s = disablesDone (sqr s n).disableToks
      (settleCqs (List.range 16) (setSq s n { sqr s n with enabled := false, disabling := false, err := false, disableToks := [] })) :=
  if_pos (Bool.and_eq_true_iff.mpr ⟨hdis, hdrained⟩)

/-! ## Completion rings and the event ring (R309, R328) -/

section
variable (hn : n < 16) (hres : v.toNat &&& 0xF000C0FC = 0) (hsize : 1 ≤ Word.bits v 27 16)
include hn hres hsize

theorem cqCfgWrite_enables (hen : Word.bit v 0 = true) (hoff : (cqr s n).enabled = false) :
    cqCfgWrite n v s = drainAll [n] (setCq (setReg s (aCq n 8) v) n
      { enabled := true, phase := true, held := (cqr s n).held, fullCnt := (cqr s n).fullCnt }) := by
  simp [cqCfgWrite, hn, cqCfg_legal hsize hres, hen, hoff]

theorem cqCfgWrite_disables (hen : Word.bit v 0 = false) (hon : (cqr s n).enabled = true)
    (hsame : Word.put v 0 0 0 = Word.put (getReg s (aCq n 8)) 0 0 0) :
    cqCfgWrite n v s = settleCqs [n] (setCq (setReg s (aCq n 8) v) n { cqr s n with disabling := true }) := by
  simp [cqCfgWrite, hn, cqCfg_legal hsize hres, hen, hon, hsame]

end

section
variable (hres : v.toNat &&& 0xF000FFFE = 0) (hsize : 1 ≤ Word.bits v 27 16)
include hres hsize

theorem evrCfgWrite_enables (hen : Word.bit v 0 = true) (hoff : s.hif.evr.enabled = false) :
    evrCfgWrite v s = { setReg s aEvrCfg v with
      hif := { s.hif with evr := { s.hif.evr with enabled := true, phase := true, tail := 0, head := 0, recs := [], holding := false } },
      irq := { s.irq with inSvc := s.irq.inSvc.filter (fun e => !decide (e ∈ s.hif.evr.recs)) } } := by
  simp [evrCfgWrite, evrCfg_legal hsize hres, hen, hoff]

theorem evrCfgWrite_disables (hen : Word.bit v 0 = false) (hon : s.hif.evr.enabled = true)
    (hsame : Word.put v 0 0 0 = Word.put (getReg s aEvrCfg) 0 0 0) :
    evrCfgWrite v s = { setReg s aEvrCfg v with hif := { s.hif with evr := { s.hif.evr with enabled := false, err := false } } } := by
  simp [evrCfgWrite, evrCfg_legal hsize hres, hen, hon, hsame]

end

end

/-- Settles O47: each command is its ring's configuration write, or the end of a drained ring's disable. -/
theorem ringCommandsComplete : Obligations.RingCommandsComplete := by
  refine ⟨?sqEnable, ?sqDisable, ?drainEnd, ?cqEnable, ?cqDisable, ?evrEnable, ?evrDisable⟩
  case sqEnable =>
    intro n v s hn hres hsize hen hoff hcq
    exact congrArg Host.Outcome.next (sqCfgWrite_enables hn hres hsize hen hoff hcq)
  case sqDisable =>
    intro n v s hn hres hsize hen hon hidle hsame
    exact congrArg Host.Outcome.next (sqCfgWrite_disables hn hres hsize hen hon hidle hsame)
  case drainEnd => exact fun n s hdis hdrained => congrArg Host.Outcome.next (sqDisableEnd_of_drained hdis hdrained)
  case cqEnable =>
    intro n v s hn hres hsize hen hoff
    exact congrArg Host.Outcome.next (cqCfgWrite_enables hn hres hsize hen hoff)
  case cqDisable =>
    intro n v s hn hres hsize hen hon hsame
    exact congrArg Host.Outcome.next (cqCfgWrite_disables hn hres hsize hen hon hsame)
  case evrEnable =>
    intro v s hres hsize hen hoff
    exact ⟨_, congrArg Host.Outcome.next (evrCfgWrite_enables hres hsize hen hoff), rfl, rfl⟩
  case evrDisable =>
    intro v s hres hsize hen hon hsame
    exact ⟨_, congrArg Host.Outcome.next (evrCfgWrite_disables hres hsize hen hon hsame), rfl⟩

end Sys2Proof.Machine
end

section
/-! The host link: doorbell polls, message vectors, power states and resets of the host interface (R308, R312, R329 to R332). -/

namespace Sys2Proof.Machine

/-! ## Doorbell polls (R310 to R312, R331) -/

/-- What a poll does with the words it reads: the submission rings, the completion rings, the event ring, and then the fetches. -/
def pollRings (w : List Word) (es : List (Option (List Byte))) (s : State) : State :=
  fetchAll es none (pollEvr (w.getD 32 0) (pollCqs w (List.range 16) (pollSqs w (List.range 16) s)))

section
variable {s u : State} (hu : u = if s.hif.inL1 then leaveL1 s else s) (hrun : pollsRun u = true)
include hu hrun

/-- R312: a poll that fails counts and is tried again at the fast interval; the words read before stand. -/
theorem exec_doorbellPoll_failed (es : List (Option (List Byte))) :
    exec (.doorbellPoll none es) s = .next (settleL1 (evRaise aHifEvt 1 { u with hif := { u.hif with
      nPolls := bump 32 u.hif.nPolls 1, nPollFail := bump 32 u.hif.nPollFail 1, fastPoll := true } })) := by
  subst hu
  exact congrArg (fun t => Host.Outcome.next (settleL1 t)) (if_pos hrun)

/-- R312: unchanged words leave the interval fast only for a while after the last change. -/
theorem exec_doorbellPoll_same {w : List Word} (hsame : w.take 33 = u.hif.doorbell) (es : List (Option (List Byte))) :
    exec (.doorbellPoll (some w) es) s = .next (settleL1 (pollRings w es { u with hif := { u.hif with
      nPolls := bump 32 u.hif.nPolls 1, fastPoll := u.hif.fastPoll && decide (u.lgr.ptime < u.hif.lastChange + 11) } })) := by
  subst hu
  refine congrArg (fun t => Host.Outcome.next (settleL1 t)) ((if_pos hrun).trans ?_)
  simp only [hsame, decide_true, Bool.not_true, Bool.false_or, if_true]
  rfl

/-- R312: changed words are kept, and polling goes on at the fast interval. -/
theorem exec_doorbellPoll_changed {w : List Word} (hdiff : w.take 33 ≠ u.hif.doorbell) (es : List (Option (List Byte))) :
    exec (.doorbellPoll (some w) es) s = .next (settleL1 (pollRings w es { u with hif := { u.hif with
      nPolls := bump 32 u.hif.nPolls 1, doorbell := w.take 33, fastPoll := true, lastChange := u.lgr.ptime } })) := by
  subst hu
  refine congrArg (fun t => Host.Outcome.next (settleL1 t)) ((if_pos hrun).trans ?_)
  simp only [hdiff, decide_false, Bool.not_false, Bool.true_or, Bool.false_eq_true, if_false]
  rfl

end

/-! ## Message vectors (R329, R330) -/

section
variable {s : State}

theorem exec_cqModTimer_unread {q : Nat} (htimer : (cqr s q).modTimer = true) (hunread : (cqr s q).tail ≠ (cqr s q).head) :
    exec (.cqModTimer q) s = .next (sendVector (Word.bits (getReg s (aCq q 8)) 13 8)
      (setCq s q { cqr s q with modCount := 0, modTimer := false })) :=
  congrArg Host.Outcome.next ((if_pos htimer).trans (if_neg hunread))

/-- With nothing pending nothing is sent. -/
theorem sendPending_of_none (h : s.hif.msixPend = []) : sendPending s = s := by
  have hfilter : ∀ p, s.hif.msixPend.filter p = s.hif.msixPend := by simp [h]
  unfold sendPending
  split
  · rfl
  · simp only [hfilter]
    exact congrArg (sendAll · s) h

/-- A vector's message goes out where nothing holds it back. -/
theorem sendVector_unmasked {v : Nat} (hen : s.hif.msixEn = true) (hhost : canHost s = true) (hfunc : s.hif.funcMask = false)
    (hun : v ∈ s.hif.unmasked) :
    sendVector v s = emit (.msix v (smGet (0, 0) s.hif.msixTab v).1 (smGet (0, 0) s.hif.msixTab v).2) s := by
  simp [sendVector, hen, hhost, hfunc, hun]

/-- The one pending vector leaves the pending array and is sent. -/
theorem sendPending_of_one {v : Nat} (hpend : s.hif.msixPend = [v]) (hen : s.hif.msixEn = true) (hhost : canHost s = true)
    (hfunc : s.hif.funcMask = false) (hun : v ∈ s.hif.unmasked) :
    sendPending s = emit (.msix v (smGet (0, 0) s.hif.msixTab v).1 (smGet (0, 0) s.hif.msixTab v).2)
      { s with hif := { s.hif with msixPend := [] } } := by
  have hfree : s.hif.msixPend.filter (fun v => decide (v ∈ s.hif.unmasked)) = [v] := by simp [hpend, hun]
  have hkept : s.hif.msixPend.filter (fun v => !decide (v ∈ s.hif.unmasked)) = [] := by simp [hpend, hun]
  refine (if_neg (ne_true_of_eq_false hfunc)).trans ?_
  simp only [hfree, hkept]
  exact sendVector_unmasked (s := { s with hif := { s.hif with msixPend := [] } }) hen hhost hfunc hun

end

/-- A vector's table entry as MSIX_UNMASK writes it: the address and the data, the mask bit clear. -/
def unmaskEntry (v addr data : Nat) (s : State) : State :=
  { s with hif := { s.hif with
    unmasked := (if v ∈ s.hif.unmasked then s.hif.unmasked else s.hif.unmasked ++ [v]), msixTab := smSet (0, 0) s.hif.msixTab v (addr, data) } }

theorem exec_msixUnmask (v addr data : Nat) (s : State) :
    exec (.msixUnmask v addr data) s = .next (sendPending (unmaskEntry v addr data s)) := rfl

theorem mem_unmasked_unmaskEntry (v addr data : Nat) (s : State) : v ∈ (unmaskEntry v addr data s).hif.unmasked := by
  by_cases h : v ∈ s.hif.unmasked <;> simp [unmaskEntry, h]

/-- R308: an inbound read that times out returns all bits set; a write held back by the matrix is discarded. -/
theorem exec_inboundTimeout_ok (w : Bool) (s : State) :
    Completes (.inboundTimeout w) s (fun t => t.rdata = (if w then [] else [0xFFFFFFFF]) ∧ t.hif.nInbound = bump 32 s.hif.nInbound 1 ∧
      t.mtx.held = (if w then s.mtx.held.eraseP (fun h => decide (h.by_ = .host) && h.win.isNone) else s.mtx.held)) :=
  ⟨_, rfl, rfl, rfl, rfl⟩

/-- Settles O48, one lemma for each command under conditions; kicks, power states, settings and resets do the same in every state. That the
function's other settings come with BUS_MASTER_CHANGE and a table entry with MSIX_UNMASK is the model's choice (log entry 114), and that the
link leaves L1 for a poll is deduced (log entry 115). -/
theorem hostLinkCommandsComplete : Obligations.HostLinkCommandsComplete := by
  refine ⟨?kick, ?failed, ?same, ?changed, ?timer, ?unmask, ?send, ?d3hot, ?d0, ?bme, ?reset, ?inbound⟩
  case kick => exact fun v s => ⟨_, rfl, rfl⟩
  case failed =>
    intro es s u hu hrun
    exact ⟨_, exec_doorbellPoll_failed hu hrun es, rfl, rfl, rfl, rfl, by simp [settleL1]⟩
  case same =>
    rintro w es s u _ hu hrun hsame rfl
    exact exec_doorbellPoll_same hu hrun hsame es
  case changed =>
    rintro w es s u _ hu hrun hdiff rfl
    exact exec_doorbellPoll_changed hu hrun hdiff es
  case timer => exact fun q s htimer hunread => exec_cqModTimer_unread htimer hunread
  case unmask =>
    intro v x y s hpend
    have hnone : sendPending (unmaskEntry v x y s) = unmaskEntry v x y s := sendPending_of_none hpend
    exact ⟨_, (exec_msixUnmask v x y s).trans (congrArg Host.Outcome.next hnone), mem_unmasked_unmaskEntry v x y s, rfl, rfl, rfl⟩
  case send =>
    intro v x y s hpend hfunc hen hhost
    have hsent := sendPending_of_one (s := unmaskEntry v x y s) hpend hen hhost hfunc (mem_unmasked_unmaskEntry v x y s)
    exact ⟨_, (exec_msixUnmask v x y s).trans (congrArg Host.Outcome.next hsent), rfl, rfl, rfl⟩
  case d3hot => exact fun _ _ => rfl
  case d0 => exact fun _ => rfl
  case bme => exact fun _ _ _ => rfl
  case reset => exact fun _ _ => rfl
  case inbound => exact exec_inboundTimeout_ok

end Sys2Proof.Machine
end

section
/-! The ledger's flash operations, the DRAM controller's own events, the thermal sensor, the link's low-power exit and the TAP (R331, R402 to R409,
R459 to R463, R470, R486, R509). -/

namespace Sys2Proof.Machine

/-! ## Flash (R459 to R464) -/

section
variable {s : State}

section
variable (hready : s.lgr.ready = true)
include hready

theorem exec_flashOpDone_program (ok : Bool) : exec (.flashOpDone none ok) s = .next (programDone ok s) :=
  congrArg Host.Outcome.next (if_neg (by simp [hready]))

theorem exec_flashOpDone_erase (e : Nat) (ok : Bool) : exec (.flashOpDone (some e) ok) s = .next (eraseDone e ok s) :=
  congrArg Host.Outcome.next (if_neg (by simp [hready]))

end

/-- R461: a program that verifies has put the records at the head of the queue into flash. -/
theorem programDone_verified {g : Lgr} (hqueue : s.lgr.queue ≠ []) (hg : g = programQueue { s.lgr with retry := false }) :
    programDone true s =
      evIf (g.full && !s.lgr.full) aLgrEvt 2 (evIf (decide (g.dropped ≠ s.lgr.dropped)) aLgrEvt 1 { s with lgr := g }) := by
  subst hg
  exact if_neg (ne_true_of_eq_false (List.isEmpty_eq_false_iff.mpr hqueue))

/-- R463: the scan ends with the new power-on count saved and reported. -/
theorem exec_ledgerScanDone_scanned {g : Lgr} (hready : s.lgr.ready = false) (hg : g = saveCkpt (reclaimAll 256 (scanNext s.lgr))) :
    exec .ledgerScanDone s = .next (ledger 0x0001 1 g.poc s.aon.bootSrc g.lossBound { s with lgr := { g with ready := true } }) := by
  subst hg
  exact congrArg Host.Outcome.next (if_neg (ne_true_of_eq_false hready))

end

/-! ## Training (R405 to R407, R486) -/

section
variable {s : State} {r : TrainResult}

/-- The lanes' results are registers alone. -/
theorem trainLanes_drc (r : TrainResult) (s : State) : (trainLanes r s).drc = s.drc := (trainLanes_only r s).same .drc (by decide)

theorem exec_dramTrainDone_trained {n : Nat} (hfault : trainFault r = none) (hfit : fitSize r.fit = some n) :
    Completes (.dramTrainDone r) s (fun t => t.drc.ready = true ∧ t.drc.noDram = false ∧ t.drc.size = n ∧ t.drc.training = false ∧
      t.drc.retraining = false ∧ t.drc.mem = (if s.drc.retraining = true ∧ s.drc.noDram = false then s.drc.mem else [])) := by
  refine ⟨_, rfl, ?_⟩
  simp [hfault, hfit, trainLanes_drc]

theorem exec_dramTrainDone_failed {f : Nat × Nat × Nat} (hfault : trainFault r = some f) (hdram : s.drc.noDram = false) :
    Completes (.dramTrainDone r) s (fun t => t.drc.ready = false ∧ t.drc.noDram = true ∧ t.drc.size = 0) := by
  refine ⟨_, rfl, ?_⟩
  simp [hfault, hdram, enterNoDram, panicCis, panicTail]

/-- R407: a legal write of RETRAIN in STOPPED starts a retraining and leaves the contents. -/
theorem exec_dramRetrain_starts {v : Word} (hres : v.toNat &&& 0xFFFFFFFC = 0) (hgo : Word.bit v 0 = true) (hstop : stopped s = true)
    (hready : s.drc.ready = true) (hidle : s.drc.retraining = false) :
    Completes (.dramRetrain v) s (fun t => t.drc.retraining = true ∧ t.drc.mem = s.drc.mem) := by
  have hlegal : writeLegal [fld 1 1 .rw 1, fld 0 0 .w1s 0] v = true := by
    refine (writeLegal_iff _ v).mpr ⟨hres, ?_⟩
    simp only [List.forall_mem_cons]
    exact ⟨fun _ => bits_mem_fld .., fun _ => bits_mem_fld .., nofun⟩
  refine ⟨_, rfl, ?_⟩
  simp [drcCtlWrite, hlegal, hgo, hstop, hready, hidle]

end

/-! ## Refresh (R402, R403) -/

section
variable {s : State} {c b : Nat} (hdram : s.drc.noDram = false)
include hdram

/-- R403: an idle bank takes what it is owed. -/
theorem exec_refreshAccrual_idle {ds : List Nat} {t : State} (ht : t = payIdle c (ds.filter (fun k => decide (k < 16))) s) :
    exec (.refreshAccrual c b true ds) s = .next (setDrc t (fun d => { d with
      debt := smSet 0 d.debt (c * 16 + b) 0, maxDebt := smMod 0 d.maxDebt c (fun x => max x (smGet 0 t.drc.debt (c * 16 + b) + 1)) })) := by
  subst ht
  exact congrArg Host.Outcome.next (if_neg (ne_true_of_eq_false hdram))

/-- R402: below the limit the debt of a busy bank grows by one. -/
theorem exec_refreshAccrual_busy (hlim : smGet 0 s.drc.debt (c * 16 + b) < limitOf s c) :
    Completes (.refreshAccrual c b false []) s (fun t =>
      smGet 0 t.drc.debt (c * 16 + b) = smGet 0 s.drc.debt (c * 16 + b) + 1) := by
  have hroom : ¬ limitOf s c < smGet 0 s.drc.debt (c * 16 + b) + 1 := by omega
  refine ⟨_, congrArg Host.Outcome.next ((if_neg (ne_true_of_eq_false hdram)).trans (if_neg hroom)), ?_⟩
  simp [payIdle, smModAll, smGet, smSet]

end

/-! ## Scrubbing (R409) -/

section
variable {s : State} {l : Nat} (hscrub : Word.bit (getReg s aDrcCtl) 1 = true) (hready : s.drc.ready = true)
  (hline : l * 64 < dataEnd s.drc.size)
include hscrub hready hline

/-- The scrubber reads a line of the data address space: a corrected one is written back. -/
theorem exec_scrubRead_corrected {y : List (Nat × Byte)} {b : List Byte} {n : Nat}
    (hdec : decodeLine s { line := l, symbols := y } = some (b, n)) :
    exec (.scrubRead l y) s = .next (if n = 0 then s else dramPut (l * 64) b (lineRead 4 (l * 64) (.corrected n) s)) := by
  refine congrArg Host.Outcome.next ((if_neg ?_).trans ?_)
  · simp [hscrub, hready, hline]
  · simp only [hdec]

theorem exec_scrubRead_lost {y : List (Nat × Byte)} (hdec : decodeLine s { line := l, symbols := y } = none) :
    exec (.scrubRead l y) s = .next (lineRead 4 (l * 64) .uncorrectable s) := by
  refine congrArg Host.Outcome.next ((if_neg ?_).trans ?_)
  · simp [hscrub, hready, hline]
  · simp only [hdec]

end

theorem exec_dramSelfRefreshExit_held {s : State} (hself : s.drc.selfRef = true) :
    Completes .dramSelfRefreshExit s (fun t => t.drc = { s.drc with selfRef := false, ready := true }) :=
  ⟨_, congrArg Host.Outcome.next (if_pos hself), rfl⟩

/-- Settles O8, one lemma for each command and outcome under conditions; the journal, the checkpoint, the refresh rate, the thermal sensor, L1 and
the TAP do the same in every state. -/
theorem flashDramAndBoardCommandsComplete : Obligations.FlashDramAndBoardCommandsComplete := by
  refine ⟨?program, ?programFail, ?erase, ?eraseFail, ?journal, ?checkpoint, ?scan, ?trained, ?failed, ?mr4, ?idle, ?busy, ?scrub, ?lost, ?therm,
    ?l1, ?selfRef, ?tap, ?retrain⟩
  case program =>
    intro s g hready hqueue hg
    exact (exec_flashOpDone_program hready true).trans (congrArg Host.Outcome.next (programDone_verified hqueue hg))
  case programFail => exact fun s hready _ => exec_flashOpDone_program hready false
  case erase => exact fun e s hready => ⟨_, exec_flashOpDone_erase hready e true, rfl⟩
  case eraseFail => exact fun e s hready => exec_flashOpDone_erase hready e false
  case journal => exact fun _ => rfl
  case checkpoint => exact fun _ => ⟨_, rfl, rfl⟩
  case scan => exact fun s g hready hg => exec_ledgerScanDone_scanned hready hg
  case trained => exact fun r s n hfault hfit => exec_dramTrainDone_trained hfault hfit
  case failed => exact fun r s f hfault hdram => exec_dramTrainDone_failed hfault hdram
  case mr4 =>
    rintro c v s _ _ _ rfl rfl rfl
    rfl
  case idle => exact fun c b ds s t hdram ht => exec_refreshAccrual_idle hdram ht
  case busy => exact fun c b s hdram hlim => exec_refreshAccrual_busy hdram hlim
  case scrub => exact fun l y s b n hscrub hready hline hdec => exec_scrubRead_corrected hscrub hready hline hdec
  case lost => exact fun l y s hscrub hready hline hdec => exec_scrubRead_lost hscrub hready hline hdec
  case therm => exact fun _ _ => rfl
  case l1 => exact fun _ => rfl
  case selfRef => exact fun s hself => exec_dramSelfRefreshExit_held hself
  case tap => exact fun _ _ => ⟨_, rfl, rfl⟩
  case retrain => exact fun v s hres hgo hstop hready hidle => exec_dramRetrain_starts hres hgo hstop hready hidle

end Sys2Proof.Machine
end

section
/-! Resets, power and boot (R336, R342, R459, R483 to R488). -/

namespace Sys2Proof.Machine

/-! ## Warm reset (R336, R342, R486) -/

section
variable {s : State}

/-- R486: a request is granted where no warm reset is in progress, the part is powered and out of PORST_N, and no trip holds. -/
theorem warmRequest_granted (hwarm : s.aon.warm = false) (hporst : s.aon.porstLow = false) (hpower : s.aon.powered = true)
    (htrip : tripHolds s = false) (cause : Nat) : warmRequest cause s = warmAssert cause s := by
  simp [warmRequest, hwarm, hporst, hpower, htrip]

/-- R336: the key and RST in one word. -/
theorem wrstWrite_key (svc : Bool) : wrstWrite 0x57520001 svc s = warmRequest (if svc then 3 else 1) s :=
  if_pos (by decide)

theorem exec_warmResetRelease_asserted (hwarm : s.aon.warm = true) :
    Completes .warmResetRelease s (fun t => t.aon.warm = false ∧ t.aon.wrstPin = false ∧
      t.stw.core = [(0, { run := .boot })] ∧ t.aon.bootState = if bootsItself s.aon.bootSrc then 1 else 0) :=
  ⟨_, congrArg Host.Outcome.next (if_pos hwarm), rfl, rfl, rfl, rfl⟩

end

/-! ## Power and cold reset (R459, R483 to R485) -/

section
variable (s : State)

theorem exec_coldReset_ok (b : Nat) (p : Bool) :
    Completes (.coldReset b p) s (fun t => t.aon.bootSrc = b % 4 ∧ t.aon.primary = p ∧ t.regs = [] ∧ t.sch.st = 0 ∧
      t.lgr = powerUp s.lgr ∧ t.hostMem = s.hostMem ∧ t.pending = s.pending) :=
  ⟨_, rfl, rfl, rfl, rfl, rfl, rfl, rfl, rfl⟩

theorem exec_powerFail_ok :
    Completes .powerFail s (fun t => t.aon.powered = false ∧ t.lgr = flashOf s.lgr ∧ t.regs = [] ∧ t.pending = s.pending) :=
  ⟨_, rfl, rfl, rfl, rfl, rfl⟩

theorem exec_porstNAssert_ok :
    Completes .porstNAssert s (fun t => t.aon.porstLow = true ∧ t.aon.powered = s.aon.powered ∧ t.regs = [] ∧ t.lgr = flashOf s.lgr) :=
  ⟨_, rfl, rfl, rfl, rfl, rfl⟩

end

/-! ## Boot (R342, R488) -/

section
variable {s : State}

/-- R488: GO is taken while the boot waits for it. -/
theorem exec_bootGo_waiting {v : Word} (hlegal : writeLegal [fld 31 31 .w1s 0, fldIn 20 0 .rw 0 64 1048576] v = true)
    (hgo : Word.bit v 31 = true) (hwait : s.aon.bootState = 0) (img : Option (List Byte)) :
    Completes (.bootGo v img) s (fun t => t.aon.bootState = 1 ∧ t.aon.bootBusy = true) := by
  refine ⟨_, rfl, ?_⟩
  simp [bootWrite, hlegal, hgo, hwait]

theorem runCores_aon (r : CoreRun) (range : Nat) (cs : List Nat) (s : State) : (runCores r range cs s).aon = s.aon :=
  (runCores_only r range cs s).same .aon (by decide)

/-- R342, R488: the image is taken, or refused with its check code; after a refusal an odd boot source does not wait for GO again. -/
theorem exec_coresReleased_loading (hload : s.aon.bootState = 1) (f : Option (List Byte)) :
    Completes (.coresReleased f) s (fun t => t.aon.bootCheck = (bootVerdict s f).1 ∧ t.aon.bootBusy = false ∧
      t.aon.bootState = if (bootVerdict s f).1 = 0 then 2 else if s.aon.bootSrc % 2 = 1 then 3 else 0) := by
  obtain ⟨s0, hs0⟩ : ∃ s0, s0 = setField { s with aon := { s.aon with
      bootBusy := false, bootImg := none, bootCheck := (bootVerdict s f).1 } } aBootLen 31 31 0 := ⟨_, rfl⟩
  have hcheck : s0.aon.bootCheck = (bootVerdict s f).1 := by rw [hs0, setField_aon]
  have hbusy : s0.aon.bootBusy = false := by rw [hs0, setField_aon]
  refine ⟨_, rfl, ?_⟩
  rw [← hs0, if_neg (not_not.mpr hload)]
  by_cases hgood : (bootVerdict s f).1 = 0
  · rw [if_pos hgood, if_pos hgood]
    simp only [runCores_aon]
    exact ⟨hcheck, hbusy, trivial⟩
  · rw [if_neg hgood, if_neg hgood]
    by_cases hodd : s.aon.bootSrc % 2 = 1 <;> simp [hodd, hcheck, hbusy]

end

/-- Settles O51, one lemma for each command. That steward 0 runs the boot ROM at the release of a warm reset is the model's choice (log entry 61), as
is the effect of a command on a part without power (log entry 62); what survives a cold reset is deduced (log entries 53 and 63). -/
theorem resetCommandsComplete : Obligations.ResetCommandsComplete := by
  refine ⟨?request, ?pin, ?release, ?cold, ?power, ?porst, ?go, ?released⟩
  case request =>
    rintro _ svc s rfl hwarm hporst hpower htrip
    exact congrArg Host.Outcome.next ((wrstWrite_key svc).trans (warmRequest_granted hwarm hporst hpower htrip _))
  case pin =>
    intro s hwarm hporst hpower htrip
    exact congrArg Host.Outcome.next
      (warmRequest_granted (s := setAon s (fun a => { a with wrstPin := true })) hwarm hporst hpower htrip 2)
  case release => exact fun s hwarm => exec_warmResetRelease_asserted hwarm
  case cold => exact fun b p s => exec_coldReset_ok s b p
  case power => exact exec_powerFail_ok
  case porst => exact exec_porstNAssert_ok
  case go => exact fun v img s hlegal hgo hwait => exec_bootGo_waiting hlegal hgo hwait img
  case released => exact fun s f hload => exec_coresReleased_loading hload f

end Sys2Proof.Machine
end

section
/-! The frame of every command: of the state it changes only the parts that `touched` lists for it; and the queue that a step takes its command
from. A lemma `execF_framed` says the frame of the command that `execF` gives. -/

namespace Sys2Proof.Machine

/-! ## Frames by the lists of `touched` -/

/-- Whether the parts of the first list are all in the second. -/
def partsIn (V W : List Part) : Bool := V.all (fun p => decide (p ∈ W))

theorem partsIn_subset {V W : List Part} (h : partsIn V W = true) : V ⊆ W := fun p hp => of_decide_eq_true (List.all_eq_true.mp h p hp)

/-- A frame holds for a longer list of parts. -/
theorem OnlyChanges.widen {V W : List Part} {s t : State} (h : OnlyChanges V s t) (hv : partsIn V W = true) : OnlyChanges W s t :=
  h.mono (partsIn_subset hv)

/-- A further change, of listed parts alone. -/
theorem OnlyChanges.onto {V W : List Part} {s t u : State} (h2 : OnlyChanges V t u) (hv : partsIn V W = true)
    (h1 : OnlyChanges W s t) : OnlyChanges W s u :=
  h2.after (partsIn_subset hv) h1

/-- The state with the parts of a list taken from another. -/
def State.graft (s : State) (W : List Part) (u : State) : State where
  pending := if Part.pending ∈ W then u.pending else s.pending
  regs := if Part.regs ∈ W then u.regs else s.regs
  latches := if Part.latches ∈ W then u.latches else s.latches
  rdata := if Part.rdata ∈ W then u.rdata else s.rdata
  outcomes := if Part.outcomes ∈ W then u.outcomes else s.outcomes
  outs := if Part.outs ∈ W then u.outs else s.outs
  hostMem := if Part.hostMem ∈ W then u.hostMem else s.hostMem
  dueWrites := if Part.dueWrites ∈ W then u.dueWrites else s.dueWrites
  freeCtr := if Part.freeCtr ∈ W then u.freeCtr else s.freeCtr
  hif := if Part.hif ∈ W then u.hif else s.hif
  stw := if Part.stw ∈ W then u.stw else s.stw
  irq := if Part.irq ∈ W then u.irq else s.irq
  mtx := if Part.mtx ∈ W then u.mtx else s.mtx
  lgr := if Part.lgr ∈ W then u.lgr else s.lgr
  aon := if Part.aon ∈ W then u.aon else s.aon
  clk := if Part.clk ∈ W then u.clk else s.clk
  ptp := if Part.ptp ∈ W then u.ptp else s.ptp
  mp := if Part.mp ∈ W then u.mp else s.mp
  dpx := if Part.dpx ∈ W then u.dpx else s.dpx
  obj := if Part.obj ∈ W then u.obj else s.obj
  prefilter := if Part.prefilter ∈ W then u.prefilter else s.prefilter
  segUid := if Part.segUid ∈ W then u.segUid else s.segUid
  alignSet := if Part.alignSet ∈ W then u.alignSet else s.alignSet
  geo := if Part.geo ∈ W then u.geo else s.geo
  pair := if Part.pair ∈ W then u.pair else s.pair
  cor := if Part.cor ∈ W then u.cor else s.cor
  sch := if Part.sch ∈ W then u.sch else s.sch
  fab := if Part.fab ∈ W then u.fab else s.fab
  drc := if Part.drc ∈ W then u.drc else s.drc
  keyed := if Part.keyed ∈ W then u.keyed else s.keyed
  keySeq := if Part.keySeq ∈ W then u.keySeq else s.keySeq
  lau := if Part.lau ∈ W then u.lau else s.lau

theorem onlyChanges_graft (W : List Part) (s u : State) : OnlyChanges W s (s.graft W u) :=
  ⟨fun p hp => by cases p <;> exact if_neg hp⟩

/-- A record update of listed parts. -/
theorem OnlyChanges.update {W : List Part} {s t : State} (h : s.graft W t = t) : OnlyChanges W s t :=
  h ▸ onlyChanges_graft W s t

/-- A record update of listed parts after a change of such parts. -/
theorem OnlyChanges.updated {W : List Part} {s t u : State} (h1 : OnlyChanges W s t) (h : t.graft W u = u) : OnlyChanges W s u :=
  (OnlyChanges.update h).trans h1

/-- The command completes, and of the state only what `touched` lists for it may have changed. -/
def Framed (c : Instr) (s : State) : Prop := Completes c s (OnlyChanges (touched c) s)

theorem checked_frame {W : List Part} {s k : State} {d : Desc} {used : List (Nat × Nat)} {limits : List (Nat × Bool)}
    (hw : partsIn [.outcomes] W = true) (h : OnlyChanges W s k) : OnlyChanges W s (checked d used limits s k) :=
  checked_only (partsIn_subset hw (List.mem_singleton_self _)) h d used limits

/-- A descriptor that is refused where `c` holds, and runs otherwise. -/
theorem OnlyChanges.finished_or {W : List Part} {s k : State} {c : Prop} [Decidable c] {d : Desc} {st : Nat}
    (hw : partsIn [.outcomes] W = true) (h : OnlyChanges W s k) : OnlyChanges W s (if c then finish d st s else k) :=
  .ite ((finish_only ..).widen hw) h

/-- A descriptor that has a bad field where `c` holds, and runs otherwise. -/
theorem OnlyChanges.badField_or {W : List Part} {s k : State} {c : Prop} [Decidable c] {d : Desc} {off : Nat}
    (hw : partsIn [.outcomes] W = true) (h : OnlyChanges W s k) : OnlyChanges W s (if c then badField d off s else k) :=
  .ite ((badField_only ..).widen hw) h

section
variable {s : State}

/-! ## Descriptors -/

theorem execSchLoad_framed {d} : Framed (.schLoad d) s := by
  refine ⟨_, rfl, checked_frame rfl ?_⟩
  split
  exacts [(badBlock_only ..).widen rfl, .finished_or rfl <| (loadBegin_only ..).widen rfl]

theorem execSchStart_framed {d} : Framed (.schStart d) s := by
  refine ⟨_, rfl, checked_frame rfl ?_⟩
  refine .finished_or rfl ?_
  split
  exacts [(finish_only ..).widen rfl, .ite ((setRender_only ..).onto rfl <| (emptyAssembly_only ..).onto rfl <| (arm_only ..).widen rfl) <|
    (finish_only ..).widen rfl]

theorem execSchSwap_framed {d} : Framed (.schSwap d) s := by
  refine ⟨_, rfl, checked_frame rfl ?_⟩
  split
  exacts [.badField_or rfl <| .finished_or rfl <| .ite ((setSch_only ..).widen rfl) <| (finish_only ..).widen rfl,
    (finish_only ..).widen rfl]

theorem execSchCancel_framed {d} : Framed (.schCancel d) s := by
  refine ⟨_, rfl, checked_frame rfl ?_⟩
  split
  · exact cancelArmed_only (fun _ _ => (dropStart_only ..).widen rfl) (partsIn_subset rfl) ..
  · split
    exacts [(finish_only ..).widen rfl, .finished_or rfl <| .ite ((finish_only ..).onto rfl <| (cancelSwap_only ..).widen rfl) <|
      (finish_only ..).widen rfl]
  · exact cancelArmed_only (fun _ _ => (cancelStop_only ..).widen rfl) (partsIn_subset rfl) ..
  · exact cancelArmed_only (fun _ _ => (report_only ..).onto rfl ((setSch_only ..).widen rfl)) (partsIn_subset rfl) ..

theorem execSchStop_framed {d} : Framed (.schStop d) s :=
  ⟨_, rfl, checked_frame rfl <| .finished_or rfl <| .ite ((setRender_only ..).onto rfl <| (setSch_only ..).onto rfl <|
    (arm_only ..).widen rfl) <|
    (finish_only ..).widen rfl⟩

theorem execSchRestart_framed {d} : Framed (.schRestart d) s :=
  ⟨_, rfl, checked_frame rfl <| .finished_or rfl <| .finished_or rfl <| .ite (.ite ((arm_only ..).widen rfl) <|
    (finish_only ..).widen rfl) <| .ite ((arm_only ..).widen rfl) <| (report_only ..).widen rfl⟩

theorem execSchStatus_framed {d} : Framed (.schStatus d) s := by
  refine ⟨_, rfl, checked_frame rfl ?_⟩
  extract_lets s1
  have h1 : OnlyChanges [.hostMem, .dueWrites] s s1 := hostWrite_only ..
  exact (finish_only ..).onto rfl <| .ite ((setReg_only ..).onto rfl <| (setSch_only ..).onto rfl (h1.widen rfl)) (h1.widen rfl)

theorem execObjMap_framed {d} : Framed (.objMap d) s :=
  ⟨_, rfl, checked_frame rfl <| .finished_or rfl <|
    eachObj_only (fun _ _ => (voidMoved_only ..).widen rfl) ((armKeyed_only ..).widen rfl) _⟩

theorem execObjCond_framed {d} : Framed (.objCond d) s := by
  refine ⟨_, rfl, checked_frame rfl ?_⟩
  refine .ite ?_ <| (armCutoff_only ..).widen rfl
  split
  exacts [(armCutoff_only ..).widen rfl, (badBlock_only ..).widen rfl]

theorem execObjSegBatch_framed {d} : Framed (.objSegBatch d) s := by
  refine ⟨_, rfl, checked_frame rfl ?_⟩
  split
  exacts [(report_only ..).onto rfl <| (takeSegs_only ..).widen rfl, (badBlock_only ..).widen rfl]

theorem execObjStatus_framed {d} : Framed (.objStatus d) s := by
  refine ⟨_, rfl, checked_frame rfl ?_⟩
  extract_lets s1
  have h1 : OnlyChanges [.hostMem, .dueWrites] s s1 := hostWrite_only ..
  exact (finish_only ..).onto rfl <| .ite (eachObj_only (fun _ _ => (setObj_only ..).widen rfl) (h1.widen rfl) _) (h1.widen rfl)

theorem execObjPrefilter_framed {d} : Framed (.objPrefilter d) s := by
  refine ⟨_, rfl, checked_frame rfl ?_⟩
  split
  exacts [(armCutoff_only ..).widen rfl, (badBlock_only ..).widen rfl]

theorem execObjCoarse_framed {d} : Framed (.objCoarse d) s :=
  ⟨_, rfl, checked_frame rfl <| .finished_or rfl <| .finished_or rfl <| .finished_or rfl <|
    .ite ((armKeyed_only ..).widen rfl) <| .finished_or rfl <| .finished_or rfl <| .finished_or rfl <|
    (armKeyed_only ..).widen rfl⟩

theorem execPairKtbl_framed {d} : Framed (.pairKtbl d) s := by
  refine ⟨_, rfl, checked_frame rfl ?_⟩
  refine .ite ?_ <| .ite (.finished_or rfl <| (ktblSwitchOp_only ..).onto rfl <| (putInactive_only ..).widen rfl) <|
    (ktblSwitchOp_only ..).widen rfl
  split
  · exact (badBlock_only ..).widen rfl
  · exact .badField_or rfl <| .finished_or rfl <| (ktblSwitchOp_only ..).onto rfl <| (putInactive_only ..).widen rfl

theorem execPairStatus_framed {d} : Framed (.pairStatus d) s := by
  refine ⟨_, rfl, checked_frame rfl ?_⟩
  extract_lets s1
  have h1 : OnlyChanges [.hostMem, .dueWrites] s s1 := hostWrite_only ..
  exact (finish_only ..).onto rfl <| .ite ((clearPairCounts_only ..).onto rfl (h1.widen rfl)) (h1.widen rfl)

theorem execGeoSpkLoad_framed {d} : Framed (.geoSpkLoad d) s :=
  ⟨_, rfl, checked_frame rfl <| loadTable_only (fun _ _ => (setGeo_only ..).widen rfl) (partsIn_subset rfl) ..⟩

theorem execGeoCubeLoad_framed {d} : Framed (.geoCubeLoad d) s := by
  refine ⟨_, rfl, checked_frame rfl ?_⟩
  split
  · exact (badBlock_only ..).widen rfl
  · exact (badBlock_only ..).widen rfl
  · exact .badField_or rfl <| .finished_or rfl <| .finished_or rfl <| (finish_only ..).onto rfl <|
      (putCube_only ..).widen rfl

theorem execGeoBankSwitch_framed {d} : Framed (.geoBankSwitch d) s :=
  ⟨_, rfl, checked_frame rfl <| .finished_or rfl <| .badField_or rfl <| .finished_or rfl <| (armKeyed_only ..).widen rfl⟩

theorem execGeoBankSync_framed {d} : Framed (.geoBankSync d) s :=
  ⟨_, rfl, checked_frame rfl <| .finished_or rfl <| (finish_only ..).onto rfl <|
    OnlyChanges.foldl (fun _ _ => (syncTable_only ..).widen rfl) ..⟩

theorem execGeoObjLaw_framed {d} : Framed (.geoObjLaw d) s := by
  refine ⟨_, rfl, checked_frame rfl ?_⟩
  split
  exacts [(badBlock_only ..).widen rfl, .badField_or rfl <| .finished_or rfl <| .finished_or rfl <| (armKeyed_only ..).widen rfl]

theorem execGeoStatus_framed {d} : Framed (.geoStatus d) s := by
  refine ⟨_, rfl, checked_frame rfl ?_⟩
  extract_lets s1
  have h1 : OnlyChanges [.hostMem, .dueWrites] s s1 := hostWrite_only ..
  exact (finish_only ..).onto rfl <| .ite ((setGeo_only ..).onto rfl (h1.widen rfl)) (h1.widen rfl)

theorem execCorrStage_framed {d} : Framed (.corrStage d) s := by
  refine ⟨_, rfl, checked_frame rfl ?_⟩
  split
  · exact (badBlock_only ..).widen rfl
  · exact (badBlock_only ..).widen rfl
  · exact (badBlock_only ..).widen rfl
  · exact .badField_or rfl <| .finished_or rfl <| .finished_or rfl <| (stageOp_only ..).widen rfl

theorem execCorrStageDone_framed {slot} : Framed (.corrStageDone slot) s := by
  refine ⟨_, rfl, ?_⟩
  split
  exacts [(report_only ..).onto rfl <| (setCor_only ..).widen rfl, .refl ..]

theorem execCorrSwitch_framed {d} : Framed (.corrSwitch d) s :=
  ⟨_, rfl, checked_frame rfl <| .finished_or rfl <| .finished_or rfl <| .finished_or rfl <| (setCor_only ..).widen rfl⟩

theorem execCorrSetRead_framed {d errs} : Framed (.corrSetRead d errs) s :=
  ⟨_, rfl, checked_frame rfl <| .finished_or rfl <| .ite ((finish_only ..).onto rfl <| (readRuns_only ..).widen rfl) <|
    (finish_only ..).onto rfl <|
    (hostWrite_only ..).onto rfl <| (readRuns_only ..).widen rfl⟩

theorem execMeterCfg_framed {d} : Framed (.meterCfg d) s := by
  refine ⟨_, rfl, checked_frame rfl ?_⟩
  split
  exacts [(armOutput_only ..).widen rfl, (badBlock_only ..).widen rfl]

theorem execCorrStatus_framed {d} : Framed (.corrStatus d) s := by
  refine ⟨_, rfl, checked_frame rfl ?_⟩
  extract_lets s1
  have h1 : OnlyChanges [.hostMem, .dueWrites] s s1 := hostWrite_only ..
  exact (finish_only ..).onto rfl <| .ite (eachObj_only (fun _ _ => (setOut_only ..).widen rfl) (h1.widen rfl) _) (h1.widen rfl)

theorem execFabWbLoad_framed {d} : Framed (.fabWbLoad d) s := by
  refine ⟨_, rfl, checked_frame rfl ?_⟩
  split
  · exact (badBlock_only ..).widen rfl
  · exact .badField_or rfl <| .finished_or rfl <| bankWrite_only (fun _ _ => (setFab_only ..).widen rfl) (partsIn_subset rfl) ..

theorem execFabGrpLoad_framed {d} : Framed (.fabGrpLoad d) s := by
  refine ⟨_, rfl, checked_frame rfl ?_⟩
  split
  exacts [(badBlock_only ..).widen rfl, .badField_or rfl <| bankWrite_only (fun _ _ => (setFab_only ..).widen rfl) (partsIn_subset rfl) ..]

theorem execFabDisc_framed {d} : Framed (.fabDisc d) s := by
  refine ⟨_, rfl, checked_frame rfl ?_⟩
  split
  exacts [(badBlock_only ..).widen rfl, .badField_or rfl <| (discStart_only ..).widen rfl]

theorem execFabMgmtSend_framed {d} : Framed (.fabMgmtSend d) s := by
  refine ⟨_, rfl, checked_frame rfl ?_⟩
  split
  exacts [(badBlock_only ..).widen rfl, .finished_or rfl <| (finish_only ..).onto rfl <| (sendMgmt_only ..).widen rfl]

theorem execFabRemote_framed {d} : Framed (.fabRemote d) s := by
  refine ⟨_, rfl, checked_frame rfl ?_⟩
  split
  exacts [(badBlock_only ..).widen rfl, .finished_or rfl <| (sendMgmt_only ..).onto rfl <| (setFab_only ..).widen rfl]

theorem execClkRefCfg_framed {d} : Framed (.clkRefCfg d) s := by
  refine ⟨_, rfl, checked_frame rfl ?_⟩
  extract_lets s1
  have h1 : OnlyChanges [.clk] s s1 := setRef_only ..
  exact (finish_only ..).onto rfl <| .ite ((enableRef_only ..).onto rfl (h1.widen rfl)) <|
    .ite ((disableRef_only ..).onto rfl (h1.widen rfl)) (h1.widen rfl)

theorem execClkSelCfg_framed {d} : Framed (.clkSelCfg d) s := by
  refine ⟨_, rfl, checked_frame rfl ?_⟩
  extract_lets _ s1 s2
  have h1 : OnlyChanges [.clk] s s1 := setClk_only ..
  have h2 : OnlyChanges [.outcomes, .clk] s s2 := .ite (.ite ((pruneTimers_only ..).onto rfl (h1.widen rfl)) (h1.widen rfl)) <|
    .foldl_trans (fun _ _ => (clearTimer_only ..).widen rfl) (h1.widen rfl) _
  exact (finish_only ..).onto rfl <| (settleWtr_only ..).onto rfl <| (autoSwitch_only ..).onto rfl (h2.widen rfl)

theorem execClkStatus_framed {d} : Framed (.clkStatus d) s := by
  refine ⟨_, rfl, checked_frame rfl ?_⟩
  extract_lets t0 t
  have h0 : OnlyChanges [.hostMem, .dueWrites] s t0 := hostWrite_only ..
  have ht : OnlyChanges [.hostMem, .dueWrites, .freeCtr] s t := (h0.widen rfl).updated rfl
  exact (finish_only ..).onto rfl <| .ite ((setClk_only ..).onto rfl (ht.widen rfl)) (ht.widen rfl)

theorem execPtpCfg_framed {d} : Framed (.ptpCfg d) s := by
  refine ⟨_, rfl, checked_frame rfl ?_⟩
  extract_lets s1
  have h1 : OnlyChanges [.ptp] s s1 := setPtp_only ..
  exact (finish_only ..).onto rfl <| .ite ((ptpEnable_only ..).onto rfl (h1.widen rfl)) <| .ite (h1.widen rfl) <|
    (ptpDisable_only ..).onto rfl (h1.widen rfl)

theorem execPtpStatus_framed {d} : Framed (.ptpStatus d) s := by
  refine ⟨_, rfl, checked_frame rfl ?_⟩
  extract_lets t
  have ht : OnlyChanges [.hostMem, .dueWrites] s t := hostWrite_only ..
  exact (finish_only ..).onto rfl <| .ite ((setPtp_only ..).onto rfl (ht.widen rfl)) (ht.widen rfl)

theorem execTimeTrig_framed {d} : Framed (.timeTrig d) s :=
  ⟨_, rfl, .ite (checked_frame rfl <| (finish_only ..).onto rfl <| (disarmTrig_only ..).widen rfl) <| checked_frame rfl <|
    .ite ((stimulusArm_only ..).widen rfl) <| .ite ((captureArm_only ..).widen rfl) <|
    .ite (.ite ((armTrig_only ..).widen rfl) <| (finish_only ..).widen rfl) <| .finished_or rfl <| (armTrig_only ..).widen rfl⟩

theorem execMpPortCfg_framed {d} : Framed (.mpPortCfg d) s :=
  ⟨_, rfl, checked_frame rfl <| .finished_or rfl <| (finish_only ..).onto rfl <| (setPort_only ..).onto rfl <|
    .ite ((portDown_only ..).widen rfl) (.refl ..)⟩

theorem execMpRxStream_framed {d} : Framed (.mpRxStream d) s :=
  ⟨_, rfl, checked_frame rfl <| .finished_or rfl <| .finished_or rfl <| (finish_only ..).onto rfl <| (joinPaths_only ..).onto rfl <|
    (setRx_only ..).widen rfl⟩

theorem execMpRxMap_framed {d} : Framed (.mpRxMap d) s :=
  ⟨_, rfl, checked_frame rfl <| .finished_or rfl <| .finished_or rfl <| .finished_or rfl <| (armKeyed_only ..).widen rfl⟩

theorem execMixBus_framed {d} : Framed (.mixBus d) s := by
  refine ⟨_, rfl, checked_frame rfl ?_⟩
  split
  exacts [(badBlock_only ..).widen rfl, (badBlock_only ..).widen rfl, .badField_or rfl <| (finish_only ..).onto rfl <|
    (setBus_only ..).widen rfl]

theorem execMonTaps_framed {d} : Framed (.monTaps d) s := by
  refine ⟨_, rfl, checked_frame rfl ?_⟩
  split
  exacts [(badBlock_only ..).widen rfl, .badField_or rfl <| (finish_only ..).onto rfl <| (setLau_only ..).widen rfl]

theorem execCapCoef_framed {d} : Framed (.capCoef d) s := by
  refine ⟨_, rfl, checked_frame rfl ?_⟩
  split
  exacts [(badBlock_only ..).widen rfl, .badField_or rfl <| .finished_or rfl <| (finish_only ..).onto rfl <| (setLau_only ..).widen rfl]

theorem execStimLoad_framed {d} : Framed (.stimLoad d) s := by
  refine ⟨_, rfl, checked_frame rfl ?_⟩
  split
  exacts [(badBlock_only ..).widen rfl, .badField_or rfl <| .finished_or rfl <| (finish_only ..).onto rfl <| (setLau_only ..).widen rfl]

theorem execLauStatus_framed {d} : Framed (.lauStatus d) s := by
  refine ⟨_, rfl, checked_frame rfl ?_⟩
  extract_lets t
  have ht : OnlyChanges [.hostMem, .dueWrites] s t := hostWrite_only ..
  exact (finish_only ..).onto rfl <| .ite ((lauClear_only ..).onto rfl (ht.widen rfl)) (ht.widen rfl)

theorem execDpxCfg_framed {d} : Framed (.dpxCfg d) s := by
  refine ⟨_, rfl, checked_frame rfl ?_⟩
  refine .finished_or rfl ?_
  extract_lets s1
  have h1 : OnlyChanges [.dpx] s s1 := setDpx_only ..
  exact (finish_only ..).onto rfl <| .ite ((xlinkChange_only ..).onto rfl (h1.widen rfl)) (h1.widen rfl)

theorem execDpxSwitch_framed {d} : Framed (.dpxSwitch d) s :=
  ⟨_, rfl, checked_frame rfl <| .finished_or rfl <| .finished_or rfl <| .finished_or rfl <| (setDpx_only ..).widen rfl⟩

theorem execDpxStatus_framed {d} : Framed (.dpxStatus d) s := by
  refine ⟨_, rfl, checked_frame rfl ?_⟩
  extract_lets s1
  have h1 : OnlyChanges [.hostMem, .dueWrites] s s1 := hostWrite_only ..
  exact (finish_only ..).onto rfl <| .ite ((setDpx_only ..).onto rfl (h1.widen rfl)) (h1.widen rfl)

theorem execLgrAnnotate_framed {d} : Framed (.lgrAnnotate d) s :=
  ⟨_, rfl, checked_frame rfl <| .finished_or rfl <| .finished_or rfl <| (report_only ..).onto rfl <| (ledgerBy_only ..).widen rfl⟩

theorem execLgrClear_framed {d} : Framed (.lgrClear d) s :=
  ⟨_, rfl, checked_frame rfl <| .finished_or rfl <| .ite (.update rfl) <| (finish_only ..).onto rfl <| (ledger_only ..).onto rfl <|
    (evRaise_only ..).onto rfl <|
    .update rfl⟩

theorem execLgrClearDone_framed : Framed .lgrClearDone s := by
  refine ⟨_, rfl, .ite ?_ (.refl ..)⟩
  extract_lets _ _ s1
  have h1 : OnlyChanges [.regs, .lgr] s s1 := (evRaise_only ..).onto rfl <| .update rfl
  split
  exacts [(report_only ..).onto rfl (h1.widen rfl), (h1.widen rfl)]

theorem execStwFwLoad_framed {d} : Framed (.stwFwLoad d) s := by
  refine ⟨_, rfl, checked_frame rfl ?_⟩
  split
  · exact (badBlock_only ..).widen rfl
  · split
    exacts [(finish_only ..).onto rfl <| .update rfl, (badField_only ..).widen rfl, (badField_only ..).widen rfl,
      (report_only ..).widen rfl]

/-! ## Host interface, stewards, resets and interrupts (R361, R484, R488) -/

theorem execFwStopHalt_framed : Framed .fwStopHalt s := by
  refine ⟨_, rfl, ?_⟩
  split
  · extract_lets _ s1 s2
    have h1 : OnlyChanges (touched .fwStopHalt) s s1 := (haltCores_only ..).onto rfl <| .update rfl
    have h2 : OnlyChanges (touched .fwStopHalt) s s2 := .ite ((startUser_only ..).onto rfl h1) h1
    clear_value s2
    exact (report_only ..).onto rfl <| .ite h2 <| h2.updated rfl
  · exact .refl ..

theorem execStwStatus_framed {d} : Framed (.stwStatus d) s := by
  refine ⟨_, rfl, checked_frame rfl ?_⟩
  extract_lets s1
  have h1 : OnlyChanges [.hostMem, .dueWrites] s s1 := hostWrite_only ..
  exact (finish_only ..).onto rfl <| .ite ((clearStw_only ..).onto rfl (h1.widen rfl)) (h1.widen rfl)

theorem execUserOpcode_framed {opcode d} : Framed (.userOpcode opcode d) s := by
  refine ⟨_, rfl, .finished_or rfl ?_⟩
  split
  · split
    exacts [(forwardItem_only ..).widen rfl, .refl ..]
  · exact .refl ..

theorem execOpTimeout_framed {tok} : Framed (.opTimeout tok) s := by
  have h0 : OnlyChanges (touched (.opTimeout tok)) s (commitOutcomes s) := (commitOutcomes_only s).widen rfl
  refine ⟨_, rfl, ?_⟩
  split
  · exact .ite h0 <| (abortOne_only ..).onto rfl <| h0.updated rfl
  · exact h0

/-- R488: the straps say whether the part boots itself. -/
theorem execWarmResetRelease_framed : Framed .warmResetRelease s :=
  ⟨_, rfl, .ite ((setAon_only ..).onto rfl (.update rfl)) ((setAon_only ..).widen rfl)⟩

/-- R484: a cold reset takes the straps, and the mailbox is IDLE or BUSY. -/
theorem execColdReset_framed {bootSrc primary} : Framed (.coldReset bootSrc primary) s :=
  ⟨_, rfl, .update rfl⟩

theorem execCoresReleased_framed {flash} : Framed (.coresReleased flash) s := by
  obtain ⟨s0, hs0⟩ : ∃ s0, s0 = setField { s with aon := { s.aon with
      bootBusy := false, bootImg := none, bootCheck := (bootVerdict s flash).1 } } aBootLen 31 31 0 := ⟨_, rfl⟩
  have h0 : OnlyChanges [.regs, .aon] s s0 := by
    rw [hs0]
    exact (setField_only ..).onto rfl <| .update rfl
  refine ⟨_, rfl, ?_⟩
  rw [← hs0]
  refine .ite (.refl ..) <| .ite ((runCores_only ..).onto rfl <| (h0.widen rfl).updated rfl) ?_
  extract_lets _ s1
  have h1 : OnlyChanges [.regs, .lgr, .aon] s s1 := (ledger_only ..).onto rfl <| (h0.widen rfl).updated rfl
  exact .ite ((setCore_only ..).onto rfl (h1.widen rfl)) (h1.widen rfl)

theorem execGetWork_framed {core be} : Framed (.getWork core be) s :=
  ⟨_, rfl, .ite (.refl ..) <| .ite ((nullHandle_only ..).widen rfl) <| .ite ((nullHandle_only ..).widen rfl) <|
    (startWait_only ..).widen rfl⟩

theorem execDspGrant_framed : Framed .dspGrant s := by
  refine ⟨_, rfl, ?_⟩
  split
  exacts [(grantTo_only ..).widen rfl, .refl ..]

theorem execAffinityExpiry_framed {item} : Framed (.affinityExpiry item) s := by
  refine ⟨_, rfl, ?_⟩
  split
  exacts [(putItem_only ..).widen rfl, .refl ..]

theorem execSvcLimit_framed {item} : Framed (.svcLimit item) s := by
  refine ⟨_, rfl, ?_⟩
  split
  · split
    exacts [.ite (.refl ..) <| (ledger_only ..).onto rfl <| (evRaise_only ..).onto rfl <| (putItem_only ..).widen rfl, .refl ..]
  · exact .refl ..

theorem execIrqDeliver_framed : Framed .irqDeliver s := by
  have h0 : OnlyChanges (touched .irqDeliver) s (noteEvrFull (irqCandidates s) s) := (noteEvrFull_only ..).widen rfl
  refine ⟨_, rfl, ?_⟩
  split
  · exact .ite ((deliverCore_only ..).onto rfl (h0.updated rfl)) <| (deliverHost_only ..).onto rfl <| h0.updated rfl
  · exact h0

theorem execIrqClaim_framed {n be} : Framed (.irqClaim n be) s := by
  refine ⟨_, rfl, (narrow_only ..).onto rfl ?_⟩
  split
  exacts [.update rfl, .update rfl]

theorem execDoorbellPoll_framed {page entries} : Framed (.doorbellPoll page entries) s := by
  have hs : OnlyChanges (touched (.doorbellPoll page entries)) s (if s.hif.inL1 then leaveL1 s else s) :=
    .ite ((leaveL1_only ..).widen rfl) (.refl ..)
  refine ⟨_, rfl, (settleL1_only ..).onto rfl <| .ite ?_ hs⟩
  split
  · exact (evRaise_only ..).onto rfl <| hs.updated rfl
  · exact (fetchAll_only ..).onto rfl <| (pollEvr_only ..).onto rfl <| (pollCqs_only ..).onto rfl <| (pollSqs_only ..).onto rfl <|
      hs.updated rfl

theorem execCqModTimer_framed {ring} : Framed (.cqModTimer ring) s := by
  refine ⟨_, rfl, .ite ?_ (.refl ..)⟩
  extract_lets s1
  have h1 : OnlyChanges [.hif] s s1 := setCq_only ..
  exact .ite (h1.widen rfl) <| (sendVector_only ..).onto rfl (h1.widen rfl)

theorem execMatrixTimeout_framed {t} : Framed (.matrixTimeout t) s :=
  ⟨_, rfl, (releaseHeld_only ..).onto rfl <| (setMtx_only ..).onto rfl <| (mtxError_only ..).onto rfl <| (winTimeout_only ..).onto rfl <|
    (winTimeout_only ..).widen rfl⟩

theorem execTrancheBoundary_framed {cycles viol obs} : Framed (.trancheBoundary cycles viol obs) s := by
  refine ⟨_, rfl, .ite ((boundary_only ..).onto rfl ?_) ?_⟩ <;> exact (observe_only ..).widen rfl

/-! ## Tranches, links, clocks, media and the interlock (R190, R440) -/

theorem execHandoverPhaseStart_framed {badResidue} : Framed (.handoverPhaseStart badResidue) s := by
  refine ⟨_, rfl, .ite (.refl ..) ?_⟩
  split
  exacts [.ite (.refl ..) <| (handoverOp_only ..).widen rfl, .refl ..]

theorem execCond_framed {object} : Framed (.cond object) s := by
  refine ⟨_, rfl, ?_⟩
  split
  exacts [(condOp_only ..).widen rfl, .refl ..]

theorem execGeomItem_framed {item} : Framed (.geomItem item) s := by
  refine ⟨_, rfl, ?_⟩
  split
  · exact .refl ..
  · extract_lets
    split
    · exact (runPre_only ..).widen rfl
    · exact .ite ((runDir_only ..).widen rfl) (.refl ..)
    · exact .ite ((runMrg_only ..).widen rfl) (.refl ..)
    · exact (runSlt_only ..).widen rfl

theorem execFurrowSlot_framed {furrow entry ue audit viol} : Framed (.furrowSlot furrow entry ue audit viol) s := by
  refine ⟨_, rfl, ?_⟩
  split
  · exact .refl ..
  · extract_lets s1 s2
    have h1 : OnlyChanges [.regs, .lgr, .pair] s s1 := (slotOp_only ..).onto rfl <| (markWins_only ..).widen rfl
    have h2 : OnlyChanges (touched (.furrowSlot furrow entry ue audit viol)) s s2 := by
      unfold s2
      split
      exacts [(auditSlot_only ..).onto rfl (h1.widen rfl), (h1.widen rfl)]
    exact (guardSlot_only ..).onto rfl h2

theorem execBq_framed {u} : Framed (.bq u) s := by
  refine ⟨_, rfl, ?_⟩
  split
  · exact .refl ..
  · split
    · exact .ite ((bqOut_only ..).widen rfl) (.refl ..)
    · split
      exacts [(laneBq_only ..).widen rfl, .refl ..]

theorem execHead_framed {u ue} : Framed (.head u ue) s := by
  refine ⟨_, rfl, ?_⟩
  split
  · exact .refl ..
  · split
    · split
      exacts [(headOp_only ..).widen rfl, .refl ..]
    · split
      · split
        exacts [(headOp_only ..).widen rfl, .refl ..]
      · exact .refl ..

theorem execSlu_framed {u} : Framed (.slu u) s := by
  refine ⟨_, rfl, ?_⟩
  split
  · exact .refl ..
  · split
    · split
      exacts [.ite (.refl ..) <| (sluiceOp_only ..).onto rfl <| (joinOp_only ..).widen rfl, .refl ..]
    · split
      · split
        exacts [(sluiceOp_only ..).onto rfl <| (joinOp_only ..).onto rfl <| (joinOp_only ..).widen rfl, .refl ..]
      · exact .refl ..

theorem execTailChain_framed {u slack obs} : Framed (.tailChain u slack obs) s := by
  refine ⟨_, rfl, .ite (.refl ..) ?_⟩
  split
  exacts [.refl .., .ite ((noteSlack_only ..).onto rfl <| (chainPanic_only ..).onto rfl <| (tailUnit_only ..).widen rfl) (.refl ..)]

theorem execLaunch_framed {link entry} : Framed (.launch link entry) s := by
  refine ⟨_, rfl, ?_⟩
  split
  exacts [.refl .., .ite (.refl ..) <| (launchOp_only ..).onto rfl <| .ite ((settleMerge_only ..).widen rfl) (.refl ..)]

theorem execForm_framed {port entry} : Framed (.form port entry) s := by
  refine ⟨_, rfl, ?_⟩
  split
  · exact .refl ..
  · split
    · exact .refl ..
    · split
      exacts [.refl .., .ite ((formPacket_only ..).widen rfl) (.refl ..)]

theorem execCisternFetchDone_framed {o g age errs} : Framed (.cisternFetchDone o g age errs) s := by
  refine ⟨_, rfl, .ite ?_ (.refl ..)⟩
  extract_lets _ _ _ _ s2 s3
  have h2 : OnlyChanges (touched (.cisternFetchDone o g age errs)) s s2 := (setPair_only ..).onto rfl <| (noteAge_only ..).onto rfl <|
    (readRuns_only ..).widen rfl
  have h3 : OnlyChanges (touched (.cisternFetchDone o g age errs)) s s3 := (settlePanic_only ..).onto rfl h2
  exact .ite ((ledgerLim_only ..).onto rfl <| (evRaise_only ..).onto rfl <| (pairCount_only ..).onto rfl h3) h3

theorem execDpxStrobeReceive_framed {skew wide} : Framed (.dpxStrobeReceive skew wide) s := by
  refine ⟨_, rfl, .ite (.refl ..) <| .ite ((syncFault_only ..).onto rfl ?_) <| .ite ((syncFault_only ..).onto rfl ?_) ?_⟩ <;>
    exact (setReg_only ..).onto rfl <| (setDpx_only ..).widen rfl

theorem execFecWindow_framed {link corrected uncorrectable} : Framed (.fecWindow link corrected uncorrectable) s := by
  refine ⟨_, rfl, .ite ((linkGoesDown_only ..).onto rfl ?_) ?_⟩ <;>
    exact (linkCount_only ..).onto rfl <| (linkCount_only ..).widen rfl

theorem execHelloLost_framed {link} : Framed (.helloLost link) s := by
  refine ⟨_, rfl, .ite ((linkGoesDown_only ..).onto rfl ?_) <| (setLink_only ..).onto rfl ?_⟩ <;> exact (setLink_only ..).widen rfl

theorem execEgressFrameStart_framed {link defer slip} : Framed (.egressFrameStart link defer slip) s := by
  refine ⟨_, rfl, ?_⟩
  extract_lets
  split
  · exact .refl ..
  · extract_lets _ _ _ s0 s1
    have h0 : OnlyChanges (touched (.egressFrameStart link defer slip)) s s0 := .ite ((linkSlip_only ..).widen rfl) (.refl ..)
    have h1 : OnlyChanges (touched (.egressFrameStart link defer slip)) s s1 := (emit_only ..).onto rfl <| (setLink_only ..).onto rfl h0
    exact .ite ((emit_only ..).onto rfl h1) h1

theorem execFabDiscTimeout_framed {tag} : Framed (.fabDiscTimeout tag) s := by
  refine ⟨_, rfl, ?_⟩
  split
  exacts [(report_only ..).onto rfl <| (setFab_only ..).widen rfl, .refl ..]

theorem execRemoteRetransmit_framed {seq} : Framed (.remoteRetransmit seq) s := by
  refine ⟨_, rfl, ?_⟩
  split
  exacts [.refl .., .ite ((report_only ..).onto rfl <| (setFab_only ..).widen rfl) <| (sendMgmt_only ..).onto rfl <|
    (setFab_only ..).widen rfl]

theorem execFreqWindow_framed {ref offset} : Framed (.freqWindow ref offset) s := by
  refine ⟨_, rfl, .ite ?_ (.refl ..)⟩
  extract_lets _ _ s1
  have h1 : OnlyChanges [.clk] s s1 := setRef_only ..
  exact .ite ((refFault_only ..).onto rfl (h1.widen rfl)) <| (refRecover_only ..).onto rfl (h1.widen rfl)

theorem execDriftEval_framed {offsets} : Framed (.driftEval offsets) s :=
  ⟨_, rfl, (driftJudge_only ..).onto rfl <| (xoJudge_only ..).onto rfl <| (relTake_only ..).onto rfl <| (driftTake_only ..).widen rfl⟩

theorem execWtrExpiry_framed {ref} : Framed (.wtrExpiry ref) s :=
  ⟨_, rfl, .ite ((settleWtr_only ..).onto rfl <| .ite ((clearTimer_only ..).onto rfl <| (switchExpired_only ..).onto rfl <|
    (setRef_only ..).widen rfl) <| (switchExpired_only ..).onto rfl <| (setRef_only ..).widen rfl) (.refl ..)⟩

theorem execTidxSet_framed {tick24} : Framed (.tidxSet tick24) s := by
  refine ⟨_, rfl, ?_⟩
  split
  exacts [.refl .., (outerTurn_only ..).onto rfl <| (takeIndex_only ..).widen rfl]

theorem execMpLockLoss_framed {port} : Framed (.mpLockLoss port) s := by
  refine ⟨_, rfl, .ite ?_ (.refl ..)⟩
  extract_lets _ s1
  have h1 : OnlyChanges [.mp] s s1 := setPort_only ..
  exact .ite ((portDown_only ..).onto rfl (h1.widen rfl)) (h1.widen rfl)

theorem execTxLateDrop_framed {port} : Framed (.txLateDrop port) s := by
  refine ⟨_, rfl, ?_⟩
  split
  exacts [(evRaise_only ..).onto rfl <| (txCount_only ..).onto rfl <| (portCount_only ..).onto rfl <| (setPort_only ..).widen rfl, .refl ..]

theorem execMpFrameDepart_framed {port slip} : Framed (.mpFrameDepart port slip) s := by
  refine ⟨_, rfl, .ite ?_ (.refl ..)⟩
  split
  exacts [(departFrame_only ..).onto rfl <| (setPort_only ..).widen rfl, .refl ..]

theorem execPtpDelayResp_framed {seqId t4 correction} : Framed (.ptpDelayResp seqId t4 correction) s := by
  refine ⟨_, rfl, ?_⟩
  split
  exacts [.ite (.refl ..) <| (setPtp_only ..).widen rfl, .refl ..]

theorem execTrigFire_framed {pin} : Framed (.trigFire pin) s := by
  refine ⟨_, rfl, ?_⟩
  split
  exacts [.refl .., .ite (.ite ((setPin_only ..).onto rfl <| (setPtp_only ..).widen rfl) (.refl ..)) <| .ite ((setPin_only ..).onto rfl <|
    (setPtp_only ..).widen rfl) (.refl ..)]

theorem execMonComplyTimer_framed {output pin outside} : Framed (.monComplyTimer output pin outside) s :=
  ⟨_, rfl, .ite (.ite (.refl ..) <| (ledger_only ..).onto rfl <| (evRaise_only ..).onto rfl <| (setMon_only ..).widen rfl) <|
    (setMon_only ..).widen rfl⟩

theorem execPeerAssert_framed : Framed .peerAssert s := by
  refine ⟨_, rfl, .ite (.ite ((setDpx_only ..).widen rfl) ((yieldClaim_only ..).onto rfl <| (setDpx_only ..).widen rfl)) <|
    .ite ?_ ((setDpx_only ..).widen rfl)⟩
  extract_lets s1
  have h1 : OnlyChanges (touched .peerAssert) s s1 := (ledger_only ..).onto rfl <| (evRaise_only ..).onto rfl <| (setDpx_only ..).widen rfl
  exact .ite h1 <| (stopDriving_only ..).onto rfl h1

theorem execCommandedRelease_framed : Framed .commandedRelease s := by
  refine ⟨_, rfl, .ite (.refl ..) ?_⟩
  split
  · exact .ite (.refl ..) <| .ite ((stopDriving_only ..).widen rfl) <| (report_only ..).onto rfl <| (setDpx_only ..).widen rfl
  · split
    exacts [.ite ((stopDriving_only ..).widen rfl) (.refl ..), .refl ..]

theorem execFlashOpDone_framed {erase ok} : Framed (.flashOpDone erase ok) s := by
  refine ⟨_, rfl, .ite (.refl ..) ?_⟩
  split
  exacts [(eraseDone_only ..).widen rfl, (programDone_only ..).widen rfl]

theorem execDramTrainDone_framed {r} : Framed (.dramTrainDone r) s := by
  refine ⟨_, rfl, ?_⟩
  split
  · exact (ledger_only ..).onto rfl <| (evRaise_only ..).onto rfl <| (setDrc_only ..).onto rfl <| (trainLanes_only ..).onto rfl <|
    (setField_only ..).onto rfl <|
      (setDrc_only ..).widen rfl
  · exact .ite ((trainLanes_only ..).onto rfl <| (setField_only ..).onto rfl <| (setDrc_only ..).widen rfl) <|
    (enterNoDram_only ..).onto rfl <|
      (trainLanes_only ..).onto rfl <| (setField_only ..).onto rfl <| (setDrc_only ..).widen rfl

theorem execMr4Poll_framed {channel value} : Framed (.mr4Poll channel value) s := by
  have h1 {f} : OnlyChanges (touched (.mr4Poll channel value)) s (setDrc s f) := (setDrc_only ..).widen rfl
  refine ⟨_, rfl, .ite ((ledger_only ..).onto rfl <| (evRaise_only ..).onto rfl ?_) ?_⟩ <;>
    exact .ite h1 <| (ledger_only ..).onto rfl <| (evRaise_only ..).onto rfl <| (payExcess_only ..).onto rfl h1

theorem execRefreshAccrual_framed {channel bank idle idled} : Framed (.refreshAccrual channel bank idle idled) s := by
  have h0 {banks} : OnlyChanges (touched (.refreshAccrual channel bank idle idled)) s (payIdle channel banks s) :=
    (payIdle_only ..).widen rfl
  have h1 {banks f} : OnlyChanges (touched (.refreshAccrual channel bank idle idled)) s (setDrc (payIdle channel banks s) f) :=
    (setDrc_only ..).onto rfl h0
  exact ⟨_, rfl, .ite h0 <| .ite h1 <| .ite (.ite ((ledgerLim_only ..).onto rfl <| (evRaise_only ..).onto rfl h1) h1) h1⟩

theorem execScrubRead_framed {line symbols} : Framed (.scrubRead line symbols) s := by
  refine ⟨_, rfl, .ite (.refl ..) ?_⟩
  split
  exacts [.ite (.refl ..) <| (dramPut_only ..).onto rfl <| (lineRead_only ..).widen rfl, (lineRead_only ..).widen rfl]

theorem execTailReadDone_framed {r} : Framed (.tailReadDone r) s := by
  refine ⟨_, rfl, ?_⟩
  split
  · exact (settleTail_only ..).onto rfl <| (setCor_only ..).widen rfl
  · exact .ite ((settleTail_only ..).onto rfl <| (setCor_only ..).onto rfl <| (readRuns_only ..).widen rfl) (.refl ..)

theorem execJtagTapOperation_framed {op} : Framed (.jtagTapOperation op) s :=
  ⟨_, rfl, (setAon_only ..).widen rfl⟩

/-- Every command keeps the modes legal. -/
theorem exec_framed : ∀ c, Framed c s
  | .hifNop _ => ⟨_, rfl, checked_frame rfl <| (report_only ..).widen rfl⟩
  | .hifAbort _ => ⟨_, rfl, checked_frame rfl <| (startAbort_only ..).widen rfl⟩
  | .hifSqDisable _ => ⟨_, rfl, checked_frame rfl <| .finished_or rfl <| (sqDisableStart_only ..).widen rfl⟩
  | .hifStatus _ => ⟨_, rfl, checked_frame rfl <| (finish_only ..).onto rfl <| (hostWrite_only ..).widen rfl⟩
  | .hifIdentify _ => ⟨_, rfl, checked_frame rfl <| (finish_only ..).onto rfl <| (hostWrite_only ..).widen rfl⟩
  | .schLoad _ => execSchLoad_framed
  | .schLoadDone => ⟨_, rfl, (loadDone_only ..).widen rfl⟩
  | .schStart _ => execSchStart_framed
  | .schSwap _ => execSchSwap_framed
  | .schCancel _ => execSchCancel_framed
  | .schStop _ => execSchStop_framed
  | .schRestart _ => execSchRestart_framed
  | .schStatus _ => execSchStatus_framed
  | .schInfo _ => ⟨_, rfl, checked_frame rfl <| (finish_only ..).onto rfl <| (hostWrite_only ..).widen rfl⟩
  | .objMap _ => execObjMap_framed
  | .objCond _ => execObjCond_framed
  | .objSegment _ => ⟨_, rfl, (report_only ..).onto rfl <| (takeSeg_only ..).widen rfl⟩
  | .objSegBatch _ => execObjSegBatch_framed
  | .objCtl _ => ⟨_, rfl, checked_frame rfl <| .finished_or rfl <| (armCutoff_only ..).widen rfl⟩
  | .objAlignSet _ => ⟨_, rfl, checked_frame rfl <| .finished_or rfl <| .finished_or rfl <| (finish_only ..).onto rfl <| .update rfl⟩
  | .objStatus _ => execObjStatus_framed
  | .objPrefilter _ => execObjPrefilter_framed
  | .objCoarse _ => execObjCoarse_framed
  | .objKernel _ => ⟨_, rfl, checked_frame rfl <| (armCutoff_only ..).widen rfl⟩
  | .pairKtbl _ => execPairKtbl_framed
  | .pairStatus _ => execPairStatus_framed
  | .geoSpkLoad _ => execGeoSpkLoad_framed
  | .geoZoneLoad _ => ⟨_, rfl, checked_frame rfl <| loadTable_only (fun _ _ => (setGeo_only ..).widen rfl) (partsIn_subset rfl) ..⟩
  | .geoTriLoad _ => ⟨_, rfl, checked_frame rfl <| loadTable_only (fun _ _ => (setGeo_only ..).widen rfl) (partsIn_subset rfl) ..⟩
  | .geoCubeLoad _ => execGeoCubeLoad_framed
  | .geoAirLoad _ => ⟨_, rfl, checked_frame rfl <| loadTable_only (fun _ _ => (setGeo_only ..).widen rfl) (partsIn_subset rfl) ..⟩
  | .geoBankSwitch _ => execGeoBankSwitch_framed
  | .geoBankSync _ => execGeoBankSync_framed
  | .geoObjLaw _ => execGeoObjLaw_framed
  | .geoGlobal _ => ⟨_, rfl, checked_frame rfl <| (armCutoff_only ..).widen rfl⟩
  | .geoStatus _ => execGeoStatus_framed
  | .geoPairRead _ => ⟨_, rfl, checked_frame rfl <| (finish_only ..).onto rfl <| (hostWrite_only ..).widen rfl⟩
  | .corrStage _ => execCorrStage_framed
  | .corrStageDone _ => execCorrStageDone_framed
  | .corrSwitch _ => execCorrSwitch_framed
  | .corrSetRead _ _ => execCorrSetRead_framed
  | .sluiceSet _ => ⟨_, rfl, checked_frame rfl <| (armOutput_only ..).widen rfl⟩
  | .meterCfg _ => execMeterCfg_framed
  | .meterRead _ => ⟨_, rfl, checked_frame rfl <| (finish_only ..).onto rfl <| (hostWrite_only ..).widen rfl⟩
  | .corrStatus _ => execCorrStatus_framed
  | .corrClearState _ => ⟨_, rfl, checked_frame rfl <| .finished_or rfl <| (armOutput_only ..).widen rfl⟩
  | .fabLinkCtl _ => ⟨_, rfl, checked_frame rfl <| (finish_only ..).onto rfl <| (ctlLinks_only ..).widen rfl⟩
  | .fabIdent _ => ⟨_, rfl, checked_frame rfl <| (finish_only ..).onto rfl <| (setAddress_only ..).widen rfl⟩
  | .fabWbLoad _ => execFabWbLoad_framed
  | .fabGrpLoad _ => execFabGrpLoad_framed
  | .fabEpochSwitch _ => ⟨_, rfl, checked_frame rfl <| .finished_or rfl <| .finished_or rfl <| (setFab_only ..).widen rfl⟩
  | .fabBankSync _ => ⟨_, rfl, checked_frame rfl <| bankWrite_only (fun _ _ => (setFab_only ..).widen rfl) (partsIn_subset rfl) ..⟩
  | .fabDisc _ => execFabDisc_framed
  | .fabMgmtSend _ => execFabMgmtSend_framed
  | .fabStatus _ => ⟨_, rfl, checked_frame rfl <| (finish_only ..).onto rfl <| (fabClear_only ..).onto rfl <| (hostWrite_only ..).widen rfl⟩
  | .fabRemote _ => execFabRemote_framed
  | .clkRate _ => ⟨_, rfl, checked_frame rfl <| .finished_or rfl <| (setClk_only ..).onto rfl <| (takeFamily_only ..).widen rfl⟩
  | .clkRefCfg _ => execClkRefCfg_framed
  | .clkSelCfg _ => execClkSelCfg_framed
  | .clkSelect _ => ⟨_, rfl, checked_frame rfl <| .ite ((setClk_only ..).widen rfl) <| (settleWtr_only ..).onto rfl <|
      (selectNow_only ..).widen rfl⟩
  | .clkStatus _ => execClkStatus_framed
  | .ptpCfg _ => execPtpCfg_framed
  | .ptpStepArm _ => ⟨_, rfl, (ptpCtl_only ..).widen rfl⟩
  | .ptpClearGmChange _ => ⟨_, rfl, (ptpCtl_only ..).widen rfl⟩
  | .ptpStatus _ => execPtpStatus_framed
  | .timeTrig _ => execTimeTrig_framed
  | .timeCapCfg _ => ⟨_, rfl, checked_frame rfl <| (finish_only ..).onto rfl <| (setPtp_only ..).widen rfl⟩
  | .timeCapRead _ => ⟨_, rfl, checked_frame rfl <| (finish_only ..).onto rfl <| (hostWrite_only ..).onto rfl <| (setPtp_only ..).widen rfl⟩
  | .mpPortCfg _ => execMpPortCfg_framed
  | .mpRxStream _ => execMpRxStream_framed
  | .mpRxMap _ => execMpRxMap_framed
  | .mpTxStream _ => ⟨_, rfl, checked_frame rfl <| .ite ((finish_only ..).onto rfl <| (setTx_only ..).widen rfl) <|
      (finish_only ..).widen rfl⟩
  | .mpStatus _ => ⟨_, rfl, checked_frame rfl <| (finish_only ..).onto rfl <| (mpClear_only ..).onto rfl <| (hostWrite_only ..).onto rfl <|
      (draw_only ..).widen rfl⟩
  | .sapCfg _ => ⟨_, rfl, checked_frame rfl <| .finished_or rfl <| (finish_only ..).onto rfl <| (setSap_only ..).widen rfl⟩
  | .mixBus _ => execMixBus_framed
  | .mixInput _ => ⟨_, rfl, checked_frame rfl <| (finish_only ..).onto rfl <| (setBus_only ..).widen rfl⟩
  | .monTaps _ => execMonTaps_framed
  | .sidetone _ => ⟨_, rfl, checked_frame rfl <| (finish_only ..).onto rfl <| (setMon_only ..).widen rfl⟩
  | .capCfg _ => ⟨_, rfl, checked_frame rfl <| .finished_or rfl <| (finish_only ..).onto rfl <| (setLau_only ..).widen rfl⟩
  | .capCoef _ => execCapCoef_framed
  | .capDest _ => ⟨_, rfl, checked_frame rfl <| .finished_or rfl <| (finish_only ..).onto rfl <| (setLau_only ..).widen rfl⟩
  | .capStart _ => ⟨_, rfl, checked_frame rfl <| (captureArm_only ..).widen rfl⟩
  | .capStop _ => ⟨_, rfl, checked_frame rfl <| (finish_only ..).onto rfl <| (captureStop_only ..).widen rfl⟩
  | .stimLoad _ => execStimLoad_framed
  | .stimStart _ => ⟨_, rfl, (stimulusOp_only ..).widen rfl⟩
  | .stimStop _ => ⟨_, rfl, (stimulusOp_only ..).widen rfl⟩
  | .lauStatus _ => execLauStatus_framed
  | .dpxCfg _ => execDpxCfg_framed
  | .dpxSwitch _ => execDpxSwitch_framed
  | .dpxArm _ => ⟨_, rfl, checked_frame rfl <| (finish_only ..).onto rfl <| (armOp_only ..).widen rfl⟩
  | .dpxStatus _ => execDpxStatus_framed
  | .lgrRead _ => ⟨_, rfl, checked_frame rfl <| .ite ((report_only ..).onto rfl <| (hostWrite_only ..).widen rfl) <|
      (finish_only ..).widen rfl⟩
  | .lgrInfo _ => ⟨_, rfl, checked_frame rfl <| .ite ((finish_only ..).onto rfl <| (hostWrite_only ..).widen rfl) <|
      (finish_only ..).widen rfl⟩
  | .lgrAnnotate _ => execLgrAnnotate_framed
  | .lgrNonce _ => ⟨_, rfl, checked_frame rfl <| .ite ((report_only ..).widen rfl) <| (finish_only ..).widen rfl⟩
  | .lgrClear _ => execLgrClear_framed
  | .lgrClearDone => execLgrClearDone_framed
  | .stwFwLoad _ => execStwFwLoad_framed
  | .stwFwStart _ => ⟨_, rfl, checked_frame rfl <| .finished_or rfl <| (startStop_only ..).widen rfl⟩
  | .stwFwStop _ => ⟨_, rfl, checked_frame rfl <| (startStop_only ..).widen rfl⟩
  | .fwStopHalt => execFwStopHalt_framed
  | .dspFlowCfg _ => ⟨_, rfl, checked_frame rfl <| .finished_or rfl <| (finish_only ..).onto rfl <| .update rfl⟩
  | .stwStatus _ => execStwStatus_framed
  | .dspLimits _ => ⟨_, rfl, checked_frame rfl <| (finish_only ..).onto rfl <| (settleAlive_only ..).onto rfl <|
      (setReg_only ..).onto rfl <|
      (setReg_only ..).widen rfl⟩
  | .userOpcode _ _ => execUserOpcode_framed
  | .abortRequest _ => ⟨_, rfl, (abortWrite_only ..).widen rfl⟩
  | .abortOwnerTimeout _ => ⟨_, rfl, (ownerSilent_only ..).widen rfl⟩
  | .opTimeout _ => execOpTimeout_framed
  | .rwinRead _ _ => ⟨_, rfl, (winGo_only ..).widen rfl⟩
  | .rwinWrite _ _ => ⟨_, rfl, (winGo_only ..).widen rfl⟩
  | .rwinTimeout _ => ⟨_, rfl, .ite ((winEnd_only ..).onto rfl <| (setMtx_only ..).widen rfl) (.refl ..)⟩
  | .svcRwinRead _ _ => ⟨_, rfl, (winGo_only ..).widen rfl⟩
  | .svcRwinWrite _ _ => ⟨_, rfl, (winGo_only ..).widen rfl⟩
  | .warmResetRequest _ _ => ⟨_, rfl, (wrstWrite_only ..).widen rfl⟩
  | .wrstNAssert => ⟨_, rfl, (warmRequest_only ..).onto rfl <| (setAon_only ..).widen rfl⟩
  | .warmResetRelease => execWarmResetRelease_framed
  | .coldReset _ _ => execColdReset_framed
  | .powerFail => ⟨_, rfl, (setAon_only ..).onto rfl ((darkState_only ..).widen rfl)⟩
  | .dbKick _ => ⟨_, rfl, (kickOp_only ..).widen rfl⟩
  | .lgrRecRead _ => ⟨_, rfl, (narrow_only ..).onto rfl <| (recAdvance_only ..).widen rfl⟩
  | .svcLgrRecRead _ => ⟨_, rfl, (narrow_only ..).onto rfl <| (recAdvance_only ..).widen rfl⟩
  | .bootGo _ _ => ⟨_, rfl, (bootWrite_only ..).widen rfl⟩
  | .coresReleased _ => execCoresReleased_framed
  | .segmentPush _ _ => ⟨_, rfl, (segPushOp_only ..).widen rfl⟩
  | .getWork _ _ => execGetWork_framed
  | .dspGrant => execDspGrant_framed
  | .getWorkTimeout _ => ⟨_, rfl, .ite ((nullHandle_only ..).widen rfl) (.refl ..)⟩
  | .affinityExpiry _ => execAffinityExpiry_framed
  | .dspDone _ _ => ⟨_, rfl, (dspDone_only ..).widen rfl⟩
  | .dspFwd _ _ => ⟨_, rfl, (dspFwd_only ..).widen rfl⟩
  | .dspAdd _ _ => ⟨_, rfl, (dspAdd_only ..).widen rfl⟩
  | .cplCommit _ _ => ⟨_, rfl, cplReport_only (fun _ _ => (withdrawTok_only ..).widen rfl) (partsIn_subset rfl) ..⟩
  | .cplComplete _ _ => ⟨_, rfl, cplReport_only (fun _ _ => (withdrawTok_only ..).widen rfl) (partsIn_subset rfl) ..⟩
  | .cplWithdraw _ _ => ⟨_, rfl, cplReport_only (fun _ _ => (withdrawTok_only ..).widen rfl) (partsIn_subset rfl) ..⟩
  | .heartbeat _ => ⟨_, rfl, (heartbeatTurn_only ..).widen rfl⟩
  | .hbLost _ => ⟨_, rfl, (settleAlive_only ..).onto rfl <| (silence_only ..).widen rfl⟩
  | .svcLimit _ => execSvcLimit_framed
  | .irqDeliver => execIrqDeliver_framed
  | .irqClaim _ _ => execIrqClaim_framed
  | .irqEoi _ _ => ⟨_, rfl, (eoiOp_only ..).widen rfl⟩
  | .irqMset _ => ⟨_, rfl, (msetOp_only ..).widen rfl⟩
  | .irqMclr _ => ⟨_, rfl, (msetOp_only ..).widen rfl⟩
  | .irqSwiSet _ => ⟨_, rfl, (swiSetOp_only ..).widen rfl⟩
  | .irqSwiClear _ => ⟨_, rfl, (swiClearOp_only ..).widen rfl⟩
  | .irqStatRead _ => ⟨_, rfl, (narrow_only ..).onto rfl <| (irqStatReadOp_only ..).widen rfl⟩
  | .cisStatRead _ => ⟨_, rfl, (narrow_only ..).onto rfl <| (cisStatReadOp_only ..).widen rfl⟩
  | .corStatRead _ => ⟨_, rfl, (narrow_only ..).onto rfl <| (corStatReadOp_only ..).widen rfl⟩
  | .drcRefRead _ _ => ⟨_, rfl, (narrow_only ..).onto rfl <| (drcRefReadOp_only ..).widen rfl⟩
  | .topThermRead _ => ⟨_, rfl, (narrow_only ..).onto rfl <| (thermReadOp_only ..).widen rfl⟩
  | .ptpRptPop _ _ => ⟨_, rfl, (narrow_only ..).onto rfl <| (rptPopOp_only ..).widen rfl⟩
  | .ptpTcapPop _ => ⟨_, rfl, (narrow_only ..).onto rfl <| (tcapPopOp_only ..).widen rfl⟩
  | .ptpTimeRead _ => ⟨_, rfl, (narrow_only ..).onto rfl <| (timeReadOp_only ..).widen rfl⟩
  | .clkTidxRead _ => ⟨_, rfl, (narrow_only ..).onto rfl <| (splitRead_only ..).widen rfl⟩
  | .clkMapRead _ => ⟨_, rfl, (narrow_only ..).onto rfl <| (splitRead_only ..).widen rfl⟩
  | .lgrPtimeRead _ => ⟨_, rfl, (narrow_only ..).onto rfl <| (ptimeReadOp_only ..).widen rfl⟩
  | .dramRetrain _ => ⟨_, rfl, (drcCtlWrite_only ..).widen rfl⟩
  | .sqEnable _ _ => ⟨_, rfl, (sqCfgWrite_only ..).widen rfl⟩
  | .sqDisableWrite _ _ => ⟨_, rfl, (sqCfgWrite_only ..).widen rfl⟩
  | .sqDrainEnd _ => ⟨_, rfl, (sqDisableEnd_only ..).widen rfl⟩
  | .cqEnable _ _ => ⟨_, rfl, (cqCfgWrite_only ..).widen rfl⟩
  | .cqDisable _ _ => ⟨_, rfl, (cqCfgWrite_only ..).widen rfl⟩
  | .evrEnable _ => ⟨_, rfl, (evrCfgWrite_only ..).widen rfl⟩
  | .evrDisable _ => ⟨_, rfl, (evrCfgWrite_only ..).widen rfl⟩
  | .armWrite _ => ⟨_, rfl, (armWriteOp_only ..).widen rfl⟩
  | .registerWrite _ _ _ _ => ⟨_, rfl, (regWrite_only ..).widen rfl⟩
  | .svcStatus => ⟨_, rfl, .update rfl⟩
  | .svcRead _ _ => ⟨_, rfl, ((svcWords_only ..).widen rfl).updated rfl⟩
  | .svcWrite _ _ => ⟨_, rfl, (svcStore_only ..).widen rfl⟩
  | .svcFrameEnd => ⟨_, rfl, (resetMasters_only ..).widen rfl⟩
  | .hostIfReset _ => ⟨_, rfl, (hostReset_only ..).widen rfl⟩
  | .d3hotEntry _ => ⟨_, rfl, (evRaise_only ..).onto rfl <| .update rfl⟩
  | .d0Return => ⟨_, rfl, (resumeHost_only ..).onto rfl <| .update rfl⟩
  | .busMasterChange _ _ => ⟨_, rfl, (sendPending_only ..).onto rfl <| (resumeHost_only ..).onto rfl <| .update rfl⟩
  | .msixUnmask _ _ _ => ⟨_, rfl, (sendPending_only ..).onto rfl <| .update rfl⟩
  | .inboundTimeout _ => ⟨_, rfl, (evRaise_only ..).onto rfl <| .update rfl⟩
  | .doorbellPoll _ _ => execDoorbellPoll_framed
  | .cqModTimer _ => execCqModTimer_framed
  | .matrixTimeout _ => execMatrixTimeout_framed
  | .masterResetDrain _ _ _ => ⟨_, rfl, (releaseHeld_only ..).onto rfl <| (ledger_only ..).onto rfl <| (evRaise_only ..).onto rfl <|
      (setMtx_only ..).widen rfl⟩
  | .trancheBoundary _ _ _ => execTrancheBoundary_framed
  | .segmentCutoff => ⟨_, rfl, .ite (.refl ..) <| (cutoffOnce_only ..).widen rfl⟩
  | .furrowPhaseStart _ => ⟨_, rfl, .ite (.refl ..) <|
      eachObj_only (fun _ _ => (verifyObj_only ..).widen rfl) ((markWins_only ..).widen rfl) _⟩
  | .handoverPhaseStart _ => execHandoverPhaseStart_framed
  | .cond _ => execCond_framed
  | .geomItem _ => execGeomItem_framed
  | .furrowSlot _ _ _ _ _ => execFurrowSlot_framed
  | .bq _ => execBq_framed
  | .head _ _ => execHead_framed
  | .slu _ => execSlu_framed
  | .tailChain _ _ _ => execTailChain_framed
  | .launch _ _ => execLaunch_framed
  | .form _ _ => execForm_framed
  | .cisternFetchDone _ _ _ _ => execCisternFetchDone_framed
  | .cisternPanic _ _ => ⟨_, rfl, .ite ((settlePanic_only ..).onto rfl <| (evRaise_only ..).onto rfl <|
      (setPair_only ..).widen rfl) (.refl ..)⟩
  | .dpxStrobeReceive _ _ => execDpxStrobeReceive_framed
  | .linkLock _ => ⟨_, rfl, .ite ((setLink_only ..).widen rfl) (.refl ..)⟩
  | .linkLockTimeout _ => ⟨_, rfl, .ite ((setLink_only ..).widen rfl) (.refl ..)⟩
  | .linkLockLoss _ => ⟨_, rfl, .ite ((linkGoesDown_only ..).widen rfl) (.refl ..)⟩
  | .fecWindow _ _ _ => execFecWindow_framed
  | .helloSend _ => ⟨_, rfl, .ite (.refl ..) <| (queueFrame_only ..).widen rfl⟩
  | .helloReceive _ _ => ⟨_, rfl, .ite ((helloTake_only ..).widen rfl) (.refl ..)⟩
  | .helloTimeout _ => ⟨_, rfl, .ite ((setLink_only ..).widen rfl) (.refl ..)⟩
  | .helloLost _ => execHelloLost_framed
  | .tickReceive _ _ _ _ _ => ⟨_, rfl, .ite ((tickTake_only ..).widen rfl) (.refl ..)⟩
  | .caravanReceive _ _ _ _ _ => ⟨_, rfl, .ite (.refl ..) <| .ite (.ite ((dropCaravan_only ..).widen rfl) (.refl ..)) <|
      (takeCaravan_only ..).widen rfl⟩
  | .egressFrameStart _ _ _ => execEgressFrameStart_framed
  | .fabDiscTimeout _ => execFabDiscTimeout_framed
  | .remoteRetransmit _ => execRemoteRetransmit_framed
  | .refEdge _ _ => ⟨_, rfl, .ite ((edgeOp_only ..).widen rfl) (.refl ..)⟩
  | .refMissing _ => ⟨_, rfl, .ite ((refFault_only ..).onto rfl <| (setRef_only ..).widen rfl) (.refl ..)⟩
  | .freqWindow _ _ => execFreqWindow_framed
  | .driftEval _ => execDriftEval_framed
  | .qualTimer _ => ⟨_, rfl, .ite ((refQualify_only ..).widen rfl) (.refl ..)⟩
  | .wtrExpiry _ => execWtrExpiry_framed
  | .refSwitchDone _ => ⟨_, rfl, .ite ((switchDone_only ..).widen rfl) (.refl ..)⟩
  | .bleedTick => ⟨_, rfl, .ite ((setClk_only ..).widen rfl) (.refl ..)⟩
  | .pllUnlock _ => ⟨_, rfl, .ite (.refl ..) <| (guardFault_only ..).onto rfl <| (ledger_only ..).onto rfl <| (evRaise_only ..).onto rfl <|
      (unlock_only ..).widen rfl⟩
  | .pllLock => ⟨_, rfl, .ite (.refl ..) <| (evaluate_only ..).onto rfl <| (pruneTimers_only ..).onto rfl <|
      (monSettleAll_only ..).onto rfl <|
      (setClk_only ..).widen rfl⟩
  | .tidxSet _ => execTidxSet_framed
  | .mpLockLoss _ => execMpLockLoss_framed
  | .mpUpTimer _ => ⟨_, rfl, .ite ((portUp_only ..).widen rfl) (.refl ..)⟩
  | .mpFrameReceive _ _ => ⟨_, rfl, .ite ((frameTake_only ..).widen rfl) (.refl ..)⟩
  | .pauseExpiry _ => ⟨_, rfl, .ite ((setPort_only ..).widen rfl) (.refl ..)⟩
  | .pathDown _ _ => ⟨_, rfl, .ite ((ledger_only ..).onto rfl <| (evRaise_only ..).onto rfl <| (setRx_only ..).widen rfl) (.refl ..)⟩
  | .txLateDrop _ => execTxLateDrop_framed
  | .mpFrameDepart _ _ => execMpFrameDepart_framed
  | .ptpSync _ => ⟨_, rfl, .ite ((syncOp_only ..).widen rfl) (.refl ..)⟩
  | .ptpDelayResp _ _ _ => execPtpDelayResp_framed
  | .ptpAnnounce _ => ⟨_, rfl, .ite ((selectMaster_only ..).onto rfl <| (setPtp_only ..).widen rfl) (.refl ..)⟩
  | .ptpDelayReqSend _ _ => ⟨_, rfl, .ite ((queueTx_only ..).onto rfl (.update rfl)) (.refl ..)⟩
  | .syncTimeout => ⟨_, rfl, .ite ((freeRun_only ..).onto rfl <| (setPtp_only ..).widen rfl) (.refl ..)⟩
  | .announceTimeout => ⟨_, rfl, .ite ((selectMaster_only ..).onto rfl <| (freeRun_only ..).onto rfl <|
      (setPtp_only ..).widen rfl) (.refl ..)⟩
  | .trigFire _ => execTrigFire_framed
  | .ppsOutPulse => ⟨_, rfl, .ite ((setPin_only ..).widen rfl) (.refl ..)⟩
  | .tcapEdge _ _ _ => ⟨_, rfl, .ite (.ite ((queueOverflow_only ..).widen rfl) <| (evRaise_only ..).onto rfl <|
      (setPtp_only ..).widen rfl) (.refl ..)⟩
  | .sapFrame _ _ _ => ⟨_, rfl, .ite ((sapFrame_only ..).widen rfl) (.refl ..)⟩
  | .sapWsEdge _ _ _ => ⟨_, rfl, .ite ((wsEdge_only ..).widen rfl) (.refl ..)⟩
  | .sapLost _ => ⟨_, rfl, .ite ((groupUnderrun_only ..).onto rfl <| (ledger_only ..).onto rfl <| (evRaise_only ..).onto rfl <|
      (setSap_only ..).widen rfl) (.refl ..)⟩
  | .silNChange _ => ⟨_, rfl, (evIf_only ..).onto rfl <| .update rfl⟩
  | .monClrAssert => ⟨_, rfl, (monClr_only ..).widen rfl⟩
  | .monClrRelease => ⟨_, rfl, (monClr_only ..).widen rfl⟩
  | .monComplyTimer _ _ _ => execMonComplyTimer_framed
  | .peerAssert => execPeerAssert_framed
  | .peerReleased => ⟨_, rfl, .ite ((startDriving_only ..).onto rfl <| (setDpx_only ..).widen rfl) <| (tryClaim_only ..).onto rfl <|
      (setDpx_only ..).widen rfl⟩
  | .claimTimeout => ⟨_, rfl, .ite ((strapConflict_only ..).onto rfl <| (clearArm_only ..).widen rfl) (.refl ..)⟩
  | .commandedRelease => execCommandedRelease_framed
  | .takebackHold => ⟨_, rfl, .ite ((setDpx_only ..).widen rfl) (.refl ..)⟩
  | .flashOpDone _ _ => execFlashOpDone_framed
  | .journalPlace => ⟨_, rfl, (evIf_only ..).onto rfl <| .update rfl⟩
  | .checkpointSave => ⟨_, rfl, .update rfl⟩
  | .ledgerScanDone => ⟨_, rfl, .ite (.refl ..) <| (ledger_only ..).onto rfl <| .update rfl⟩
  | .dramTrainDone _ => execDramTrainDone_framed
  | .mr4Poll _ _ => execMr4Poll_framed
  | .refreshAccrual _ _ _ _ => execRefreshAccrual_framed
  | .scrubRead _ _ => execScrubRead_framed
  | .thermSample _ => ⟨_, rfl, (runDeferred_only ..).onto rfl <| (tripJudge_only ..).onto rfl <| (alertJudge_only ..).onto rfl <|
      (storeTj_only ..).widen rfl⟩
  | .porstNAssert => ⟨_, rfl, (setAon_only ..).onto rfl ((darkState_only ..).widen rfl)⟩
  | .mpLockGain _ => ⟨_, rfl, .ite ((setPort_only ..).widen rfl) (.refl ..)⟩
  | .lowPowerIdleReceive _ => ⟨_, rfl, .ite ((portCount_only ..).widen rfl) (.refl ..)⟩
  | .clkRateTimeout => ⟨_, rfl, (reportAll_only ..).onto rfl <| (setClk_only ..).widen rfl⟩
  | .tailReadDone _ => execTailReadDone_framed
  | .matrixLateResponse _ => ⟨_, rfl, (releaseHeld_only ..).onto rfl <| (setMtx_only ..).widen rfl⟩
  | .shadowStoreWrite _ _ => ⟨_, rfl, (shadowPut_only ..).widen rfl⟩
  | .trigPulseEnd _ => ⟨_, rfl, .ite ((setPin_only ..).widen rfl) <| .ite ((setPin_only ..).widen rfl) (.refl ..)⟩
  | .peerLowHeld => ⟨_, rfl, .ite ((setDpx_only ..).widen rfl) (.refl ..)⟩
  | .l1Exit => ⟨_, rfl, (leaveL1_only ..).widen rfl⟩
  | .dramSelfRefreshExit => ⟨_, rfl, .ite ((setDrc_only ..).widen rfl) (.refl ..)⟩
  | .jtagTapOperation _ => ⟨_, rfl, (setAon_only ..).widen rfl⟩

end

/-- Settles O12, command by command: each part that an operation of the command changes stands in the command's list. -/
theorem commandsChangeOnlyTheirParts : Obligations.CommandsChangeOnlyTheirParts := fun c _ => exec_framed c

/-- A part that `touched` does not list for a command is as it was. -/
theorem exec_same {c : Instr} {s t : State} (h : exec c s = .next t) {p : Part} (hp : p ∉ touched c) : p.same s t := by
  obtain ⟨u, hu, honly⟩ := exec_framed (s := s) c
  cases hu.symm.trans h
  exact honly.same p hp

/-- Settles O11: the frame of a command says that it completes. -/
theorem everyCommandCompletes : Obligations.EveryCommandCompletes := by
  intro c s
  obtain ⟨t, ht, -⟩ := commandsChangeOnlyTheirParts c s
  exact ⟨t, ht⟩

/-! ## The queue -/

/-- Settles O9: the queue is looked at before anything else. -/
theorem stepRunsTheFrontCommand : Obligations.StepRunsTheFrontCommand := by
  intro c cs s hfront
  simp only [step, hfront]

theorem pending_not_mem_touched (c : Instr) : Part.pending ∉ touched c := by
  have h : (touched c).all (fun p => decide (p ≠ .pending)) = true := by cases c <;> rfl
  exact fun hmem => of_decide_eq_true (List.all_eq_true.mp h _ hmem) rfl

/-- Settles O13: no command's list holds the queue. -/
theorem stepTakesExactlyTheFrontCommand : Obligations.StepTakesExactlyTheFrontCommand := by
  intro c cs s hfront
  obtain ⟨t, ht⟩ := everyCommandCompletes c { s with pending := cs }
  exact ⟨t, (stepRunsTheFrontCommand c cs s hfront).trans ht, exec_same ht (pending_not_mem_touched c)⟩

end Sys2Proof.Machine
end

section
/-! The ledger's record queue, items held too long, the state at reset, and a step with nothing waiting (R288, R363, R459, R461, R485, R487,
R519). -/

namespace Sys2Proof.Machine

/-! ## The record queue (R461, R519) -/

section
variable {g : Lgr} {r : LRec}

theorem enqueue_of_room (hroom : g.queue.length < 64) : enqueue g r = { g with queue := g.queue ++ [r] } := if_pos hroom

/-- R461: a full queue gives way to no record of a severity below 5. -/
theorem enqueue_full_minor (hfull : g.queue.length = 64) (hsev : r.sev < 5) : enqueue g r = dropRecord g :=
  (if_neg (by omega)).trans (if_neg (by omega))

theorem enqueue_full_major (hfull : g.queue.length = 64) (hsev : 5 ≤ r.sev) :
    enqueue g r = match displace r.sev g.queue with
      | some q => dropRecord { g with queue := q ++ [r] }
      | none => dropRecord g :=
  (if_neg (by omega)).trans (if_pos hsev)

end

/-- The newest record of a lower severity leaves. -/
theorem displace_newest {sev : Nat} {a b : List LRec} {x : LRec} (hx : x.sev < sev) (hb : ∀ y ∈ b, sev ≤ y.sev) :
    displace sev (a ++ x :: b) = some (a ++ b) := by
  have hidx : (a ++ x :: b).reverse.findIdx? (fun r => decide (r.sev < sev)) = some b.reverse.length := by
    have hnone : b.reverse.findIdx? (fun r => decide (r.sev < sev)) = none := by simpa [List.findIdx?_eq_none_iff] using hb
    simp [List.findIdx?_append, List.findIdx?_cons, hnone, hx]
  rw [displace, hidx]
  simp [List.eraseIdx_append_of_length_le]

theorem displace_none {sev : Nat} {q : List LRec} (h : ∀ y ∈ q, sev ≤ y.sev) : displace sev q = none := by
  have hnone : q.reverse.findIdx? (fun r => decide (r.sev < sev)) = none := by simpa [List.findIdx?_eq_none_iff] using h
  rw [displace, hnone]

theorem displace_length {sev : Nat} {q p : List LRec} (h : displace sev q = some p) : p.length + 1 = q.length := by
  unfold displace at h
  split at h
  next i hi =>
    have hlt : i < q.reverse.length := (List.findIdx?_eq_some_iff_getElem.mp hi).1
    rw [List.length_reverse] at hlt
    cases h
    rw [List.length_reverse, List.length_eraseIdx_of_lt (by simpa using hlt), List.length_reverse]
    omega
  next => cases h

theorem enqueue_full_counts {g : Lgr} (hfull : g.queue.length = 64) (r : LRec) :
    (enqueue g r).queue.length = 64 ∧ (enqueue g r).dropped = bump 32 g.dropped 1 := by
  by_cases hsev : r.sev < 5
  · rw [enqueue_full_minor hfull hsev]
    exact ⟨hfull, rfl⟩
  · rw [enqueue_full_major hfull (Nat.not_lt.mp hsev)]
    split
    next q hq =>
      have := displace_length hq
      refine ⟨?_, rfl⟩
      simp only [dropRecord, saveCkpt, List.length_append, List.length_singleton]
      omega
    next => exact ⟨hfull, rfl⟩

/-- Settles O21, by whether the queue has room, the record's severity and what there is to displace. -/
theorem ledgerQueueHoldsSixtyFour : Obligations.LedgerQueueHoldsSixtyFour := by
  refine ⟨?room, ?full, ?minor, ?displaced, ?none⟩
  case room => exact fun g r hroom => enqueue_of_room hroom
  case full => exact fun g r hfull => enqueue_full_counts hfull r
  case minor =>
    intro g r hfull hsev
    rw [enqueue_full_minor hfull hsev]
    rfl
  case displaced =>
    intro g r a x b hfull hsev hqueue hx hb
    rw [enqueue_full_major hfull hsev, hqueue, displace_newest hx hb]
    rfl
  case none =>
    intro g r hfull hsev hall
    rw [enqueue_full_major hfull hsev, displace_none hall]
    rfl

/-- A value other than the unlisted one is read back. -/
theorem smGet_set_of_ne {α : Type} [DecidableEq α] {d v : α} (hv : v ≠ d) (m : SMap α) (k : Nat) : smGet d (smSet d m k v) k = v := by
  simp [smGet, smSet, hv]

theorem ledgerBy_lgr_of_room {s : State} (hroom : s.lgr.queue.length < 64) (code sev : Nat) (host : Bool) (p1 p2 p3 : Nat) :
    (ledgerBy code sev host p1 p2 p3 s).lgr = { s.lgr with
      queue := s.lgr.queue ++ [mkRec s.lgr code sev host p1 p2 p3], seq := (s.lgr.seq + 1) % 65536 } := by
  simp only [ledgerBy, evIf_lgr, enqueue_of_room hroom]

section
variable {code subj : Nat} {s : State} {e : LimEnt} (he : smGet {} s.lgr.lim (code * 2 ^ 20 + subj) = e)
include he

/-- R519: a further event of a window is counted. -/
theorem ledgerLim_lgr_later (hwin : e.win = some (ledgerWindow s)) (sev : Nat) (ps : Nat → Nat × Nat × Nat) :
    (ledgerLim code sev subj 1 ps s).lgr =
      { s.lgr with lim := smSet {} s.lgr.lim (code * 2 ^ 20 + subj) { e with cnt := e.cnt + 1 } } := by
  subst he
  exact congrArg State.lgr ((if_neg Nat.one_ne_zero).trans (if_pos hwin))

/-- R519: the first event of a window appends the record, with the count since the last one. -/
theorem ledgerLim_first (hwin : e.win ≠ some (ledgerWindow s)) {ps : Nat → Nat × Nat × Nat} {p : Nat × Nat × Nat}
    (hp : ps (e.cnt + 1) = p) (sev : Nat) :
    ledgerLim code sev subj 1 ps s = ledger code sev p.1 p.2.1 p.2.2 { s with lgr := { s.lgr with
      lim := smSet {} s.lgr.lim (code * 2 ^ 20 + subj) { win := some (ledgerWindow s), cnt := 0 } } } := by
  subst he hp
  exact (if_neg Nat.one_ne_zero).trans (if_neg hwin)

end

/-- Settles O22: within a window the limiter counts, and past it the count is reported and starts again. -/
theorem rateLimitedRecordsComeOncePerWindow : Obligations.RateLimitedRecordsComeOncePerWindow := by
  refine ⟨?later, ?first⟩
  case later =>
    intro code sev subj ps s hwin
    rw [ledgerLim_lgr_later rfl hwin sev ps]
    refine ⟨rfl, rfl, ?_⟩
    rw [smGet_set_of_ne]
    intro hdefault
    cases (congrArg LimEnt.win hdefault).symm.trans hwin
  case first =>
    intro code sev subj ps s hwin hroom
    rw [ledgerLim_first rfl hwin rfl sev, ledger, ledgerBy_lgr_of_room (by exact hroom)]
    have hother : ({ win := some (ledgerWindow s), cnt := 0 } : LimEnt) ≠ {} := nofun
    exact ⟨rfl, smGet_set_of_ne hother s.lgr.lim (code * 2 ^ 20 + subj)⟩

/-! ## Long items (R363) -/

section
variable {slot : Nat} {i : Item} {s : State} (hi : smFind s.stw.items slot = some i)
include hi

theorem exec_svcLimit_long {c : Nat} (hst : i.st = .inService c) (hlong : i.long = false) (hlim : getReg s aSvcLim ≠ 0) :
    exec (.svcLimit slot) s =
      .next (ledger 0x0E05 3 c i.flow i.kind (evRaise aDspEvt 4 (putItem s slot { i with long := true }))) := by
  refine congrArg Host.Outcome.next ?_
  simp only [hi, hst]
  exact if_neg (not_or.mpr ⟨ne_true_of_eq_false hlong, hlim⟩)

/-- R363: once for an item, and not at all where the limit is off. -/
theorem exec_svcLimit_ignored (h : i.long = true ∨ getReg s aSvcLim = 0) : exec (.svcLimit slot) s = .next s := by
  refine congrArg Host.Outcome.next ?_
  simp only [hi]
  split
  · exact if_pos h
  · rfl

end

@[simp] theorem putItem_items (s : State) (slot : Nat) (i : Item) : (putItem s slot i).stw.items = smPut s.stw.items slot i := rfl

/-- Settles O26: an item that has been reported is marked, and a marked one is passed over. -/
theorem longItemsAreReportedOnce : Obligations.LongItemsAreReportedOnce := by
  refine ⟨?long, ?ignored, ?reset⟩
  case long =>
    intro slot i c s hi hst hlong hlim
    have hexec := exec_svcLimit_long hi hst hlong hlim
    exact ⟨hexec, _, hexec, by simp⟩
  case ignored => exact fun slot i s hi h => exec_svcLimit_ignored hi h
  case reset => rfl

/-! ## Reset (R485), and time with nothing waiting (R288, R459, R487) -/

/-- Settles O14: every field of the reset state stands at its default. -/
theorem resetMeetsTheInvariants : Obligations.ResetMeetsTheInvariants := by
  refine ⟨?modes, ?memories, ?queue⟩
  case modes => exact ⟨Nat.zero_le _, nofun, Nat.zero_le _, Nat.zero_le _, Nat.zero_le _⟩
  case memories => exact ⟨rfl, rfl, rfl, rfl⟩
  case queue => rfl

section
variable {s : State}

theorem step_nothing_waiting (h : s.pending = []) : step s = .next (idle s) := by
  simp only [step, h]

theorem idle_running (hpower : s.aon.powered = true) (hporst : s.aon.porstLow = false) : idle s = { s with
    lgr := { s.lgr with ptime := (s.lgr.ptime + 1) % 2 ^ 48 }, ptp := ptpTick s.ptp, drc := drcTick s.drc } :=
  if_pos (by simp [hpower, hporst])

theorem idle_dark (h : s.aon.powered = false ∨ s.aon.porstLow = true) : idle s = s :=
  if_neg (by rcases h with h | h <;> simp [h])

end

/-- Settles O10: an idle step advances powered time, and its frame is that of `idle`. -/
theorem stepWithNothingWaitingIsPoweredTime : Obligations.StepWithNothingWaitingIsPoweredTime := by
  refine ⟨?powered, ?dark⟩
  case powered =>
    intro s hempty hpower hporst
    refine ⟨_, step_nothing_waiting hempty, ?_, idle_only s, ?_, ?_⟩
    all_goals rw [idle_running hpower hporst]
    · rfl
    · rfl
  case dark =>
    intro s hempty hdark
    rw [step_nothing_waiting hempty, idle_dark hdark]

end Sys2Proof.Machine
end

section
/-! The byte memories, kept canonical by every operation that holds a block of theirs (R340, R341, R389): what keeps them, then the operations.
A lemma `f_memories` says that the operation `f` keeps them canonical. -/

namespace Sys2Proof.Machine

/-! ## What keeps the memories canonical -/

/-- The memories keep their contents. -/
theorem MemoriesWf.congr {s t : State} (h : MemoriesWf s)
    (he : (t.drc.mem, t.stw.itcm, t.stw.dtcm, t.stw.sram) = (s.drc.mem, s.stw.itcm, s.stw.dtcm, s.stw.sram)) : MemoriesWf t := by
  simp only [Prod.mk.injEq] at he
  obtain ⟨hmem, hitcm, hdtcm, hsram⟩ := he
  rw [MemoriesWf, hmem, hitcm, hdtcm, hsram]
  exact h

/-- Whether a list of parts holds no memory. -/
def memFree (W : List Part) : Bool := W.all (fun p => decide (p ≠ .drc) && decide (p ≠ .stw))

theorem OnlyChanges.memories {W : List Part} {s t : State} (h : OnlyChanges W s t) (hw : memFree W = true) (hs : MemoriesWf s) :
    MemoriesWf t := by
  have hout : ∀ p ∈ W, p ≠ .drc ∧ p ≠ .stw := by simpa [memFree] using hw
  have hdrc : t.drc = s.drc := h.same .drc fun hp => (hout _ hp).1 rfl
  have hstw : t.stw = s.stw := h.same .stw fun hp => (hout _ hp).2 rfl
  exact hs.congr (by rw [hdrc, hstw])

theorem ite_memories {c : Prop} [Decidable c] {s t : State} (hs : MemoriesWf s) (ht : MemoriesWf t) : MemoriesWf (if c then s else t) := by
  split <;> assumption

theorem foldl_memories {α : Type} {f : State → α → State} (hf : ∀ t a, MemoriesWf t → MemoriesWf (f t a)) {s : State} (h : MemoriesWf s)
    (l : List α) : MemoriesWf (l.foldl f s) := by
  induction l generalizing s with
  | nil => exact h
  | cons a l ih => exact ih (hf s a h)

section
variable {s : State} (h : MemoriesWf s)
include h

theorem eachObj_memories {f : Nat → State → State} (hf : ∀ o t, MemoriesWf t → MemoriesWf (f o t)) {os : List Nat} :
    MemoriesWf (eachObj f os s) := by
  induction os generalizing s with
  | nil => exact h
  | cons o os ih => exact ih (hf o s h)

theorem checked_memories {k : State} (hk : MemoriesWf k) {d : Desc} {used : List (Nat × Nat)} {limits : List (Nat × Bool)} :
    MemoriesWf (checked d used limits s k) := by
  obtain ⟨off, hbad⟩ | hrun := checked_eq_or d used limits s k
  · rw [hbad]
    exact (badField_only ..).memories rfl h
  · rwa [hrun]

/-! Changes of the blocks that hold a memory. What the change does to the memory comes first, so that `rfl` can say it of a record update. -/

theorem setDrc_memories {f : Drc → Drc} (hf : (fun x => (f x).mem) = Drc.mem) : MemoriesWf (setDrc s f) :=
  h.congr (by rw [setDrc_drc, setDrc_stw, congrFun hf s.drc])

/-- The DRAM takes contents in canonical form. -/
theorem setDrc_memories_of_wf {f : Drc → Drc} (hf : smWf 0 (f s.drc).mem = true) : MemoriesWf (setDrc s f) := by
  obtain ⟨-, hstw⟩ := h
  exact ⟨hf, hstw⟩

theorem dramPut_memories {a bs} : MemoriesWf (dramPut a bs s) := setDrc_memories_of_wf h <| smWf_writeBytes h.1 ..

theorem dramZero_memories {a n} : MemoriesWf (dramZero a n s) := setDrc_memories_of_wf h <| smWf_clearRange _ _ h.1

theorem sramPut_memories {a bs} : MemoriesWf (sramPut a bs s) := by
  obtain ⟨hmem, hitcm, hdtcm, hsram⟩ := h
  exact ⟨hmem, hitcm, hdtcm, smWf_writeBytes hsram ..⟩

theorem setCore_memories {n c} : MemoriesWf (setCore s n c) := h.congr (by rfl)

/-! ## Work items (R351 to R358) -/

theorem tickSeq_memories : MemoriesWf (tickSeq s) := h.congr (by rfl)

theorem putItem_memories {slot i} : MemoriesWf (putItem s slot i) := h.congr (by rfl)

theorem makeReady_memories {slot} : MemoriesWf (makeReady slot s) := by
  unfold makeReady
  split
  exacts [tickSeq_memories <| putItem_memories h, h]

theorem advanceFlow_memories {f} : MemoriesWf (advanceFlow f s) := by
  unfold advanceFlow
  refine ite_memories h ?_
  split
  exacts [makeReady_memories h, h]

theorem addAt_memories {slot i} : MemoriesWf (addAt slot i s) :=
  (evIf_only ..).memories rfl <| advanceFlow_memories <| tickSeq_memories <| putItem_memories h

theorem freeItem_memories {slot} : MemoriesWf (freeItem slot s) := by
  unfold freeItem
  split
  exacts [advanceFlow_memories (h.congr (by rfl)), h]

theorem rememberCore_memories {f c} : MemoriesWf (rememberCore f c s) := h.congr (by rfl)

theorem forwardItem_memories {c slot target i} : MemoriesWf (forwardItem c slot target i s) :=
  advanceFlow_memories <| addAt_memories <| rememberCore_memories h

theorem nullHandle_memories {c cause} : MemoriesWf (nullHandle c cause s) := (setGwStat_only ..).memories rfl <| h.congr (by rfl)

theorem grantTo_memories {c slot i} : MemoriesWf (grantTo c slot i s) := by
  unfold grantTo
  extract_lets s1 _ s2 s3
  have h3 : MemoriesWf s3 := (setReg_only ..).memories rfl <| (setReg_only ..).memories rfl <| (setReg_only ..).memories rfl <|
    (setReg_only ..).memories rfl <| setCore_memories <| putItem_memories h
  exact (setGwStat_only ..).memories rfl <| h3.congr (by rfl)

theorem startWait_memories {c be} : MemoriesWf (startWait c be s) := tickSeq_memories <| setCore_memories h

/-! ## Operations of the host interface (R314, R323 to R328, R360, R361) -/

theorem addOps_memories {sq earlier os} : MemoriesWf (addOps sq earlier os s) := by
  induction os generalizing earlier s with
  | nil => rwa [addOps]
  | cons o os ih =>
    rw [addOps]
    refine ite_memories (ih h) <| ite_memories ?_ (ih h)
    split
    next slot _ =>
      have h1 : MemoriesWf (sramPut (entryAddr o.tok) o.entry (addAt slot (opItem s o) s)) := sramPut_memories <| addAt_memories h
      exact ih <| h1.congr (by rfl)
    next => exact h

theorem releaseFences_memories {sq} : MemoriesWf (releaseFences sq s) := addOps_memories h

theorem endOp_memories {o status result detail unc} : MemoriesWf (endOp o status result detail unc s) :=
  releaseFences_memories <| (postCpl_only ..).memories rfl h

theorem releaseAll_memories {ns} : MemoriesWf (releaseAll ns s) := by
  induction ns generalizing s with
  | nil => exact h
  | cons n ns ih => exact ih <| releaseFences_memories h

theorem freeSlotOf_memories {slot} : MemoriesWf (freeSlotOf slot s) := releaseAll_memories <| freeItem_memories h

theorem dropOpItem_memories {tok} : MemoriesWf (dropOpItem tok s) := by
  unfold dropOpItem
  split
  exacts [freeSlotOf_memories h, h]

theorem abortQueued_memories {o} : MemoriesWf (abortQueued o s) := endOp_memories <| dropOpItem_memories h

theorem abortOne_memories {o} : MemoriesWf (abortOne o s).2.2 := by
  unfold abortOne
  split
  · exact h
  · split
    · exact abortQueued_memories h
    · split
      exacts [abortQueued_memories h, (giveNotice_only ..).memories rfl h]
    · exact h

theorem abortList_memories {os n w} : MemoriesWf (abortList os n w s).2.2 := by
  induction os generalizing n w s with
  | nil => exact h
  | cons o os ih => exact ih <| abortOne_memories h

theorem startAbort_memories {scope sq cid src} : MemoriesWf (startAbort scope sq cid src s) := by
  unfold startAbort
  extract_lets s0 r s1
  have h1 : MemoriesWf s1 := (resetMasters_only ..).memories rfl <| abortList_memories <| (commitOutcomes_only ..).memories rfl h
  exact (settleAborts_only ..).memories rfl <| h1.congr (by rfl)

theorem abortWrite_memories {v} : MemoriesWf (abortWrite v s) := ite_memories h <| startAbort_memories h

theorem flushQueued_memories {os} : MemoriesWf (flushQueued os s) := by
  induction os generalizing s with
  | nil => exact h
  | cons o os ih => exact ih <| ite_memories (endOp_memories <| dropOpItem_memories h) h

theorem sqDisableStart_memories {n tok} : MemoriesWf (sqDisableStart n tok s) := by
  unfold sqDisableStart
  refine ite_memories ((sqDisableEnd_only ..).memories rfl <| flushQueued_memories <| (setSq_only ..).memories rfl h) ?_
  split
  exacts [(report_only ..).memories rfl h, h]

theorem drainCq_memories {fuel q} : MemoriesWf (drainCq fuel q s) := by
  induction fuel generalizing s with
  | zero => rwa [drainCq]
  | succ fuel ih =>
    rw [drainCq]
    split
    · exact ite_memories (ih <| releaseFences_memories <| (writeCpl_only ..).memories rfl <| (setCq_only ..).memories rfl h)
        ((noteFull_only ..).memories rfl h)
    · exact h

theorem drainAll_memories {qs} : MemoriesWf (drainAll qs s) := by
  induction qs generalizing s with
  | nil => exact h
  | cons q qs ih => exact ih <| drainCq_memories h

theorem reportComplete_memories {core status detail} : MemoriesWf (reportComplete core status detail s) := by
  unfold reportComplete
  split
  exacts [(cplAnswer_only ..).memories rfl <| (tellAborts_only ..).memories rfl <| endOp_memories h, (refuseReport_only ..).memories rfl h]

theorem reportWithdraw_memories {core} : MemoriesWf (reportWithdraw core s).2 := by
  unfold reportWithdraw
  split
  · split
    exacts [(cplAnswer_only ..).memories rfl <| (tellAborts_only ..).memories rfl <| endOp_memories h, (cplAnswer_only ..).memories rfl h]
  · exact (refuseReport_only ..).memories rfl h

theorem endUncertain_memories {o} : MemoriesWf (endUncertain o s) := by
  unfold endUncertain
  extract_lets s1
  have h1 : MemoriesWf s1 := endOp_memories h
  exact (tellAborts_only ..).memories rfl <| (ledger_only ..).memories rfl <| (evRaise_only ..).memories rfl <| h1.congr (by rfl)

theorem resetOps_memories {os} : MemoriesWf (resetOps os s) := by
  induction os generalizing s with
  | nil => exact h
  | cons o os ih =>
    exact ih <| ite_memories ((dropOp_only ..).memories rfl h) <| ite_memories ((dropOp_only ..).memories rfl <| dropOpItem_memories h)
      ((orphanOp_only ..).memories rfl h)

theorem hostReset_memories {cause config} : MemoriesWf (hostReset cause config s) := by
  unfold hostReset
  extract_lets _ s1
  have h1 : MemoriesWf s1 := resetOps_memories h
  exact (ledger_only ..).memories rfl <| (evRaise_only ..).memories rfl <| (resetMasters_only ..).memories rfl <| (setReg_only ..).memories rfl <|
    (setReg_only ..).memories rfl <| (setReg_only ..).memories rfl <| (clearEn_only ..).memories rfl <| (setField_only ..).memories rfl <|
    h1.congr (by rfl)

theorem sqCfgWrite_memories {n v} : MemoriesWf (sqCfgWrite n v s) :=
  ite_memories h <| ite_memories (ite_memories h <| ite_memories h <| ite_memories h <| sqDisableStart_memories <| (setReg_only ..).memories rfl h) <|
    ite_memories (ite_memories ((setSq_only ..).memories rfl <| (setReg_only ..).memories rfl <|
      ite_memories ((discardHeld_only ..).memories rfl h) h) h) <|
    (setReg_only ..).memories rfl h

theorem cqCfgWrite_memories {n v} : MemoriesWf (cqCfgWrite n v s) := by
  have hset {r} : MemoriesWf (setCq (setReg s (aCq n 8) v) n r) := (setCq_only ..).memories rfl <| (setReg_only ..).memories rfl h
  exact ite_memories h <| ite_memories (ite_memories h <| ite_memories (drainAll_memories hset) <| (settleCqs_only ..).memories rfl hset) <|
    ite_memories (drainAll_memories hset) <| (setReg_only ..).memories rfl h

theorem abortGiveUp_memories {tok} : MemoriesWf (abortGiveUp tok s) := by
  unfold abortGiveUp
  split
  exacts [ite_memories (endUncertain_memories h) h, h]

theorem resumeHost_memories {fast} : MemoriesWf (resumeHost fast s) := by
  unfold resumeHost
  refine ite_memories ?_ h
  extract_lets s1
  have h1 : MemoriesWf s1 := drainAll_memories <| (flushDue_only ..).memories rfl h
  clear_value s1
  exact (sendAll_only ..).memories rfl <| h1.congr (by rfl)

theorem leaveL1_memories : MemoriesWf (leaveL1 s) := resumeHost_memories (h.congr (by rfl))

theorem pollCq_memories {n v} : MemoriesWf (pollCq n v s) :=
  ite_memories h <| ite_memories ((ringErr_only ..).memories rfl <| (setCq_only ..).memories rfl h) <| drainCq_memories <|
    (setCq_only ..).memories rfl h

theorem pollCqs_memories {page ns} : MemoriesWf (pollCqs page ns s) := by
  induction ns generalizing s with
  | nil => exact h
  | cons n ns ih => exact ih <| pollCq_memories h

theorem fetchOne_memories {n e} : MemoriesWf (fetchOne n e s) := by
  unfold fetchOne
  extract_lets r s1 o _ s2
  have h1 : MemoriesWf s1 := (setSq_only ..).memories rfl h
  have h2 : MemoriesWf s2 := h1.congr (by rfl)
  split
  exacts [endOp_memories h2, releaseFences_memories h2]

theorem fetchAll_memories {es cur} : MemoriesWf (fetchAll es cur s) := by
  induction es generalizing cur s with
  | nil => rwa [fetchAll]
  | cons e es ih =>
    cases e with
    | none => exact (evRaise_only ..).memories rfl h
    | some e =>
      have hfetch {n} : MemoriesWf (fetchOne n e { s with hif := { s.hif with rr := smSet 0 s.hif.rr (sqPrio s n) n } }) :=
        fetchOne_memories (h.congr (by rfl))
      simp only [fetchAll]
      split
      exacts [ite_memories h <| ih hfetch, h]

end

end Sys2Proof.Machine
end

section
/-! The byte memories, kept canonical by the DRAM's own operations and by those of the cistern and of the correction and the tails (R104,
R133 to R153, R389 to R411). -/

namespace Sys2Proof.Machine

section
variable {s : State} (h : MemoriesWf s)
include h

/-! ## The DRAM (R389 to R411) -/

theorem drcCtlWrite_memories {v} : MemoriesWf (drcCtlWrite v s) := by
  refine ite_memories h <| ite_memories h ?_
  have h1 : MemoriesWf (setField s aDrcCtl 1 1 (Word.bits v 1 1)) := (setField_only ..).memories rfl h
  exact ite_memories ((setField_only ..).memories rfl <| setDrc_memories h rfl) h1

theorem drcRefReadOp_memories {c} : MemoriesWf (drcRefReadOp c s) :=
  setDrc_memories (s := { s with rdata := [drcRefWord s c] }) h rfl

theorem lineRead_memories {port a l} : MemoriesWf (lineRead port a l s) := by
  unfold lineRead
  split
  · exact h
  · exact (holdLine_only ..).memories rfl <| (countCe_only ..).memories rfl h
  · exact (ledgerLim_only ..).memories rfl <| (holdLine_only ..).memories rfl <| (evRaise_only ..).memories rfl <|
      setDrc_memories ((setReg_only ..).memories rfl h) rfl

theorem readErrs_memories {port es} : MemoriesWf (readErrs port es s) := by
  induction es generalizing s with
  | nil => exact h
  | cons e es ih => exact ih <| lineRead_memories h

theorem readRuns_memories {port runs errs} : MemoriesWf (readRuns port runs errs s).1 := readErrs_memories h

theorem bestRead_memories {a n errs} : MemoriesWf (bestRead a n errs s).2.2 := by
  unfold bestRead
  extract_lets r
  split
  · exact h
  · split
    exacts [readRuns_memories h, readRuns_memories h]

theorem putPiece_memories {errs x} : MemoriesWf (putPiece errs x s).2 := by
  unfold putPiece
  extract_lets l
  split
  · exact dramPut_memories h
  · split
    exacts [dramPut_memories <| ite_memories h <| lineRead_memories h, lineRead_memories h]

theorem putPieces_memories {errs xs} : MemoriesWf (putPieces errs xs s).2 := by
  induction xs generalizing s with
  | nil => exact h
  | cons x xs ih => exact ih <| putPiece_memories h

theorem bestWrite_memories {a bs errs} : MemoriesWf (bestWrite a bs errs s).2 := by
  unfold bestWrite
  split
  exacts [h, putPieces_memories h]

theorem panicTail_memories {on} : MemoriesWf (panicTail on s) := (evIf_only ..).memories rfl <| setDrc_memories h rfl

theorem panicCis_memories {on} : MemoriesWf (panicCis on s) := (evIf_only ..).memories rfl <| setDrc_memories h rfl

theorem payExcess_memories {c lim} : MemoriesWf (payExcess c lim s) := setDrc_memories h rfl

theorem payIdle_memories {c bs} : MemoriesWf (payIdle c bs s) := setDrc_memories h rfl

theorem enterNoDram_memories {f} : MemoriesWf (enterNoDram f s) := by
  have hpanic {t : State} (ht : MemoriesWf t) : MemoriesWf (panicTail false (panicCis false t)) := panicTail_memories <| panicCis_memories ht
  unfold enterNoDram
  exact (ledger_only ..).memories rfl <| (evRaise_only ..).memories rfl <| hpanic <| setDrc_memories h rfl

theorem refillErrs_memories {es} : MemoriesWf (refillErrs es s) := by
  induction es generalizing s with
  | nil => exact h
  | cons e es ih =>
    unfold refillErrs
    split
    exacts [ih <| setDrc_memories h rfl, ih <| lineRead_memories h]

/-! ## The cistern (R97 to R104) -/

theorem writeGroups_memories {g os} : MemoriesWf (writeGroups g os s) := by
  induction os generalizing s with
  | nil => exact h
  | cons o os ih => exact ih <| dramPut_memories h

theorem settlePanic_memories : MemoriesWf (settlePanic s) := panicCis_memories h

theorem refillBlock_memories {c b o} : MemoriesWf (refillBlock c b o s) := by
  unfold refillBlock
  extract_lets ue s1
  have h1 : MemoriesWf s1 := (supplyBlock_only ..).memories rfl h
  clear_value ue
  split
  · exact (ledgerLim_only ..).memories rfl <| (evRaise_only ..).memories rfl <| (pairCount_only ..).memories rfl <| readRuns_memories h1
  · exact h1

theorem refillObj_memories {k o} : MemoriesWf (refillObj k o s) :=
  foldl_memories (fun _ _ ht => foldl_memories (fun _ _ hu => refillBlock_memories hu) ht _) h _

theorem cisternTurn_memories {k os} : MemoriesWf (cisternTurn k os s) := by
  unfold cisternTurn
  split
  · exact h
  · extract_lets s1 s2
    have h1 : MemoriesWf s1 := ite_memories (writeGroups_memories h) h
    have h2 : MemoriesWf s2 := ite_memories (settlePanic_memories <| (setPair_only ..).memories rfl h1) <|
      eachObj_memories (settlePanic_memories <| (retireFetches_only ..).memories rfl h1) fun _ _ ht => (issueFor_only ..).memories rfl ht
    exact eachObj_memories (eachObj_memories h2 fun _ _ ht => (supplyObj_only ..).memories rfl ht) fun _ _ ht => refillObj_memories ht

theorem cisternBoundary_memories {k} : MemoriesWf (cisternBoundary k s) :=
  cisternTurn_memories <| eachObj_memories h fun _ _ ht => (endTrans_only ..).memories rfl ht

/-! ## The correction and its tails (R133 to R153) -/

theorem swapSpectra_memories {o k} : MemoriesWf (swapSpectra o k s) := ite_memories h <| dramPut_memories <| dramPut_memories h

theorem endXf_memories {x} : MemoriesWf (endXf x s) :=
  (ledger_only ..).memories rfl <| (evRaise_only ..).memories rfl <| (setXf_only ..).memories rfl <| (setCor_only ..).memories rfl <|
    (setOut_only ..).memories rfl <| swapSpectra_memories h

theorem endXfs_memories {xs} : MemoriesWf (endXfs xs s) := by
  induction xs generalizing s with
  | nil => exact h
  | cons x xs ih => exact ih <| endXf_memories h

theorem switchBoundary_memories {k} : MemoriesWf (switchBoundary k s) :=
  (setCor_only ..).memories rfl <| endXfs_memories <| (commitSwitches_only ..).memories rfl h

theorem zeroTail_memories {n o} : MemoriesWf (zeroTail n o s) := by
  unfold zeroTail
  extract_lets _ s1
  have h1 : MemoriesWf s1 := (setCor_only ..).memories rfl <| (setOut_only ..).memories rfl h
  exact ite_memories h1 <| dramZero_memories h1

theorem clearOut_memories {n o} : MemoriesWf (clearOut n o s) :=
  zeroTail_memories <| (setCor_only ..).memories rfl <| (setOut_only ..).memories rfl h

theorem startTails_memories {n old new} : MemoriesWf (startTails n old new s) :=
  eachObj_memories h fun _ _ ht => ite_memories (zeroTail_memories ht) ht

theorem newReservations_memories {k} : MemoriesWf (newReservations k s) := by
  unfold newReservations
  split
  exacts [ite_memories (startTails_memories h) <| ite_memories (startTails_memories h) h, h]

theorem writeInGroups_memories {g} : MemoriesWf (writeInGroups g s) :=
  eachObj_memories h fun _ _ ht => ite_memories (dramPut_memories ht) ht

theorem settleTail_memories : MemoriesWf (settleTail s) := panicTail_memories h

theorem tailBoundary_memories {k} : MemoriesWf (tailBoundary k s) := by
  unfold tailBoundary
  extract_lets s1 s2
  have h1 : MemoriesWf s1 := ite_memories (writeInGroups_memories h) h
  have h2 : MemoriesWf s2 := ite_memories ((issueTail_only ..).memories rfl h1) h1
  exact ite_memories ((setCor_only ..).memories rfl h) <| settleTail_memories <| (setCor_only ..).memories rfl h2

theorem chainOp_memories {o b tm c addr outA own obs} : MemoriesWf (chainOp o b tm c addr outA own obs s) := by
  unfold chainOp
  extract_lets rd v f r xb late z t miss s1 s2
  have hrd : MemoriesWf rd.1 := readRuns_memories h
  have h1 : MemoriesWf s1 := (frameErrs_only ..).memories rfl <| ite_memories (dramPut_memories hrd) hrd
  have h2 : MemoriesWf s2 := (corClip_only ..).memories rfl <| dramPut_memories h1
  exact ite_memories ((tailMiss_only ..).memories rfl h2) h2

theorem chainPanic_memories {src obs} : MemoriesWf (chainPanic src obs s) :=
  ite_memories (settleTail_memories <| (setCor_only ..).memories rfl h) h

theorem tailUnit_memories {u i b m obs} : MemoriesWf (tailUnit u i b m obs s) := by
  unfold tailUnit
  split
  · exact ite_memories (chainOp_memories h) h
  · split
    exacts [ite_memories (chainOp_memories h) h, h]

theorem dropStage_memories {x} : MemoriesWf (dropStage x s) := by
  unfold dropStage
  extract_lets s1 s2
  have h1 : MemoriesWf s1 := (setCor_only ..).memories rfl h
  have h2 : MemoriesWf s2 := h1.congr (by rfl)
  exact ite_memories h2 <| dramPut_memories <| (draw_only ..).memories rfl h2

theorem moveLane_memories {x l} : MemoriesWf (moveLane x l s) := by
  unfold moveLane
  extract_lets s1
  have h1 : MemoriesWf s1 := (setCor_only ..).memories rfl h
  exact ite_memories h1 <| dramPut_memories h1

theorem assignLanes_memories {xs} : MemoriesWf (assignLanes xs s) := by
  induction xs generalizing s with
  | nil => exact h
  | cons x xs ih => exact ih <| ite_memories h <| moveLane_memories h

theorem storeParts_memories {k taps ps} : MemoriesWf (storeParts k taps ps s) := by
  induction ps generalizing s with
  | nil => exact h
  | cons p ps ih => exact ih <| dramPut_memories h

theorem stageOp_memories {d bq hd tl} : MemoriesWf (stageOp d bq hd tl s) := by
  unfold stageOp
  extract_lets _ _ _ _ s1 _
  have h1 : MemoriesWf s1 := ite_memories (storeParts_memories h) h
  exact (setCor_only ..).memories rfl h1

theorem zeroOut_memories {o} : MemoriesWf (zeroOut o s) := by
  unfold zeroOut
  extract_lets ob s1
  have h1 : MemoriesWf s1 := (setOut_only ..).memories rfl h
  split
  exacts [h1, dramZero_memories h1]

theorem zeroOuts_memories {os} : MemoriesWf (eachObj zeroOut os s) := eachObj_memories h fun _ _ ht => zeroOut_memories ht

theorem setObjects_memories {obj} : MemoriesWf { s with obj := obj } := h.congr (by rfl)

theorem zeroChains_memories : MemoriesWf (zeroChains s) := by
  unfold zeroChains
  extract_lets s1 s2
  have h1 : MemoriesWf s1 := zeroOuts_memories <| (setCor_only ..).memories rfl h
  have h2 : MemoriesWf s2 := by
    clear_value s1
    exact ite_memories h1 <| dramZero_memories h1
  exact setObjects_memories h2

theorem startActivate_memories {a} : MemoriesWf (startActivate a s) :=
  (report_only ..).memories rfl <| (becomeActive_only ..).memories rfl <| (setRender_only ..).memories rfl <| (newFades_only ..).memories rfl <|
    (newRun_only ..).memories rfl <| (setSch_only ..).memories rfl <| (exchange_only ..).memories rfl <| zeroChains_memories <|
    (zeroPair_only ..).memories rfl h

theorem armedBoundary_memories {k} : MemoriesWf (armedBoundary k s) := by
  unfold armedBoundary
  split
  · exact h
  · split
    exacts [ite_memories (startActivate_memories h) h, ite_memories ((stopComplete_only ..).memories rfl h) h,
      ite_memories ((restartActivate_only ..).memories rfl h) h]

end

end Sys2Proof.Machine
end

section
/-! The byte memories, kept canonical by the operations of the stewards, of the fabric and the media ports that hand frames to them, and of
the capture (R220, R276, R344 to R365, R434). -/

namespace Sys2Proof.Machine

section
variable {s : State} (h : MemoriesWf s)
include h

/-! ## Frames for the stewards (R220, R276, R356) -/

theorem stewardFrame_memories {flow prio kind src param frame trail} : MemoriesWf (stewardFrame flow prio kind src param frame trail s) := by
  unfold stewardFrame
  refine ite_memories ((ledgerLim_only ..).memories rfl <| (evRaise_only ..).memories rfl <| h.congr (by rfl)) ?_
  split
  · exact (ledgerLim_only ..).memories rfl <| (evRaise_only ..).memories rfl <| h.congr (by rfl)
  · exact addAt_memories <| sramPut_memories <| (draw_only ..).memories rfl <| h.congr (by rfl)

theorem fabricFrame_memories {l disc p} : MemoriesWf (fabricFrame l disc p s).2 := stewardFrame_memories h

theorem deliverMgmt_memories {l src p} : MemoriesWf (deliverMgmt l src p s) :=
  ite_memories ((mgmtTake_only ..).memories rfl <| fabricFrame_memories h) <| fabricFrame_memories h

theorem deliver_memories {l cycle hd b whole} : MemoriesWf (deliver l cycle hd b whole s) := by
  unfold deliver
  extract_lets
  split
  exacts [(importObj_only ..).memories rfl h, (importPsum_only ..).memories rfl h, (importOut_only ..).memories rfl h,
    ite_memories (deliverMgmt_memories h) h]

theorem deliverQueue_memories {l cycle hd b whole slip} : MemoriesWf (deliverQueue l cycle hd b whole slip s) := by
  unfold deliverQueue
  split
  exacts [ite_memories (deliver_memories <| (linkSlip_only ..).memories rfl h) <| deliver_memories h, deliver_memories h]

theorem routeCaravan_memories {l cycle hd b whole slip} : MemoriesWf (routeCaravan l cycle hd b whole slip s) := by
  unfold routeCaravan
  split
  · exact h
  · refine ite_memories ((dropCaravan_only ..).memories rfl h) ?_
    extract_lets s2 _ s3
    have h3 : MemoriesWf s3 := (forwardOn_only ..).memories rfl <| ite_memories ((linkCount_only ..).memories rfl h) h
    exact ite_memories (deliverQueue_memories h3) h3

theorem discReceive_memories {l b whole} : MemoriesWf (discReceive l b whole s) := by
  unfold discReceive
  extract_lets
  refine ite_memories (ite_memories ?_ h) <| ite_memories ((forwardTo_only ..).memories rfl h) <| (dropCaravan_only ..).memories rfl h
  exact ite_memories ((discTarget_only ..).memories rfl <| fabricFrame_memories h) <| fabricFrame_memories h

theorem takeCaravan_memories {l cycle hd b whole slip} : MemoriesWf (takeCaravan l cycle hd b whole slip s) := by
  unfold takeCaravan
  extract_lets s
  have hs : MemoriesWf s := (hearFrame_only ..).memories rfl h
  exact ite_memories ((dropCaravan_only ..).memories rfl hs) <|
    ite_memories (ite_memories (ite_memories ((dpxFrameReceive_only ..).memories rfl hs) hs) <|
    (dropCaravan_only ..).memories rfl hs) <| ite_memories ((dropCaravan_only ..).memories rfl hs) <| ite_memories (discReceive_memories hs) <|
    routeCaravan_memories hs

theorem toSteward_memories {n f e i} : MemoriesWf (toSteward n f e i s) :=
  ite_memories ((afinalFrame_only ..).memories rfl <| stewardFrame_memories h) <| stewardFrame_memories h

theorem classify_memories {n f e} : MemoriesWf (classify n f e s) := by
  have herr {k} : MemoriesWf (rxErr n k s) := (rxErr_only ..).memories rfl h
  refine ite_memories herr <| ite_memories herr <| ite_memories (toSteward_memories h) <| ite_memories herr <|
    ite_memories (toSteward_memories h) <| ite_memories herr ?_
  split
  exacts [(rxPacket_only ..).memories rfl h, toSteward_memories h]

theorem frameTake_memories {n f} : MemoriesWf (frameTake n f s) := by
  unfold frameTake
  extract_lets _ _ s1
  have h1 : MemoriesWf s1 := (portCorrected_only ..).memories rfl <| (portCount_only ..).memories rfl h
  have herr {k} : MemoriesWf (rxErr n k s1) := (rxErr_only ..).memories rfl h1
  exact ite_memories herr <| ite_memories herr <| ite_memories herr <| ite_memories herr <| ite_memories herr <|
    ite_memories ((macControl_only ..).memories rfl h1) <| classify_memories h1

/-! ## Capture and a tranche's audio (R433, R434) -/

theorem captureWrite_memories {space a bs} : MemoriesWf (captureWrite space a bs s) := by
  unfold captureWrite
  extract_lets
  split
  · exact ite_memories (sramPut_memories h) <| (mtxError_only ..).memories rfl h
  · exact ite_memories (bestWrite_memories h) <| (mtxError_only ..).memories rfl <| bestWrite_memories h
  · exact (hostWrite_only ..).memories rfl h

theorem captureWrites_memories {space ws} : MemoriesWf (captureWrites space ws s) := by
  induction ws generalizing s with
  | nil => exact h
  | cons w ws ih => exact ih <| captureWrite_memories h

theorem captureFlush_memories {q} : MemoriesWf (captureFlush q s) := by
  induction q generalizing s with
  | nil => exact (setLau_only ..).memories rfl h
  | cons q qs ih => exact ite_memories (ih <| captureWrites_memories h) <| (setLau_only ..).memories rfl h

theorem captureTranche_memories {n} : MemoriesWf (captureTranche n s) := by
  unfold captureTranche
  extract_lets _ _ _ _ held full t s1
  have ht : MemoriesWf t := (setLau_only ..).memories rfl h
  have h1 : MemoriesWf s1 := ite_memories ((captureDrop_only ..).memories rfl h) <|
    ite_memories ((setLau_only ..).memories rfl ht) <| captureWrites_memories ht
  exact ite_memories ((captureEnd_only ..).memories rfl h1) h1

theorem captureBoundary_memories {k} : MemoriesWf (captureBoundary k s) := by
  unfold captureBoundary
  extract_lets s0 s1 s2
  have h0 : MemoriesWf s0 := captureFlush_memories <| (capUpTo_only ..).memories rfl h
  have h1 : MemoriesWf s1 := by
    unfold s1
    split
    exacts [ite_memories (captureTranche_memories h0) h0, h0]
  have h2 : MemoriesWf s2 := (setLau_only ..).memories rfl h1
  split
  · exact ite_memories ((evRaise_only ..).memories rfl <| (reportAll_only ..).memories rfl <| (setLau_only ..).memories rfl h2) <|
      ite_memories ((reportAll_only ..).memories rfl <| (setLau_only ..).memories rfl h2) h2
  · exact h2

theorem audioBoundary_memories {k} : MemoriesWf (audioBoundary k s) :=
  (monTick_only ..).memories rfl <| (setLau_only ..).memories rfl <| (stimBoundary_only ..).memories rfl <| captureBoundary_memories <|
    (busAll_only ..).memories rfl h

/-! ## Cores, heartbeats and the get-work interface (R344 to R365) -/

theorem settleAlive_memories : MemoriesWf (settleAlive s) := by
  unfold settleAlive
  refine ite_memories (h.congr (by rfl)) ?_
  extract_lets _ s1 s2
  have h1 : MemoriesWf s1 := h.congr (by rfl)
  have h2 : MemoriesWf s2 := (ledger_only ..).memories rfl <| (evRaise_only ..).memories rfl h1
  exact ite_memories (ite_memories ((deviceFault_only ..).memories rfl h2) h2) h1

theorem heartbeatOp_memories {c} : MemoriesWf (heartbeatOp c s) := settleAlive_memories <| h.congr (by rfl)

theorem heartbeatTurn_memories {c} : MemoriesWf (heartbeatTurn c s) := (remoteReturns_only ..).memories rfl <| heartbeatOp_memories h

theorem badHandleAt_memories : MemoriesWf (badHandleAt s) := (evRaise_only ..).memories rfl <| h.congr (by rfl)

theorem dspDone_memories {c v} : MemoriesWf (dspDone c v s) := by
  unfold dspDone
  extract_lets
  split
  exacts [ite_memories (freeSlotOf_memories <| rememberCore_memories h) <| badHandleAt_memories h, badHandleAt_memories h]

theorem dspFwd_memories {c v} : MemoriesWf (dspFwd c v s) := by
  unfold dspFwd
  extract_lets
  split
  exacts [forwardItem_memories h, badHandleAt_memories h]

theorem dspAdd_memories {c v} : MemoriesWf (dspAdd c v s) := by
  unfold dspAdd
  extract_lets
  refine ite_memories h <| ite_memories ((addResult_only ..).memories rfl h) <| ite_memories ((addResult_only ..).memories rfl h) ?_
  split
  exacts [(addResult_only ..).memories rfl <| addAt_memories h, (addResult_only ..).memories rfl h]

theorem silence_memories {mask ns} : MemoriesWf (silence mask ns s) := by
  induction ns generalizing s with
  | nil => exact h
  | cons n ns ih => exact ih <| ite_memories (setCore_memories h) h

theorem runCores_memories {r range cs} : MemoriesWf (runCores r range cs s) := by
  induction cs generalizing s with
  | nil => exact h
  | cons c cs ih => exact ih <| (setField_only ..).memories rfl <| setCore_memories h

theorem startStop_memories {cores tok start} : MemoriesWf (startStop cores tok start s) := by
  unfold startStop
  extract_lets s1
  have h1 : MemoriesWf s1 := foldl_memories (fun _ _ ht => (setField_only ..).memories rfl ht) h _
  exact h1.congr (by rfl)

/-- Firmware is written into memories that stay canonical; its version is no memory. -/
theorem loadUser_memories {b cs v} : MemoriesWf { s with stw := { loadCores b cs s.stw with userVer := v } } := by
  obtain ⟨hmem, hcores⟩ := h
  exact ⟨hmem, loadCores_wf b cs hcores⟩

theorem startUser_memories {cores} : MemoriesWf (startUser cores s) := by
  unfold startUser
  split
  exacts [runCores_memories <| loadUser_memories h, h]

theorem clearGrants_memories {cs : List Nat} : MemoriesWf (cs.foldl (fun t c => setCore t c { core t c with grants := 0 }) s) :=
  foldl_memories (fun _ _ ht => setCore_memories ht) h cs

theorem setStewardCounts_memories {i b d l} :
    MemoriesWf { s with stw := { s.stw with rxNoItem := i, rxNoBuf := b, badHandle := d, itemLost := l } } := h.congr (by rfl)

theorem clearStw_memories : MemoriesWf (clearStw s) := setStewardCounts_memories <| clearGrants_memories h

theorem deliverCore_memories {t src} : MemoriesWf (deliverCore t src s) := by
  unfold deliverCore
  extract_lets _ s1
  have h1 : MemoriesWf s1 := h.congr (by rfl)
  exact ite_memories (nullHandle_memories h1) h1

/-! ## Operations withdrawn and cores halted (R325, R361, R364) -/

theorem withdrawRest_memories {tok} : MemoriesWf (withdrawRest tok s) :=
  (setFab_only ..).memories rfl <| (setClk_only ..).memories rfl <| foldl_memories (fun _ _ ht => dropStage_memories ht)
    ((withdrawLoad_only ..).memories rfl h) _

theorem withdrawTok_memories {tok} : MemoriesWf (withdrawTok tok s) := withdrawRest_memories <| (withdrawKeyed_only ..).memories rfl h

theorem leaveKeyed_memories {tok} : MemoriesWf (leaveKeyed tok s) := (leaveKeyed_only ..).memories rfl h

theorem ownerSilent_memories {tok} : MemoriesWf (ownerSilent tok s) := by
  unfold ownerSilent
  extract_lets s
  have hs : MemoriesWf s := (commitOutcomes_only ..).memories rfl h
  split
  exacts [ite_memories (leaveKeyed_memories <| withdrawRest_memories <| abortGiveUp_memories hs) hs, hs]

theorem loseItem_memories {slot i} : MemoriesWf (loseItem slot i s) := by
  unfold loseItem
  extract_lets s _ s1
  have hs : MemoriesWf s := (commitOutcomes_only ..).memories rfl h
  have h1 : MemoriesWf s1 := freeSlotOf_memories <| hs.congr (by rfl)
  split
  exacts [ite_memories (endUncertain_memories h1) <| leaveKeyed_memories <| withdrawRest_memories <| endUncertain_memories h1, h1]

theorem loseItems_memories {es} : MemoriesWf (loseItems es s) := by
  induction es generalizing s with
  | nil => exact h
  | cons e es ih => exact ih <| loseItem_memories h

theorem haltCores_memories {cores} : MemoriesWf (haltCores cores s) := by
  unfold haltCores
  extract_lets _ s1 s2 _ s3
  have h1 : MemoriesWf s1 := loseItems_memories h
  have h2 : MemoriesWf s2 := foldl_memories (fun _ _ ht => setCore_memories ht) h1 _
  have h3 : MemoriesWf s3 := (resetMasters_only ..).memories rfl <| h2.congr (by rfl)
  exact ite_memories h3 <| (ledger_only ..).memories rfl <| (evRaise_only ..).memories rfl h3

/-! ## Warm resets and the thermal trip (R470, R486) -/

/-- The stewards' memories outlast a warm reset. -/
theorem warmControl_memories : MemoriesWf (warmControl s) := h

theorem warmRender_memories : MemoriesWf (warmRender s) := h.congr (by rfl)

theorem dropOps_memories : MemoriesWf (dropOps s) := by
  unfold dropOps
  extract_lets s1 _ s2
  have h1 : MemoriesWf s1 := foldl_memories (fun _ _ ht => withdrawTok_memories ht) h _
  have h2 : MemoriesWf s2 := (settleAborts_only ..).memories rfl <| h1.congr (by rfl)
  exact h2.congr (by rfl)

theorem warmAssert_memories {cause} : MemoriesWf (warmAssert cause s) := by
  unfold warmAssert
  extract_lets _ s1 s2 s3 s4
  have h1 : MemoriesWf s1 := (ledger_only ..).memories rfl <| (evRaise_only ..).memories rfl h
  have h2 : MemoriesWf s2 := hostReset_memories <| (warmRegs_only ..).memories rfl h1
  have h3 : MemoriesWf s3 := (warmInterlock_only ..).memories rfl <| (warmTime_only ..).memories rfl <| warmControl_memories <|
    warmRender_memories <| dropOps_memories h2
  have h4 : MemoriesWf s4 := (setField_only ..).memories rfl h3
  clear_value s4
  exact (monSettleAll_only ..).memories rfl <| (setAon_only ..).memories rfl <| h4.congr (by rfl)

theorem warmRequest_memories {cause} : MemoriesWf (warmRequest cause s) :=
  ite_memories h <| ite_memories ((setAon_only ..).memories rfl h) <| warmAssert_memories h

theorem wrstWrite_memories {v svc} : MemoriesWf (wrstWrite v svc s) := ite_memories (warmRequest_memories h) h

theorem tripActions_memories {tj} : MemoriesWf (tripActions tj s) :=
  (monSettleAll_only ..).memories rfl <| (deviceFault_only ..).memories rfl <| (ledger_only ..).memories rfl <| (evRaise_only ..).memories rfl <|
    (setAon_only ..).memories rfl <| h.congr (by rfl)

theorem tripJudge_memories {tj} : MemoriesWf (tripJudge tj s) := by
  unfold tripJudge
  extract_lets _ s1
  have h1 : MemoriesWf s1 := (setAon_only ..).memories rfl h
  exact ite_memories (tripActions_memories h1) h1

theorem runDeferred_memories : MemoriesWf (runDeferred s) := by
  unfold runDeferred
  split
  exacts [ite_memories h <| warmAssert_memories h, h]

end

/-- Power has been away: every memory is empty (R485). -/
theorem darkState_memories {s : State} : MemoriesWf (darkState s) := ⟨rfl, rfl, rfl, rfl⟩

end Sys2Proof.Machine
end

section
/-! The byte memories, kept canonical by register writes and windows and by a tranche's boundary (R17, R335, R379 to R386). -/

namespace Sys2Proof.Machine

section
variable {s : State} (h : MemoriesWf s)
include h

/-! ## Reads (R129, R163, R304, R477) -/

theorem readReg_memories {a} : MemoriesWf (readReg a s) := by
  unfold readReg
  refine ite_memories (ite_memories (((draw_only s).memories rfl h).congr (by rfl)) (h.congr (by rfl))) ?_
  refine ite_memories ((thermReadOp_only ..).memories rfl h) <| ite_memories ((irqStatReadOp_only ..).memories rfl h) <|
    ite_memories ((cisStatReadOp_only ..).memories rfl h) <| ite_memories ((corStatReadOp_only ..).memories rfl h) <|
    ite_memories ((timeReadOp_only ..).memories rfl h) <| ite_memories ((tcapPopOp_only ..).memories rfl h) <|
    ite_memories ((splitRead_only ..).memories rfl h) <| ite_memories ((ptimeReadOp_only ..).memories rfl h) <|
    ite_memories ((recAdvance_only ..).memories rfl h) <| ite_memories ((recAdvance_only ..).memories rfl h) ?_
  split
  exacts [(rptPopOp_only ..).memories rfl h, drcRefReadOp_memories h, h.congr (by rfl)]

theorem readWord_memories {a} : MemoriesWf (readWord a s).2 := (readReg_memories h (a := a)).congr (by rfl)

theorem svcWords_memories {n a} : MemoriesWf (svcWords n a s).2 := by
  induction n generalizing a s with
  | zero => exact h
  | succ n ih =>
    unfold svcWords
    extract_lets r t
    have hr : MemoriesWf r.2 := by
      unfold r
      split
      exacts [readWord_memories h, h]
    exact ih hr

/-! ## Register writes (R9 to R11) -/

theorem coreFault_memories {m a} : MemoriesWf (coreFault m a s) := by
  unfold coreFault
  split
  exacts [ite_memories (setCore_memories h) h, h]

theorem writeError_memories {code m a} : MemoriesWf (writeError code m a s) := coreFault_memories <| (mtxError_only ..).memories rfl h

theorem actWrite_memories {m a v} {t : State} (ht : actWrite m a v s = some t) : MemoriesWf t := by
  unfold actWrite at ht
  split_ifs at ht
  rotate_right
  · split at ht <;> cases ht
    exacts [sqCfgWrite_memories h, cqCfgWrite_memories h, (segPushOp_only ..).memories rfl h]
  all_goals cases ht
  exacts [abortWrite_memories h, wrstWrite_memories h, (kickOp_only ..).memories rfl h, (bootWrite_only ..).memories rfl h,
    (evrCfgWrite_only ..).memories rfl h, h, drcCtlWrite_memories h, (armWriteOp_only ..).memories rfl h, (setAddress_only ..).memories rfl h, h]

theorem stwWrite_memories {m a v} {t : State} (ht : stwWrite m a v s = some t) : MemoriesWf t := by
  unfold stwWrite at ht
  split_ifs at ht <;> cases ht
  · split
    exacts [ite_memories (heartbeatTurn_memories h) h, h]
  exacts [settleAlive_memories <| (plainWrite_only ..).memories rfl h, h, h]

theorem sramLine_memories {array line b symbols} : MemoriesWf (sramLine array line b symbols s).2.2 := by
  unfold sramLine
  split
  exacts [h, (sramCe_only ..).memories rfl h, (sramUe_only ..).memories rfl h]

theorem targetRead_memories {m a symbols} : MemoriesWf (targetRead m a symbols s).2.2 := by
  unfold targetRead
  extract_lets
  split
  exacts [readWord_memories h, sramLine_memories h, (draw_only ..).memories rfl h, h, sramLine_memories h, bestRead_memories h]

theorem targetWrite_memories {m a v be symbols} : MemoriesWf (targetWrite m a v be symbols s).2 := by
  unfold targetWrite
  extract_lets
  split
  exacts [ite_memories h <| (shadowPut_only ..).memories rfl h, sramPut_memories h, bestWrite_memories h, h]

theorem targetUe_memories {m a} : MemoriesWf (targetUe m a s) := by
  unfold targetUe
  split
  exacts [(sramUe_only ..).memories rfl h, (sramUe_only ..).memories rfl h, lineRead_memories h, h]

/-! ## The stewards' local space (R340, R341, R351, R360) -/

theorem portWrite_memories {c off v} : MemoriesWf (portWrite c off v s) := by
  unfold portWrite
  refine ite_memories (dspDone_memories h) <| ite_memories (dspFwd_memories h) <| ite_memories (dspAdd_memories h) <| ite_memories h ?_
  split
  exacts [(plainWrite_only ..).memories rfl h, h]

/-- R360: a report of an owner; `undo` withdraws what the operation has armed. -/
theorem cplReport_memories {undo : Nat → State → State} (hundo : ∀ tok t, MemoriesWf t → MemoriesWf (undo tok t)) {c : Nat} {cmd : Word} :
    MemoriesWf (cplReport undo c cmd s) := by
  unfold cplReport
  extract_lets s1
  have h1 : MemoriesWf s1 := (commitOutcomes_only ..).memories rfl h
  refine ite_memories h1 ?_
  split
  · exact (reportCommit_only ..).memories rfl h1
  · exact reportComplete_memories h1
  · have hwithdrawn : MemoriesWf (reportWithdraw c s1).2 := reportWithdraw_memories h1
    split <;> rename_i hreport <;> rw [hreport] at hwithdrawn
    exacts [hundo _ _ hwithdrawn, hwithdrawn]

theorem cplWrite_memories {c off v} : MemoriesWf (cplWrite c off v s) := by
  unfold cplWrite
  refine ite_memories (cplReport_memories h fun _ _ ht => withdrawTok_memories ht) ?_
  split
  exacts [(plainWrite_only ..).memories rfl h, h]

theorem itcmPut_memories {c a v be} : MemoriesWf { s with stw := { s.stw with itcm := tcmPut c a v be s.stw.itcm } } := by
  obtain ⟨hmem, hitcm, hdtcm, hsram⟩ := h
  exact ⟨hmem, smWf_writeBytes hitcm .., hdtcm, hsram⟩

theorem dtcmPut_memories {c a v be} : MemoriesWf { s with stw := { s.stw with dtcm := tcmPut c a v be s.stw.dtcm } } := by
  obtain ⟨hmem, hitcm, hdtcm, hsram⟩ := h
  exact ⟨hmem, hitcm, smWf_writeBytes hdtcm .., hsram⟩

theorem localWrite_memories {c a v be} : MemoriesWf (localWrite c a v be s) :=
  ite_memories (itcmPut_memories h) <| ite_memories (dtcmPut_memories h) <|
    ite_memories (ite_memories (portWrite_memories h) h) <| ite_memories (ite_memories (cplWrite_memories h) h) <| coreFault_memories h

/-! ## Windows and the matrix (R335, R379 to R386)

A write through a register window can itself start a window's access: `win` and `write` stand for what the inner one does. -/

theorem blockWrite_memories {win : Bool → Word → State → State} (hwin : ∀ b v t, MemoriesWf t → MemoriesWf (win b v t)) {m a v be} :
    MemoriesWf (blockWrite win m a v be s) := by
  unfold blockWrite
  refine ite_memories h ?_
  split
  · exact h
  · refine ite_memories (hwin _ _ _ h) <| ite_memories (hwin _ _ _ h) ?_
    split
    next ht => exact actWrite_memories h ht
    next ht => exact (irqWrite_only ht).memories rfl h
    next ht => exact stwWrite_memories h ht
    next => exact (plainWrite_only ..).memories rfl h

theorem writeNow_memories {win : Bool → Word → State → State} (hwin : ∀ b v t, MemoriesWf t → MemoriesWf (win b v t)) {m a v be} :
    MemoriesWf (writeNow win m a v be s) :=
  ite_memories (writeError_memories h) <| ite_memories (writeError_memories h) <| ite_memories (blockWrite_memories h hwin) <|
    ite_memories (targetWrite_memories h) <| writeError_memories <| targetWrite_memories h

theorem regWriteWith_memories {win : Bool → Word → State → State} (hwin : ∀ b v t, MemoriesWf t → MemoriesWf (win b v t)) {m a v be} :
    MemoriesWf (regWriteWith win m a v be s) := by
  unfold regWriteWith
  split
  exacts [ite_memories (localWrite_memories h) h, ite_memories ((holdReq_only ..).memories rfl h) <| writeNow_memories h hwin]

section
variable {write : Master → Nat → Word → State → State} (hwrite : ∀ m a v t, MemoriesWf t → MemoriesWf (write m a v t))
include hwrite

theorem winTarget_memories {svc t data symbols} : MemoriesWf (winTarget write svc t data symbols s) :=
  ite_memories
    (ite_memories ((winEnd_only ..).memories rfl <| hwrite _ _ _ _ h) <| (winEnd_only ..).memories rfl <|
      ite_memories (targetWrite_memories h) <| (mtxError_only ..).memories rfl <| targetWrite_memories h) <|
    (winEnd_only ..).memories rfl <| ite_memories (targetRead_memories h) <| (mtxError_only ..).memories rfl <| targetRead_memories h

theorem winAccess_memories {svc t data ans} : MemoriesWf (winAccess write svc t data ans s) := by
  unfold winAccess
  refine ite_memories ((winEnd_only ..).memories rfl <| (mtxError_only ..).memories rfl h) ?_
  split
  · exact winTarget_memories h hwrite
  · exact winTarget_memories h hwrite
  · exact (winEnd_only ..).memories rfl <| (mtxError_only ..).memories rfl <| targetUe_memories h
  · exact (setMtx_only ..).memories rfl h

theorem winGoWith_memories {svc ctl ans} : MemoriesWf (winGoWith write svc ctl ans s) := by
  have hbusy : MemoriesWf (setReg s (winCtl svc) (wNat (2 ^ 31 + 1))) := (setReg_only ..).memories rfl h
  exact ite_memories h <| ite_memories ((holdReq_only ..).memories rfl hbusy) <| winAccess_memories hbusy hwrite

end

theorem blockWriteNone_memories {m a v} : MemoriesWf (blockWriteNone m a v s) := blockWrite_memories h fun _ _ _ ht => ht

theorem blockWriteInner_memories {m a v} : MemoriesWf (blockWriteInner m a v s) :=
  blockWrite_memories h fun _ _ _ ht => winGoWith_memories ht fun _ _ _ _ hu => blockWriteNone_memories hu

theorem winGo_memories {svc ctl ans} : MemoriesWf (winGo svc ctl ans s) :=
  winGoWith_memories h fun _ _ _ _ ht => blockWriteInner_memories ht

theorem regWrite_memories {m a v be} : MemoriesWf (regWrite m a v be s) := regWriteWith_memories h fun _ _ _ ht => winGo_memories ht

theorem performHeld_memories {r : HeldReq} : MemoriesWf (performHeld r s) := by
  unfold performHeld
  split
  · exact ite_memories (winAccess_memories h fun _ _ _ _ ht => blockWriteInner_memories ht) h
  · exact writeNow_memories h fun _ _ _ ht => winGo_memories ht

theorem releaseList_memories {rs kept : List HeldReq} : MemoriesWf (releaseList rs kept s) := by
  induction rs generalizing kept s with
  | nil => exact (setMtx_only ..).memories rfl h
  | cons r rs ih => exact ite_memories (ih h) <| ih <| performHeld_memories h

theorem releaseHeld_memories : MemoriesWf (releaseHeld s) := releaseList_memories <| (setMtx_only ..).memories rfl h

theorem svcStore_memories {bs : List (List Byte)} {a : Nat} : MemoriesWf (svcStore bs a s) := by
  induction bs generalizing a s with
  | nil => exact h
  | cons b bs ih => exact ih <| ite_memories (regWrite_memories h) h

/-! ## Tranche boundaries (R17, R190) -/

theorem applyStage_memories {k} : MemoriesWf (applyStage k s) := by
  unfold applyStage
  split
  exacts [(applyKernel_only ..).memories rfl h, (applySluice_only ..).memories rfl h, (applyMeter_only ..).memories rfl h,
    foldl_memories (fun _ _ ht => clearOut_memories ht) h _, (applyRxMap_only ..).memories rfl h, h]

theorem applyAll_memories {ks} : MemoriesWf (applyAll ks s) := by
  induction ks generalizing s with
  | nil => exact h
  | cons k ks ih => exact ih <| applyStage_memories <| (applyTable_only ..).memories rfl h

theorem takeStage_memories {n stage} : MemoriesWf (takeStage n stage s) := (dropKeyed_only ..).memories rfl <| applyAll_memories h

theorem cutoff_memories {n} : MemoriesWf (cutoff n s) := by
  unfold cutoff
  extract_lets due s1 s2
  have h1 : MemoriesWf s1 := (commitKeyed_only ..).memories rfl <| (commitKeyed_only ..).memories rfl <| (issueEnd_only ..).memories rfl h
  have h2 : MemoriesWf s2 := (clearAll_only ..).memories rfl <| (cutoffSegs_only ..).memories rfl <| takeStage_memories h1
  exact (takeSnap_only ..).memories rfl <| (setClk_only ..).memories rfl h2

theorem cutoffOnce_memories : MemoriesWf (cutoffOnce s) := ite_memories (cutoff_memories h) h

theorem keyedTurn_memories {k} : MemoriesWf (keyedTurn k s) := by
  unfold keyedTurn
  extract_lets s1 s2 s3
  have h1 : MemoriesWf s1 := assignLanes_memories <| switchBoundary_memories <| (epochBoundary_only ..).memories rfl <|
    armedBoundary_memories <| (swapBoundary_only ..).memories rfl h
  have h2 : MemoriesWf s2 := ite_memories (takeStage_memories <| (commitKeyed_only ..).memories rfl h1) h1
  have h3 : MemoriesWf s3 := ite_memories (takeStage_memories h2) h2
  exact takeStage_memories <| (commitKeyed_only ..).memories rfl h3

theorem renderTurn_memories {k} : MemoriesWf (renderTurn k s) :=
  tailBoundary_memories <| cisternBoundary_memories <| (pairBoundary_only ..).memories rfl <| (setPair_only ..).memories rfl <|
    newReservations_memories <| (silenceBoundary_only ..).memories rfl <| (passTurn_only ..).memories rfl h

theorem digestBoundary_memories : MemoriesWf (digestBoundary sendDpx s) :=
  ite_memories (ite_memories ((judgeAt_only ..).memories rfl <| (setDpx_only ..).memories rfl <| (sendDpx_only ..).memories rfl <|
    (setDpx_only ..).memories rfl h) <| (setDpx_only ..).memories rfl h) h

theorem outerTurn_memories {k} : MemoriesWf (outerTurn k s) :=
  digestBoundary_memories <| (strobeBoundary_only ..).memories rfl <| (dpxBoundary_only ..).memories rfl <|
    (setDpx_only ..).memories rfl <| audioBoundary_memories <| (trigBoundary_only ..).memories rfl <| (mapCapture_only ..).memories rfl <|
    (handAll_only ..).memories rfl <| (remoteReturns_only ..).memories rfl <| (quietBoundary_only ..).memories rfl <|
    (sendTicks_only ..).memories rfl h

theorem boundary_memories {cycles viol} : MemoriesWf (boundary cycles viol s) := by
  unfold boundary
  extract_lets _ s1 s2 s3
  have h1 : MemoriesWf s1 := cutoffOnce_memories <| (settleMerge_only ..).memories rfl h
  have h2 : MemoriesWf s2 := (meterTurn_only ..).memories rfl <| (guardFaults_only ..).memories rfl h1
  have h3 : MemoriesWf s3 := (commitDeadlines_only ..).memories rfl <| keyedTurn_memories <| (setClk_only ..).memories rfl h2
  exact outerTurn_memories <| renderTurn_memories <| (closeTurn_only ..).memories rfl h3

theorem tcmErrs_memories {xs : List TcmErr} : MemoriesWf (tcmErrs xs s) := by
  induction xs generalizing s with
  | nil => exact h
  | cons x xs ih => exact ih <| (ledger_only ..).memories rfl <| (sramUe_only ..).memories rfl <| ite_memories (setCore_memories h) h

theorem observe_memories {x} : MemoriesWf (observe x s) :=
  (lostLines_only ..).memories rfl <| tcmErrs_memories <| refillErrs_memories <| (monSlips_only ..).memories rfl <|
    (sramCes_only ..).memories rfl h

end

end Sys2Proof.Machine
end

section
/-! O16: every command keeps the byte memories canonical (R340, R341, R389). A lemma `execF_memories` says it of the command that `execF` gives;
the commands that touch no memory need none. -/

namespace Sys2Proof.Machine

section
variable {s : State} (h : MemoriesWf s)
include h

/-! ## Descriptors -/

theorem execCorrStage_memories {d} : Completes (.corrStage d) s MemoriesWf := by
  refine ⟨_, rfl, checked_memories h ?_⟩
  split
  · exact (badBlock_only ..).memories rfl h
  · exact (badBlock_only ..).memories rfl h
  · exact (badBlock_only ..).memories rfl h
  · exact ite_memories ((badField_only ..).memories rfl h) <| ite_memories ((finish_only ..).memories rfl h) <|
      ite_memories ((finish_only ..).memories rfl h) <| stageOp_memories h

theorem execCorrSetRead_memories {d errs} : Completes (.corrSetRead d errs) s MemoriesWf :=
  ⟨_, rfl, checked_memories h <| ite_memories ((finish_only ..).memories rfl h) <|
    ite_memories ((finish_only ..).memories rfl <| readRuns_memories h) <| (finish_only ..).memories rfl <|
    (hostWrite_only ..).memories rfl <| readRuns_memories h⟩

theorem execStwFwLoad_memories {d} : Completes (.stwFwLoad d) s MemoriesWf := by
  refine ⟨_, rfl, checked_memories h ?_⟩
  split
  · exact (badBlock_only ..).memories rfl h
  · split
    exacts [(finish_only ..).memories rfl <| h.congr (by rfl), (badField_only ..).memories rfl h, (badField_only ..).memories rfl h,
      (report_only ..).memories rfl h]

theorem execUserOpcode_memories {opcode d} : Completes (.userOpcode opcode d) s MemoriesWf := by
  refine ⟨_, rfl, ite_memories ((finish_only ..).memories rfl h) ?_⟩
  split
  · split
    exacts [forwardItem_memories h, h]
  · exact h

theorem execFwStopHalt_memories : Completes .fwStopHalt s MemoriesWf := by
  refine ⟨_, rfl, ?_⟩
  split
  · extract_lets _ s1 s2
    have h1 : MemoriesWf s1 := haltCores_memories <| h.congr (by rfl)
    have h2 : MemoriesWf s2 := ite_memories (startUser_memories h1) h1
    clear_value s2
    exact (report_only ..).memories rfl <| ite_memories h2 <| h2.congr (by rfl)
  · exact h

theorem execDspFlowCfg_memories {d} : Completes (.dspFlowCfg d) s MemoriesWf :=
  ⟨_, rfl, checked_memories h <| ite_memories ((finish_only ..).memories rfl h) <| (finish_only ..).memories rfl <| h.congr (by rfl)⟩

theorem execStwStatus_memories {d} : Completes (.stwStatus d) s MemoriesWf := by
  refine ⟨_, rfl, checked_memories h ?_⟩
  extract_lets s1
  have h1 : MemoriesWf s1 := (hostWrite_only ..).memories rfl h
  exact (finish_only ..).memories rfl <| ite_memories (clearStw_memories h1) h1

theorem execDspLimits_memories {d} : Completes (.dspLimits d) s MemoriesWf :=
  ⟨_, rfl, checked_memories h <| (finish_only ..).memories rfl <| settleAlive_memories <| (setReg_only ..).memories rfl <|
    (setReg_only ..).memories rfl h⟩

/-! ## Operations, stewards and interrupts -/

theorem execOpTimeout_memories {tok} : Completes (.opTimeout tok) s MemoriesWf := by
  have h0 : MemoriesWf (commitOutcomes s) := (commitOutcomes_only s).memories rfl h
  refine ⟨_, rfl, ?_⟩
  split
  · exact ite_memories h0 <| abortOne_memories <| h0.congr (by rfl)
  · exact h0

theorem execWarmResetRelease_memories : Completes .warmResetRelease s MemoriesWf :=
  ⟨_, rfl, ite_memories ((setAon_only ..).memories rfl <| h.congr (by rfl)) <| (setAon_only ..).memories rfl h⟩

theorem loadAfinal_memories {b cs aon v} :
    MemoriesWf { s with aon := aon, stw := { loadCores b cs s.stw with afinalVer := v } } := by
  obtain ⟨hmem, hcores⟩ := h
  exact ⟨hmem, loadCores_wf b cs hcores⟩

theorem execCoresReleased_memories {flash} : Completes (.coresReleased flash) s MemoriesWf := by
  obtain ⟨s0, hs0⟩ : ∃ s0, s0 = setField { s with aon := { s.aon with
      bootBusy := false, bootImg := none, bootCheck := (bootVerdict s flash).1 } } aBootLen 31 31 0 := ⟨_, rfl⟩
  have h0 : MemoriesWf s0 := by
    rw [hs0]
    exact (setField_only ..).memories rfl <| h.congr (by rfl)
  refine ⟨_, rfl, ?_⟩
  rw [← hs0]
  refine ite_memories h <| ite_memories (runCores_memories <| loadAfinal_memories h0) ?_
  extract_lets _ s1
  have h1 : MemoriesWf s1 := (ledger_only ..).memories rfl <| h0.congr (by rfl)
  exact ite_memories (setCore_memories h1) h1

theorem execGetWork_memories {core be} : Completes (.getWork core be) s MemoriesWf :=
  ⟨_, rfl, ite_memories h <| ite_memories (nullHandle_memories h) <| ite_memories (nullHandle_memories h) <| startWait_memories h⟩

theorem execDspGrant_memories : Completes .dspGrant s MemoriesWf := by
  refine ⟨_, rfl, ?_⟩
  split
  exacts [grantTo_memories h, h]

theorem execAffinityExpiry_memories {item} : Completes (.affinityExpiry item) s MemoriesWf := by
  refine ⟨_, rfl, ?_⟩
  split
  exacts [putItem_memories h, h]

theorem execSvcLimit_memories {item} : Completes (.svcLimit item) s MemoriesWf := by
  refine ⟨_, rfl, ?_⟩
  split
  · split
    exacts [ite_memories h <| (ledger_only ..).memories rfl <| (evRaise_only ..).memories rfl <| putItem_memories h, h]
  · exact h

theorem execCplReport_memories {c cmd} : MemoriesWf (cplReport withdrawTok c cmd s) := cplReport_memories h fun _ _ ht => withdrawTok_memories ht

theorem execIrqDeliver_memories : Completes .irqDeliver s MemoriesWf := by
  have h0 : MemoriesWf (noteEvrFull (irqCandidates s) s) := (noteEvrFull_only ..).memories rfl h
  refine ⟨_, rfl, ?_⟩
  split
  · exact ite_memories (deliverCore_memories (h0.congr (by rfl))) <| (deliverHost_only ..).memories rfl <| h0.congr (by rfl)
  · exact h0

/-! ## The host interface's polls and the matrix -/

theorem execDoorbellPoll_memories {page entries} : Completes (.doorbellPoll page entries) s MemoriesWf := by
  have hs : MemoriesWf (if s.hif.inL1 then leaveL1 s else s) := ite_memories (leaveL1_memories h) h
  refine ⟨_, rfl, (settleL1_only ..).memories rfl <| ite_memories ?_ hs⟩
  split
  · exact (evRaise_only ..).memories rfl <| hs.congr (by rfl)
  · exact fetchAll_memories <| (pollEvr_only ..).memories rfl <| pollCqs_memories <| (pollSqs_only ..).memories rfl <| hs.congr (by rfl)

theorem execMatrixTimeout_memories {t} : Completes (.matrixTimeout t) s MemoriesWf :=
  ⟨_, rfl, releaseHeld_memories <| (setMtx_only ..).memories rfl <| (mtxError_only ..).memories rfl <| (winTimeout_only ..).memories rfl <|
    (winTimeout_only ..).memories rfl h⟩

theorem execMasterResetDrain_memories {m addr beats} : Completes (.masterResetDrain m addr beats) s MemoriesWf :=
  ⟨_, rfl, releaseHeld_memories <| (ledger_only ..).memories rfl <| (evRaise_only ..).memories rfl <| (setMtx_only ..).memories rfl h⟩

/-! ## Boundaries, tails, the cistern and the DRAM -/

theorem execTrancheBoundary_memories {cycles viol obs} : Completes (.trancheBoundary cycles viol obs) s MemoriesWf :=
  ⟨_, rfl, ite_memories (boundary_memories <| observe_memories h) <| observe_memories h⟩

theorem execTailChain_memories {u slack obs} : Completes (.tailChain u slack obs) s MemoriesWf := by
  refine ⟨_, rfl, ite_memories h ?_⟩
  split
  exacts [h, ite_memories ((noteSlack_only ..).memories rfl <| chainPanic_memories <| tailUnit_memories h) h]

theorem execTailReadDone_memories {r} : Completes (.tailReadDone r) s MemoriesWf := by
  refine ⟨_, rfl, ?_⟩
  split
  · exact settleTail_memories <| (setCor_only ..).memories rfl h
  · exact ite_memories (settleTail_memories <| (setCor_only ..).memories rfl <| readRuns_memories h) h

theorem execCisternFetchDone_memories {o g age errs} : Completes (.cisternFetchDone o g age errs) s MemoriesWf := by
  refine ⟨_, rfl, ite_memories ?_ h⟩
  extract_lets _ _ _ _ s2 s3
  have h2 : MemoriesWf s2 := (setPair_only ..).memories rfl <| (noteAge_only ..).memories rfl <| readRuns_memories h
  have h3 : MemoriesWf s3 := settlePanic_memories h2
  exact ite_memories ((ledgerLim_only ..).memories rfl <| (evRaise_only ..).memories rfl <| (pairCount_only ..).memories rfl h3) h3

theorem execCisternPanic_memories {o g} : Completes (.cisternPanic o g) s MemoriesWf :=
  ⟨_, rfl, ite_memories (settlePanic_memories <| (evRaise_only ..).memories rfl <| (setPair_only ..).memories rfl h) h⟩

theorem execTidxSet_memories {tick24} : Completes (.tidxSet tick24) s MemoriesWf := by
  refine ⟨_, rfl, ?_⟩
  split
  exacts [h, outerTurn_memories <| (takeIndex_only ..).memories rfl h]

theorem execCaravanReceive_memories {l c b w p} : Completes (.caravanReceive l c b w p) s MemoriesWf :=
  ⟨_, rfl, ite_memories h <| ite_memories (ite_memories ((dropCaravan_only ..).memories rfl h) h) <| takeCaravan_memories h⟩

/-- The DRAM comes up with its contents, or empty. -/
theorem execDramTrainDone_memories {r} : Completes (.dramTrainDone r) s MemoriesWf := by
  have h0 {f} : MemoriesWf (trainLanes r (setField (setDrc s fun d => { d with training := false, retraining := false }) aDrcCtl 0 0 f)) :=
    (trainLanes_only ..).memories rfl <| (setField_only ..).memories rfl <| setDrc_memories h rfl
  refine ⟨_, rfl, ?_⟩
  split
  · refine (ledger_only ..).memories rfl <| (evRaise_only ..).memories rfl <| setDrc_memories_of_wf h0 ?_
    dsimp only
    split
    exacts [h0.1, rfl]
  · exact ite_memories h0 <| enterNoDram_memories h0

theorem execMr4Poll_memories {channel value} : Completes (.mr4Poll channel value) s MemoriesWf := by
  have h1 {r} : MemoriesWf (setDrc s fun d => { d with rate := smSet 0 d.rate channel r }) := setDrc_memories h rfl
  refine ⟨_, rfl, ite_memories ((ledger_only ..).memories rfl <| (evRaise_only ..).memories rfl ?_) ?_⟩ <;>
    exact ite_memories h1 <| (ledger_only ..).memories rfl <| (evRaise_only ..).memories rfl <| payExcess_memories h1

theorem execRefreshAccrual_memories {channel bank idle idled} : Completes (.refreshAccrual channel bank idle idled) s MemoriesWf := by
  have h0 : MemoriesWf (payIdle channel (idled.filter (· < 16)) s) := payIdle_memories h
  exact ⟨_, rfl, ite_memories h0 <| ite_memories (setDrc_memories h0 rfl) <| ite_memories (ite_memories ((ledgerLim_only ..).memories rfl <|
    (evRaise_only ..).memories rfl <| setDrc_memories h0 rfl) <| setDrc_memories h0 rfl) <| setDrc_memories h0 rfl⟩

theorem execScrubRead_memories {line symbols} : Completes (.scrubRead line symbols) s MemoriesWf := by
  refine ⟨_, rfl, ite_memories h ?_⟩
  split
  exacts [ite_memories h <| dramPut_memories <| lineRead_memories h, lineRead_memories h]

/-! ## All commands -/

/-- A command that touches no memory keeps them. -/
theorem exec_memories_of_memFree {c} (hfree : memFree (touched c) = true) : Completes c s MemoriesWf := by
  obtain ⟨t, ht, hframe⟩ := exec_framed (s := s) c
  exact ⟨t, ht, hframe.memories hfree h⟩

theorem exec_memories (c : Instr) : Completes c s MemoriesWf := by
  by_cases hfree : memFree (touched c) = true
  · exact exec_memories_of_memFree h hfree
  cases c
  case hifAbort => exact ⟨_, rfl, checked_memories h <| startAbort_memories h⟩
  case hifSqDisable => exact ⟨_, rfl, checked_memories h <| ite_memories ((finish_only ..).memories rfl h) <| sqDisableStart_memories h⟩
  case abortRequest => exact ⟨_, rfl, abortWrite_memories h⟩
  case abortOwnerTimeout => exact ⟨_, rfl, ownerSilent_memories h⟩
  case opTimeout => exact execOpTimeout_memories h
  case sqEnable => exact ⟨_, rfl, sqCfgWrite_memories h⟩
  case sqDisableWrite => exact ⟨_, rfl, sqCfgWrite_memories h⟩
  case cqEnable => exact ⟨_, rfl, cqCfgWrite_memories h⟩
  case cqDisable => exact ⟨_, rfl, cqCfgWrite_memories h⟩
  case hostIfReset => exact ⟨_, rfl, hostReset_memories h⟩
  case d0Return => exact ⟨_, rfl, resumeHost_memories <| h.congr (by rfl)⟩
  case busMasterChange => exact ⟨_, rfl, (sendPending_only ..).memories rfl <| resumeHost_memories <| h.congr (by rfl)⟩
  case l1Exit => exact ⟨_, rfl, leaveL1_memories h⟩
  case doorbellPoll => exact execDoorbellPoll_memories h
  case corrStage => exact execCorrStage_memories h
  case corrSetRead => exact execCorrSetRead_memories h
  case stwFwLoad => exact execStwFwLoad_memories h
  case stwFwStart => exact ⟨_, rfl, checked_memories h <| ite_memories ((finish_only ..).memories rfl h) <| startStop_memories h⟩
  case stwFwStop => exact ⟨_, rfl, checked_memories h <| startStop_memories h⟩
  case fwStopHalt => exact execFwStopHalt_memories h
  case dspFlowCfg => exact execDspFlowCfg_memories h
  case stwStatus => exact execStwStatus_memories h
  case dspLimits => exact execDspLimits_memories h
  case userOpcode => exact execUserOpcode_memories h
  case rwinRead => exact ⟨_, rfl, winGo_memories h⟩
  case rwinWrite => exact ⟨_, rfl, winGo_memories h⟩
  case svcRwinRead => exact ⟨_, rfl, winGo_memories h⟩
  case svcRwinWrite => exact ⟨_, rfl, winGo_memories h⟩
  case registerWrite => exact ⟨_, rfl, regWrite_memories h⟩
  case svcRead => exact ⟨_, rfl, (svcWords_memories h).congr (by rfl)⟩
  case svcWrite => exact ⟨_, rfl, svcStore_memories h⟩
  case matrixTimeout => exact execMatrixTimeout_memories h
  case masterResetDrain => exact execMasterResetDrain_memories h
  case matrixLateResponse => exact ⟨_, rfl, releaseHeld_memories <| (setMtx_only ..).memories rfl h⟩
  case warmResetRequest => exact ⟨_, rfl, wrstWrite_memories h⟩
  case wrstNAssert => exact ⟨_, rfl, warmRequest_memories <| (setAon_only ..).memories rfl h⟩
  case thermSample =>
    exact ⟨_, rfl, runDeferred_memories <| tripJudge_memories <| (alertJudge_only ..).memories rfl <| (storeTj_only ..).memories rfl h⟩
  case warmResetRelease => exact execWarmResetRelease_memories h
  case coldReset => exact ⟨_, rfl, (setAon_only ..).memories rfl <| (darkState_memories (s := s)).congr (by rfl)⟩
  case powerFail => exact ⟨_, rfl, (setAon_only ..).memories rfl darkState_memories⟩
  case porstNAssert => exact ⟨_, rfl, (setAon_only ..).memories rfl darkState_memories⟩
  case coresReleased => exact execCoresReleased_memories h
  case getWork => exact execGetWork_memories h
  case getWorkTimeout => exact ⟨_, rfl, ite_memories (nullHandle_memories h) h⟩
  case dspGrant => exact execDspGrant_memories h
  case affinityExpiry => exact execAffinityExpiry_memories h
  case dspDone => exact ⟨_, rfl, dspDone_memories h⟩
  case dspFwd => exact ⟨_, rfl, dspFwd_memories h⟩
  case dspAdd => exact ⟨_, rfl, dspAdd_memories h⟩
  case cplCommit => exact ⟨_, rfl, execCplReport_memories h⟩
  case cplComplete => exact ⟨_, rfl, execCplReport_memories h⟩
  case cplWithdraw => exact ⟨_, rfl, execCplReport_memories h⟩
  case heartbeat => exact ⟨_, rfl, heartbeatTurn_memories h⟩
  case hbLost => exact ⟨_, rfl, settleAlive_memories <| silence_memories h⟩
  case svcLimit => exact execSvcLimit_memories h
  case irqDeliver => exact execIrqDeliver_memories h
  case drcRefRead => exact ⟨_, rfl, (narrow_only ..).memories rfl <| drcRefReadOp_memories h⟩
  case dramRetrain => exact ⟨_, rfl, drcCtlWrite_memories h⟩
  case trancheBoundary => exact execTrancheBoundary_memories h
  case segmentCutoff => exact ⟨_, rfl, ite_memories h <| cutoffOnce_memories h⟩
  case tailChain => exact execTailChain_memories h
  case tailReadDone => exact execTailReadDone_memories h
  case cisternFetchDone => exact execCisternFetchDone_memories h
  case cisternPanic => exact execCisternPanic_memories h
  case caravanReceive => exact execCaravanReceive_memories h
  case tidxSet => exact execTidxSet_memories h
  case mpFrameReceive => exact ⟨_, rfl, ite_memories (frameTake_memories h) h⟩
  case dramTrainDone => exact execDramTrainDone_memories h
  case mr4Poll => exact execMr4Poll_memories h
  case refreshAccrual => exact execRefreshAccrual_memories h
  case scrubRead => exact execScrubRead_memories h
  case dramSelfRefreshExit => exact ⟨_, rfl, ite_memories (setDrc_memories h rfl) h⟩
  all_goals exact absurd rfl hfree

/-- Powered time trains the DRAM; it writes no memory. -/
theorem idle_memories : MemoriesWf (idle s) := ite_memories (h.congr (by rfl)) h

end

/-- Settles O16, command by command: every memory is written a byte or a range at a time, each in canonical form, or is emptied. -/
theorem everyStepKeepsMemoriesCanonical : Obligations.EveryStepKeepsMemoriesCanonical := by
  unfold Obligations.EveryStepKeepsMemoriesCanonical
  intro s t h hstep
  unfold step at hstep
  split at hstep
  next c cs _ =>
    have hrest : MemoriesWf { s with pending := cs } := h.congr (by rfl)
    obtain ⟨u, hu, hwf⟩ := exec_memories hrest c
    cases hu.symm.trans hstep
    exact hwf
  next =>
    cases hstep
    exact idle_memories h

end Sys2Proof.Machine
end

section
/-! O17: the straps BOOT_SRC and DPX_ROLE, kept by every command but a cold reset while power and PORST_N hold (R484). A lemma `f_straps` says
that the operation `f` leaves the straps at the values they have. -/

namespace Sys2Proof.Machine

/-- The straps as they were sampled. -/
def StrapsAre (src : Nat) (primary : Bool) (s : State) : Prop := s.aon.bootSrc = src ∧ s.aon.primary = primary

/-! ## What keeps the straps -/

section
variable {src : Nat} {primary : Bool}

/-- Whether a list of parts leaves the always-on part out. -/
def strapFree (W : List Part) : Bool := W.all (fun p => decide (p ≠ .aon))

theorem StrapsAre.congr {s t : State} (h : StrapsAre src primary s)
    (he : (t.aon.bootSrc, t.aon.primary) = (s.aon.bootSrc, s.aon.primary)) : StrapsAre src primary t := by
  obtain ⟨hsrc, hprimary⟩ := Prod.mk.injEq .. ▸ he
  exact ⟨hsrc.trans h.1, hprimary.trans h.2⟩

theorem OnlyChanges.straps {W : List Part} {s t : State} (h : OnlyChanges W s t) (hw : strapFree W = true) (hs : StrapsAre src primary s) :
    StrapsAre src primary t := by
  have hout : ∀ p ∈ W, p ≠ .aon := by simpa [strapFree] using hw
  have haon : t.aon = s.aon := h.same .aon fun hp => hout _ hp rfl
  exact hs.congr (by rw [haon])

theorem ite_straps {c : Prop} [Decidable c] {s t : State} (hs : StrapsAre src primary s) (ht : StrapsAre src primary t) :
    StrapsAre src primary (if c then s else t) := by
  split <;> assumption

variable {s : State} (h : StrapsAre src primary s)
include h

/-- What the change does to the straps comes first, so that `rfl` can say it of a record update. -/
theorem setAon_straps {f : Aon → Aon} (hf : (fun a => ((f a).bootSrc, (f a).primary)) = fun a => (a.bootSrc, a.primary)) :
    StrapsAre src primary (setAon s f) :=
  h.congr (by rw [setAon_aon, congrFun hf s.aon])

/-! ## SRAM errors, monitor pins and the boot mailbox (R429, R471, R488) -/

theorem sramCe_straps {x} : StrapsAre src primary (sramCe x s) := by
  unfold sramCe
  extract_lets _ _ _ s1 s2 s3
  have h1 : StrapsAre src primary s1 := h.congr (by rfl)
  have h2 : StrapsAre src primary s2 := ite_straps h1 <| (setReg_only ..).straps rfl <| (setReg_only ..).straps rfl h1
  have h3 : StrapsAre src primary s3 := (evRaise_only ..).straps rfl h2
  exact ite_straps ((ledger_only ..).straps rfl h3) h3

theorem sramCes_straps {xs} : StrapsAre src primary (sramCes xs s) := by
  induction xs generalizing s with
  | nil => exact h
  | cons x xs ih => exact ih <| sramCe_straps h

theorem observe_straps {x} : StrapsAre src primary (observe x s) :=
  (lostLines_only ..).straps rfl <| (tcmErrs_only ..).straps rfl <| (refillErrs_only ..).straps rfl <| (monSlips_only ..).straps rfl <|
    sramCes_straps h

theorem monClr_straps {low} : StrapsAre src primary (monClr low s) :=
  ite_straps h <| (monSettleAll_only ..).straps rfl <| (ledger_only ..).straps rfl <| (evRaise_only ..).straps rfl <| h.congr (by rfl)

theorem bootWrite_straps {v image} : StrapsAre src primary (bootWrite v image s) := by
  have hset {a m l w} : StrapsAre src primary (setField s a m l w) := (setField_only ..).straps rfl h
  exact ite_straps h <| ite_straps hset <| (setField_only ..).straps rfl <| hset.congr (by rfl)

/-! ## Warm resets and the thermal trip (R470, R486) -/

theorem warmAssert_straps {cause} : StrapsAre src primary (warmAssert cause s) := by
  unfold warmAssert
  extract_lets _ s1 s2 s3 s4
  have h1 : StrapsAre src primary s1 := (ledger_only ..).straps rfl <| (evRaise_only ..).straps rfl h
  have h2 : StrapsAre src primary s2 := (hostReset_only ..).straps rfl <| (warmRegs_only ..).straps rfl h1
  have h3 : StrapsAre src primary s3 := (warmInterlock_only ..).straps rfl <| (warmTime_only ..).straps rfl <| (warmControl_only ..).straps rfl <|
    (warmRender_only ..).straps rfl <| (dropOps_only ..).straps rfl h2
  have h4 : StrapsAre src primary s4 := (setField_only ..).straps rfl h3
  clear_value s4
  exact (monSettleAll_only ..).straps rfl <| setAon_straps (h4.congr (by rfl)) rfl

theorem warmRequest_straps {cause} : StrapsAre src primary (warmRequest cause s) :=
  ite_straps h <| ite_straps (setAon_straps h rfl) <| warmAssert_straps h

theorem wrstWrite_straps {v svc} : StrapsAre src primary (wrstWrite v svc s) := ite_straps (warmRequest_straps h) h

theorem alertJudge_straps {tj} : StrapsAre src primary (alertJudge tj s) :=
  ite_straps (ite_straps (setAon_straps h rfl) h) <|
    ite_straps ((ledger_only ..).straps rfl <| (evRaise_only ..).straps rfl <| setAon_straps h rfl) h

theorem tripActions_straps {tj} : StrapsAre src primary (tripActions tj s) :=
  (monSettleAll_only ..).straps rfl <| (deviceFault_only ..).straps rfl <| (ledger_only ..).straps rfl <| (evRaise_only ..).straps rfl <|
    setAon_straps (h.congr (by rfl)) rfl

theorem tripJudge_straps {tj} : StrapsAre src primary (tripJudge tj s) := by
  unfold tripJudge
  extract_lets _ s1
  have h1 : StrapsAre src primary s1 := setAon_straps h rfl
  exact ite_straps (tripActions_straps h1) h1

theorem runDeferred_straps : StrapsAre src primary (runDeferred s) := by
  unfold runDeferred
  split
  exacts [ite_straps h <| warmAssert_straps h, h]

/-! ## Register writes and windows (R335, R379 to R386) -/

theorem actWrite_straps {m a v} {t : State} (ht : actWrite m a v s = some t) : StrapsAre src primary t := by
  unfold actWrite at ht
  split_ifs at ht
  rotate_right
  · split at ht <;> cases ht
    exacts [(sqCfgWrite_only ..).straps rfl h, (cqCfgWrite_only ..).straps rfl h, (segPushOp_only ..).straps rfl h]
  all_goals cases ht
  exacts [(abortWrite_only ..).straps rfl h, wrstWrite_straps h, (kickOp_only ..).straps rfl h, bootWrite_straps h,
    (evrCfgWrite_only ..).straps rfl h, h, (drcCtlWrite_only ..).straps rfl h, (armWriteOp_only ..).straps rfl h,
    (setAddress_only ..).straps rfl h, h]

theorem stwWrite_straps {m a v} {t : State} (ht : stwWrite m a v s = some t) : StrapsAre src primary t := by
  unfold stwWrite at ht
  split_ifs at ht <;> cases ht
  · split
    exacts [ite_straps ((heartbeatTurn_only ..).straps rfl h) h, h]
  exacts [(settleAlive_only ..).straps rfl <| (plainWrite_only ..).straps rfl h, h, h]

theorem sramLine_straps {array line b symbols} : StrapsAre src primary (sramLine array line b symbols s).2.2 := by
  unfold sramLine
  split
  exacts [h, sramCe_straps h, (sramUe_only ..).straps rfl h]

theorem targetRead_straps {m a symbols} : StrapsAre src primary (targetRead m a symbols s).2.2 := by
  unfold targetRead
  extract_lets
  split
  exacts [(readWord_only ..).straps rfl h, sramLine_straps h, (draw_only ..).straps rfl h, h, sramLine_straps h, (bestRead_only ..).straps rfl h]

/-! A write through a register window can itself start a window's access: `win` and `write` stand for what the inner one does. -/

theorem blockWrite_straps {win : Bool → Word → State → State} (hwin : ∀ b v t, StrapsAre src primary t → StrapsAre src primary (win b v t))
    {m a v be} : StrapsAre src primary (blockWrite win m a v be s) := by
  unfold blockWrite
  refine ite_straps h ?_
  split
  · exact h
  · refine ite_straps (hwin _ _ _ h) <| ite_straps (hwin _ _ _ h) ?_
    split
    next ht => exact actWrite_straps h ht
    next ht => exact (irqWrite_only ht).straps rfl h
    next ht => exact stwWrite_straps h ht
    next => exact (plainWrite_only ..).straps rfl h

theorem writeNow_straps {win : Bool → Word → State → State} (hwin : ∀ b v t, StrapsAre src primary t → StrapsAre src primary (win b v t))
    {m a v be} : StrapsAre src primary (writeNow win m a v be s) := by
  have herr {k t} (ht : StrapsAre src primary t) : StrapsAre src primary (writeError k m a t) := (writeError_only ..).straps rfl ht
  have htarget : StrapsAre src primary (targetWrite m a v be [] s).2 := (targetWrite_only ..).straps rfl h
  exact ite_straps (herr h) <| ite_straps (herr h) <| ite_straps (blockWrite_straps h hwin) <| ite_straps htarget <| herr htarget

theorem regWriteWith_straps {win : Bool → Word → State → State}
    (hwin : ∀ b v t, StrapsAre src primary t → StrapsAre src primary (win b v t)) {m a v be} :
    StrapsAre src primary (regWriteWith win m a v be s) := by
  unfold regWriteWith
  split
  exacts [ite_straps ((localWrite_only ..).straps rfl h) h, ite_straps ((holdReq_only ..).straps rfl h) <| writeNow_straps h hwin]

section
variable {write : Master → Nat → Word → State → State}
  (hwrite : ∀ m a v t, StrapsAre src primary t → StrapsAre src primary (write m a v t))
include hwrite

theorem winTarget_straps {svc t data symbols} : StrapsAre src primary (winTarget write svc t data symbols s) :=
  ite_straps
    (ite_straps ((winEnd_only ..).straps rfl <| hwrite _ _ _ _ h) <| (winEnd_only ..).straps rfl <|
      ite_straps ((targetWrite_only ..).straps rfl h) <| (mtxError_only ..).straps rfl <| (targetWrite_only ..).straps rfl h) <|
    (winEnd_only ..).straps rfl <| ite_straps (targetRead_straps h) <| (mtxError_only ..).straps rfl <| targetRead_straps h

theorem winAccess_straps {svc t data ans} : StrapsAre src primary (winAccess write svc t data ans s) := by
  unfold winAccess
  refine ite_straps ((winEnd_only ..).straps rfl <| (mtxError_only ..).straps rfl h) ?_
  split
  · exact winTarget_straps h hwrite
  · exact winTarget_straps h hwrite
  · exact (winEnd_only ..).straps rfl <| (mtxError_only ..).straps rfl <| (targetUe_only ..).straps rfl h
  · exact (setMtx_only ..).straps rfl h

theorem winGoWith_straps {svc ctl ans} : StrapsAre src primary (winGoWith write svc ctl ans s) := by
  have hbusy : StrapsAre src primary (setReg s (winCtl svc) (wNat (2 ^ 31 + 1))) := (setReg_only ..).straps rfl h
  exact ite_straps h <| ite_straps ((holdReq_only ..).straps rfl hbusy) <| winAccess_straps hbusy hwrite

end

theorem blockWriteNone_straps {m a v} : StrapsAre src primary (blockWriteNone m a v s) := blockWrite_straps h fun _ _ _ ht => ht

theorem blockWriteInner_straps {m a v} : StrapsAre src primary (blockWriteInner m a v s) :=
  blockWrite_straps h fun _ _ _ ht => winGoWith_straps ht fun _ _ _ _ hu => blockWriteNone_straps hu

theorem winGo_straps {svc ctl ans} : StrapsAre src primary (winGo svc ctl ans s) :=
  winGoWith_straps h fun _ _ _ _ ht => blockWriteInner_straps ht

theorem regWrite_straps {m a v be} : StrapsAre src primary (regWrite m a v be s) := regWriteWith_straps h fun _ _ _ ht => winGo_straps ht

theorem performHeld_straps {r : HeldReq} : StrapsAre src primary (performHeld r s) := by
  unfold performHeld
  split
  · exact ite_straps (winAccess_straps h fun _ _ _ _ ht => blockWriteInner_straps ht) h
  · exact writeNow_straps h fun _ _ _ ht => winGo_straps ht

theorem releaseList_straps {rs kept : List HeldReq} : StrapsAre src primary (releaseList rs kept s) := by
  induction rs generalizing kept s with
  | nil => exact (setMtx_only ..).straps rfl h
  | cons r rs ih => exact ite_straps (ih h) <| ih <| performHeld_straps h

theorem releaseHeld_straps : StrapsAre src primary (releaseHeld s) := releaseList_straps <| (setMtx_only ..).straps rfl h

theorem svcStore_straps {bs : List (List Byte)} {a : Nat} : StrapsAre src primary (svcStore bs a s) := by
  induction bs generalizing a s with
  | nil => exact h
  | cons b bs ih => exact ih <| ite_straps (regWrite_straps h) h

/-! ## Commands -/

theorem execMatrixTimeout_straps {t} : Completes (.matrixTimeout t) s (StrapsAre src primary) :=
  ⟨_, rfl, releaseHeld_straps <| (setMtx_only ..).straps rfl <| (mtxError_only ..).straps rfl <| (winTimeout_only ..).straps rfl <|
    (winTimeout_only ..).straps rfl h⟩

theorem execMasterResetDrain_straps {m addr beats} : Completes (.masterResetDrain m addr beats) s (StrapsAre src primary) :=
  ⟨_, rfl, releaseHeld_straps <| (ledger_only ..).straps rfl <| (evRaise_only ..).straps rfl <| (setMtx_only ..).straps rfl h⟩

theorem execThermSample_straps {tj} : Completes (.thermSample tj) s (StrapsAre src primary) :=
  ⟨_, rfl, runDeferred_straps <| tripJudge_straps <| alertJudge_straps <| (storeTj_only ..).straps rfl h⟩

theorem execWrstNAssert_straps : Completes .wrstNAssert s (StrapsAre src primary) := by
  have hpin : StrapsAre src primary (setAon s fun a => { a with wrstPin := true }) := setAon_straps h rfl
  exact ⟨_, rfl, warmRequest_straps hpin⟩

theorem execWarmResetRelease_straps : Completes .warmResetRelease s (StrapsAre src primary) :=
  ⟨_, rfl, ite_straps (setAon_straps (h.congr (by rfl)) rfl) <| setAon_straps h rfl⟩

theorem execCoresReleased_straps {flash} : Completes (.coresReleased flash) s (StrapsAre src primary) := by
  obtain ⟨s0, hs0⟩ : ∃ s0, s0 = setField { s with aon := { s.aon with
      bootBusy := false, bootImg := none, bootCheck := (bootVerdict s flash).1 } } aBootLen 31 31 0 := ⟨_, rfl⟩
  have h0 : StrapsAre src primary s0 := by
    rw [hs0]
    exact (setField_only ..).straps rfl <| h.congr (by rfl)
  refine ⟨_, rfl, ?_⟩
  rw [← hs0]
  refine ite_straps h <| ite_straps ((runCores_only ..).straps rfl <| h0.congr (by rfl)) ?_
  extract_lets _ s1
  have h1 : StrapsAre src primary s1 := (ledger_only ..).straps rfl <| h0.congr (by rfl)
  exact ite_straps ((setCore_only ..).straps rfl h1) h1

theorem boundary_straps {cycles viol} : StrapsAre src primary (boundary cycles viol s) := (boundary_only ..).straps rfl h

theorem execTrancheBoundary_straps {cycles viol obs} : Completes (.trancheBoundary cycles viol obs) s (StrapsAre src primary) :=
  ⟨_, rfl, ite_straps (boundary_straps <| observe_straps h) <| observe_straps h⟩

theorem execJtagTapOperation_straps {op} : Completes (.jtagTapOperation op) s (StrapsAre src primary) := by
  refine ⟨_, rfl, setAon_straps h ?_⟩
  cases op <;> rfl

/-- A command that leaves the always-on part alone keeps the straps. -/
theorem exec_straps_of_strapFree {c} (hfree : strapFree (touched c) = true) : Completes c s (StrapsAre src primary) := by
  obtain ⟨t, ht, hframe⟩ := exec_framed (s := s) c
  exact ⟨t, ht, hframe.straps hfree h⟩

/-- Only a cold reset samples the straps, and only the loss of power or of PORST_N clears them. -/
theorem exec_straps {c : Instr} (hcold : ∀ b p, c ≠ .coldReset b p) (hpower : c ≠ .powerFail) (hporst : c ≠ .porstNAssert) :
    Completes c s (StrapsAre src primary) := by
  by_cases hfree : strapFree (touched c) = true
  · exact exec_straps_of_strapFree h hfree
  cases c
  case coldReset b p => exact absurd rfl (hcold b p)
  case powerFail => exact absurd rfl hpower
  case porstNAssert => exact absurd rfl hporst
  case rwinRead => exact ⟨_, rfl, winGo_straps h⟩
  case rwinWrite => exact ⟨_, rfl, winGo_straps h⟩
  case svcRwinRead => exact ⟨_, rfl, winGo_straps h⟩
  case svcRwinWrite => exact ⟨_, rfl, winGo_straps h⟩
  case registerWrite => exact ⟨_, rfl, regWrite_straps h⟩
  case svcWrite => exact ⟨_, rfl, svcStore_straps h⟩
  case matrixTimeout => exact execMatrixTimeout_straps h
  case masterResetDrain => exact execMasterResetDrain_straps h
  case matrixLateResponse => exact ⟨_, rfl, releaseHeld_straps <| (setMtx_only ..).straps rfl h⟩
  case warmResetRequest => exact ⟨_, rfl, wrstWrite_straps h⟩
  case wrstNAssert => exact execWrstNAssert_straps h
  case thermSample => exact execThermSample_straps h
  case warmResetRelease => exact execWarmResetRelease_straps h
  case bootGo => exact ⟨_, rfl, bootWrite_straps h⟩
  case coresReleased => exact execCoresReleased_straps h
  case silNChange => exact ⟨_, rfl, (evIf_only ..).straps rfl <| h.congr (by rfl)⟩
  case monClrAssert => exact ⟨_, rfl, monClr_straps h⟩
  case monClrRelease => exact ⟨_, rfl, monClr_straps h⟩
  case trancheBoundary => exact execTrancheBoundary_straps h
  case jtagTapOperation => exact execJtagTapOperation_straps h
  all_goals exact absurd rfl hfree

end

/-- Settles O17: the commands that hold the always-on part but do not reset it write no strap. -/
theorem strapsChangeOnlyAtColdReset : Obligations.StrapsChangeOnlyAtColdReset := by
  unfold Obligations.StrapsChangeOnlyAtColdReset
  intro c s t hcold hpower hporst hexec
  obtain ⟨u, hu, hstraps⟩ := exec_straps ⟨rfl, rfl⟩ hcold hpower hporst
  cases hu.symm.trans hexec
  exact hstraps

end Sys2Proof.Machine
end

section
/-! The stewards' descriptors, the dispatcher, the reports of owners and the interrupts (R344 to R377). -/

namespace Sys2Proof.Machine

/-! ## Steward descriptors (R344 to R347, R364 to R366) -/

section
variable {d : Desc} {s : State}

/-- R344: an image whose header, lengths, digest and signature are good is staged. -/
theorem exec_stwFwLoad_read {b : List Byte} (hun : Unused d [(0, 12)]) (hmin : 64 ≤ pl d 8 4) (hmax : pl d 8 4 ≤ 1048576)
    (hb : hostBlock d 0 (pl d 8 4) = some b) :
    Completes (.stwFwLoad d) s (fun t =>
      (fwCheck 1 b = 0 → t = finish d stOk { s with stw := { s.stw with staged := some (fwImage b) } }) ∧
      ((fwCheck 1 b = 1 ∨ fwCheck 1 b = 2) → t = badField d 0xFFFF s) ∧
      (3 ≤ fwCheck 1 b → t = report d.tok stIntegrity 0 (fwCheck 1 b) s)) := by
  refine .of_checked rfl hun (by simp [hmin, hmax]) ?_
  simp only [hb]
  refine ⟨?good, ?malformed, ?unsound⟩
  case good => exact fun hk => by simp only [hk]
  case malformed => rintro (hk | hk) <;> simp only [hk]
  case unsound =>
    intro hk
    split
    · omega
    · omega
    · omega
    · rfl

theorem exec_stwFwStart_ok (hun : Unused d [(0, 2)]) (hboot : pl d 0 1 = 0) (hstaged : s.stw.staged.isSome = true)
    (hidle : ∀ c ∈ maskCores (pl d 0 2), runsUser s c = false) :
    exec (.stwFwStart d) s = .next (startStop (maskCores (pl d 0 2)) d.tok true s) := by
  obtain ⟨f, hf⟩ := Option.isSome_iff_exists.mp hstaged
  have hany : (maskCores (pl d 0 2)).any (runsUser s) = false := List.any_eq_false.mpr fun c hc => ne_true_of_eq_false (hidle c hc)
  refine (exec_of_checked rfl hun (by simp [hboot])).trans (congrArg Host.Outcome.next (if_neg ?_))
  simp [hf, hany]

theorem exec_stwFwStop_ok (hun : Unused d [(0, 2)]) (hboot : pl d 0 1 = 0) :
    exec (.stwFwStop d) s = .next (startStop (maskCores (pl d 0 2)) d.tok false s) :=
  exec_of_checked rfl hun (by simp [hboot])

/-- R364: the first job's cores halt, and start again where the job is a start; with no user core left the version is gone. -/
theorem exec_fwStopHalt_job {j : StopJob} {js : List StopJob} {u v : State} (hjobs : s.stw.stops = j :: js)
    (hu : u = haltCores j.cores { s with stw := { s.stw with stops := js } }) (hv : v = if j.start = true then startUser j.cores u else u) :
    exec .fwStopHalt s = .next (report j.tok stOk 0 0 (if userUp v then v else { v with stw := { v.stw with userVer := 0 } })) := by
  subst hv hu
  refine congrArg Host.Outcome.next ?_
  rw [hjobs]

/-- R347: flows of the user range that carry no item take their configuration. -/
theorem exec_dspFlowCfg_ok (hun : Unused d [(0, 5), (6, 2)]) (hmin : 2088 ≤ pl d 0 2) (hmax : pl d 0 2 ≤ 4095) (hcount : 1 ≤ pl d 2 2)
    (hrange : pl d 0 2 + pl d 2 2 ≤ 4096) (hflags : pl d 4 1 ≤ 1) (hwin : pl d 6 2 ≤ 1023)
    (hfree : ∀ e ∈ s.stw.items, e.2.flow < pl d 0 2 ∨ pl d 0 2 + pl d 2 2 ≤ e.2.flow) :
    Completes (.dspFlowCfg d) s (fun t => Reports d stOk 0 0 s t ∧ t.stw = { s.stw with
      flows := smModAll {} s.stw.flows (span (pl d 0 2) (pl d 2 2)) (fun _ x => { x with parallel := plBit d 4 0, affWin := pl d 6 2 }) }) := by
  have hnone : s.stw.items.any (fun e => decide (pl d 0 2 ≤ e.2.flow) && decide (e.2.flow < pl d 0 2 + pl d 2 2)) = false := by
    rw [List.any_eq_false]
    intro e he
    have := hfree e he
    simp only [Bool.and_eq_true, decide_eq_true_eq]
    omega
  refine .of_checked rfl hun (by simp [hmin, hmax, inRange_eq_true hcount hrange, hflags, hwin]) ?_
  rw [if_neg (ne_true_of_eq_false hnone)]
  exact ⟨rfl, rfl⟩

theorem exec_stwStatus_ok (hun : Unused d [(0, 9)]) (hclear : pl d 8 1 ≤ 1) :
    exec (.stwStatus d) s = .next (finish d stOk ((if pl d 8 1 = 1 then clearStw else id) (hostWrite (pl d 0 8) (stwRecord s) s))) := by
  refine (exec_of_checked rfl hun (by simp [hclear])).trans (congrArg Host.Outcome.next ?_)
  simp only [plBit_zero_eq hclear, decide_eq_true_eq]
  split <;> rfl

theorem exec_dspLimits_ok (hun : Unused d [(0, 6)]) :
    exec (.dspLimits d) s = .next (finish d stOk
      (settleAlive (setReg (setReg s aSvcLim (BitVec.ofNat 32 (pl d 0 4))) aHbMask (BitVec.ofNat 32 (pl d 4 2))))) :=
  exec_of_checked rfl hun rfl

/-- R365: the item of a user opcode moves to that opcode's flow. -/
theorem exec_userOpcode_held {op slot c : Nat} {i : Item} (hup : userUp s = true) (hslot : opSlot s d.tok = some (slot, i))
    (hst : i.st = .inService c) : exec (.userOpcode op d) s = .next (forwardItem c slot (3072 + (op - 0xB8)) i s) := by
  refine congrArg Host.Outcome.next ?_
  simp only [hup, hslot, hst, Bool.not_true, Bool.false_eq_true, if_false]

end

/-- Settles O42, one lemma for each command. -/
theorem stewardDescriptorsComplete : Obligations.StewardDescriptorsComplete := by
  refine ⟨?load, ?start, ?stop, ?halt, ?flow, ?status, ?limits, ?user⟩
  case load => exact fun d s b hun hmin hmax hb => exec_stwFwLoad_read hun hmin hmax hb
  case start => exact fun d s hun hboot hstaged hidle => exec_stwFwStart_ok hun hboot hstaged hidle
  case stop => exact fun d s hun hboot => exec_stwFwStop_ok hun hboot
  case halt => exact fun s j js u v hjobs hu hv => exec_fwStopHalt_job hjobs hu hv
  case flow =>
    exact fun d s hun hmin hmax hcount hrange hflags hwin hfree => exec_dspFlowCfg_ok hun hmin hmax hcount hrange hflags hwin hfree
  case status => exact fun d s hun hclear => exec_stwStatus_ok hun hclear
  case limits => exact fun d s hun => exec_dspLimits_ok hun
  case user => exact fun op d s slot i c hup hslot hst => exec_userOpcode_held hup hslot hst

/-! ## The dispatcher and its get-work interface (R351 to R357, R362, R363) -/

section
variable {s : State} {c slot : Nat} {i : Item}

/-- R351: a core that may hold another item, and finds one or waits for one, starts to wait. -/
theorem exec_getWork_waits (be : BitVec 4) (hidle : (core s c).waiting = none) (hheld : (heldItems s c).length < 4)
    (hwork : Word.bits (getReg s (aDsp c 0x40)) 23 0 ≠ 0 ∨ (pickItem s c s.stw.items).isSome = true) :
    exec (.getWork c be) s = .next (startWait c be s) := by
  have hwaits : ¬ (core s c).waiting.isSome = true := by simp [hidle]
  have hmay : ¬ (Word.bits (getReg s (aDsp c 0x40)) 23 0 = 0 ∧ (pickItem s c s.stw.items).isNone = true) := by
    rintro ⟨hzero, hnone⟩
    obtain hnz | hsome := hwork
    · exact hnz hzero
    · simp [Option.isNone_iff_eq_none.mp hnone] at hsome
  exact congrArg Host.Outcome.next ((if_neg hwaits).trans ((if_neg (Nat.not_le.mpr hheld)).trans (if_neg hmay)))

theorem exec_dspGrant_next (hnext : nextGrant s = some (c, slot, i)) : exec .dspGrant s = .next (grantTo c slot i s) := by
  refine congrArg Host.Outcome.next ?_
  rw [hnext]

theorem nullHandle_rdata (cause : Nat) : (nullHandle c cause s).rdata = [0] := rfl

theorem exec_getWorkTimeout_waiting (hwaits : (core s c).waiting.isSome = true)
    (hlimit : Word.bits (getReg s (aDsp c 0x40)) 23 0 ≠ 0xFFFFFF) :
    Completes (.getWorkTimeout c) s (fun t => t.rdata = [0] ∧ t = nullHandle c 1 s) := by
  refine ⟨nullHandle c 1 s, congrArg Host.Outcome.next (if_pos ⟨hwaits, hlimit⟩), nullHandle_rdata 1, rfl⟩

/-- R353: an item whose reservation expires is any core's. -/
theorem exec_affinityExpiry_item (hi : smFind s.stw.items slot = some i) :
    Completes (.affinityExpiry slot) s (fun t => smFind t.stw.items slot = some { i with resv := none } ∧
      ∀ k, k ≠ slot → smFind t.stw.items k = smFind s.stw.items k) := by
  refine ⟨putItem s slot { i with resv := none }, congrArg Host.Outcome.next ?_, ?_⟩
  · rw [hi]
  · dsimp only
    rw [putItem_items]
    exact ⟨smFind_put_self .., fun k hk => smFind_put_ne _ _ hk⟩

theorem exec_dspDone_held {v : Word} (hheld : heldAt s c (Word.bits v 25 13) = some i) (hv : v = handle (Word.bits v 25 13) i.flow) :
    exec (.dspDone c v) s = .next (freeSlotOf (Word.bits v 25 13) (rememberCore i.flow c s)) := by
  refine congrArg Host.Outcome.next ?_
  simp only [dspDone, hheld]
  exact if_pos hv

theorem exec_dspFwd_held {v : Word} (hheld : heldAt s c (Word.bits v 12 0) = some i) :
    exec (.dspFwd c v) s = .next (forwardItem c (Word.bits v 12 0) (Word.bits v 27 16) i s) := by
  refine congrArg Host.Outcome.next ?_
  simp only [dspFwd, hheld]

/-- R355: the item that a core has staged takes a free slot. -/
theorem exec_dspAdd_free (hmay : mayAdd s c (stagedItem s c).flow = true) (hkind : 0x10 ≤ (stagedItem s c).kind)
    (hslot : freeSlot s = some slot) : exec (.dspAdd c 1) s = .next (addResult c 0 (addAt slot (stagedItem s c) s)) := by
  refine congrArg Host.Outcome.next ?_
  simp only [dspAdd, ne_eq, not_true_eq_false, if_false, hmay, Bool.not_true, Bool.false_eq_true, Nat.not_lt.mpr hkind, hslot]

end

/-- Settles O45, one lemma for each command. That an added item takes the lowest free slot follows the manual by deduction (log entry 81), and
that DSP_FWD looks at no reserved bit is the model's choice (log entry 107). -/
theorem dispatcherCommandsComplete : Obligations.DispatcherCommandsComplete := by
  refine ⟨?getWork, ?grant, ?timeout, ?expiry, ?done, ?fwd, ?add, ?beat, ?lost, ?limit⟩
  case getWork => exact fun c be s hidle hheld hwork => exec_getWork_waits be hidle hheld hwork
  case grant => exact fun s c slot i hnext => exec_dspGrant_next hnext
  case timeout => exact fun c s hwaits hlimit => exec_getWorkTimeout_waiting hwaits hlimit
  case expiry => exact fun slot s i hi => exec_affinityExpiry_item hi
  case done => exact fun c v s i hheld hv => exec_dspDone_held hheld hv
  case fwd => exact fun c v s i hheld => exec_dspFwd_held hheld
  case add => exact fun c s slot hmay hkind hslot => exec_dspAdd_free hmay hkind hslot
  case beat =>
    rintro c s _ rfl
    rfl
  case lost => exact fun m s => rfl
  case limit => exact fun slot s i c hi hst hlong hlim => exec_svcLimit_long hi hst hlong hlim

/-! ## The reports of an operation's owner (R360) -/

section
variable {s u : State} {c : Nat} {cmd : Word} {o : Op} (hu : u = commitOutcomes s) (hlegal : cmdLegal cmd = true) (ho : ownedOp u c = some o)
include hu hlegal ho

theorem cplReport_commit (undo : Nat → State → State) (hcmd : Word.bits cmd 31 30 = 0) :
    cplReport undo c cmd s = cplAnswer c 0 (commitTok o.tok u) := by
  subst hu
  simp only [cplReport, hlegal, hcmd, reportCommit, ho, Bool.not_true, Bool.false_eq_true, if_false]

theorem cplReport_complete (undo : Nat → State → State) (hcmd : Word.bits cmd 31 30 = 1) :
    cplReport undo c cmd s = cplAnswer c 0 (tellAborts o.tok 0 false
      (endOp o (Word.bits cmd 23 16) (getReg u (aCpl c 4)).toNat (Word.bits cmd 15 0) false u)) := by
  subst hu
  simp only [cplReport, hlegal, hcmd, reportComplete, ho, Bool.not_true, Bool.false_eq_true, if_false]

/-- R361: an owner that was told of an abort withdraws, and what it has armed goes with it. -/
theorem cplReport_withdraw (undo : Nat → State → State) (hcmd : Word.bits cmd 31 30 = 2) (hnotice : o.notice = true) :
    cplReport undo c cmd s = undo o.tok (cplAnswer c 0 (tellAborts o.tok 1 false
      (endOp o (abortStatus o) (getReg u (aCpl c 4)).toNat 0 false u))) := by
  subst hu
  simp only [cplReport, hlegal, hcmd, reportWithdraw, ho, hnotice, Bool.not_true, Bool.false_eq_true, if_false, if_true]

end

theorem answerAll_hif (as : List AbortSess) (s : State) : (answerAll as s).hif = s.hif := (answerAll_only as s).same .hif (by decide)

/-- Telling the abort sessions changes no operation. -/
theorem tellAborts_ops (tok n : Nat) (unc : Bool) (s : State) : (tellAborts tok n unc s).hif.ops = s.hif.ops := by
  simp only [tellAborts, settleAborts, answerAll_hif]

/-- R360: of a started operation, the commit leaves it committed and takes its notice back. -/
theorem commitTok_commits {s : State} {tok : Nat} (hstarted : ∃ o ∈ s.hif.ops, o.tok = tok ∧ o.st = .started) {o : Op}
    (ho : o ∈ (commitTok tok s).hif.ops) (htok : o.tok = tok) : o.st = .committed ∧ o.notice = false := by
  have hany : s.hif.ops.any (fun o => decide (o.tok = tok) && decide (o.st = .started)) = true := by simpa using hstarted
  rw [commitTok, if_pos hany, tellAborts_ops, List.mem_map] at ho
  obtain ⟨p, -, rfl⟩ := ho
  split at htok
  next hp => rw [if_pos hp]; exact ⟨rfl, rfl⟩
  next hp => exact absurd htok hp

/-- Settles O46, one lemma for each report. That the reports of finished operations are taken first, as `commitOutcomes`, is the model's choice
(log entry 110). -/
theorem ownerReportsComplete : Obligations.OwnerReportsComplete := by
  refine ⟨?commit, ?complete, ?withdraw, ?committed⟩
  case commit => exact fun c cmd s u o hu hlegal hcmd ho => congrArg Host.Outcome.next (cplReport_commit hu hlegal ho withdrawTok hcmd)
  case complete => exact fun c cmd s u o hu hlegal hcmd ho => congrArg Host.Outcome.next (cplReport_complete hu hlegal ho withdrawTok hcmd)
  case withdraw =>
    exact fun c cmd s u o hu hlegal hcmd ho hnotice =>
      congrArg Host.Outcome.next (cplReport_withdraw hu hlegal ho withdrawTok hcmd hnotice)
  case committed => exact fun tok s hstarted o ho htok => commitTok_commits hstarted ho htok

/-! ## Interrupts (R372 to R377) -/

section
variable {s u : State} {t n : Nat} (hpick : pickTarget s (irqCandidates s) (rotation s) = some (t, n))
  (hu : u = noteEvrFull (irqCandidates s) s)
include hpick hu

theorem exec_irqDeliver_core (ht : t < 16) : exec .irqDeliver s = .next (deliverCore t n { u with irq := { u.irq with rot := t } }) := by
  subst hu
  refine congrArg Host.Outcome.next ?_
  simp only [hpick]
  exact if_pos ht

theorem exec_irqDeliver_host (ht : 16 ≤ t) : exec .irqDeliver s = .next (deliverHost t n { u with irq := { u.irq with rot := t } }) := by
  subst hu
  refine congrArg Host.Outcome.next ?_
  simp only [hpick]
  exact if_neg (Nat.not_lt.mpr ht)

end

section
variable {s : State} {n src : Nat}

/-- R373: a claim answers the source that waits at the core and puts it in service. -/
theorem exec_irqClaim_rung (be : BitVec 4) (hbell : smFind s.irq.bell n = some src) :
    Completes (.irqClaim n be) s (fun t => t.rdata = [BitVec.ofNat 32 (2 ^ 31 + src) &&& laneMask be] ∧
      t.irq.inSvc = s.irq.inSvc ++ [(src, n)] ∧ t.irq.bell = smDrop s.irq.bell n) := by
  refine ⟨_, rfl, ?_⟩
  rw [hbell]
  exact ⟨rfl, rfl, rfl⟩

theorem zero_and_laneMask (be : BitVec 4) : (0 : Word) &&& laneMask be = 0 := BitVec.zero_and

theorem exec_irqClaim_idle (be : BitVec 4) (hbell : smFind s.irq.bell n = none) :
    Completes (.irqClaim n be) s (fun t => t = { s with rdata := [0] }) := by
  refine ⟨narrow be { s with rdata := [0] }, congrArg Host.Outcome.next ?_, ?_⟩
  · rw [hbell]
  · rw [narrow_of_rdata (w := 0) rfl, zero_and_laneMask]

/-- A value below `2 ^ k` has no bit at `k` or above. -/
theorem and_mul_two_pow_eq_zero {x k : Nat} (hx : x < 2 ^ k) (c : Nat) : x &&& (c * 2 ^ k) = 0 := by
  refine Nat.eq_of_testBit_eq fun i => ?_
  rw [Nat.testBit_and, Nat.testBit_mul_two_pow, Nat.zero_testBit]
  obtain hlt | hle := lt_or_ge i k
  · simp [hlt.not_ge]
  · rw [Nat.testBit_lt_two_pow (hx.trans_le (Nat.pow_le_pow_right two_pos hle)), Bool.false_and]

theorem toNat_source (hsrc : src < 256) : (BitVec.ofNat 32 src).toNat = src := by
  rw [BitVec.toNat_ofNat, Nat.mod_eq_of_lt (by omega)]

theorem bits_source (hsrc : src < 256) : Word.bits (BitVec.ofNat 32 src) 7 0 = src := by
  rw [Word.bits, toNat_source hsrc, pow_zero, Nat.div_one]
  exact Nat.mod_eq_of_lt hsrc

theorem source_legal (hsrc : src < 256) : writeLegal [fld 7 0 .wo 0] (BitVec.ofNat 32 src) = true := by
  refine (writeLegal_iff _ _).mpr ⟨?_, ?_⟩
  · rw [toNat_source hsrc]
    exact and_mul_two_pow_eq_zero (k := 8) hsrc 0xFFFFFF
  · simp only [List.forall_mem_cons]
    exact ⟨fun _ => bits_mem_fld .., nofun⟩

theorem eoiOp_inService (hsrc : src < 256) (hsvc : (src, n) ∈ s.irq.inSvc) :
    eoiOp n (BitVec.ofNat 32 src) s = { s with irq := { s.irq with inSvc := s.irq.inSvc.erase (src, n) } } := by
  simp only [eoiOp, source_legal hsrc, bits_source hsrc, hsvc, Bool.not_true, Bool.false_eq_true, if_false, if_true]

/-- R377: an end for a source that the core does not serve counts, and is recorded once in a while. -/
theorem eoiOp_notInService (hsrc : src < 256) (hsvc : (src, n) ∉ s.irq.inSvc) :
    eoiOp n (BitVec.ofNat 32 src) s =
      ledgerLim 0x0201 2 0 1 (fun c => (n, src, c)) { s with irq := { s.irq with badEoi := bump 16 s.irq.badEoi 1 } } := by
  simp only [eoiOp, source_legal hsrc, bits_source hsrc, hsvc, Bool.not_true, Bool.false_eq_true, if_false]

theorem exec_irqEoi_notInService (hsrc : src < 256) (hsvc : (src, n) ∉ s.irq.inSvc) :
    Completes (.irqEoi n (BitVec.ofNat 32 src)) s (fun t => t.irq.inSvc = s.irq.inSvc ∧ t.irq.badEoi = bump 16 s.irq.badEoi 1) := by
  refine ⟨_, rfl, ?_⟩
  dsimp only
  rw [eoiOp_notInService hsrc hsvc, ledgerLim_irq]
  exact ⟨rfl, rfl⟩

/-- R375, R377: a write of a source's number sets or clears that source's mask bit. -/
theorem msetOp_source (hsrc : src < 256) (on : Bool) : msetOp (BitVec.ofNat 32 src) on s = setMask src on s := by
  rw [msetOp, if_pos (source_legal hsrc), bits_source hsrc]

/-- R377: sixteen software sources, one to a bit. -/
theorem software_legal {v : Word} (hv : v.toNat < 65536) (acc : Acc) : writeLegal [fld 15 0 acc 0] v = true := by
  have hmask : 2 ^ 32 - 1 - coverMask [fld 15 0 acc 0] = 0xFFFF * 2 ^ 16 := by simp [coverMask, fld]
  refine (writeLegal_iff _ _).mpr ⟨?_, ?_⟩
  · rw [hmask]
    exact and_mul_two_pow_eq_zero hv _
  simp only [List.forall_mem_cons]
  exact ⟨fun _ => bits_mem_fld .., nofun⟩

end

/-- Settles O50, one lemma for each command and outcome. -/
theorem interruptCommandsComplete : Obligations.InterruptCommandsComplete := by
  refine ⟨?toCore, ?toHost, ?claim, ?noClaim, ?eoi, ?badEoi, ?mset, ?mclr, ?swiSet, ?swiClear, ?stat⟩
  case toCore => exact fun s t n u hpick ht hu => exec_irqDeliver_core hpick hu ht
  case toHost => exact fun s t n u hpick ht hu => exec_irqDeliver_host hpick hu ht
  case claim => exact fun n be s src hbell => exec_irqClaim_rung be hbell
  case noClaim => exact fun n be s hbell => exec_irqClaim_idle be hbell
  case eoi => exact fun n src s hsrc hsvc => ⟨_, congrArg Host.Outcome.next (eoiOp_inService hsrc hsvc), rfl, rfl, rfl⟩
  case badEoi => exact fun n src s hsrc hsvc => exec_irqEoi_notInService hsrc hsvc
  case mset => exact fun src s hsrc => congrArg Host.Outcome.next (msetOp_source hsrc true)
  case mclr => exact fun src s hsrc => congrArg Host.Outcome.next (msetOp_source hsrc false)
  case swiSet => exact fun v s hv => congrArg Host.Outcome.next (if_pos (software_legal hv .w1s))
  case swiClear => exact fun v s hv => congrArg Host.Outcome.next (if_pos (software_legal hv .w1c))
  case stat => exact fun be s => ⟨_, rfl, rfl, rfl⟩

end Sys2Proof.Machine
end

section
/-! Descriptors of local audio: ports, mix buses, monitors, capture and the stimulus (R412 to R436). -/

namespace Sys2Proof.Machine

section
variable {d : Desc} {s : State}

/-! ## Serial ports, mixers and monitors (R412, R422 to R426, R436) -/

/-- R412: a port takes its configuration. Its members and its enable change only where nothing uses it, and its group's other ports carry as
many members. -/
theorem exec_sapCfg_ok (hun : Unused d [(0, 12)]) (hport : pl d 0 1 ≤ 15) (hflags : pl d 1 1 ≤ 15) (hword : pl d 2 1 ∈ [16, 24, 32])
    (hslot : pl d 3 1 ∈ [24, 32]) (hfits : pl d 2 1 ≤ pl d 3 1) (hm : pl d 4 1 ∈ [1, 2, 4])
    (hgroup : pl d 5 1 = 255 ∨ (pl d 5 1 ≤ 7 ∧ ∀ q < 16, q ≠ pl d 0 1 → (sapAt s q).group = pl d 5 1 →
      (sapAt s q).enabled = true → (sapAt s q).m = pl d 4 1))
    (hsrc0 : pl d 6 1 ≤ 3) (hsrc1 : pl d 7 1 ≤ 3)
    (hrender : pl d 4 1 = (if isDouble s.clk.rate then 2 else 1) ∨ (pl d 6 1 = 0 ∧ pl d 7 1 = 0))
    (hidx0 : sourceIdx (pl d 6 1) (pl d 8 2) = true) (hidx1 : sourceIdx (pl d 7 1) (pl d 10 2) = true)
    (hfree : ((sapAt s (pl d 0 1)).m = pl d 4 1 ∧ (sapAt s (pl d 0 1)).enabled = plBit d 1 0) ∨
      (portMapped s (pl d 0 1) = false ∧ portUsed s (pl d 0 1) = false)) :
    exec (.sapCfg d) s = .next (finish d stOk (setSap (pl d 0 1) { sapAt s (pl d 0 1) with
      enabled := plBit d 1 0, master := plBit d 1 1, lj := plBit d 1 2, dpxHiz := plBit d 1 3, word := pl d 2 1, slot := pl d 3 1,
      m := pl d 4 1, group := pl d 5 1, src0 := pl d 6 1, src1 := pl d 7 1, idx0 := pl d 8 2, idx1 := pl d 10 2,
      lost := false, last := none, dropIn := false, unaligned := false, whole := true, ins := [] } s)) := by
  have hmates : (decide (pl d 5 1 = 255) || (decide (pl d 5 1 ≤ 7) && ((List.range 16).filter (fun q => decide (q ≠ pl d 0 1) &&
      decide ((sapAt s q).group = pl d 5 1) && (sapAt s q).enabled)).all (fun q => decide ((sapAt s q).m = pl d 4 1)))) = true := by
    obtain hnone | ⟨hle, hmembers⟩ := hgroup
    · rw [hnone]; rfl
    · rw [decide_eq_true hle, Bool.true_and, List.all_eq_true.mpr, Bool.or_true]
      intro q hq
      simp only [List.mem_filter, List.mem_range, Bool.and_eq_true, decide_eq_true_eq] at hq ⊢
      obtain ⟨hlt, ⟨hother, hmate⟩, hon⟩ := hq
      exact hmembers q hlt hother hmate hon
  have hsources {k : Nat} (hk : pl d 6 1 = 0 ∧ pl d 7 1 = 0 → k = 0) :
      (decide (pl d 4 1 = if isDouble s.clk.rate then 2 else 1) || decide (k = 0)) = true := by
    rw [Bool.or_eq_true, decide_eq_true_eq, decide_eq_true_eq]
    exact hrender.imp_right hk
  have hallowed : ((decide ((sapAt s (pl d 0 1)).m ≠ pl d 4 1) || decide ((sapAt s (pl d 0 1)).enabled ≠ plBit d 1 0)) &&
      (portMapped s (pl d 0 1) || portUsed s (pl d 0 1))) = false := by
    obtain ⟨hsame, hon⟩ | ⟨hmapped, hused⟩ := hfree
    · simp [hsame, hon]
    · rw [hmapped, hused, Bool.or_false, Bool.and_false]
  refine (exec_of_checked rfl hun ?limits).trans (congrArg Host.Outcome.next (if_neg (ne_true_of_eq_false hallowed)))
  case limits =>
    simp only [List.all_cons, List.all_nil, hmates, hsources And.left, hsources And.right, decide_eq_true hport, decide_eq_true hflags,
      decide_eq_true hword, decide_eq_true hslot, decide_eq_true hfits, decide_eq_true hm, decide_eq_true hsrc0, decide_eq_true hsrc1,
      hidx0, hidx1, Bool.and_true]

/-- R424: a bus takes its gains; the inputs and the equaliser change where the flags load them. -/
theorem exec_mixBus_ok {i q : List Byte}
    (hun : Unused d ([(0, 8), (24, 1)] ++ (if plBit d 1 2 then [(8, 8)] else []) ++ (if plBit d 1 1 then [(16, 8)] else [])))
    (hbus : pl d 0 1 ≤ 7) (hflags : pl d 1 1 ≤ 31) (hmin : 1 ≤ pl d 2 2) (hmax : pl d 2 2 ≤ 1000) (hgain : pl d 4 4 ≤ 1073741824)
    (hmute : pl d 24 1 ≤ 1) (hi : (if plBit d 1 2 then hostBlock d 0 256 else some []) = some i)
    (hq : (if plBit d 1 1 then hostBlock d (if plBit d 1 2 then 1 else 0) 80 else some []) = some q)
    (hinputs : plBit d 1 2 = true → ∀ r ∈ chunks 8 32 i, mixOk s r = true) :
    exec (.mixBus d) s = .next (finish d stOk (setBus (pl d 0 1) (mixApply d i q (rampLen s (pl d 2 2)) (busAt s (pl d 0 1))) s)) := by
  have hgood : (plBit d 1 2 && !(chunks 8 32 i).all (mixOk s)) = false := by
    cases hload : plBit d 1 2 with
    | false => rfl
    | true => rw [Bool.true_and, List.all_eq_true.mpr (hinputs hload), Bool.not_true]
  refine (exec_of_checked rfl hun ?limits).trans (congrArg Host.Outcome.next ?accepted)
  case limits => simp [gainField, hbus, hflags, hmin, hmax, hgain, hmute]
  case accepted =>
    rw [hi, hq]
    exact if_neg (ne_true_of_eq_false hgood)

/-- R424, R425: an input takes its gain and its mute, and its bus is scaled anew. -/
theorem exec_mixInput_ok {x : Bus} {o : MixIn} (hun : Unused d [(0, 3), (4, 4)]) (hbus : pl d 0 1 ≤ 7) (hinput : pl d 1 1 ≤ 31)
    (hmute : pl d 2 1 ≤ 1) (hgain : pl d 4 4 ≤ 1073741824) (hx : x = busAt s (pl d 0 1)) (ho : o = x.ins.getD (pl d 1 1) {}) :
    exec (.mixInput d) s = .next (finish d stOk (setBus (pl d 0 1) (rescale (rampLen s x.rt) { x with
      ins := x.ins.set (pl d 1 1) (retarget (rampLen s x.rt) o { o with mute := decide (pl d 2 1 = 1), gain := pl d 4 4 }) }) s)) := by
  subst ho hx
  exact exec_of_checked rfl hun (by simp [gainField, hbus, hinput, hmute, hgain])

/-- R422: each of the 64 render taps names an object or an output in its low bits. -/
theorem exec_monTaps_ok {b : List Byte} (hun : Unused d [(0, 8)]) (hb : hostBlock d 0 128 = some b)
    (htaps : ∀ r ∈ chunks 2 64 b, leNat r % 32768 < 1024) :
    exec (.monTaps d) s = .next (finish d stOk (setLau s (fun l => { l with taps := (chunks 2 64 b).map leNat }))) := by
  have hgood : ((chunks 2 64 b).map leNat).any (fun t => decide (t % 32768 ≥ 1024)) = false := by
    simpa using htaps
  refine (exec_of_checked rfl hun rfl).trans (congrArg Host.Outcome.next ?_)
  rw [hb]
  exact if_neg (ne_true_of_eq_false hgood)

theorem exec_sidetone_ok (hun : Unused d [(0, 8)]) (hmon : pl d 0 1 ≤ 7) (hon : pl d 1 1 ≤ 1) (hport : pl d 2 1 ≤ 15) (hch : pl d 3 1 ≤ 1)
    (hgain : pl d 4 4 ≤ 1073741824) :
    exec (.sidetone d) s = .next (finish d stOk (setMon s (pl d 0 1) { monAt s (pl d 0 1) with
      stOn := plBit d 1 0, stPort := pl d 2 1, stCh := pl d 3 1, gst := (monAt s (pl d 0 1)).gst.goTo (pl d 4 4) 48 })) :=
  exec_of_checked rfl hun (by simp [gainField, hmon, hon, hport, hch, hgain])

theorem exec_lauStatus_ok (hun : Unused d [(0, 9)]) (hclear : pl d 8 1 ≤ 1) :
    exec (.lauStatus d) s = .next (finish d stOk ((if pl d 8 1 = 1 then lauClear else id) (hostWrite (pl d 0 8) (lauRecord s) s))) := by
  refine (exec_of_checked rfl hun (by simp [hclear])).trans (congrArg Host.Outcome.next ?_)
  simp only [plBit_zero_eq hclear, decide_eq_true_eq]
  split <;> rfl

/-! ## Capture and stimulus (R421, R432 to R434) -/

/-- R432: a capture takes its response, its shifts and its sources; the response and the shifts change only where none runs or is armed. -/
theorem exec_capCfg_ok (hun : Unused d [(0, 5), (8, 16)]) (hresp : pl d 0 1 ≤ 6) (hsh1 : pl d 1 1 ≤ 7) (hsh2 : pl d 2 1 ≤ 7)
    (hsh3 : pl d 3 1 ≤ 7)
    (hsources : ∀ c < 8, pl d (8 + 2 * c) 1 ≤ 15 ∧ pl d (9 + 2 * c) 1 ≤ 1 ∧
      (pl d 4 1 / 2 ^ c % 2 = 1 → (sapAt s (pl d (8 + 2 * c) 1)).m = 4))
    (hfree : capBusy s = false ∨
      (s.lau.cap.resp = pl d 0 1 ∧ s.lau.cap.sh1 = pl d 1 1 ∧ s.lau.cap.sh2 = pl d 2 1 ∧ s.lau.cap.sh3 = pl d 3 1)) :
    exec (.capCfg d) s = .next (finish d stOk (setLau s (fun l => { l with cap := { l.cap with
      resp := pl d 0 1, sh1 := pl d 1 1, sh2 := pl d 2 1, sh3 := pl d 3 1, mask := pl d 4 1, srcs := capSources d } }))) := by
  have hchannels : ((List.range 8).flatMap (fun c =>
      [(8 + 2 * c, decide (pl d (8 + 2 * c) 1 ≤ 15) && (!decide (pl d 4 1 / 2 ^ c % 2 = 1) || decide ((sapAt s (pl d (8 + 2 * c) 1)).m = 4))),
       (9 + 2 * c, decide (pl d (9 + 2 * c) 1 ≤ 1))])).all (fun l => l.2) = true := by
    rw [List.all_flatMap, List.all_eq_true]
    intro c hc
    obtain ⟨hport, hch, hm⟩ := hsources c (List.mem_range.mp hc)
    simpa [hport, hch] using or_iff_not_imp_left.mpr fun hon => hm (by omega)
  have hallowed : ((decide (s.lau.cap.resp ≠ pl d 0 1) || decide (s.lau.cap.sh1 ≠ pl d 1 1) || decide (s.lau.cap.sh2 ≠ pl d 2 1) ||
      decide (s.lau.cap.sh3 ≠ pl d 3 1)) && capBusy s) = false := by
    obtain hidle | ⟨h0, h1, h2, h3⟩ := hfree
    · rw [hidle, Bool.and_false]
    · simp [h0, h1, h2, h3]
  refine (exec_of_checked rfl hun ?limits).trans (congrArg Host.Outcome.next (if_neg (ne_true_of_eq_false hallowed)))
  case limits =>
    rw [List.all_append, hchannels]
    simp [hresp, hsh1, hsh2, hsh3]

/-- R432: the three filters of a capture take their taps. -/
theorem exec_capCoef_ok {b : List Byte} {n : Nat} (hun : Unused d [(0, 11)]) (hn : n = pl d 8 1 + pl d 9 1 + pl d 10 1)
    (hlimits : (3 ≤ pl d 8 1 ∧ pl d 8 1 ≤ 63 ∧ pl d 8 1 % 4 = 3) ∧ (3 ≤ pl d 9 1 ∧ pl d 9 1 ≤ 127 ∧ pl d 9 1 % 4 = 3) ∧
      1 ≤ pl d 10 1 ∧ pl d 10 1 ≤ 127)
    (hb : hostBlock d 0 (4 * n) = some b) (htaps : taps24 (tapsOf n b) = true) (hidle : capBusy s = false) :
    exec (.capCoef d) s = .next (finish d stOk (setLau s (fun l => { l with
      cap := { l.cap with l1 := pl d 8 1, l2 := pl d 9 1, l3 := pl d 10 1, taps := tapsOf n b } }))) := by
  subst hn
  obtain ⟨⟨h1, h1', h1''⟩, ⟨h2, h2', h2''⟩, h3, h3'⟩ := hlimits
  refine (exec_of_checked rfl hun (by simp [h1, h1', h1'', h2, h2', h2'', h3, h3'])).trans (congrArg Host.Outcome.next ?_)
  simp only [hb, htaps, hidle, Bool.not_true, Bool.false_eq_true, if_false]

/-- R434: a capture takes the buffer that it fills, in the DRAM only where there is one. -/
theorem exec_capDest_ok (hun : Unused d [(0, 10), (12, 12)]) (hspace : pl d 8 1 ≤ 2) (hcont : pl d 9 1 ≤ 1) (hmin : 1 ≤ pl d 12 4)
    (hmax : pl d 12 4 ≤ 16777216) (hdram : pl d 8 1 ≠ 1 ∨ s.drc.noDram = false) (hidle : capBusy s = false) :
    exec (.capDest d) s = .next (finish d stOk (setLau s (fun l => { l with
      cap := { l.cap with base := pl d 0 8, space := pl d 8 1, cont := plBit d 9 0, len := pl d 12 4, prog := pl d 16 8 } }))) := by
  have hallowed : ((decide (pl d 8 1 = 1) && s.drc.noDram) || capBusy s) = false := by
    obtain helse | hpresent := hdram
    · simp [helse, hidle]
    · simp [hpresent, hidle]
  exact (exec_of_checked rfl hun (by simp [hspace, hcont, hmin, hmax])).trans
    (congrArg Host.Outcome.next (if_neg (ne_true_of_eq_false hallowed)))

/-- R433: a start before H_(N-2) is armed where no capture runs. -/
theorem exec_capStart_arms {n : Nat} (hun : Unused d [(0, 9)]) (hmode : pl d 8 1 ≤ 1) (hn : n = keyN d (leastBefore s 2))
    (hopen : beforeH s ((n : Int) - 2) = true) (hidle : s.lau.cap.running = none) :
    exec (.capStart d) s = .next (armCapture n d.tok s) := by
  subst hn
  refine (exec_of_checked rfl hun (by simp [hmode])).trans (congrArg Host.Outcome.next ?_)
  simp only [captureArm, hopen, hidle, Option.isSome_none, Bool.not_true, Bool.false_eq_true, if_false]

theorem exec_capStop_ok (hun : Unused d []) : exec (.capStop d) s = .next (finish d stOk (captureStop s)) := exec_of_checked rfl hun rfl

/-- R421: the stimulus takes its samples while it does not run. -/
theorem exec_stimLoad_ok {b : List Byte} (hun : Unused d [(0, 12)]) (hmin : 1 ≤ pl d 8 4) (hmax : pl d 8 4 ≤ 65536)
    (hb : hostBlock d 0 (4 * pl d 8 4) = some b) (htaps : taps24 (tapsOf (pl d 8 4) b) = true) (hidle : s.lau.stim.running = none) :
    exec (.stimLoad d) s = .next (finish d stOk (setLau s (fun l => { l with stim := { l.stim with xs := tapsOf (pl d 8 4) b } }))) := by
  refine (exec_of_checked rfl hun (by simp [hmin, hmax])).trans (congrArg Host.Outcome.next ?_)
  simp only [hb, htaps, hidle, Option.isSome_none, Bool.not_true, Bool.false_eq_true, if_false]

/-- R421: bit 2 of the flags is clear in a start, and the start is armed before H_(N-2). -/
theorem exec_stimStart_arms {n : Nat} (hun : Unused d [(0, 9)]) (hflags : pl d 8 1 ≤ 3) (hn : n = keyN d (leastBefore s 2))
    (hopen : beforeH s ((n : Int) - 2) = true) : exec (.stimStart d) s = .next (armStimulus n d.tok (plBit d 8 1) s) := by
  subst hn
  have hstart : plBit d 8 2 = false := decide_eq_false (by omega)
  refine (exec_of_checked rfl hun (by simp; omega)).trans (congrArg Host.Outcome.next ?_)
  simp only [hstart, stimulusArm, hopen, Bool.false_eq_true, if_false, if_true]

/-- R421: bit 2 of the flags is set in a stop. -/
theorem exec_stimStop_ok (hun : Unused d [(0, 9)]) (hmin : 4 ≤ pl d 8 1) (hmax : pl d 8 1 ≤ 7) :
    exec (.stimStop d) s = .next (finish d stOk (stimulusStop s)) := by
  have hstop : plBit d 8 2 = true := decide_eq_true (by omega)
  exact (exec_of_checked rfl hun (by simp [hmax])).trans (congrArg Host.Outcome.next (if_pos hstop))

end

/-- Settles O38, one lemma for each command. -/
theorem audioPortDescriptorsComplete : Obligations.AudioPortDescriptorsComplete := by
  refine ⟨?port, ?bus, ?input, ?taps, ?sidetone, ?status⟩
  case port =>
    intro d s hun hport hflags hword hslot hfits hm hgroup hsrc0 hsrc1 hrender hidx0 hidx1 hfree
    exact exec_sapCfg_ok hun hport hflags hword hslot hfits hm hgroup hsrc0 hsrc1 hrender hidx0 hidx1 hfree
  case bus =>
    intro d s i q hun hbus hflags hmin hmax hgain hmute hi hq hinputs
    exact exec_mixBus_ok hun hbus hflags hmin hmax hgain hmute hi hq hinputs
  case input =>
    exact fun d s x o hun hbus hinput hmute hgain hx ho => exec_mixInput_ok hun hbus hinput hmute hgain hx ho
  case taps => exact fun d s b hun hb htaps => exec_monTaps_ok hun hb htaps
  case sidetone => exact fun d s hun hmon hon hport hch hgain => exec_sidetone_ok hun hmon hon hport hch hgain
  case status => exact fun d s hun hclear => exec_lauStatus_ok hun hclear

/-- Settles O39, one lemma for each command. -/
theorem captureDescriptorsComplete : Obligations.CaptureDescriptorsComplete := by
  refine ⟨?config, ?coef, ?dest, ?start, ?stop, ?stimLoad, ?stimStart, ?stimStop⟩
  case config =>
    exact fun d s hun hresp hsh1 hsh2 hsh3 hsources hfree => exec_capCfg_ok hun hresp hsh1 hsh2 hsh3 hsources hfree
  case coef =>
    intro d s b n hun hn h1 h1' h1'' h2 h2' h2'' h3 h3' hb htaps hidle
    exact exec_capCoef_ok hun hn ⟨⟨h1, h1', h1''⟩, ⟨h2, h2', h2''⟩, h3, h3'⟩ hb htaps hidle
  case dest => exact fun d s hun hspace hcont hmin hmax hdram hidle => exec_capDest_ok hun hspace hcont hmin hmax hdram hidle
  case start => exact fun d s n hun hmode hn hopen hidle => exec_capStart_arms hun hmode hn hopen hidle
  case stop => exact fun d s hun => exec_capStop_ok hun
  case stimLoad => exact fun d s b hun hmin hmax hb htaps hidle => exec_stimLoad_ok hun hmin hmax hb htaps hidle
  case stimStart => exact fun d s n hun hflags hn hopen => exec_stimStart_arms hun hflags hn hopen
  case stimStop => exact fun d s hun hmin hmax => exec_stimStop_ok hun hmin hmax

end Sys2Proof.Machine
end

section
/-! The duplex interlock and the ledger's descriptors (R440 to R454, R466 to R475). -/

namespace Sys2Proof.Machine

/-! ## The interlock's pins and timers (R440 to R448) -/

section
variable {s : State}

/-- R440: the peer's claim is noted where this unit has released the line. -/
theorem exec_peerAssert_released (hst : s.dpx.st = 0) :
    exec .peerAssert s = .next (setDpx s (fun d => { d with peerLow := true, peerRel := false, drove := true, holdOff := false })) := by
  refine congrArg Host.Outcome.next ((if_neg ?_).trans (if_neg ?_)) <;> omega

theorem exec_claimTimeout_primary (hst : s.dpx.st = 1) (hprimary : s.aon.primary = true) (hlow : s.dpx.peerLow = true) :
    exec .claimTimeout s = .next (strapConflict 1 (clearArm 2 s)) :=
  congrArg Host.Outcome.next (if_pos ⟨hst, hprimary, hlow⟩)

section
variable {tok : Nat} (hst : s.dpx.st = 2) (harmed : s.dpx.armedN = some (s.clk.tidx + 1, tok))
include hst harmed

/-- R447: at its tranche an armed release hands over to a peer that is ready. -/
theorem exec_commandedRelease_ready (hready : peerReady s = true) : exec .commandedRelease s = .next (stopDriving 3 s) := by
  refine congrArg Host.Outcome.next ((if_neg (not_not_intro hst)).trans ?_)
  simp only [harmed, ne_eq, not_true_eq_false, if_false, hready, if_true]

theorem exec_commandedRelease_unready (hready : peerReady s = false) :
    exec .commandedRelease s = .next (report tok stNotPermitted 0 0 (setDpx s (fun d => { d with armedN := none }))) := by
  refine congrArg Host.Outcome.next ((if_neg (not_not_intro hst)).trans ?_)
  simp only [harmed, ne_eq, not_true_eq_false, if_false, hready, Bool.false_eq_true]

end

/-- R445: the primary takes back from a driving peer, eight tranches ahead. -/
theorem exec_takebackHold_ok {f : DpxFrame} (hlink : xlinkUp s = true) (hen : s.dpx.takeback = true) (hprimary : s.aon.primary = true)
    (harm : dpxArm s = true) (hrun : s.sch.st = 2) (hclean : s.dpx.faultSinceArm = false) (hst : s.dpx.st = 0)
    (hpeer : s.dpx.peer = some f) (hdrives : f.state % 4 = 2) :
    exec .takebackHold s = .next (setDpx s (fun d => { d with takebackN := some (s.clk.tidx + 8) })) := by
  refine congrArg Host.Outcome.next (if_pos ?_)
  simp [hlink, hen, hprimary, harm, hrun, hclean, hst, hpeer, hdrives]

theorem exec_peerLowHeld_standby (hlow : s.dpx.peerLow = true) (hstandby : s.aon.primary = false) :
    exec .peerLowHeld s = .next (setDpx s (fun d => { d with yields := 0 })) := by
  refine congrArg Host.Outcome.next (if_pos ?_)
  rw [hlow, hstandby]
  rfl

/-- R440: DPX_CTL holds the arm bit alone. -/
theorem arm_legal {v : Word} (hv : v.toNat ≤ 1) : writeLegal [fld 0 0 .rw 1] v = true := by
  refine (writeLegal_iff _ _).mpr ⟨and_mul_two_pow_eq_zero (k := 1) (Nat.lt_succ_of_le hv) 0x7FFFFFFF, ?_⟩
  simp only [List.forall_mem_cons]
  exact ⟨fun _ => bits_mem_fld .., nofun⟩

theorem exec_armWrite_legal {v : Word} (hv : v.toNat ≤ 1) : exec (.armWrite v) s = .next (armOp (decide (v.toNat = 1)) s) := by
  have hbit : Word.bit v 0 = decide (v.toNat = 1) := by
    rw [Word.bit, pow_zero, Nat.div_one, Nat.mod_eq_of_lt (by omega)]
  refine congrArg Host.Outcome.next ((if_pos (arm_legal hv)).trans ?_)
  rw [hbit]

/-- R448: a strobe within the skew limit, wide where the tranche is one of 1,024, gives the skew. -/
theorem exec_dpxStrobeReceive_good {k : Int} {w : Bool} (hon : standbyOn s = true) (hskew : k.natAbs ≤ 10 * s.dpx.skewLim)
    (hw : w = decide ((if k < 0 then s.clk.tidx + 1 else s.clk.tidx) % 1024 = 0)) :
    exec (.dpxStrobeReceive k w) s =
      .next (setReg (setDpx s (fun d => { d with skew := k, missing := 0 })) aDpxSkew (BitVec.ofNat 32 (s32 k))) := by
  refine congrArg Host.Outcome.next ((if_neg ?on).trans ((if_neg ?skew).trans (if_neg ?width)))
  case on => rw [hon]; decide
  case skew => omega
  case width => rw [hw, bne_self_eq_false]; decide

end

/-- Settles O7, one lemma for each command and outcome; that a peer's claim ends the hold-off follows the manual by deduction (log entry 52). -/
theorem interlockCommandsComplete : Obligations.InterlockCommandsComplete := by
  refine ⟨?assert, ?claimed, ?released, ?timeout, ?release, ?noRelease, ?takeback, ?lowHeld, ?arm, ?strobe⟩
  case assert => exact fun s hst => ⟨_, exec_peerAssert_released hst, rfl, rfl, rfl⟩
  case claimed => exact fun s hst => congrArg Host.Outcome.next (if_pos hst)
  case released => exact fun s hst => congrArg Host.Outcome.next (if_neg hst)
  case timeout => exact fun s hst hprimary hlow => exec_claimTimeout_primary hst hprimary hlow
  case release => exact fun s tok hst harmed hready => exec_commandedRelease_ready hst harmed hready
  case noRelease => exact fun s tok hst harmed hready => ⟨_, exec_commandedRelease_unready hst harmed hready, rfl, rfl⟩
  case takeback =>
    exact fun s f hlink hen hprimary harm hrun hclean hst hpeer hdrives =>
      ⟨_, exec_takebackHold_ok hlink hen hprimary harm hrun hclean hst hpeer hdrives, rfl⟩
  case lowHeld => exact fun s hlow hstandby => ⟨_, exec_peerLowHeld_standby hlow hstandby, rfl⟩
  case arm => exact fun v s hv => exec_armWrite_legal hv
  case strobe => exact fun k w s hon hskew hw => exec_dpxStrobeReceive_good hon hskew hw

/-! ## The interlock's descriptors (R447, R449, R454) -/

section
variable {d : Desc} {s : State}

/-- R449: a configuration that enables or disables the interlock needs an idle schedule; what it does to the cross-link takes effect. -/
theorem exec_dpxCfg_ok {c : State} (hun : Unused d [(0, 1), (2, 7)]) (hflags : pl d 0 1 ≤ 7) (hhold : 1 ≤ pl d 2 2) (hhold' : pl d 2 2 ≤ 600)
    (hskew : 10 ≤ pl d 4 2) (hskew' : pl d 4 2 ≤ 1000) (hagree : 1 ≤ pl d 8 1) (hfree : plBit d 0 0 = s.dpx.en ∨ s.sch.st = 0)
    (hc : c = setDpx s (fun p => { p with
      en := plBit d 0 0, takeback := plBit d 0 1, hbFault := plBit d 0 2, tbHold := pl d 2 2, skewLim := pl d 4 2, pairAddr := pl d 6 2,
      agreeN := pl d 8 1 })) :
    exec (.dpxCfg d) s = .next (finish d stOk (if xlinkUp s = xlinkUp c then c else xlinkChange (xlinkUp c) c)) := by
  subst hc
  have hallowed : (plBit d 0 0 != s.dpx.en && decide (s.sch.st ≠ 0)) = false := by
    obtain hsame | hidle := hfree
    · rw [hsame, bne_self_eq_false, Bool.false_and]
    · simp [hidle]
  refine (exec_of_checked rfl hun ?limits).trans (congrArg Host.Outcome.next ((if_neg (ne_true_of_eq_false hallowed)).trans ?link))
  case limits => simp [hflags, hhold, hhold', hskew, hskew', hagree]
  case link => simp only [bne_iff_ne, ne_eq, ite_not]

/-- R447: a unit that does not drive has nothing to hand over. -/
theorem exec_dpxSwitch_standby (hun : Unused d [(0, 9)]) (hnow : pl d 8 1 ≤ 1) (hstandby : driving s = false) :
    exec (.dpxSwitch d) s = .next (finish d stOk s) := by
  refine (exec_of_checked rfl hun (by simp [hnow])).trans (congrArg Host.Outcome.next (if_pos ?_))
  rw [hstandby]
  rfl

/-- R447: a driving unit arms the handover to a peer that is ready. -/
theorem exec_dpxSwitch_arms {n : Nat} (hun : Unused d [(0, 9)]) (hnow : pl d 8 1 ≤ 1) (hdrives : driving s = true) (hlink : xlinkUp s = true)
    (hready : peerReady s = true) (hnone : s.dpx.armedN = none) (hn : n = (if plBit d 8 0 then nowN1 s else pl d 0 8))
    (hopen : beforeH s ((n : Int) - 1) = true) :
    exec (.dpxSwitch d) s = .next (setDpx s (fun p => { p with armedN := some (n, d.tok) })) := by
  subst hn
  refine (exec_of_checked rfl hun (by simp [hnow])).trans (congrArg Host.Outcome.next ?_)
  simp only [hdrives, hlink, hready, hnone, hopen, Option.isSome_none, Bool.not_true, Bool.or_false, Bool.false_eq_true, if_false]

theorem exec_dpxArm_ok (hun : Unused d [(0, 1)]) (harm : pl d 0 1 ≤ 1) :
    exec (.dpxArm d) s = .next (finish d stOk (armOp (decide (pl d 0 1 = 1)) s)) := by
  refine (exec_of_checked rfl hun (by simp [harm])).trans (congrArg Host.Outcome.next ?_)
  rw [plBit_zero_eq harm]

theorem exec_dpxStatus_ok (hun : Unused d [(0, 9)]) (hclear : pl d 8 1 ≤ 1) :
    Completes (.dpxStatus d) s (fun t => Reports d stOk 0 0 s t ∧ WritesHost (pl d 0 8) (dpxRecord s) s t ∧
      t.dpx = { s.dpx with cnt := if pl d 8 1 = 1 then [] else s.dpx.cnt }) := by
  refine .of_checked rfl hun (by simp [hclear]) ?_
  simp only [plBit_zero_eq hclear, decide_eq_true_eq]
  obtain ⟨hreports, hwrites⟩ := finish_hostWrite_reports_and_writes (d := d) (s := s) (pl d 0 8) (dpxRecord s)
  by_cases hset : pl d 8 1 = 1
  · simp only [if_pos hset]
    exact ⟨hreports, hwrites.congr rfl rfl, by simp [finish, report]⟩
  · simp only [if_neg hset]
    exact ⟨hreports, hwrites, by simp [finish, report]⟩

end

/-- Settles O40, one lemma for each command and outcome. -/
theorem interlockDescriptorsComplete : Obligations.InterlockDescriptorsComplete := by
  refine ⟨?config, ?standby, ?switch, ?arm, ?status⟩
  case config =>
    intro d s c hun hflags hhold hhold' hskew hskew' hagree hfree hc
    exact exec_dpxCfg_ok hun hflags hhold hhold' hskew hskew' hagree hfree hc
  case standby => exact fun d s hun hnow hstandby => exec_dpxSwitch_standby hun hnow hstandby
  case switch =>
    exact fun d s n hun hnow hdrives hlink hready hnone hn hopen =>
      ⟨_, exec_dpxSwitch_arms hun hnow hdrives hlink hready hnone hn hopen, rfl, rfl, rfl⟩
  case arm => exact fun d s hun harm => exec_dpxArm_ok hun harm
  case status => exact fun d s hun hclear => exec_dpxStatus_ok hun hclear

/-! ## The ledger's descriptors (R466 to R468, R475) -/

section
variable {d : Desc} {s : State}

section
variable (hready : ledgerReady s = true)
include hready

theorem exec_lgrRead_ok (hun : Unused d [(0, 16)]) (hfirst : pl d 8 4 < regionSlots) (hmin : 1 ≤ pl d 12 4) (hmax : pl d 12 4 ≤ regionSlots) :
    exec (.lgrRead d) s = .next (report d.tok stOk (pl d 12 4) 0 (hostWrite (pl d 0 8)
      ((List.range (pl d 12 4)).flatMap (fun i => slotBytes s.lgr ((pl d 8 4 + i) % regionSlots))) s)) :=
  (exec_of_checked rfl hun (by simp [hfirst, hmin, hmax])).trans (congrArg Host.Outcome.next (if_pos hready))

theorem exec_lgrInfo_ok (hun : Unused d [(0, 8)]) :
    exec (.lgrInfo d) s = .next (finish d stOk (hostWrite (pl d 0 8) (lgrInfoRecord s.lgr) s)) :=
  (exec_of_checked rfl hun rfl).trans (congrArg Host.Outcome.next (if_pos hready))

theorem exec_lgrAnnotate_ok (hun : Unused d [(0, 16)]) (hcode : 128 ≤ pl d 0 1) (hsev : pl d 1 1 ≤ 6) (hroom : s.lgr.queue.length < 64) :
    exec (.lgrAnnotate d) s = .next (report d.tok stOk s.lgr.seq 0
      (ledgerBy (0x1200 + pl d 0 1) (pl d 1 1) true (pl d 4 4) (pl d 8 4) (pl d 12 4) s)) := by
  refine (exec_of_checked rfl hun (by simp [hcode, hsev])).trans (congrArg Host.Outcome.next ?_)
  simp only [hready, Nat.not_le.mpr hroom, Bool.not_true, Bool.false_eq_true, if_false]

theorem exec_lgrNonce_ok (hun : Unused d []) : exec (.lgrNonce d) s = .next (report d.tok stOk s.lgr.nonce 0 s) :=
  (exec_of_checked rfl hun rfl).trans (congrArg Host.Outcome.next (if_pos hready))

/-- R467: with a key, the token that the nonce gives clears the ledger, and any other is recorded; either takes the nonce. -/
theorem exec_lgrClear_ok {g : Lgr} (hun : Unused d [(0, 8)]) (hg : g = saveCkpt { s.lgr with nonce := (s.lgr.nonce + 1) % 2 ^ 32 }) :
    exec (.lgrClear d) s = .next (if Config.ledgerKeyPresent = false then finish d stNotPermitted s
      else if d.payload.take 8 = clearToken s.lgr.nonce then { s with lgr := clearLedger d.tok g }
      else finish d stIntegrity (ledger 0x1202 4 s.lgr.nonce 0 0 (evRaise aLgrEvt 4 { s with lgr := g }))) := by
  subst hg
  refine (exec_of_checked rfl hun rfl).trans (congrArg Host.Outcome.next ?_)
  simp only [hready, Bool.not_true, Bool.false_or, Bool.not_eq_true']

end

/-- R475: a descriptor that writes a block to host memory and reports how many records it holds. -/
theorem report_hostWrite_reports_and_writes (a n : Nat) (bs : List Byte) (hn : n < 2 ^ 32) :
    Reports d stOk n 0 s (report d.tok stOk n 0 (hostWrite a bs s)) ∧ (report d.tok stOk n 0 (hostWrite a bs s)).lgr = s.lgr ∧
      WritesHost a bs s (report d.tok stOk n 0 (hostWrite a bs s)) :=
  ⟨by simpa [Reports, report] using hn, hostWrite_lgr a bs s, (hostWrite_writes a bs s).congr rfl rfl⟩

end

theorem storeAt_clearing_journal (rs : List LRec) (k : Nat) (g : Lgr) :
    (storeAt k rs g).clearing = g.clearing ∧ (storeAt k rs g).journal = g.journal := by
  induction rs generalizing k g with
  | nil => exact ⟨rfl, rfl⟩
  | cons r rs ih => exact ih (k + 1) _

/-- R468: at the end of a clear the records that waited are stored and the journal is empty. -/
theorem exec_lgrClearDone_ends {s : State} {tok : Nat} (hclearing : s.lgr.clearing = true) (htok : s.lgr.clearTok = some tok) :
    exec .lgrClearDone s = .next (report tok stOk 0 0 (evRaise aLgrEvt 3 { s with
      lgr := settleNext (storeAt s.lgr.next ((unplaced s.lgr).map JEnt.record)
        { s.lgr with journal := [], clearing := false, clearTok := none }) })) := by
  refine congrArg Host.Outcome.next ((if_pos hclearing).trans ?_)
  simp only [htok]

/-- Settles O41, one lemma for each command. -/
theorem ledgerDescriptorsComplete : Obligations.LedgerDescriptorsComplete := by
  refine ⟨?read, ?info, ?annotate, ?nonce, ?clear, ?clearDone⟩
  case read =>
    intro d s hun hfirst hmin hmax hready
    have hcount : pl d 12 4 < 2 ^ 32 := by rw [regionSlots] at hmax; omega
    exact ⟨_, exec_lgrRead_ok hready hun hfirst hmin hmax, report_hostWrite_reports_and_writes _ _ _ hcount⟩
  case info =>
    intro d s hun hready
    obtain ⟨hreports, hwrites⟩ := finish_hostWrite_reports_and_writes (d := d) (s := s) (pl d 0 8) (lgrInfoRecord s.lgr)
    exact ⟨_, exec_lgrInfo_ok hready hun, hreports, hostWrite_lgr .., hwrites⟩
  case annotate => exact fun d s hun hcode hsev hready hroom => exec_lgrAnnotate_ok hready hun hcode hsev hroom
  case nonce => exact fun d s hun hready => exec_lgrNonce_ok hready hun
  case clear => exact fun d s g hun hready hg => exec_lgrClear_ok hready hun hg
  case clearDone =>
    intro s tok hclearing htok
    exact ⟨_, exec_lgrClearDone_ends hclearing htok, rfl, storeAt_clearing_journal ..⟩

end Sys2Proof.Machine
end
